-- ==== Sys2Proof/Word.lean ====
section
/-!
DEFINITION. The two word types of the block: a register is 32 bits wide (R10), memory is addressed by bytes (R7).
-/
namespace Sys2Proof

/-- A register word (R10). -/
abbrev Word := BitVec 32

/-- A byte of any memory (R7). -/
abbrev Byte := BitVec 8

end Sys2Proof
end

