-- ==== Sys2Proof/Syntax.lean ====
section
/-!
DEFINITION. The commands of the block: one constructor for each row of the table of operations and events. A command
carries what comes from outside the block at that instant: the port and the value of a register access, a received
frame, a measured value, an error that the hardware meets, the outcome of an operation whose inputs the spec does not
give (log entry 1).
-/
namespace Sys2Proof

/-- A host port (R353). -/
abbrev Port := Fin 4
/-- A partition (R35). -/
abbrev PartIx := Fin 8
/-- A target of a job: logical cores 0 to 15, narrow-channel engines 16 and 17 (R228). -/
abbrev TargetIx := Fin 18
/-- A physical core. -/
abbrev CoreIx := Fin 16

/-- What the hardware meets while one step of a job runs: the bytes that host reads return, a host read that fails
(R157), memory errors on read (R137, R139, R151), in a pair also those of the upper core, a tower that leaves service
with the rows that were done before and the rows in flight then (R150), a residue-check failure of an engine (R398), a
mismatch of the pair comparator on a write that leaves the pair (R125), the output rows that a compute step has written
when a bank refuses an access (R156), the cycles that an attention engine is busy with it (R206). Log entry 1. -/
structure StepEnv where
  host : List Byte := []
  hostFail : Bool := false
  spCe : Nat := 0
  spUe : List Nat := []
  upperCe : Nat := 0
  upperUe : List Nat := []
  dramCe : List (Fin 4) := []
  dramUe : List Nat := []
  tower : Option (Fin 4) := none
  towerRow : Nat := 0
  towerRows : Nat := 0
  residue : Bool := false
  mismatch : Bool := false
  rowsDone : Nat := 0
  busy : Nat := 0
  deriving DecidableEq, Repr

/-- The bytes that one host read returns, or its failure (R157); the DRAM errors met where the read is one of DRAM
(R139). Log entry 1. -/
structure HostReply where
  data : List Byte := []
  fail : Bool := false
  dramCe : List (Fin 4) := []
  dramUe : List Nat := []
  deriving DecidableEq, Repr

/-- Why a port is reset (R358), or that its PERST_N goes high again (R480). -/
inductive PortResetKind where
  | perst
  | perstEnd
  | flr
  | hotReset
  | linkDown
  deriving DecidableEq, Repr

/-- What a scrub access meets (R138, R139). -/
inductive ScrubResult where
  | clean
  | corrected
  | uncorrected
  deriving DecidableEq, Repr

/-- A CAN frame as it stands on a bus: classic, FD or XL (R311). -/
structure CanFrame where
  ide : Bool
  id : Nat                 -- 11 or 29 bits; XL: 11-bit priority identifier
  kind : Nat               -- 0 classic, 1 FD, 2 XL
  brs : Bool
  esi : Bool
  rtr : Bool
  sdt : Nat                -- XL SDU type
  vcid : Nat
  af : Nat
  sec : Bool
  dlc : Nat                -- the DLC code of a classic or FD frame
  data : List Byte
  deriving DecidableEq, Repr

/-- The kinds of CAN error (R314, R322). -/
inductive CanErrKind where
  | transmitter            -- an error while this controller sends, TEC + 8
  | transmitterNoCount     -- the exceptions of ISO 11898-1 in which TEC is unchanged
  | receiver               -- an error while it receives, REC + 1
  | receiverDominant       -- the cases of ISO 11898-1 in which REC rises by 8
  deriving DecidableEq, Repr

/-- An instant of the time base: nanoseconds since its zero and the 16-bit fraction (R332). -/
structure Stamp where
  ns : Nat
  frac : Nat := 0
  deriving DecidableEq, Repr

/-- What a delay response brings (R340): the responder's receive stamp and, with peer delay, its send stamp; its correction in
2^-16 ns; the ingress of the response at the port's connector. -/
structure DelayReply where
  rx : Stamp
  tx : Stamp
  corr : Int
  ingress : Stamp
  deriving DecidableEq, Repr

/-- What a port writes to registers: one DWORD, and those that follow it in a longer request (R359). -/
structure RegWrite where
  port : Port
  off : Nat
  value : Word
  more : List Word := []
  deriving DecidableEq, Repr

/-- What the host has written to a port's configuration space (R355, R365): the power state D3hot, MSI-X enable and function
mask, the payload size in force: 128, 256 or 512 bytes. Log entry 16. -/
structure PciCfg where
  d3hot : Bool := false
  msixEnable : Bool := false
  msixMask : Bool := false
  payload : Fin 3 := 0
  deriving DecidableEq, Repr

/-- A port's link comes up (R239), and the host configures the port's function (R355). Log entry 16. -/
structure LinkRise where
  port : Port
  cfg : PciCfg
  deriving DecidableEq, Repr

/-- A transmit opportunity of a 10BASE-T1S port (R330): whether a frame sent by CSMA/CD meets a collision, the egress stamps of
the frames that leave. Log entry 1. -/
structure Opportunity where
  q : Fin 4
  collided : Bool := false
  stamps : List Stamp := []
  deriving DecidableEq, Repr

/-- A beacon of a 10BASE-T1S port, or the end of beacons (R331). Log entry 1. -/
structure BeaconEvent where
  q : Fin 4
  lost : Bool := false
  deriving DecidableEq, Repr

/-- How the authenticated transactions of a counter end (R410, R411): the response to the read, and to the write, is good.
Log entry 1. -/
structure CounterReply where
  readOk : Bool
  writeOk : Bool
  deriving DecidableEq, Repr

/-- Whether the package that each bank held when the module was made passes (R407). Log entry 69. -/
structure FactoryCheck where
  bank0 : Bool
  bank1 : Bool
  deriving DecidableEq, Repr

/-- A domain whose wake is complete (R430), and what the scrub pass of a core finds in its words (R138). Log entry 1. -/
structure Woken where
  dom : Fin 29
  found : List (Nat × ScrubResult) := []
  deriving DecidableEq, Repr

/-- A queue (R219). -/
abbrev QueueIx := Fin 65536
/-- An attention engine (ch. 7). -/
abbrev EngineIx := Fin 4
/-- A control channel (R282). -/
abbrev ChanIx := Fin 24
/-- A CAN controller (R311). -/
abbrev CanIx := Fin 8
/-- A power domain (R426). -/
abbrev DomIx := Fin 29
/-- A PTP port code: 0 to 3 Ethernet, 4 to 7 T1S (R339). -/
abbrev PtpIx := Fin 8
/-- A unit under test keys: cores 0 to 15, attention engines 16 to 19, narrow-channel engines 20 and 21 (R402). -/
abbrev UnitIx := Fin 22

/-- What one unit did for one job in a metering interval (R443, R444): the job's partition and number, the domain of the unit,
the nanoseconds of core-time, the counts of activity, and the nanoseconds its domain was on with its powered-down banks. Log
entry 1. -/
structure Activity where
  part : PartIx
  job : Nat
  dom : DomIx
  coreTime : Nat
  prod4 : Nat := 0
  prod8 : Nat := 0
  prod16 : Nat := 0
  lanes : Nat := 0
  spBytes : Nat := 0
  dramBytes : Nat := 0
  hostBytes : Nat := 0
  engineCycles : Nat := 0
  onTime : Nat := 0
  banksOff : Nat := 0
  deriving DecidableEq, Repr

/-- The sources of a supply or clock fault (R399, R400, R441). -/
inductive SupplyFault where
  | input
  | regulator
  deriving DecidableEq, Repr

/-- The outcome of one page of a swap (R210, R211): done with the bytes the host returned (empty for a swap-out), or a
window check or host failure is found by the machine itself; `fail` is a failed host access. -/
abbrev PageReply := HostReply

/-- A control channel's fault as the hardware meets it in one sample (R305 to R307): the self-check of a law unit reports an
error, or the channel comparator finds a difference that no self-check reports. Log entry 1. -/
inductive LawFault where
  | none
  | error (leader follower : Bool)
  | differ
  deriving DecidableEq, Repr

/-- What the link reports of a line of a camera frame (R252). The line's payload is given as the components of its pixels,
as CSI-2 packs them: one for each RAW pixel; R, G, B for RGB888; Y, Y, U, V for two pixels of YUV422. -/
inductive LineErr where
  | none
  | ecc
  | crc
  deriving DecidableEq, Repr

/-- The memory errors that a decoder meets as it reads reference pictures in the device's own DRAM (R139, R259). Log entry 1. -/
structure PoolErrors where
  dramCe : List (Fin 4) := []
  dramUe : List Nat := []
  deriving DecidableEq, Repr

/-- A wake-up pattern on a CAN bus (R326): the controller that sees it, and the levels of the straps at that instant, which a
wake-up of the parked module samples (R478). -/
structure CanWake where
  can : CanIx
  laneCfg : Fin 4
  cfgmSel : Fin 4
  deriving DecidableEq, Repr

/-- The commands of the block, in the order of the table of operations and events. Log entries 1, 11. -/
inductive Instr where
  -- the Ward loader (R51)
  | begin (port : Port)
  | chunk (port : Port)
  | chunkCopyDone
  | finish (port : Port)
  | abort (port : Port)
  | wardCmdUnknown (port : Port) (value : Word)
  | validationDone (counterOk : Bool)
  | switch (lawFails : List ChanIx)
  | holdRelease
  | antiRollbackAdvance (ok : Bool)
  -- host ports and registers (R353 to R373)
  | doorbell (port : Port) (off size : Nat) (value : BitVec 64)
  | bar2Read (port : Port) (off len : Nat)
  | bar4Read (port : Port) (off len : Nat)
  | bar4Write (port : Port) (off : Nat) (data : List Byte)
  | malformedAccess (port : Port) (off : Nat) (write : Bool)
  | reservedLocationAccess (port : Port) (bar : Fin 5) (off : Nat) (write : Bool)
  | registerWrite (w : RegWrite)
  | eventRegisterW1c (w : RegWrite)
  | latchGo (port : Port) (mask : Word)
  | latchApply (slot : Fin 32) (index : Nat)
  | snapshot (port : Port) (value : Word)
  | retrain (port : Port) (value : Word)
  | linkTrainingComplete (port : Port) (width speed : Nat)
  | portReset (port : Port) (kind : PortResetKind)
  | linkUp (link : LinkRise)
  | buserrLogClear (port : Port)
  | buserrCountClear (port : Port)
  | safeMemCounterClear (port : Port)
  | safeMemLogClear (port : Port)
  -- jobs and queues (ch. 8)
  | jobStart (part : PartIx) (desc : HostReply)
  | stepDelivery (part : PartIx) (step : HostReply)
  | sliceExpiry (part : PartIx)
  | jobSuspended (part : PartIx)
  | jobTimeout (part : PartIx)
  | jobComplete (part : PartIx)
  | queueReset (port : Port)
  | remap (part : PartIx)
  | parkSwitch (core : CoreIx) (lcore : Fin 16)
  -- steps of cores (ch. 4, 5)
  | matmul (part : PartIx) (target : TargetIx) (env : StepEnv)
  | vector (part : PartIx) (target : TargetIx) (env : StepEnv)
  | fft2d (part : PartIx) (target : TargetIx) (env : StepEnv)
  | catchPost (part : PartIx) (target : TargetIx) (mismatch : Bool)
  | catchWait (part : PartIx) (target : TargetIx)
  | catchSet (part : PartIx) (target : TargetIx) (mismatch : Bool)
  | resetBlock (part : PartIx) (target : TargetIx) (mismatch : Bool)
  | catchServe (block index : Fin 64)
  | catchWaitTimeout (part : PartIx) (target : TargetIx)
  | catchWaitAbandon (part : PartIx) (target : TargetIx)
  | stepEnd (part : PartIx) (target : TargetIx) (mismatch : Bool) (active dpu vec : Nat)
  | spFill (part : PartIx) (target : TargetIx) (env : StepEnv)
  | spCopy (part : PartIx) (target : TargetIx) (env : StepEnv)
  | dma (part : PartIx) (target : TargetIx) (env : StepEnv)
  | bankClose (part : PartIx) (target : TargetIx)
  | bankOpen (part : PartIx) (target : TargetIx)
  | bankOff (core : CoreIx) (bank : Fin 64)
  | bankOn (core : CoreIx) (bank : Fin 64)
  | tagCheck (part : PartIx) (target : TargetIx)
  | tagSet (part : PartIx) (target : TargetIx)
  | scrub (core : CoreIx) (word : Nat) (result : ScrubResult)
  -- steps of convolution, pooling and attention (ch. 6, 7)
  | conv (part : PartIx) (target : TargetIx) (env : StepEnv)
  | fconv (part : PartIx) (target : TargetIx) (env : StepEnv)
  | pool (part : PartIx) (target : TargetIx) (env : StepEnv)
  | nceConv (part : PartIx) (target : TargetIx) (env : StepEnv)
  | nceGranule (engine : Fin 2)
  | attn (part : PartIx) (target : TargetIx) (env : StepEnv)
  | kvAppend (part : PartIx) (target : TargetIx) (env : StepEnv)
  | kvMap (part : PartIx) (target : TargetIx) (env : StepEnv)
  | kvCtxOpen (part : PartIx) (target : TargetIx) (env : StepEnv)
  | kvCtxClose (part : PartIx) (target : TargetIx) (env : StepEnv)
  | kvCtxTruncate (part : PartIx) (target : TargetIx) (env : StepEnv)
  | kvCtxAccept (part : PartIx) (target : TargetIx) (env : StepEnv)
  | kvCtxFlush (part : PartIx) (target : TargetIx) (env : StepEnv)
  | kvCtxSetPrio (part : PartIx) (target : TargetIx) (env : StepEnv)
  | kvCtxPrefetch (part : PartIx) (target : TargetIx) (env : StepEnv)
  | swapOutPageDone (part : PartIx) (env : StepEnv)
  | swapInPageDone (part : PartIx) (env : StepEnv)
  -- control engine (ch. 10)
  | setpt (part : PartIx) (target : TargetIx) (env : StepEnv)
  | sample (ch : ChanIx) (fault : LawFault)
  | faultIdentificationDone (ch : ChanIx) (leaderFails followerFails : Bool)
  | sentFrame (port : Fin 16) (pulses : List Nat)
  | framePassesCrc (can : CanIx) (frame : CanFrame)
  -- CAN and 10BASE-T1S (ch. 11)
  | canFrameStored (can : CanIx) (frame : CanFrame) (sof : Stamp)
  | canFrameSent (can : CanIx) (sof : Stamp) (tdcv : Option (Fin 256))
  | arbitrationLost (can : CanIx)
  | canError (can : CanIx) (kind : CanErrKind) (lastErr : Fin 8) (tdc : Option (Fin 256))
  | transmitSelection (can : CanIx)
  | canObjReq (port : Port) (can : CanIx) (obj : Fin 128)
  | canObjAbort (port : Port) (can : CanIx) (obj : Fin 128)
  | canObjClear (port : Port) (can : CanIx) (obj : Fin 128)
  | canObjStatusRead (port : Port) (can : CanIx) (obj : Fin 128)
  | lastWordRead (port : Port) (can : CanIx) (obj : Fin 128)
  | lockTimeout (can : CanIx) (obj : Fin 128)
  | canInitSet (port : Port) (can : CanIx) (busy : Bool)
  | canInitClear (port : Port) (can : CanIx)
  | busIntegrationDone (can : CanIx)
  | busOffRecovery (can : CanIx)
  | transmitDominantTimeout (can : CanIx)
  | wakeUpPattern (can : CanWake)
  | referenceMessage (can : CanIx)
  | t1sFrameReceived (q : Fin 4) (frame : List Byte) (fcsOk : Bool)
  | transmitOpportunity (chance : Opportunity)
  | beacon (event : BeaconEvent)
  | pop (port : Port) (q : Fin 4) (value : Word)
  | t1sTxGo (port : Port) (q : Fin 4) (value : Word)
  -- Ethernet, time and PTP (ch. 12)
  | ethFrameReceived (e : Fin 4) (frame : List Byte) (fcsOk : Bool) (off : Fin 11)
  | ethTxTail (port : Port) (e : Fin 4) (value : Word)
  | ethFrameSent (e : Fin 4) (stamp : Stamp) (slot : HostReply)
  | ethLinkChange (e : Fin 4) (up master : Bool) (speed : Fin 5)
  | step (port : Port)
  | release (port : Port)
  | sync (q : PtpIx) (ingress : Stamp) (domain src : Nat) (origin : Stamp) (corr : Int) (twoStep : Bool)
  | followUp (q : PtpIx) (origin : Stamp) (corr : Int) (inTime : Bool)
  | delayExchange (q : PtpIx) (reply : Option DelayReply)
  | delayRequestReceived (q : PtpIx) (ingress : Stamp) (domain seq : Nat) (corr : Int)
  | announce (q : PtpIx)
  | syncTransmit (q : PtpIx) (origin : Stamp)
  | announceTransmit (q : PtpIx)
  | delayRequestTransmit (q : PtpIx)
  | syncLost
  | slewEnd
  | timeRateCheck (bad : Bool)
  | pulseLeadingEdge (g : Fin 8)
  | pulseTrailingEdge (g : Fin 8)
  -- ingest (ch. 9)
  | frameStart (cam : Fin 16) (vc frameNo : Nat) (off : Fin 4)
  | line (cam : Fin 16) (vc dt : Nat) (data : List Nat) (err : LineErr)
  | frameEnd (cam : Fin 16) (vc : Nat)
  | lineTmoExpiry (cam : Fin 16)
  | portFifoOverflow (cam : Fin 16)
  | cameraLinkLost (cam : Fin 16)
  | cciGo (port : Port) (cam : Fin 16) (value : Word)
  | cciDone (cam : Fin 16) (reply : Option Byte)
  | sampleComplete (stream : Fin 64)
  | windowClose (ring : PartIx)
  | batchComplete (ring : PartIx)
  | vdecStrTail (port : Port) (stream : Fin 64) (value : Word)
  | accessUnit (stream : Fin 64) (desc data : HostReply) (refs : PoolErrors)
  | endOfStream (stream : Fin 64) (desc : HostReply)
  | pictureDone (stream : Fin 64)
  | evict (port : Port)
  | clear (port : Port)
  | udpDatagram (scat : Fin 4) (payload : List Byte) (off : Fin 11)
  | sweepTmoExpiry (scat : Fin 4)
  | ingDepTail (port : Port) (ring : PartIx) (value : Word)
  | depotBatchBuild (ring : PartIx) (reply : HostReply)
  | missTmoExpiry (ring : PartIx)
  -- safety (ch. 14)
  | ageEvaluation
  | safeStateEntry
  | safeFrameRepeat
  | resume (port : Port) (value : Word)
  | enter (port : Port) (value : Word)
  | deadboltReadback (mismatch : Bool)
  | guardKick
  | guardTimeout
  | islandLockstepTrip
  | referenceOscillatorStop
  | intervalEnd
  | slotStart (unit : CoreIx)
  | granuleStart (unit : UnitIx)
  | granuleDone (unit : UnitIx) (mismatch : Bool)
  | granuleAbandon (unit : UnitIx)
  | pairIdentificationDone (pair : Fin 8) (evenFails oddFails : Bool)
  -- security (ch. 15)
  | attestationGo (port : Port) (value : Word)
  | attestationDone
  | mbBegin (port : Port)
  | mbChunk (port : Port)
  | mbChunkCopyDone
  | mbAbort (port : Port)
  | enrol (port : Port)
  | enrolComplete (counter : CounterReply)
  | fwUpdate (port : Port)
  | fwUpdateComplete (counterOk : Bool)
  | measurementGo (port : Port) (value : Word)
  -- start-up, key-off and power (ch. 16 to 18)
  | powerGood (laneCfg cfgmSel : Fin 4)
  | referenceOscillatorRunning
  | pufRecovery (ok : Bool)
  | firmwareBoot (counter : CounterReply) (factory : FactoryCheck)
  | lbistComplete (fails invalid : List DomIx)
  | memoryBistComplete (fails : List Nat)
  | ready
  | keyOff
  | keyOffLbistStart
  | keyOffLbistComplete (fails : List DomIx)
  | parked
  | wake (laneCfg cfgmSel : Fin 4)
  | supplyMonitorTrip (source : SupplyFault)
  | powerStageShutdown
  | governorEvaluation (power : Nat) (voltage : Nat) (temps : List Nat) (towers : List Nat)
  | demand (dom : DomIx)
  | wakeComplete (woken : Woken)
  | retainEntry (dom : DomIx)
  | offEntry (dom : DomIx)
  | pointStepDone (dom : DomIx)
  | droopDetect (core : CoreIx)
  | droopEnd (core : CoreIx) (cycles : Nat)
  | meteringInterval (energy : Nat) (selfCheckOk : Bool) (activity : List Activity)
  | selfRefreshEntry (tower : Fin 4)
  | selfRefreshExit (tower : Fin 4)
  | protocolException (can : CanIx)
  | cameraLinkLock (cam : Fin 16) (gear : Fin 5)
  | slotEnd (unit : CoreIx)
  | supplyMonitorClear (source : SupplyFault)
  | hostReadTimeout (part : PartIx) (target : TargetIx)
  deriving DecidableEq, Repr

end Sys2Proof
end

