-- ==== Sys2Proof/Decode.lean ====
section
/-!
DEFINITION. The command that a word spells by the table's bits. The table of operations and events gives no row any
bits: a command reaches the block as an access of a port, a frame, an edge or an instant, never as an encoded word. So no
word spells a command.
-/
namespace Sys2Proof

/-- No row of the table has bits, so no word spells a command. Log entry 83. -/
def decodeTableWord (_nbits _w : Nat) : Option Instr := none

end Sys2Proof
end

