-- ==== Sys2Proof/Machine/Bits.lean ====
section
/-!
DEFINITION. Fields of words, byte order, sign extension, and the sorted sparse lists that hold memories and
register files. Multi-byte values are little-endian (R7).
-/
namespace Sys2Proof.Machine

/-- Field of `w` bits of `v` whose lowest bit is `lo` (the notation of R7). -/
def field (v lo w : Nat) : Nat := v / 2 ^ lo % 2 ^ w

/-- Bit `i` of `v`. -/
def tbit (v i : Nat) : Bool := v / 2 ^ i % 2 == 1

/-- `v` with its field of `w` bits at `lo` replaced by `x`. -/
def putField (v lo w x : Nat) : Nat := v - field v lo w * 2 ^ lo + (x % 2 ^ w) * 2 ^ lo

/-- One when the condition holds, else zero. -/
def b2n (b : Bool) : Nat := if b then 1 else 0

/-- The word with one bit set where the condition holds. -/
def flagBit (i : Nat) (b : Bool) : Nat := if b then 2 ^ i else 0

/-- The bits of `a` that are not in `b`, on 32 bits. -/
def clearBits (a b : Nat) : Nat := a &&& (0xFFFFFFFF ^^^ (b % 2 ^ 32))

/-- The two's-complement reading of the low `w` bits of `v`. -/
def sgn (w v : Nat) : Int :=
  if v % 2 ^ w < 2 ^ (w - 1) then (v % 2 ^ w : Nat) else ((v % 2 ^ w : Nat) : Int) - (2 ^ w : Nat)

/-- The low `w` bits of an integer. -/
def unsgn (w : Nat) (z : Int) : Nat := (z % ((2 ^ w : Nat) : Int)).toNat

/-- Little-endian value of a list of bytes (R7). -/
def leNat : List Byte → Nat
  | [] => 0
  | b :: bs => b.toNat + 256 * leNat bs

/-- The `k` little-endian bytes of a value (R7). -/
def natLe : Nat → Nat → List Byte
  | 0, _ => []
  | k + 1, v => BitVec.ofNat 8 v :: natLe k (v / 256)

/-- Big-endian value of a list of bytes (network order). -/
def beNat (bs : List Byte) : Nat := bs.foldl (fun a b => a * 256 + b.toNat) 0

/-- The `k` big-endian bytes of a value. -/
def natBe (k v : Nat) : List Byte := (natLe k v).reverse

/-- Byte `i` of a list, zero beyond its end. -/
def byteAt (bs : List Byte) (i : Nat) : Byte := bs.getD i 0

/-- The little-endian field of `k` bytes at offset `o`. -/
def leAt (bs : List Byte) (o k : Nat) : Nat := leNat ((List.range k).map fun i => byteAt bs (o + i))

/-- The big-endian field of `k` bytes at offset `o`. -/
def beAt (bs : List Byte) (o k : Nat) : Nat := beNat ((List.range k).map fun i => byteAt bs (o + i))

/-- `k` bytes of a list from offset `o`, zero beyond its end. -/
def sliceAt (bs : List Byte) (o k : Nat) : List Byte := (List.range k).map fun i => byteAt bs (o + i)

/-- A register word from a number. -/
def toWord (n : Nat) : Word := BitVec.ofNat 32 n

/-- Number of one bits among the low `w` bits. -/
def popCount (w v : Nat) : Nat := ((List.range w).filter fun i => tbit v i).length

/-- The set bits among the low `w`, in ascending order. -/
def bitsOf (w v : Nat) : List Nat := (List.range w).filter fun i => tbit v i

/-- A mask holding the bits listed. -/
def maskOf (l : List Nat) : Nat := l.foldl (fun m i => m ||| 2 ^ i) 0

/-- Smallest power of two exponent `k ≤ fuel` with `v ≤ 2^k`. -/
def log2Ceil (fuel v : Nat) : Nat := ((List.range fuel).filter fun k => decide (2 ^ k < v)).length

/-- Ceiling division. -/
def cdiv (a b : Nat) : Nat := (a + b - 1) / b

/-- Rounding up to a multiple. -/
def roundUp (a m : Nat) : Nat := cdiv a m * m

/-- The value 2 to the 64, at which a counter pair wraps (R370). -/
def two64 : Nat := 18446744073709551616

/-! ### Sorted sparse lists -/

/-- The entry of a key. -/
def alGet {α : Type} : List (Nat × α) → Nat → Option α
  | [], _ => none
  | (k, v) :: t, a => if a = k then some v else alGet t a

/-- The list with the key's entry set, keys kept rising. -/
def alSet {α : Type} : List (Nat × α) → Nat → α → List (Nat × α)
  | [], a, x => [(a, x)]
  | (k, v) :: t, a, x =>
    if a = k then (a, x) :: t else if a < k then (a, x) :: (k, v) :: t else (k, v) :: alSet t a x

/-- The list without an entry of the key. -/
def alErase {α : Type} : List (Nat × α) → Nat → List (Nat × α)
  | [], _ => []
  | (k, v) :: t, a => if a = k then alErase t a else (k, v) :: alErase t a

/-- The keys rise strictly. -/
def alSorted {α : Type} : List (Nat × α) → Bool
  | [] => true
  | [_] => true
  | (k, _) :: (k', v') :: t => decide (k < k') && alSorted ((k', v') :: t)

/-- The list with the key's entry set, or removed where the value is the default. -/
def alPut {α : Type} [DecidableEq α] (d : α) (l : List (Nat × α)) (k : Nat) (v : α) : List (Nat × α) :=
  if v = d then alErase l k else alSet l k v

/-- A fixed-length list with one place replaced. -/
def lset {α : Type} (l : List α) (i : Nat) (x : α) : List α := l.set i x

/-- A fixed-length list with one place changed. -/
def lmod {α : Type} (l : List α) (i : Nat) (f : α → α) : List α :=
  match l[i]? with
  | some x => l.set i (f x)
  | none => l

end Sys2Proof.Machine
end

