-- ==== Sys2Proof/Machine/RegMap.lean ====
section
/-!
DEFINITION. The register map of BAR0 (R360): for every documented location its access code (R11), its reset value, the
bits it implements (R12), its latch group (R368), who may write it and what is stored for a value outside its range.
An offset without a row is a reserved location.
-/
namespace Sys2Proof.Machine

/-- The access codes of R11. -/
inductive AccKind where
  | rw
  | ro
  | wo
  | w1c
  | rwl
  deriving DecidableEq, Repr

/-- Which ports may write a register, by the rules of its block; the indices are those of the row's instance. -/
inductive WriteRule where
  | any              -- every port
  | master           -- the configuration master port (R57)
  | core             -- a port bound to the core's partition (R126)
  | queue            -- the port of the queue its QUEUE_SEL selects (R246)
  | part             -- a port with a queue bound to the partition (R247, R218, R445)
  | ingPort          -- the owner partitions of ingest instances (R250)
  | ingPipe
  | ingScat
  | ingStream
  | vdec
  | chan             -- a port that may write the control channel (R308)
  | safe             -- the master or a port bound to the SAFETY partition (R402)
  | window           -- the window's own port, bound to the partition (R364)
  deriving DecidableEq, Repr

/-- A row of the map. `dims` are the (count, stride) pairs of the instances, the largest stride first. Log entry 84. -/
structure Row where
  lo : Nat
  dims : List (Nat × Nat) := []
  acc : AccKind
  reset : List Nat → Nat := fun _ => 0
  mask : Nat := 0xFFFFFFFF
  fix : Nat → Nat := id
  group : Nat := 32            -- 32: no latch group
  rule : WriteRule := .any
  perPort : Bool := false
  counter : Bool := false

/-- Decomposition of a displacement into the indices of the dimensions. -/
def hitDims : List (Nat × Nat) → Nat → Option (List Nat)
  | [], d => if d = 0 then some [] else none
  | (n, st) :: t, d =>
    let i := d / st
    if i < n then (hitDims t (d % st)).map fun r => i :: r else none

/-- The indices of a row at an offset. -/
def Row.hit (r : Row) (off : Nat) : Option (List Nat) := if off < r.lo then none else hitDims r.dims (off - r.lo)

/-- A value kept when it lies in a range, else replaced (as "other values stored as"). -/
def inRange (lo hi dflt v : Nat) : Nat := if lo ≤ v ∧ v ≤ hi then v else dflt

/-- A field kept when it lies in a range, else replaced. -/
def fixField (pos w lo hi dflt v : Nat) : Nat := putField v pos w (inRange lo hi dflt (field v pos w))

/-- A counter pair (R370): its two words follow the instance dimensions. -/
def ctrRow (lo : Nat) (dims : List (Nat × Nat)) : Row :=
  { lo := lo, dims := dims ++ [(2, 4)], acc := .ro, counter := true }

/-- Rows of which a port may write one only by a rule of their block: any other write is a bus error, also one to an RO row
(R250, R308, R327, R331, R351, R352). Log entry 14. -/
def ruled (w : WriteRule) (rows : List Row) : List Row := rows.map fun r => { r with rule := w }

/-- The tensor-stage parameter set at a base (R256). -/
def tsRows (base : Nat) (dims : List (Nat × Nat)) (grp : Nat) (rule : WriteRule) : List Row :=
  let r (o mask rst : Nat) : Row :=
    { lo := base + o, dims := dims, acc := .rwl, mask := mask, reset := fun _ => rst, group := grp, rule := rule }
  let v (o n mask : Nat) (rst : Nat → Nat) : Row :=
    { lo := base + o, dims := dims ++ [(n, 4)], acc := .rwl, mask := mask, reset := fun l => rst (l.getLastD 0),
      group := grp, rule := rule }
  [ r 0x00 0xFF01030F 0x7F000101, r 0x04 0xFFFFFFFF 0, r 0x08 0xFFFFFFFF 0, r 0x0C 0xFFFFFFFF 0,
    r 0x10 0xFFFFFFFF 0, r 0x14 0xFFFFFFFF 0, r 0x18 1 0,
    v 0x20 9 0xFFFF (fun i => if i % 4 = 0 then 0x4000 else 0), v 0x44 3 0xFFFF (fun _ => 0),
    v 0x50 3 0xFFFFFFFF (fun _ => 0), v 0x5C 3 0xFFFFFFFF (fun _ => 0x3F800000), v 0x68 3 0xFFFFFFFF (fun _ => 0),
    v 0x74 3 0xFFFFFFFF (fun _ => 0) ]

/-- GLOBAL (R372). -/
def rowsGlobal : List Row :=
  [ { lo := 0x0, acc := .ro }, { lo := 0x4, acc := .ro }, { lo := 0x10, acc := .wo },
    { lo := 0x14, acc := .ro, perPort := true }, { lo := 0x20, acc := .wo }, { lo := 0x24, acc := .ro, perPort := true },
    { lo := 0x28, dims := [(3, 4)], acc := .ro, perPort := true },
    { lo := 0x40, acc := .w1c, mask := 1, perPort := true }, { lo := 0x44, acc := .rw, mask := 1, perPort := true },
    { lo := 0x50, dims := [(4, 4)], acc := .rw } ]

/-- WARD (R50). -/
def rowsWard : List Row :=
  let b := 0x100000
  [ { lo := b + 0x0, acc := .wo }, { lo := b + 0x4, acc := .rw }, { lo := b + 0x8, acc := .rw },
    { lo := b + 0xC, acc := .rw }, { lo := b + 0x10, acc := .ro }, { lo := b + 0x14, acc := .ro },
    { lo := b + 0x18, acc := .ro }, { lo := b + 0x1C, acc := .ro }, { lo := b + 0x20, acc := .ro },
    { lo := b + 0x24, acc := .ro },
    { lo := b + 0x28, acc := .rw, reset := fun _ => 50, fix := inRange 1 1000 50 },
    { lo := b + 0x2C, acc := .ro }, { lo := b + 0x30, acc := .w1c, mask := 7 }, { lo := b + 0x34, acc := .rw, mask := 7 },
    { lo := b + 0x40, dims := [(8, 4)], acc := .ro }, { lo := b + 0x60, dims := [(3, 4)], acc := .ro },
    { lo := b + 0x10000, dims := [(16384, 4)], acc := .wo } ]

/-- SAFE (R402, R161). -/
def rowsSafe : List Row :=
  let b := 0x200000
  [ { lo := b + 0x0, acc := .ro }, { lo := b + 0x4, acc := .wo, rule := .safe }, { lo := b + 0xC, acc := .ro },
    { lo := b + 0x10, dims := [(3, 4)], acc := .ro }, { lo := b + 0x20, acc := .w1c, mask := 0x1FF, rule := .safe },
    { lo := b + 0x24, acc := .rw, mask := 0x1FF, rule := .safe }, { lo := b + 0x28, acc := .ro },
    { lo := b + 0x30, acc := .ro }, { lo := b + 0x34, acc := .ro }, { lo := b + 0x38, acc := .ro },
    { lo := b + 0x80, dims := [(8, 4)], acc := .rwl, group := 15, rule := .safe },
    { lo := b + 0xA0, dims := [(8, 4)], acc := .ro },
    { lo := b + 0x10000, dims := [(22, 4)], acc := .ro }, { lo := b + 0x10080, acc := .ro },
    { lo := b + 0x20000, dims := [(256, 16)], acc := .rwl, mask := 0xC000FFFF,
      fix := fun v => if field v 30 2 = 3 then putField v 30 2 0 else v, group := 15, rule := .safe },
    { lo := b + 0x20004, dims := [(256, 16)], acc := .ro }, { lo := b + 0x20008, dims := [(256, 16)], acc := .ro },
    { lo := b + 0x2000C, dims := [(256, 16)], acc := .ro },
    { lo := b + 0x30000, acc := .ro }, { lo := b + 0x30100, dims := [(64, 16), (4, 4)], acc := .ro },
    { lo := b + 0x40000, dims := [(16, 4)], acc := .ro }, { lo := b + 0x40040, dims := [(16, 4)], acc := .ro },
    { lo := b + 0x40080, dims := [(4, 4)], acc := .ro }, { lo := b + 0x40090, dims := [(4, 4)], acc := .ro },
    { lo := b + 0x400A0, acc := .ro }, { lo := b + 0x400A4, acc := .ro }, { lo := b + 0x400A8, acc := .ro },
    { lo := b + 0x400AC, dims := [(3, 4)], acc := .ro }, { lo := b + 0x400C0, acc := .wo } ]

/-- SEC (R424). -/
def rowsSec : List Row :=
  let b := 0x300000
  [ { lo := b + 0x0, acc := .ro }, { lo := b + 0x4, acc := .w1c, mask := 0x1F, perPort := true },
    { lo := b + 0x8, acc := .rw, mask := 0x1F, perPort := true }, { lo := b + 0x10, dims := [(2, 4)], acc := .ro },
    { lo := b + 0x20, dims := [(4, 4)], acc := .ro }, { lo := b + 0x30, acc := .ro }, { lo := b + 0x34, acc := .ro },
    { lo := b + 0x40, dims := [(16, 4)], acc := .ro }, { lo := b + 0x80, acc := .ro },
    { lo := b + 0x100, dims := [(8, 4)], acc := .rw, perPort := true },
    { lo := b + 0x120, acc := .wo, perPort := true }, { lo := b + 0x124, acc := .ro, perPort := true },
    { lo := b + 0x200, acc := .wo, rule := .master }, { lo := b + 0x204, acc := .rw, rule := .master },
    { lo := b + 0x208, acc := .rw, rule := .master }, { lo := b + 0x20C, acc := .rw, rule := .master },
    { lo := b + 0x210, acc := .ro, rule := .master }, { lo := b + 0x300, dims := [(8, 4)], acc := .rw, perPort := true },
    { lo := b + 0x320, acc := .wo }, { lo := b + 0x400, dims := [(8, 0x20), (8, 4)], acc := .ro },
    { lo := b + 0x500, dims := [(8, 4)], acc := .ro },
    { lo := b + 0x10000, dims := [(16384, 4)], acc := .wo, rule := .master },
    { lo := b + 0x20000, dims := [(512, 4)], acc := .ro }, { lo := b + 0x30000, dims := [(176, 4)], acc := .ro, perPort := true } ]

/-- PWR (R445, R159). -/
def rowsPwr : List Row :=
  let b := 0x400000
  [ { lo := b + 0x0, acc := .ro, reset := fun _ => 0x77760 }, { lo := b + 0x4, acc := .w1c, mask := 0x3F, rule := .master },
    { lo := b + 0x8, acc := .rw, mask := 0x3F, rule := .master },
    { lo := b + 0x10, acc := .rwl, reset := fun _ => 450, mask := 0x1FF, fix := inRange 150 450 450, group := 14,
      rule := .master },
    { lo := b + 0x14, acc := .ro },
    { lo := b + 0x20, acc := .rwl, reset := fun _ => 105, mask := 0xFF, fix := inRange 85 115 105, group := 14,
      rule := .master },
    { lo := b + 0x24, acc := .ro },
    { lo := b + 0x30, acc := .rwl, reset := fun _ => 0x320000, fix := fixField 16 16 1 65535 50, group := 14,
      rule := .master },
    { lo := b + 0x40, dims := [(29, 4)], acc := .ro },
    { lo := b + 0x100, dims := [(8, 4)], acc := .rwl, reset := fun _ => 6, mask := 7, group := 14, rule := .part },
    { lo := b + 0x120, acc := .rwl, mask := 0xFF, group := 14, rule := .master },
    ctrRow (b + 0x10000) [], ctrRow (b + 0x10008) [], ctrRow (b + 0x10040) [(8, 8)], ctrRow (b + 0x10100) [(16, 8)],
    ctrRow (b + 0x10200) [(29, 8)], { lo := b + 0x20000, dims := [(40, 4)], acc := .ro },
    { lo := b + 0x80000, acc := .rw, reset := fun _ => 0x10014, mask := 0x1FFFF, fix := fixField 0 16 1 10000 20 },
    { lo := b + 0x80010, dims := [(4, 4)], acc := .ro }, ctrRow (b + 0x80020) [(4, 8)], ctrRow (b + 0x80040) [(4, 8)],
    { lo := b + 0x80100, dims := [(16, 16), (2, 4)], acc := .ro }, { lo := b + 0x80108, dims := [(16, 16), (2, 4)], acc := .ro } ]

/-- TIME (R351). -/
def rowsTime : List Row :=
  let b := 0x500000
  let q := b + 0x10000
  let g := b + 0x20000
  let qd := [(8, 0x100)]
  let gd := [(8, 0x40)]
  ruled .master
  [ { lo := b + 0x0, dims := [(4, 4)], acc := .ro, counter := true }, { lo := b + 0x10, acc := .ro },
    { lo := b + 0x14, acc := .wo }, { lo := b + 0x18, acc := .rw },
    { lo := b + 0x1C, acc := .rw },
    { lo := b + 0x20, acc := .rw, reset := fun _ => 0x40000000 },
    { lo := b + 0x24, acc := .rwl, reset := fun _ => 1000000, fix := inRange 1000 1000000000 1000000, group := 11 },
    { lo := b + 0x28, acc := .rwl, reset := fun _ => 0x1F4, mask := 0x8007FFFF, fix := fixField 0 16 125 60000 500,
      group := 11 },
    { lo := b + 0x2C, acc := .ro }, { lo := b + 0x30, acc := .w1c, mask := 0x1FF },
    { lo := b + 0x34, acc := .rw, mask := 0x1FF }, { lo := b + 0x38, acc := .ro },
    { lo := b + 0x3C, acc := .rwl, reset := fun _ => 1000, group := 11 },
    { lo := b + 0x40, dims := [(3, 4)], acc := .ro },
    { lo := b + 0x50, dims := [(2, 4)], acc := .rwl, group := 11 },
    ctrRow (b + 0x60) [], ctrRow (b + 0x68) [],
    { lo := q, dims := qd, acc := .rwl, mask := 0xC30700FF, group := 11 },
    { lo := q + 4, dims := qd, acc := .rwl, reset := fun _ => 0xFD00, mask := 0xFFFF, group := 11 },
    { lo := q + 8, dims := qd, acc := .rwl, group := 11 },
    { lo := q + 0xC, dims := qd, acc := .ro, reset := fun _ => 0xFFFFFFFF },
    { lo := q + 0x10, dims := qd ++ [(2, 4)], acc := .ro }, ctrRow (q + 0x20) qd, ctrRow (q + 0x28) qd,
    ctrRow (q + 0x30) qd,
    { lo := g, dims := gd, acc := .rwl, mask := 0xE000FFFF, group := 11 },
    { lo := g + 4, dims := gd ++ [(3, 4)], acc := .rwl, group := 11 },
    { lo := g + 0x10, dims := gd, acc := .rwl, group := 11 },
    { lo := g + 0x14, dims := gd, acc := .rwl, reset := fun _ => 8, group := 11 },
    { lo := g + 0x18, dims := gd, acc := .rwl, group := 11 }, ctrRow (g + 0x20) gd, ctrRow (g + 0x28) gd ]

/-- PCI (R373, R364, R365). -/
def rowsPci : List Row :=
  let b := 0x600000
  [ { lo := b + 0x0, acc := .ro, perPort := true }, { lo := b + 0x4, acc := .ro, perPort := true },
    { lo := b + 0x8, acc := .rwl, reset := fun _ => 5, mask := 7, fix := inRange 3 5 5, group := 0, perPort := true },
    { lo := b + 0xC, acc := .wo, perPort := true }, { lo := b + 0x10, acc := .w1c, mask := 3, perPort := true },
    { lo := b + 0x14, acc := .rw, mask := 3, perPort := true }, { lo := b + 0x18, acc := .ro, perPort := true },
    { lo := b + 0x20, acc := .ro, perPort := true }, { lo := b + 0x24, acc := .ro, perPort := true },
    { lo := b + 0x28, acc := .ro, perPort := true }, { lo := b + 0x2C, dims := [(3, 4)], acc := .ro, perPort := true },
    { lo := b + 0x38, acc := .ro, perPort := true }, { lo := b + 0x3C, acc := .wo, perPort := true },
    { lo := b + 0x80, dims := [(32, 4)], acc := .rw, mask := 0x7FF, perPort := true },
    { lo := b + 0x100, dims := [(16, 8)], acc := .rwl, mask := 0xC0070000, group := 0, perPort := true },
    { lo := b + 0x104, dims := [(16, 8)], acc := .rwl, mask := 0xFFFF, group := 0, perPort := true },
    { lo := b + 0x10000, dims := [(8, 0x1000), (256, 0x10)], acc := .rwl, mask := 0xE0000000, group := 1, rule := .window },
    { lo := b + 0x10004, dims := [(8, 0x1000), (256, 0x10)], acc := .rwl, mask := 0xFFFFF000, group := 1, rule := .window },
    { lo := b + 0x10008, dims := [(8, 0x1000), (256, 0x10)], acc := .rwl, group := 1, rule := .window },
    { lo := b + 0x1000C, dims := [(8, 0x1000), (256, 0x10)], acc := .rwl, group := 1, rule := .window },
    { lo := b + 0x40000, dims := [(2048, 16)], acc := .rw, mask := 0xFFFFFFFC, perPort := true },
    { lo := b + 0x40004, dims := [(2048, 16)], acc := .rw, perPort := true },
    { lo := b + 0x40008, dims := [(2048, 16)], acc := .rw, perPort := true },
    { lo := b + 0x4000C, dims := [(2048, 16)], acc := .rw, mask := 1, reset := fun _ => 1, perPort := true },
    { lo := b + 0x48000, dims := [(64, 4)], acc := .ro, perPort := true } ]

/-- QUEUE (R246, R247). -/
def rowsQueue : List Row :=
  let b := 0x700000
  let p := b + 0x1000
  let pd := [(8, 0x40)]
  [ { lo := b + 0x0, acc := .rw, mask := 0xFFFF, perPort := true },
    { lo := b + 0x4, acc := .rwl, reset := fun _ => 0x4000000, mask := 0x8F0077FF, fix := fixField 24 4 4 15 4, group := 8,
      rule := .queue },
    { lo := b + 0x8, acc := .rwl, mask := 0xFFFFF000, group := 8, rule := .queue },
    { lo := b + 0xC, acc := .rwl, mask := 0xFFFFFF, group := 8, rule := .queue },
    { lo := b + 0x10, acc := .rwl, mask := 0xFFFFF000, group := 8, rule := .queue },
    { lo := b + 0x14, acc := .rwl, mask := 0xFFFFFF, group := 8, rule := .queue },
    { lo := b + 0x18, acc := .ro, rule := .queue }, { lo := b + 0x1C, acc := .ro, reset := fun _ => 0xF0000, rule := .queue },
    { lo := b + 0x20, acc := .wo, rule := .queue }, { lo := b + 0x24, acc := .w1c, mask := 7, rule := .queue },
    { lo := p, dims := pd, acc := .ro, rule := .part },
    { lo := p + 4, dims := pd ++ [(2, 4)], acc := .ro, reset := fun _ => 0xFFFFFFFF, rule := .part },
    { lo := p + 0xC, dims := pd, acc := .ro, rule := .part },
    { ctrRow (p + 0x10) pd with rule := .part }, { ctrRow (p + 0x18) pd with rule := .part },
    { lo := p + 0x20, dims := pd, acc := .w1c, mask := 7, rule := .part },
    { lo := p + 0x24, dims := pd, acc := .rw, mask := 7, rule := .part } ]

/-- ING (R280). -/
def rowsIng : List Row :=
  let b := 0x800000
  let pd := [(16, 0x1000)]
  let i := b + 0x10000
  let id' := [(16, 0x2000)]
  let c := b + 0x40000
  let cd := [(4, 0x1000)]
  let s := b + 0x50000
  let sd := [(64, 0x100)]
  let r := b + 0x60000
  let rd := [(8, 0x100)]
  let d := b + 0x70000
  [ { lo := b, dims := pd, acc := .rwl, reset := fun _ => 0x640000, mask := 0xFFFFF03F, fix := fixField 16 15 1 32767 100,
      group := 4, rule := .ingPort },
    { lo := b + 4, dims := pd, acc := .rwl, mask := 0x3FFF3FFF, group := 4, rule := .ingPort },
    { lo := b + 8, dims := pd, acc := .rwl, group := 4, rule := .ingPort }, { lo := b + 0xC, dims := pd, acc := .ro, rule := .ingPort },
    { lo := b + 0x10, dims := pd, acc := .w1c, mask := 7, rule := .ingPort },
    { lo := b + 0x14, dims := pd, acc := .rw, mask := 7, rule := .ingPort },
    { lo := b + 0x18, dims := pd, acc := .rw, mask := 0xE07FFFFF, rule := .ingPort },
    { lo := b + 0x1C, dims := pd, acc := .rw, mask := 0xFF, rule := .ingPort },
    { ctrRow (b + 0x20) (pd ++ [(4, 8)]) with rule := .ingPort },
    { lo := i, dims := id', acc := .rwl, mask := 7, group := 4, rule := .ingPipe },
    { lo := i + 4, dims := id' ++ [(4, 4)], acc := .rwl, mask := 0xFFFFF, group := 4, rule := .ingPipe },
    { lo := i + 0x14, dims := id' ++ [(3, 4)], acc := .rwl, reset := fun _ => 0x1000, mask := 0xFFFF, group := 4,
      rule := .ingPipe },
    { lo := i + 0x20, dims := id', acc := .ro, rule := .ingPipe }, { ctrRow (i + 0x28) id' with rule := .ingPipe },
    { lo := i + 0x800, dims := id' ++ [(1025, 4)], acc := .rwl, reset := fun l => min (l.getLastD 0 * 64) 0xFFFF,
      mask := 0xFFFF, group := 4, rule := .ingPipe } ] ++
  tsRows (i + 0x100) id' 4 .ingPipe ++
  [ { lo := c, dims := cd, acc := .rwl, mask := 0x800F0FFF, group := 6, rule := .ingScat },
    { lo := c + 4, dims := cd ++ [(4, 4)], acc := .rwl, mask := 0xFFFF, group := 6, rule := .ingScat },
    { lo := c + 0x14, dims := cd, acc := .rwl, group := 6, rule := .ingScat },
    { lo := c + 0x18, dims := cd, acc := .rwl, group := 6, rule := .ingScat },
    { lo := c + 0x1C, dims := cd, acc := .rwl, group := 6, rule := .ingScat },
    { lo := c + 0x20, dims := cd, acc := .rwl, reset := fun _ => 65536, group := 6, rule := .ingScat },
    { lo := c + 0x40, dims := cd ++ [(8, 4)], acc := .rwl, mask := 0xC007FFFF, group := 6, rule := .ingScat },
    { lo := c + 0x60, dims := cd ++ [(8, 4)], acc := .rwl, reset := fun _ => 0x3F800000, group := 6, rule := .ingScat },
    { lo := c + 0x80, dims := cd ++ [(8, 4)], acc := .rwl, group := 6, rule := .ingScat },
    { lo := c + 0xA0, dims := cd, acc := .ro, rule := .ingScat }, { ctrRow (c + 0xA8) (cd ++ [(2, 8)]) with rule := .ingScat },
    { lo := s, dims := sd, acc := .rwl, group := 5, rule := .ingStream },
    { lo := s + 4, dims := sd, acc := .rwl, group := 5, rule := .ingStream },
    { lo := s + 8, dims := sd, acc := .ro, rule := .ingStream }, { ctrRow (s + 0x10) (sd ++ [(6, 8)]) with rule := .ingStream },
    { lo := r, dims := rd, acc := .rwl, reset := fun _ => 0x101, mask := 0xC0003F3F, group := 5, rule := .part },
    { lo := r + 4, dims := rd, acc := .rwl, mask := 0xFFFFF000, group := 5, rule := .part },
    { lo := r + 8, dims := rd, acc := .rwl, group := 5, rule := .part },
    { lo := r + 0xC, dims := rd, acc := .rwl, group := 5, rule := .part },
    { lo := r + 0x10, dims := rd ++ [(3, 4)], acc := .rwl, group := 5, rule := .part },
    { lo := r + 0x1C, dims := rd, acc := .rwl, group := 5, rule := .part },
    { lo := r + 0x20, dims := rd, acc := .rwl, group := 5, rule := .part }, { lo := r + 0x24, dims := rd, acc := .ro, rule := .part },
    { lo := r + 0x28, dims := rd, acc := .w1c, mask := 7, rule := .part },
    { lo := r + 0x2C, dims := rd, acc := .rw, mask := 7, rule := .part }, { ctrRow (r + 0x30) (rd ++ [(3, 8)]) with rule := .part },
    { lo := d, dims := rd ++ [(2, 4)], acc := .rwl, group := 5, rule := .part },
    { lo := d + 8, dims := rd, acc := .rwl, reset := fun _ => 0x40001, mask := 0xF007F, group := 5, rule := .part },
    { lo := d + 0xC, dims := rd, acc := .rw, mask := 0xFFFF, rule := .part }, { lo := d + 0x10, dims := rd, acc := .ro, rule := .part },
    { lo := d + 0x14, dims := rd ++ [(2, 4)], acc := .rwl, group := 5, rule := .part },
    { lo := d + 0x1C, dims := rd, acc := .rwl, reset := fun _ => 100, group := 5, rule := .part } ] ++
  tsRows (d + 0x80) rd 5 .part

/-- VDEC (R281). -/
def rowsVdec : List Row :=
  let b := 0x900000
  let sd := [(64, 0x1000)]
  [ { lo := b, dims := sd, acc := .rwl, reset := fun _ => 0x40F0000, mask := 0x8F0F0307, fix := fixField 24 4 4 15 4,
      group := 7, rule := .vdec },
    { lo := b + 4, dims := sd, acc := .rwl, mask := 0x3FFF3FFF, group := 7, rule := .vdec },
    { lo := b + 8, dims := sd ++ [(2, 4)], acc := .rwl, group := 7, rule := .vdec },
    { lo := b + 0x10, dims := sd, acc := .rw, mask := 0xFFFF, rule := .vdec }, { lo := b + 0x14, dims := sd ++ [(3, 4)], acc := .ro, rule := .vdec },
    { lo := b + 0x20, dims := sd, acc := .w1c, mask := 7, rule := .vdec },
    { lo := b + 0x24, dims := sd, acc := .rw, mask := 7, rule := .vdec }, { ctrRow (b + 0x28) (sd ++ [(2, 8)]) with rule := .vdec } ] ++
  tsRows (b + 0x100) sd 7 .vdec ++
  [ { lo := b + 0x80000, acc := .wo, rule := .master }, { lo := b + 0x80004, dims := [(2, 4)], acc := .rw },
    { lo := b + 0x8000C, acc := .ro }, { lo := b + 0x80010, acc := .ro }, { lo := b + 0x80014, acc := .ro } ]

/-- NCE (R185). -/
def rowsNce : List Row :=
  let b := 0xA00000
  let d := [(2, 0x100)]
  [ { lo := b, dims := d, acc := .ro }, { lo := b + 4, dims := d, acc := .w1c, mask := 15 },
    { lo := b + 8, dims := d, acc := .rw, mask := 15 }, { lo := b + 0xC, dims := d, acc := .ro },
    ctrRow (b + 0x10) (d ++ [(3, 8)]), { lo := b + 0x200, dims := [(2, 4)], acc := .ro, reset := fun _ => 0xFFFFFFFF },
    { lo := b + 0x300, acc := .rw, reset := fun _ => 100, mask := 0x3FFF, fix := inRange 1 10000 100, rule := .master } ]

/-- ATTN (R217, R218). -/
def rowsAttn : List Row :=
  let b := 0xB00000
  let d := [(4, 0x40000)]
  let p := 0xB30000
  let pd := [(8, 0x40)]
  [ { lo := b, dims := d, acc := .ro }, { lo := b + 4, dims := d, acc := .w1c, mask := 7 },
    { lo := b + 8, dims := d, acc := .rw, mask := 7 }, { lo := b + 0xC, dims := d, acc := .ro },
    ctrRow (b + 0x10) (d ++ [(5, 8)]),
    { lo := p, dims := pd, acc := .rwl, mask := 0x800000FF, group := 12, rule := .part },
    { lo := p + 4, dims := pd, acc := .rwl, mask := 0xFFFFF000, group := 12, rule := .part },
    { lo := p + 8, dims := pd, acc := .rwl, mask := 0xFFFF, group := 12, rule := .part },
    { lo := p + 0xC, dims := pd, acc := .rwl, group := 12, rule := .part },
    { lo := p + 0x10, dims := pd, acc := .rw, rule := .part }, { lo := p + 0x14, dims := pd, acc := .ro, rule := .part },
    { lo := p + 0x18, dims := pd, acc := .ro, rule := .part },
    { lo := p + 0x1C, dims := pd, acc := .rw, mask := 0xFFF3FFF, rule := .part },
    { lo := p + 0x20, dims := pd ++ [(3, 4)], acc := .ro, rule := .part },
    { lo := p + 0x2C, dims := pd, acc := .w1c, mask := 7, rule := .part },
    { lo := p + 0x30, dims := pd, acc := .rw, mask := 7, rule := .part },
    { lo := p + 0x34, dims := pd, acc := .ro, rule := .part } ]

/-- CTL (R309). -/
def rowsCtl : List Row :=
  let b := 0xC00000
  let c := b + 0x10000
  let cd := [(24, 0x1000)]
  let rwl3 (o mask : Nat) (extra : List (Nat × Nat)) : Row :=
    { lo := c + o, dims := cd ++ extra, acc := .rwl, mask := mask, group := 3, rule := .chan }
  let bank := cd ++ [(2, 0x600)]
  let bk (o n mask : Nat) : Row :=
    { lo := c + 0x400 + o, dims := bank ++ [(n, 4)], acc := .rw, mask := mask, rule := .chan }
  [ { lo := b, acc := .ro }, ctrRow (b + 0x10) [], { lo := b + 0x100, dims := [(24, 0x20), (7, 4)], acc := .ro },
    { lo := b + 0x800, dims := [(16, 0x20)], acc := .rwl, mask := 0xF700FFFF, group := 3, rule := .master },
    { ctrRow (b + 0x808) [(16, 0x20), (2, 8)] with rule := .master },
    { lo := b + 0xC00, dims := [(8, 0x20), (8, 4)], acc := .rwl, mask := 0xC000FFFF, group := 3, rule := .master },
    rwl3 0 0xC0FFFFFF [], { lo := c + 4, dims := cd, acc := .rwl, mask := 1, group := 2, rule := .chan },
    { lo := c + 8, dims := cd, acc := .ro, rule := .chan }, { lo := c + 0xC, dims := cd, acc := .w1c, mask := 0xFF, rule := .chan },
    { lo := c + 0x10, dims := cd, acc := .rw, mask := 0xFF, rule := .chan },
    rwl3 0x14 0xFF0F7F [], rwl3 0x18 0xFFFFFFFF [], rwl3 0x1C 0xFFFFFFFF [],
    { ctrRow (c + 0x20) (cd ++ [(4, 8)]) with rule := .chan },
    rwl3 0x40 0xFFFFFFFF [(16, 8)], rwl3 0x44 0xC0073F1F [(16, 8)], rwl3 0xC0 0xFFC0007F [(8, 4)],
    { lo := c + 0xE0, dims := cd ++ [(3, 4)], acc := .ro, rule := .chan },
    { lo := c + 0x100, dims := cd ++ [(32, 4)], acc := .rw, rule := .chan },
    { lo := c + 0x180, dims := cd ++ [(8, 4)], acc := .ro, rule := .chan }, rwl3 0x200 0xFFFFFFFF [(32, 4)],
    bk 0 128 0xFFFFFFFF, bk 0x200 128 0xFFFFFFFF, bk 0x400 32 0xFFFFFFFF, bk 0x480 32 0xFFFFFFFF, bk 0x500 1 1 ]

/-- CAN (R327). -/
def rowsCan : List Row :=
  let b := 0xD00000
  let d := [(8, 0x20000)]
  let o := b + 0x10000
  let od := d ++ [(128, 0x80)]
  let t (off mask : Nat) : Row := { lo := b + off, dims := d, acc := .rwl, mask := mask, group := 9, rule := .master }
  [ { lo := b, dims := d, acc := .rwl, reset := fun _ => 0x8640001, mask := 0xFFFF0001,
      fix := fixField 16 10 1 1000 100, group := 9, rule := .master },
    t 4 0x7F01FF, t 8 0x7F7F7F, t 0xC 0xFF1F1F1F, t 0x10 0xFF1F1F1F, t 0x14 0xFFFF, t 0x18 0x3F3F3F,
    t 0x1C 0xFFFFFFFF, { lo := b + 0x20, dims := d, acc := .ro },
    { lo := b + 0x24, dims := d, acc := .w1c, mask := 0x1FFF }, { lo := b + 0x28, dims := d, acc := .rw, mask := 0x1FFF },
    { lo := b + 0x2C, dims := d, acc := .ro }, t 0x30 0xDFFFFFFF,
    { lo := b + 0x34, dims := d, acc := .rwl, reset := fun _ => 100000, group := 9, rule := .master },
    { lo := b + 0x38, dims := d, acc := .rw, mask := 0xC0000000, rule := .master }, ctrRow (b + 0x40) (d ++ [(5, 8)]),
    { lo := b + 0x80, dims := d ++ [(4, 4)], acc := .w1c },
    { lo := o, dims := od, acc := .rwl, mask := 0xFF70E000, group := 9, rule := .master },
    { lo := o + 4, dims := od, acc := .rwl, mask := 0x9FFFFFFF, group := 9, rule := .master },
    { lo := o + 8, dims := od, acc := .rwl, mask := 0x9FFFFFFF, group := 9, rule := .master },
    { lo := o + 0xC, dims := od, acc := .rw, mask := 0xFFFF8000, rule := .master },
    { lo := o + 0x10, dims := od, acc := .rw, rule := .master }, { lo := o + 0x14, dims := od, acc := .ro, rule := .master },
    { lo := o + 0x18, dims := od, acc := .wo, rule := .master }, { lo := o + 0x1C, dims := od ++ [(3, 4)], acc := .ro, rule := .master },
    { lo := o + 0x28, dims := od, acc := .rw, mask := 0x3FF, rule := .master }, { lo := o + 0x2C, dims := od, acc := .ro, rule := .master },
    { lo := o + 0x40, dims := od ++ [(16, 4)], acc := .rw, rule := .master } ]

/-- ETH and T1S (R352, R331). -/
def rowsEth : List Row :=
  let b := 0xE00000
  let d := [(4, 0x10000)]
  let t := 0xE80000
  let l (o mask rst : Nat) : Row :=
    { lo := b + o, dims := d, acc := .rwl, mask := mask, reset := fun _ => rst, group := 13 }
  let m (o mask rst : Nat) : Row :=
    { lo := t + o, dims := d, acc := .rwl, mask := mask, reset := fun _ => rst, group := 10 }
  ruled .master
  [ { l 0 0xFF1FF700 0x401F4000 with fix := fixField 12 4 4 12 4 }, { lo := b + 4, dims := d, acc := .ro },
    l 8 0xFFFFFFFF 0, l 0xC 0xFFFF 0, { lo := b + 0x10, dims := d, acc := .w1c, mask := 15 },
    { lo := b + 0x14, dims := d, acc := .rw, mask := 15 }, l 0x18 0xFFFFFFFF 0, l 0x1C 0xFFFFFFFF 0,
    { lo := b + 0x20, dims := d, acc := .rw, mask := 0xFFFF }, { lo := b + 0x24, dims := d, acc := .ro },
    l 0x28 0xFFFFFFFF 0, l 0x2C 0xFFFFFFFF 0,
    { lo := b + 0x30, dims := d, acc := .rw, mask := 0xFFFF }, { lo := b + 0x34, dims := d, acc := .ro },
    ctrRow (b + 0x40) (d ++ [(6, 8)]),
    m 0 0xE0000000 0, m 4 0xFFFFFFFF 0xFF002000, m 8 0xFF 128, m 0xC 0xFFFFFFFF 0, m 0x10 0xFFFF 0,
    { lo := t + 0x14, dims := d, acc := .ro }, { lo := t + 0x18, dims := d, acc := .w1c, mask := 7 },
    { lo := t + 0x1C, dims := d, acc := .rw, mask := 7 }, { lo := t + 0x20, dims := d, acc := .ro },
    { lo := t + 0x24, dims := d, acc := .wo }, { lo := t + 0x28, dims := d, acc := .wo },
    { lo := t + 0x2C, dims := d, acc := .ro }, ctrRow (t + 0x40) (d ++ [(4, 8)]),
    { lo := t + 0x800, dims := d ++ [(384, 4)], acc := .ro },
    { lo := t + 0x1000, dims := d ++ [(384, 4)], acc := .rw } ]

/-- CORE (R126). -/
def rowsCore : List Row :=
  let b := 0x1000000
  let d := [(16, 0x100000)]
  [ { lo := b, dims := d, acc := .ro, rule := .core }, { lo := b + 4, dims := d, acc := .ro, rule := .core },
    { lo := b + 8, dims := d, acc := .rwl, reset := fun _ => 0x640001, mask := 0x3FFF0001, fix := fixField 16 14 1 10000 100,
      group := 16, rule := .core },
    { lo := b + 0xC, dims := d, acc := .w1c, mask := 0x1F, rule := .core },
    { lo := b + 0x10, dims := d, acc := .rw, mask := 0x1F, rule := .core },
    { lo := b + 0x14, dims := d, acc := .ro, rule := .core }, { ctrRow (b + 0x20) (d ++ [(4, 8)]) with rule := .core } ]

/-- The rows of the block at a 1 MiB slot of BAR0 (R360). -/
def rowsOfSlot (slot : Nat) : List Row :=
  match slot with
  | 0 => rowsGlobal
  | 1 => rowsWard
  | 2 => rowsSafe
  | 3 => rowsSec
  | 4 => rowsPwr
  | 5 => rowsTime
  | 6 => rowsPci
  | 7 => rowsQueue
  | 8 => rowsIng
  | 9 => rowsVdec
  | 10 => rowsNce
  | 11 => rowsAttn
  | 12 => rowsCtl
  | 13 => rowsCan
  | 14 => rowsEth
  | 15 => []
  | n => if n < 32 then rowsCore else []

/-- The first row of a list that holds an offset, with its indices. -/
def findRow : List Row → Nat → Option (Row × List Nat)
  | [], _ => none
  | r :: t, off =>
    match r.hit off with
    | some ix => some (r, ix)
    | none => findRow t off

/-- The row and the indices of an aligned BAR0 offset; none is a reserved location (R12, R361). -/
def rowAt (off : Nat) : Option (Row × List Nat) := findRow (rowsOfSlot (off / 0x100000)) off

/-! ### Keys of the register store -/

/-- A port's own copy of a register. -/
def portKey (port off : Nat) : Nat := (port + 1) * 2 ^ 26 + off

/-- A register of one queue (R246), `off` relative to the QUEUE block. -/
def queueKey (q off : Nat) : Nat := 2 ^ 30 + q * 64 + off

/-- The BAR0 offset that a key belongs to. -/
def keyOff (k : Nat) : Nat := if 2 ^ 30 ≤ k then 0x700000 + (k - 2 ^ 30) % 64 else k % 2 ^ 26

/-- The reset value of a key. -/
def resetOf (k : Nat) : Nat :=
  match rowAt (keyOff k) with
  | some (r, ix) => r.reset ix
  | none => 0

/-- The row of a key. -/
def rowOfKey (k : Nat) : Option Row := (rowAt (keyOff k)).map (·.1)

/-- The latch group of a key (R368): that of core n is 16 + n. -/
def groupOf (k : Nat) : Nat :=
  match rowAt (keyOff k) with
  | some (r, ix) => if r.group = 16 then 16 + ix.headD 0 else r.group
  | none => 32

end Sys2Proof.Machine
end

