-- ==== Sys2Proof/Config.lean ====
section
/-!
DEFINITION. What an implementation fixes and the free values (log entry 2). Every constant here is opaque: nothing in
Lean can evaluate it, so a statement about it holds for every value. A free value is applied to a counter that the
state reads and advances, or to the operands it depends on.
-/
namespace Sys2Proof

/-- A sequence header as a decoder parses it (R258, R259): every tool is supported, the declared width, height and buffer
size, 10 bits rather than 8, monochrome rather than 4:2:0. -/
structure SeqHeader where
  supported : Bool
  w : Nat
  h : Nat
  dpb : Nat
  deep : Bool
  mono : Bool
  deriving DecidableEq, Repr

/-- A picture as the standard of the stream decodes it (R258): its place among the pictures that wait in output order,
its size after cropping, its values: luma, then chroma planes. Its depth and chroma format are those of its sequence. -/
structure DecPic where
  place : Nat
  w : Nat
  h : Nat
  data : List Nat
  deriving DecidableEq, Repr

/-- What decoding one access unit by its standard gives (R258, R261): the sequence header in it, whether it begins a coded
video sequence, a syntax error or missing reference, whether it depends on a corrupt picture, its output pictures. -/
structure Decoded where
  seq : Option SeqHeader := none
  begins : Bool := false
  error : Bool := false
  depends : Bool := false
  pics : List DecPic := []
  deriving DecidableEq, Repr, Inhabited

namespace Config

/-- What a coded access unit decodes to by the standard of its stream (R258): CODEC, the units that the stream has taken since
its last reset, the unit's own bytes, the uncorrected errors met in reference pictures. The standards lie outside the spec. Log
entry 52. -/
opaque decode : Nat → List (List (BitVec 8)) → List (BitVec 8) → List Nat → Decoded

/-- The byte that an undefined location reads as (R55, R131, R133, R150): the epoch at which it became undefined, and
its address. Log entry 2. -/
opaque freeByte : Nat → Nat → BitVec 8

/-- A fresh number for a value the spec leaves open, by the state's counter. Log entry 2. -/
opaque freeNat : Nat → Nat

/-- GLOBAL_ID.STEPPING (R372), per device. -/
opaque stepping : BitVec 8

/-- GLOBAL_ID.GRADE is X (R1, R372), per device. -/
opaque gradeX : Bool

/-- Hokuzal's image key, held in boot ROM (R47). -/
opaque imageKey : Nat × Nat

/-- Hokuzal's firmware key, held in boot ROM (R407). -/
opaque firmwareKey : Nat × Nat

/-- The root key that the security engine reconstructs, the same at each power-up (R403). Log entry 70. -/
opaque rootKey : Nat

/-- What one iteration of the key derivation authenticates: its number, the length of the key in bits, and the context
(R404); the standard leaves the widths and the order of these fields open. Log entry 70. -/
opaque kdfFrame : Nat → Nat → List (BitVec 8) → List (BitVec 8)

/-- The bytes that a partition's index takes in the context of a key (R404 gives no width). Log entry 70. -/
opaque indexBytes : Nat

/-- The bytes that authenticate a counter transaction: index, value, write count, nonce (R410). Log entry 70. -/
opaque txnFrame : Nat → Nat → Nat → Nat → List (BitVec 8)

/-- An entropy input of 256 bits that seeds the random generator (R417). Log entry 70. -/
opaque entropy : Nat → Nat

/-- A byte of the device certificate (R424). -/
opaque certByte : Nat → BitVec 8

/-- SEC_CERT_LEN (R405, R424): at most 2,048. -/
opaque certLen : Fin 2049

/-- A byte of the voltage table that the boot ROM holds (R435). -/
opaque vtDefault : Nat → BitVec 8

/-- A byte of the device's own voltage table (R435). -/
opaque vtDevice : Nat → BitVec 8

/-- VERSION and SECURITY_VERSION of the firmware package that a bank held when the module was made (R407). -/
opaque factoryFw : Nat → Nat × Nat

/-- A byte of the SM3 digest of that package (R413). -/
opaque factoryDigest : Nat → Nat → BitVec 8

end Config
end Sys2Proof
end

