-- ==== Sys2Proof/Machine/Sm3.lean ====
section
/-!
DEFINITION. The hash SM3 and the verification of an SM2 signature (R47, R406), as GB/T 32905 and GB/T 32918 define
them. PRESUMED: the constants are those of the published standards that the spec names (log entry 3).
-/
namespace Sys2Proof.Machine

/-! ### SM3 -/

/-- Rotation left of a 32-bit number. -/
def rotl32 (x n : Nat) : Nat := (x * 2 ^ (n % 32) + x / 2 ^ (32 - n % 32)) % 2 ^ 32

/-- Bitwise complement on 32 bits. -/
def not32 (x : Nat) : Nat := 0xFFFFFFFF - x % 2 ^ 32

/-- The permutation P0. -/
def sm3P0 (x : Nat) : Nat := x ^^^ rotl32 x 9 ^^^ rotl32 x 17
/-- The permutation P1. -/
def sm3P1 (x : Nat) : Nat := x ^^^ rotl32 x 15 ^^^ rotl32 x 23

/-- The message as 64-byte blocks of sixteen words, padded. -/
def sm3Pad (m : List Byte) : List Byte :=
  let z := (119 - m.length % 64) % 64
  m ++ [0x80#8] ++ List.replicate z 0#8 ++ natBe 8 (8 * m.length)

/-- One word of the expansion, from the sixteen words before it, newest first. -/
def sm3Next (w : List Nat) : Nat :=
  let g (i : Nat) : Nat := w.getD (i - 1) 0
  sm3P1 (g 16 ^^^ g 9 ^^^ rotl32 (g 3) 15) ^^^ rotl32 (g 13) 7 ^^^ g 6

/-- The 68 words of the expansion, in order. -/
def sm3Expand (blk : List Nat) : List Nat :=
  ((List.range 52).foldl (fun w _ => sm3Next w :: w) blk.reverse).reverse

/-- One round on the eight registers. -/
def sm3Round (w : List Nat) (v : List Nat) (j : Nat) : List Nat :=
  let g (i : Nat) : Nat := v.getD i 0
  let a := g 0; let b := g 1; let c := g 2; let d := g 3
  let e := g 4; let f := g 5; let gg := g 6; let h := g 7
  let t := if j < 16 then 0x79CC4519 else 0x7A879D8A
  let ss1 := rotl32 ((rotl32 a 12 + e + rotl32 t j) % 2 ^ 32) 7
  let ss2 := ss1 ^^^ rotl32 a 12
  let ff := if j < 16 then a ^^^ b ^^^ c else (a &&& b) ||| (a &&& c) ||| (b &&& c)
  let gf := if j < 16 then e ^^^ f ^^^ gg else (e &&& f) ||| (not32 e &&& gg)
  let tt1 := (ff + d + ss2 + (w.getD j 0 ^^^ w.getD (j + 4) 0)) % 2 ^ 32
  let tt2 := (gf + h + ss1 + w.getD j 0) % 2 ^ 32
  [tt1, a, rotl32 b 9, c, sm3P0 tt2, e, rotl32 f 19, gg]

/-- Compression of one block. -/
def sm3Block (v : List Nat) (blk : List Byte) : List Nat :=
  let ws := (List.range 16).map fun i => beAt blk (4 * i) 4
  let w := sm3Expand ws
  let r := (List.range 64).foldl (sm3Round w) v
  List.zipWith (fun a b => a ^^^ b) v r

/-- Blocks of 64 bytes folded into the registers. -/
def sm3Blocks : Nat → List Nat → List Byte → List Nat
  | 0, v, _ => v
  | _, v, [] => v
  | k + 1, v, m => sm3Blocks k (sm3Block v (m.take 64)) (m.drop 64)

/-- SM3 of a message: 32 bytes. Log entry 3. -/
def sm3 (m : List Byte) : List Byte :=
  let p := sm3Pad m
  (sm3Blocks (p.length / 64) [0x7380166F, 0x4914B2B9, 0x172442D7, 0xDA8A0600, 0xA96F30BC, 0x163138AA, 0xE38DEE4D,
    0xB0FB0E4E] p).flatMap fun x => natBe 4 x

/-! ### SM2 -/

/-- The prime of the field. -/
def sm2P : Nat := 0xFFFFFFFEFFFFFFFFFFFFFFFFFFFFFFFFFFFFFFFF00000000FFFFFFFFFFFFFFFF
/-- The coefficient a. -/
def sm2A : Nat := 0xFFFFFFFEFFFFFFFFFFFFFFFFFFFFFFFFFFFFFFFF00000000FFFFFFFFFFFFFFFC
/-- The coefficient b. -/
def sm2B : Nat := 0x28E9FA9E9D9F5E344D5A9E4BCF6509A7F39789F515AB8F92DDBCBD414D940E93
/-- The order of the group. -/
def sm2N : Nat := 0xFFFFFFFEFFFFFFFFFFFFFFFFFFFFFFFF7203DF6B21C6052B53BBF40939D54123
/-- The base point. -/
def sm2G : Nat × Nat :=
  (0x32C4AE2C1F1981195F9904466A39C9948FE30BBFF2660BE1715A4589334C74C7,
   0xBC3736A2F4F6779C59BDCEE36B692153D0A9877CC62A474002DF32E52139F0A0)

/-- b^e mod m, over the low `fuel` bits of e. -/
def powMod (m : Nat) : Nat → Nat → Nat → Nat
  | 0, _, _ => 1
  | fuel + 1, b, e =>
    let r := powMod m fuel (b * b % m) (e / 2)
    if e % 2 = 1 then r * b % m else r

/-- The inverse in the field. -/
def invP (x : Nat) : Nat := powMod sm2P 256 (x % sm2P) (sm2P - 2)

/-- A point: none is the point at infinity. -/
abbrev EcPoint := Option (Nat × Nat)

/-- Addition of two points. -/
def ecAdd (p q : EcPoint) : EcPoint :=
  match p, q with
  | none, _ => q
  | _, none => p
  | some (x1, y1), some (x2, y2) =>
    if x1 = x2 ∧ (y1 + y2) % sm2P = 0 then none
    else
      let l :=
        if x1 = x2 then (3 * x1 * x1 + sm2A) * invP (2 * y1) % sm2P
        else (y2 + sm2P - y1) * invP (x2 + sm2P - x1) % sm2P
      let x3 := (l * l + 2 * sm2P - x1 - x2) % sm2P
      let y3 := (l * (x1 + sm2P - x3) + sm2P - y1) % sm2P
      some (x3, y3)

/-- Scalar multiplication over the low `fuel` bits. -/
def ecMul : Nat → Nat → EcPoint → EcPoint
  | 0, _, _ => none
  | fuel + 1, k, p =>
    let r := ecMul fuel (k / 2) (ecAdd p p)
    if k % 2 = 1 then ecAdd p r else r

/-- A public key on the curve. -/
def onCurve (q : Nat × Nat) : Bool :=
  decide (q.1 < sm2P) && decide (q.2 < sm2P) &&
    (q.2 * q.2) % sm2P == (q.1 * q.1 * q.1 + sm2A * q.1 + sm2B) % sm2P

/-- The default user identifier of R47. -/
def sm2Id : List Byte := [0x31, 0x32, 0x33, 0x34, 0x35, 0x36, 0x37, 0x38, 0x31, 0x32, 0x33, 0x34, 0x35, 0x36, 0x37, 0x38]

/-- ZA of a public key. Log entry 3. -/
def sm2Za (q : Nat × Nat) : List Byte :=
  sm3 (natBe 2 128 ++ sm2Id ++ natBe 32 sm2A ++ natBe 32 sm2B ++ natBe 32 sm2G.1 ++ natBe 32 sm2G.2 ++
    natBe 32 q.1 ++ natBe 32 q.2)

/-- Verification of the signature (r, s) on a message under a public key (R47, R406). Log entry 3. -/
def sm2Verify (q : Nat × Nat) (m : List Byte) (r s : Nat) : Bool :=
  let t := (r + s) % sm2N
  if r = 0 ∨ sm2N ≤ r ∨ s = 0 ∨ sm2N ≤ s ∨ t = 0 then false
  else
    let e := beNat (sm3 (sm2Za q ++ m))
    match ecAdd (ecMul 256 s (some sm2G)) (ecMul 256 t (some q)) with
    | none => false
    | some (x, _) => (e + x) % sm2N == r

/-- HMAC with SM3. -/
def hmacSm3 (key m : List Byte) : List Byte :=
  let k0 := if 64 < key.length then sm3 key else key
  let k := k0 ++ List.replicate (64 - k0.length) 0#8
  sm3 (k.map (fun b => b ^^^ 0x5C#8) ++ sm3 (k.map (fun b => b ^^^ 0x36#8) ++ m))

end Sys2Proof.Machine
end

