-- ==== Sys2Proof/Machine/Image.lean ====
section
/-!
DEFINITION. The Ward image: its layout (R30 to R46), what the device keeps of it, and its validation (R47 to R49).
An offset of a failure is the byte offset of the offending field, and a failure that several fields raise at one step
is reported at the lowest of them (R48).
-/
namespace Sys2Proof.Machine

/-- A PARTITION entry (R35). -/
structure PartEntry where
  index : Nat
  flags : Nat
  coreMask : Nat
  attnMask : Nat
  nceShare : Nat
  maxCtx : Nat
  quota : Nat      -- MiB
  kvPool : Nat     -- MiB
  slice : Nat      -- microseconds
  deriving DecidableEq, Repr

/-- A QUEUE_BIND entry (R38). -/
structure BindEntry where
  first : Nat
  countM1 : Nat
  part : Nat
  port : Nat
  ringLoc : Nat
  deriving DecidableEq, Repr

/-- A ROUTE entry (R39). -/
structure RouteEntry where
  srcType : Nat
  srcIndex : Nat
  dstType : Nat
  dstIndex : Nat
  part : Nat
  deriving DecidableEq, Repr

/-- A core entry of SAFETY (R41). -/
structure SlotEntry where
  offset : Nat
  length : Nat
  enabled : Bool
  deriving DecidableEq, Repr

/-- The SAFETY section (R41). -/
structure SafetyEntry where
  ftti : Nat
  lapsePolicy : Nat
  safeCan : Nat
  frameId : Nat
  slots : List SlotEntry
  deriving DecidableEq, Repr

/-- A CTL_ALLOC entry (R43). -/
structure ChanEntry where
  enabled : Bool
  part : Nat
  outBus : Nat
  partner : Nat
  divider : Nat
  ageMon : Nat
  deriving DecidableEq, Repr

/-- What the device keeps of an image in force (R29 to R46). -/
structure Image where
  profile : Nat
  advance : Bool
  version : Nat
  secver : Nat
  signer : Nat
  imageId : List Byte
  parts : List PartEntry
  scratch : List Nat
  binds : List BindEntry
  routes : List RouteEntry
  safety : Option SafetyEntry
  ages : List Nat
  chans : List ChanEntry
  policy : List Nat
  capInit : Nat
  depot : Option (Nat × Bool)     -- cache size in GiB, STOCH_ROUND
  digest : List Byte
  deriving DecidableEq, Repr

/-- Bit FLAGS.SAFETY of a partition. -/
def PartEntry.isSafety (p : PartEntry) : Bool := tbit p.flags 0
/-- Bit FLAGS.HINGED of a partition. -/
def PartEntry.hinged (p : PartEntry) : Bool := tbit p.flags 1
/-- Bit FLAGS.ENERGY_MODEL of a partition. -/
def PartEntry.energyModel (p : PartEntry) : Bool := tbit p.flags 2

/-- A failure of validation: status, section index and byte offset (R48). -/
structure WardFail where
  status : Nat
  sect : Nat
  offset : Nat
  deriving DecidableEq, Repr

/-- A section table entry (R32). -/
structure SecEntry where
  type : Nat
  fmt : Nat
  offset : Nat
  length : Nat
  deriving DecidableEq, Repr

/-- The section table (R32). -/
def secTable (b : List Byte) : List SecEntry :=
  (List.range (leAt b 0x0C 2)).map fun i =>
    let o := 0x40 + 16 * i
    ⟨leAt b o 2, leAt b (o + 2) 2, leAt b (o + 4) 4, leAt b (o + 8) 4⟩

/-- Entry size and largest entry count of a section type the table of R33 lists; a count of 0 means any. -/
def secKind (t : Nat) : Option (Nat × Nat) :=
  match t with
  | 1 => some (32, 8)
  | 2 => some (16, 1)
  | 3 => some (8, 4096)
  | 4 => some (8, 256)
  | 5 => some (144, 1)
  | 6 => some (1024, 1)
  | 7 => some (192, 1)
  | 8 => some (32, 1)
  | 9 => some (16, 1)
  | _ => if 0x8000 ≤ t ∧ t ≤ 0xFFFF then some (8, 0) else none

/-- The section of a type, if present. -/
def secOf (b : List Byte) (t : Nat) : Option SecEntry := (secTable b).find? fun e => e.type == t

/-- The offsets at which entries of size `sz` of a section begin. -/
def entryOffs (b : List Byte) (t sz : Nat) : List Nat :=
  match secOf b t with
  | none => []
  | some e => (List.range (e.length / sz)).map fun i => e.offset + sz * i

/-- The section index reported for an offset: the section that contains it, else 0xFF (R48). -/
def secIndexAt (b : List Byte) (o : Nat) : Nat :=
  ((secTable b).findIdx? fun e => decide (e.offset ≤ o) && decide (o < e.offset + e.length)).getD 0xFF

/-- Every byte of a range is zero. -/
def zeroRange (b : List Byte) (o n : Nat) : Bool := (sliceAt b o n).all fun x => x == 0#8

/-- The offset where a condition of failure holds. -/
def failIf (c : Bool) (o : Nat) : List Nat := if c then [o] else []

/-- The lowest of the offsets. -/
def lowest (l : List Nat) : Option Nat := l.min?

/-! ### Parsing -/

/-- The PARTITION entries with their offsets. -/
def parseParts (b : List Byte) : List (Nat × PartEntry) :=
  (entryOffs b 1 32).map fun o =>
    (o, ⟨leAt b o 1, leAt b (o + 1) 1, leAt b (o + 2) 2, leAt b (o + 4) 1, leAt b (o + 5) 1, leAt b (o + 6) 2,
      leAt b (o + 8) 4, leAt b (o + 12) 4, leAt b (o + 16) 4⟩)

/-- The QUEUE_BIND entries with their offsets. -/
def parseBinds (b : List Byte) : List (Nat × BindEntry) :=
  (entryOffs b 3 8).map fun o =>
    (o, ⟨leAt b o 2, leAt b (o + 2) 2, leAt b (o + 4) 1, leAt b (o + 5) 1, leAt b (o + 6) 1⟩)

/-- The ROUTE entries with their offsets. -/
def parseRoutes (b : List Byte) : List (Nat × RouteEntry) :=
  (entryOffs b 4 8).map fun o =>
    (o, ⟨leAt b o 1, leAt b (o + 1) 1, leAt b (o + 2) 1, leAt b (o + 3) 1, leAt b (o + 4) 1⟩)

/-- The SAFETY section with its offset. -/
def parseSafety (b : List Byte) : Option (Nat × SafetyEntry) :=
  (secOf b 5).map fun e =>
    let o := e.offset
    (o, ⟨leAt b o 2, leAt b (o + 2) 1, leAt b (o + 3) 1, leAt b (o + 4) 4,
      (List.range 16).map fun n =>
        ⟨leAt b (o + 0x10 + 8 * n) 4, leAt b (o + 0x14 + 8 * n) 2, tbit (leAt b (o + 0x16 + 8 * n) 2) 0⟩⟩)

/-- The CTL_ALLOC entries with their offsets. -/
def parseChans (b : List Byte) : List (Nat × ChanEntry) :=
  match secOf b 7 with
  | none => []
  | some e => (List.range 24).map fun c =>
    let o := e.offset + 8 * c
    (o, ⟨tbit (leAt b o 1) 0, leAt b (o + 1) 1, leAt b (o + 2) 1, leAt b (o + 3) 1, leAt b (o + 4) 2,
      leAt b (o + 6) 1⟩)

/-- The age limits (R42). -/
def parseAges (b : List Byte) : List Nat :=
  match secOf b 6 with
  | none => []
  | some e => (List.range 256).map fun m => leAt b (e.offset + 4 * m) 4

/-- The POWER bytes (R45). -/
def parsePolicy (b : List Byte) : List Nat :=
  match secOf b 8 with
  | none => []
  | some e => (List.range 29).map fun d => leAt b (e.offset + d) 1

/-- The configuration held by an image that passed validation. WARD_ACTIVE_DIGEST covers the signed bytes
(DEDUCED, log entry 12). -/
def parseImage (b : List Byte) : Image :=
  { profile := leAt b 0x0E 1, advance := tbit (leAt b 0x0F 1) 0, version := leAt b 0x10 4, secver := leAt b 0x14 4,
    signer := leAt b 0x1C 1, imageId := sliceAt b 0x20 16,
    parts := (parseParts b).map (·.2),
    scratch := match secOf b 2 with
      | none => List.replicate 16 0
      | some e => (List.range 16).map fun n => leAt b (e.offset + n) 1,
    binds := (parseBinds b).map (·.2), routes := (parseRoutes b).map (·.2), safety := (parseSafety b).map (·.2),
    ages := parseAges b, chans := (parseChans b).map (·.2), policy := parsePolicy b,
    capInit := match secOf b 8 with
      | none => 0
      | some e => leAt b (e.offset + 0x1E) 2,
    depot := (secOf b 9).map fun e => (leAt b e.offset 1, tbit (leAt b (e.offset + 1) 1) 0),
    digest := sm3 (b.take (b.length - 64)) }

/-! ### The steps of R48 -/

/-- Step 1: header fields. -/
def wardStep1 (b : List Byte) : List Nat :=
  failIf (leAt b 0 4 != 0x44575A41) 0x00 ++ failIf (leAt b 4 2 != 1) 0x04 ++ failIf (leAt b 6 2 != 64) 0x06 ++
  failIf (leAt b 0x0C 2 == 0 || decide (32 < leAt b 0x0C 2)) 0x0C ++
  failIf (leAt b 0x0E 1 != 1 && leAt b 0x0E 1 != 2) 0x0E ++ failIf (decide (2 ≤ leAt b 0x0F 1)) 0x0F ++
  failIf (!zeroRange b 0x1D 3) 0x1D ++ failIf (!zeroRange b 0x30 16) 0x30

/-- Step 2: TOTAL_LEN. -/
def wardStep2 (b : List Byte) (declared : Nat) : List Nat :=
  let t := leAt b 8 4
  failIf (t != declared || t % 8 != 0 || decide (t < 1024) || decide (4194304 < t)) 0x08

/-- Step 8: table layout and placement (R33). A section that ends past the start of the trailer is reported at its LENGTH,
wherever its OFFSET lies, and a non-zero byte that lies in no section at that byte (DEDUCED, log entry 23). -/
def wardStep8 (b : List Byte) : List Nat :=
  let tab := secTable b
  let tEnd := 0x40 + 16 * tab.length
  let trailer := b.length - 64
  let perEntry := tab.zipIdx.flatMap fun p =>
    let e := p.1
    let o := 0x40 + 16 * p.2
    let prev := if p.2 = 0 then none else tab[p.2 - 1]?
    let afterPrev := match prev with
      | none => true
      | some q => decide (q.offset < e.offset) && decide (q.offset + q.length ≤ e.offset)
    let lenOk := match secKind e.type with
      | none => true
      | some (sz, n) => e.length % sz == 0 && e.length != 0 && (n == 0 || decide (e.length / sz ≤ n))
    failIf (e.offset % 8 != 0 || decide (e.offset < tEnd) || !afterPrev) (o + 4) ++
    failIf (!lenOk || decide (trailer < e.offset + e.length)) (o + 8) ++
    failIf (!zeroRange b (o + 12) 4) (o + 12)
  if perEntry ≠ [] then perEntry
  else
    (List.range trailer).filter fun o =>
      decide (tEnd ≤ o) && byteAt b o != 0#8 &&
        !(tab.any fun e => decide (e.offset ≤ o) && decide (o < e.offset + e.length))

/-- Step 9: known types, no duplicates, SEC_FORMAT. -/
def wardStep9 (b : List Byte) : List Nat :=
  let tab := secTable b
  tab.zipIdx.flatMap fun p =>
    let o := 0x40 + 16 * p.2
    failIf ((secKind p.1.type).isNone || ((tab.take p.2).any fun q => q.type == p.1.type)) o ++
    failIf (p.1.fmt != 1) (o + 2)

/-- Step 10: required and forbidden sections of the profile (R33). A missing section is reported at PROFILE. Log entry 23. -/
def wardStep10 (b : List Byte) : List Nat :=
  let drive := leAt b 0x0E 1 == 1
  let need := if drive then [1, 2, 3, 5, 6, 7, 8] else [1, 2, 3, 8, 9]
  let forbid := if drive then [9] else [5, 6, 7]
  failIf (need.any fun t => (secOf b t).isNone) 0x0E ++
  ((secTable b).zipIdx.flatMap fun p => failIf (forbid.contains p.1.type) (0x40 + 16 * p.2))

/-- Step 11: field ranges and reserved fields of every section. PARTITION of an enabled channel is held to 0 to 7, the
range of an INDEX, and whether such a partition is defined is not checked; PARTITION of a QUEUE_BIND entry is held to that
range here too, so that 8 and above fail with 0x060A, not step 12; a policy other than 1 of PD0 to PD2 is a field out of its
range, found here with 0x060A (DEDUCED, log entry 23). -/
def wardStep11 (b : List Byte) : List Nat :=
  let parts := (parseParts b).flatMap fun p =>
    let o := p.1
    let e := p.2
    failIf (decide (8 ≤ e.index)) o ++ failIf (decide (8 ≤ e.flags)) (o + 1) ++
    failIf (decide (16 ≤ e.attnMask)) (o + 4) ++ failIf (decide (16 < e.nceShare)) (o + 5) ++
    failIf (decide (16384 < e.maxCtx)) (o + 6) ++ failIf (decide (e.slice < 1000)) (o + 0x10) ++
    failIf (!zeroRange b (o + 0x14) 12) (o + 0x14)
  let scratch := match secOf b 2 with
    | none => []
    | some e => (List.range 16).flatMap fun n => failIf (decide (24 < leAt b (e.offset + n) 1)) (e.offset + n)
  let binds := (parseBinds b).flatMap fun p =>
    failIf (decide (8 ≤ p.2.part)) (p.1 + 4) ++ failIf (decide (4 ≤ p.2.port)) (p.1 + 5) ++
    failIf (decide (2 ≤ p.2.ringLoc)) (p.1 + 6) ++ failIf (leAt b (p.1 + 7) 1 != 0) (p.1 + 7)
  let routes := (parseRoutes b).flatMap fun p => failIf (!zeroRange b (p.1 + 5) 3) (p.1 + 5)
  let safety := match parseSafety b with
    | none => []
    | some (o, e) =>
      failIf (decide (e.ftti < 5) || decide (500 < e.ftti)) o ++ failIf (decide (2 ≤ e.lapsePolicy)) (o + 2) ++
      failIf (decide (8 ≤ e.safeCan)) (o + 3) ++
      failIf (field e.frameId 29 2 != 0 || (!tbit e.frameId 31 && field e.frameId 11 18 != 0)) (o + 4) ++
      failIf (!zeroRange b (o + 8) 8) (o + 8) ++
      (e.slots.zipIdx.flatMap fun q =>
        let so := o + 0x10 + 8 * q.2
        failIf (q.1.enabled && (q.1.length == 0 || decide (200 < q.1.length) ||
          decide (e.ftti * 1000 < q.1.offset + q.1.length))) (so + 4) ++
        failIf (decide (2 ≤ leAt b (so + 6) 2)) (so + 6))
  let ages := match secOf b 6 with
    | none => []
    | some e => (parseAges b).zipIdx.flatMap fun q => failIf (decide (60000000 < q.1)) (e.offset + 4 * q.2)
  let chans := (parseChans b).flatMap fun p =>
    let o := p.1
    let e := p.2
    let bus := e.outBus / 16
    let idx := e.outBus % 16
    failIf (decide (2 ≤ leAt b o 1)) o ++
    failIf (e.enabled && decide (8 ≤ e.part)) (o + 1) ++
    failIf (e.enabled && (bus == 0 || decide (3 < bus) || decide ((if bus = 1 then 8 else 4) ≤ idx))) (o + 2) ++
    failIf (e.enabled && decide (24 ≤ e.partner) && e.partner != 0xFF) (o + 3) ++
    failIf (e.enabled && e.divider == 0) (o + 4) ++
    failIf (leAt b (o + 7) 1 != 0) (o + 7)
  let power := match secOf b 8 with
    | none => []
    | some e =>
      ((parsePolicy b).zipIdx.flatMap fun q =>
        failIf (decide (3 ≤ q.1) || (decide (q.2 < 3) && q.1 != 1)) (e.offset + q.2)) ++
      failIf (leAt b (e.offset + 29) 1 != 0) (e.offset + 29) ++
      failIf (decide (leAt b (e.offset + 0x1E) 2 < 150) || decide (450 < leAt b (e.offset + 0x1E) 2)) (e.offset + 0x1E)
  let depot := match secOf b 9 with
    | none => []
    | some e =>
      failIf (decide (32 < leAt b e.offset 1)) e.offset ++ failIf (decide (2 ≤ leAt b (e.offset + 1) 1)) (e.offset + 1) ++
      failIf (!zeroRange b (e.offset + 2) 14) (e.offset + 2)
  parts ++ scratch ++ binds ++ routes ++ safety ++ ages ++ chans ++ power ++ depot

/-- The offset of the field of the entry at which a running sum first exceeds a limit (R48). -/
def sumFail (l : List (Nat × Nat)) (start limit : Nat) : List Nat :=
  match (l.foldl (fun (a : Nat × Option Nat) p =>
      match a.2 with
      | some _ => a
      | none => if limit < a.1 + p.2 then (a.1 + p.2, some p.1) else (a.1 + p.2, none)) (start, none)).2 with
  | some o => [o]
  | none => []

/-- The cores of a mask form pairs 2k, 2k + 1 (R36). -/
def pairMask (m : Nat) : Bool := (List.range 8).all fun k => tbit m (2 * k) == tbit m (2 * k + 1)

/-- Step 12: R36 for the partitions. A drive image without a SAFETY partition is reported at FLAGS of its first entry
(DEDUCED, log entry 23). -/
def wardStep12Parts (b : List Byte) : List Nat :=
  let ps := parseParts b
  let drive := leAt b 0x0E 1 == 1
  let perEntry := ps.zipIdx.flatMap fun q =>
    let o := q.1.1
    let e := q.1.2
    let before := (ps.take q.2).map (·.2)
    failIf (before.any fun x => x.index == e.index) o ++
    failIf (e.coreMask == 0 || (before.any fun x => (x.coreMask &&& e.coreMask) != 0) ||
      (e.hinged && !pairMask e.coreMask)) (o + 2) ++
    failIf (before.any fun x => (x.attnMask &&& e.attnMask) != 0) (o + 4) ++
    failIf (decide (e.quota < e.kvPool)) (o + 12) ++
    failIf (e.energyModel && decide (2 ≤ (before.filter PartEntry.energyModel).length)) (o + 1) ++
    failIf (e.isSafety && (!drive || before.any PartEntry.isSafety)) (o + 1)
  let cache := match secOf b 9 with
    | none => 0
    | some e => 1024 * leAt b e.offset 1
  perEntry ++
  (if drive && !(ps.any fun p => p.2.isSafety) then (ps.head?.map fun p => p.1 + 1).toList else []) ++
  sumFail (ps.map fun p => (p.1 + 5, p.2.nceShare)) 0 16 ++
  sumFail (ps.map fun p => (p.1 + 6, p.2.maxCtx)) 0 16384 ++
  sumFail (ps.map fun p => (p.1 + 12, p.2.kvPool)) 0 65536 ++
  sumFail (ps.map fun p => (p.1 + 8, p.2.quota)) cache 96256

/-- Step 12: R38 for the queue bindings. FIRST and COUNT_M1 of one entry stand in a relation, which is broken at the higher
of the two, COUNT_M1 (R48); two ranges that overlap are reported at FIRST of the later entry (DEDUCED, log entry 23). -/
def wardStep12Binds (b : List Byte) (ports : Nat) : List Nat :=
  let ps := parseParts b
  let bs := parseBinds b
  bs.zipIdx.flatMap fun q =>
    let o := q.1.1
    let e := q.1.2
    let before := (bs.take q.2).map (·.2)
    failIf (before.any fun x => decide (x.first ≤ e.first + e.countM1) && decide (e.first ≤ x.first + x.countM1)) o ++
    failIf (decide (65535 < e.first + e.countM1)) (o + 2) ++
    failIf (!(ps.any fun p => p.2.index == e.part)) (o + 4) ++
    failIf (decide (ports ≤ e.port)) (o + 5)

/-- Whether the sum of 200,000 / DIVIDER, held as a fraction, exceeds 2,400,000 (R44), with the offset where it first
does. -/
def rateFail (l : List (Nat × Nat)) : List Nat :=
  match (l.foldl (fun (a : (Nat × Nat) × Option Nat) p =>
      match a.2 with
      | some _ => a
      | none =>
        let n := a.1.1 * p.2 + a.1.2
        let d := a.1.2 * p.2
        if 12 * d < n then ((n, d), some p.1) else ((n, d), none)) ((0, 1), none)).2 with
  | some o => [o]
  | none => []

/-- Step 12: R41 and R44 for the safety slots and the control channels. Of a partner whose ENABLED is clear nothing but
FLAGS is looked at: its other fields are neither checked nor used. A channel that names itself is reported at its own
PARTNER, and a safety core without an enabled slot, which no step names, here (DEDUCED, log entry 23). -/
def wardStep12Ctl (b : List Byte) : List Nat :=
  let cs := parseChans b
  let ageOff := (secOf b 6).map (·.offset)
  let ages := parseAges b
  let slots := match parseSafety b with
    | none => []
    | some (o, e) =>
      (parseParts b).flatMap fun p =>
        if p.2.isSafety then
          (bitsOf 16 p.2.coreMask).flatMap fun n =>
            match e.slots[n]? with
            | some sl => failIf (!sl.enabled) (max (p.1 + 2) (o + 0x16 + 8 * n))
            | none => []
        else []
  let chans := cs.zipIdx.flatMap fun q =>
    let o := q.1.1
    let e := q.1.2
    if !e.enabled then [] else
    let partner :=
      if e.partner = 0xFF then [] else
      match cs[e.partner]? with
      | none => []
      | some (po, pe) =>
        if !pe.enabled then [max (o + 3) po] else
        failIf (pe.partner != q.2 || e.partner == q.2) (max (o + 3) (po + 3)) ++
        failIf (pe.divider != e.divider) (max (o + 4) (po + 4)) ++
        failIf (pe.part != e.part) (max (o + 1) (po + 1)) ++
        failIf (pe.outBus != e.outBus) (max (o + 2) (po + 2))
    let age :=
      if e.ageMon = 0xFF then [] else
      failIf (ages.getD e.ageMon 0 == 0) (max (o + 6) ((ageOff.getD 0) + 4 * e.ageMon))
    partner ++ age
  slots ++ chans ++ rateFail ((cs.filter fun q => q.2.enabled).map fun q => (q.1 + 4, q.2.divider))

/-- The power domain of a core (R18). -/
def corePd (n : Nat) : Nat := 13 + n

/-- The power domains that a route endpoint uses (R45). -/
def endpointPds (t : Nat) : List Nat :=
  match t with
  | 1 => [6]
  | 2 => [6]
  | 3 => [7]
  | 4 => [8, 4]
  | 5 => [8]
  | 6 => [8]
  | _ => []

/-- Every use of a power domain by the image (R45), with the offset of the field that uses it; that of PD5 by an enabled channel is
reported at OUT_BUS, as that of PD4 (DEDUCED, log entry 23). -/
def pdUses (b : List Byte) : List (Nat × Nat) :=
  ((parseParts b).flatMap fun p =>
    ((bitsOf 16 p.2.coreMask).map fun n => (p.1 + 2, corePd n)) ++
    ((bitsOf 4 p.2.attnMask).map fun q => (p.1 + 4, 9 + q)) ++
    (if p.2.nceShare = 0 then [] else [(p.1 + 5, 8)])) ++
  ((parseRoutes b).flatMap fun r =>
    ((endpointPds r.2.srcType).map fun d => (r.1, d)) ++ ((endpointPds r.2.dstType).map fun d => (r.1 + 2, d))) ++
  ((parseChans b).flatMap fun c => if c.2.enabled then [(c.1 + 2, 5), (c.1 + 2, 4)] else []) ++
  (match parseSafety b with
    | none => []
    | some (o, _) => [(o + 3, 4)])

/-- Step 12: R45, no used domain has policy 2. -/
def wardStep12Power (b : List Byte) : List Nat :=
  match secOf b 8 with
  | none => []
  | some e =>
    let pol := parsePolicy b
    (pdUses b).flatMap fun u => failIf (pol.getD u.2 0 == 2) (max u.1 (e.offset + u.2))

/-- Step 13: routes (R39, R40). A source named twice and a destination with two sources are reported at SRC_TYPE and at
DST_TYPE of the later entry; a route of DST_TYPE 6 whose PARTITION no PARTITION entry defines fails at its PARTITION byte, a
check that R39 does not state (DEDUCED, log entry 23). -/
def wardStep13 (b : List Byte) : List Nat :=
  let rs := parseRoutes b
  let parts := (parseParts b).map fun p => p.2.index
  let count (t : Nat) : Nat :=
    match t with
    | 1 => 16
    | 2 => 16
    | 3 => 64
    | 4 => 4
    | 5 => 64
    | 6 => 1
    | _ => 0
  let dst (t : Nat) : Nat :=
    match t with
    | 1 => 2
    | 2 => 5
    | 3 => 5
    | 4 => 5
    | 5 => 6
    | _ => 0
  rs.zipIdx.flatMap fun q =>
    let o := q.1.1
    let r := q.1.2
    let before := (rs.take q.2).map (·.2)
    failIf (dst r.srcType == 0 || (before.any fun x => x.srcType == r.srcType && x.srcIndex == r.srcIndex)) o ++
    failIf (decide (count r.srcType ≤ r.srcIndex)) (o + 1) ++
    failIf (r.dstType != dst r.srcType ||
      ((r.dstType == 2 || r.dstType == 5) &&
        (before.any fun x => x.dstType == r.dstType && x.dstIndex == r.dstIndex))) (o + 2) ++
    failIf (decide (count r.dstType ≤ r.dstIndex)) (o + 3) ++
    failIf (if r.dstType = 6 then !(parts.contains r.part) else r.part != 0) (o + 4)

/-- What validation reads besides the image (R49): the declared length, the signer's key where it is enrolled, the
anti-rollback counter where it is readable, and the number of ports. -/
structure WardInputs where
  declared : Nat
  key : Option (Nat × Nat)
  counter : Option Nat
  ports : Nat
  deriving DecidableEq, Repr

/-- The failure of one step: its status at the lowest offending offset. -/
def stepFail (b : List Byte) (status : Nat) (offs : List Nat) (inTable : Bool) : Option WardFail :=
  (lowest offs).map fun o => ⟨status, if inTable then 0xFF else secIndexAt b o, o⟩

/-- The signature of an image verifies (R47). -/
def signatureOk (b : List Byte) (key : Nat × Nat) : Bool :=
  let n := b.length - 64
  sm2Verify key (b.take n) (leAt b n 32) (leAt b (n + 32) 32)

/-- Validation in the order of R48: the first failure, or none. An anti-rollback counter that cannot be read has no field
in the image: it is reported at SECURITY_VERSION, the field that step 7 compares with it; a byte that lies in no section
carries the section index 0xFF (DEDUCED, log entry 23). -/
def validate (b : List Byte) (w : WardInputs) : Option WardFail :=
  let chain : List (Unit → Option WardFail) := [
    fun _ => stepFail b 0x0604 (wardStep1 b) true,
    fun _ => stepFail b 0x0605 (wardStep2 b w.declared) true,
    fun _ => stepFail b 0x060B (failIf (leAt b 0x18 4 != 0x5016) 0x18) true,
    fun _ => stepFail b 0x0502 (failIf w.key.isNone 0x1C) true,
    fun _ => stepFail b 0x0501 (failIf (!(signatureOk b (w.key.getD (0, 0)))) (b.length - 64)) true,
    fun _ => stepFail b 0x0504 (failIf w.counter.isNone 0x14) true,
    fun _ => stepFail b 0x0503 (failIf (decide (leAt b 0x14 4 < w.counter.getD 0)) 0x14) true,
    fun _ => stepFail b 0x0606 (wardStep8 b) true,
    fun _ => stepFail b 0x0607 (wardStep9 b) true,
    fun _ => stepFail b 0x0608 (wardStep10 b) true,
    fun _ => stepFail b 0x060A (wardStep11 b) false,
    fun _ => stepFail b 0x0609
      (wardStep12Parts b ++ wardStep12Binds b w.ports ++ wardStep12Ctl b ++ wardStep12Power b) false,
    fun _ => stepFail b 0x060D (wardStep13 b) false]
  chain.foldl (fun r f => match r with
    | some e => some e
    | none => f ()) none

end Sys2Proof.Machine
end

