-- ==== Sys2Proof/Machine/Mem.lean ====
section
/-!
DEFINITION. A sparse memory of bytes in canonical form: addresses strictly rising, and no entry equal to what an
unlisted address reads as. What an unlisted address reads as is its fill: zero (R450, R155), or an undefined byte
(R55, R131, R133, R150).
-/
namespace Sys2Proof.Machine

/-- What an unlisted address reads as. Log entry 2. -/
inductive Fill where
  | zero
  | free (epoch : Nat)
  | patch (lo len epoch : Nat) (rest : Fill)      -- a range that became undefined later than the rest
  deriving DecidableEq, Repr

/-- The byte of an unlisted address. -/
def Fill.byte : Fill → Nat → Byte
  | .zero, _ => 0#8
  | .free e, a => Config.freeByte e a
  | .patch lo len e r, a => if lo ≤ a ∧ a < lo + len then Config.freeByte e a else r.byte a

/-- An unlisted address reads as an undefined byte. -/
def Fill.isFree : Fill → Nat → Bool
  | .zero, _ => false
  | .free _, _ => true
  | .patch lo len _ r, a => if lo ≤ a ∧ a < lo + len then true else r.isFree a

/-- A sparse memory. -/
structure Mem where
  fill : Fill
  cells : List Host.Cell
  deriving DecidableEq, Repr

/-- A memory that reads as zero everywhere. Log entry 90. -/
def Mem.zero : Mem := ⟨.zero, []⟩

/-- The byte at an address. Log entry 90. -/
def Mem.read (m : Mem) (a : Nat) : Byte := (alGet m.cells a).getD (m.fill.byte a)

/-- The cells after one byte is written under a fill: where an unlisted byte reads as zero a zero is not listed; where it
is undefined every byte written is. -/
def putCell (f : Fill) (cells : List Host.Cell) (a : Nat) (b : Byte) : List Host.Cell :=
  if f.isFree a then alSet cells a b else alPut 0#8 cells a b

/-- The memory after one byte is written. -/
def Mem.write (m : Mem) (a : Nat) (b : Byte) : Mem := { m with cells := putCell m.fill m.cells a b }

/-- The memory after consecutive bytes are written. -/
def Mem.writeBytes (m : Mem) (a : Nat) : List Byte → Mem
  | [] => m
  | b :: bs => (m.write a b).writeBytes (a + 1) bs

/-- Consecutive bytes. -/
def Mem.readBytes (m : Mem) (a n : Nat) : List Byte := (List.range n).map fun i => m.read (a + i)

/-- A range becomes undefined (log entry 2). -/
def Mem.undef (m : Mem) (lo len epoch : Nat) : Mem :=
  ⟨.patch lo len epoch m.fill, m.cells.filter fun c => !(decide (lo ≤ c.1) && decide (c.1 < lo + len))⟩

/-- The canonical form: addresses rise strictly, and no entry is what an unlisted address reads as. -/
def Mem.wf (m : Mem) : Bool := alSorted m.cells && m.cells.all fun c => m.fill.isFree c.1 || c.2 != 0#8

end Sys2Proof.Machine
end

