-- ==== Sys2Proof/Machine/State.lean ====
section
/-!
DEFINITION. The state of the block: plain data. Each structure names the rules it follows; the registers are held in
the register store of `Regs`, by the key that `RegMap` gives them.
-/
namespace Sys2Proof.Machine

/-! ### Compute: scratchpads, cores, jobs -/

/-- The states of a scratchpad bank (R155). -/
inductive BankSt where
  | on
  | closing
  | off
  | opening
  deriving DecidableEq, Repr

/-- A core's scratchpad of 64 banks of 512 KiB (R127): what an unlisted address of each bank reads as, the bytes
listed, the 8-byte granules with a poison mark (R139), the bank states and the resident tag (R135). -/
structure Pad where
  fills : List Fill
  cells : List Host.Cell
  poison : List Nat
  banks : List BankSt
  tag : Nat
  deriving DecidableEq, Repr

/-- A physical core: its scratchpad, the logical core whose scratchpad it holds (R242), the park images, the scrubber's position:
the 256-bit word that it reads next (R138, R430). -/
structure CoreSt where
  pad : Pad
  loaded : Option Nat
  parks : List (Nat × Pad)
  scrubPos : Nat := 0
  deriving DecidableEq, Repr

/-- Where the step at the head of a target stands. -/
inductive StepPhase where
  | fresh                                  -- delivered, not begun
  | waitHead                               -- passed its checks, waits for its header WAIT count (R97)
  | ready                                  -- header count taken, not started
  | started                                -- started, its effect held: a bank opens, a granule runs, pages moved
  | catchWait (value : Nat)                -- a CATCH WAIT that waits (R122)
  | bankWait                               -- a BANK step whose banks are on their way (R154)
  | swapWait (ctx : Nat)                   -- an attention step that waits for a context's swap (R211)
  | done (status : Nat) (wrote : Bool := true)  -- effect over, STEP_END to come; whether it wrote anything (R229)
  deriving DecidableEq, Repr

/-- A code raised in a job, with its target and step (R228, R232). -/
structure Raised where
  status : Nat
  source : Nat
  step : Nat
  deriving DecidableEq, Repr

/-- One target of a running job (R226): the delivered steps with their indices, where the head step stands, the command
in progress (its first step, the steps counted, the steps a TAG CHECK still skips), its resume step: the index from
which its steps count as not delivered (R224, R234), the last step started, whether it takes no further step; of a key-value
step at the head, whether it has written so far (R229) and met an uncorrected error (R139). -/
structure TargetSt where
  id : Nat
  steps : List (Nat × List Byte)
  phase : StepPhase
  cmdOpen : Bool
  cmdStart : Nat
  cmdCount : Nat
  skip : Nat
  resume : Nat
  lastStep : Nat
  stopped : Bool
  wrote : Bool
  ueMet : Bool
  deriving DecidableEq, Repr

/-- A job that has started (R222 to R236). `owners` holds the target of each step read so far, so that a step that counts
as delivered is not read again (R224). `serial` is the number of the job since power good, by which the meter attributes
energy to it (R443); `ran`: a step of it has started. -/
structure Job where
  queue : Nat
  desc : List Byte
  dispatch : Nat
  owners : List Nat
  halted : Bool
  stopping : Bool
  suspending : Bool
  raised : List Raised
  ue : Bool
  unverified : Bool
  degraded : Bool
  modelEnergy : Bool
  preempted : Bool
  energy : Nat
  batch : Option Nat
  batchTs : Option Nat
  targets : List TargetSt
  lastWrite : Nat
  serial : Nat
  ran : Bool
  deriving DecidableEq, Repr

/-- The run-time state of a partition (R233, R240, R244, R247). `remapped`: a re-map has completed since the last Ward
switch (R240). -/
structure PartSt where
  map : List (Option Nat)
  base : Nat
  granted : Bool
  job : Option Job
  lastServed : Nat
  remapDue : Bool
  remapped : Bool
  dramLost : Bool
  deriving DecidableEq, Repr

/-- The state of a queue beyond its registers (R220, R234, R237). `read`: the descriptor at HEAD, read already, of a job that
waits for a batch (R227). -/
structure QueueSt where
  head : Nat
  tail : Nat
  phase : Bool
  susp : Option Job
  read : Option (List Byte)
  resetPend : Bool
  deriving DecidableEq, Repr

/-- The states of a DRAM tower (R153). -/
inductive TowerState where
  | off
  | active
  | selfRefresh
  | outOfService
  deriving DecidableEq, Repr

/-- A DRAM tower (R153, R159). -/
structure TowerSt where
  state : TowerState
  temp : Nat
  refreshX2 : Bool
  deriving DecidableEq, Repr

/-! ### The loader -/

/-- The states of the Ward loader (R51). -/
inductive LoaderState where
  | idle
  | receiving
  | validating
  | holding
  deriving DecidableEq, Repr

/-- The Ward loader and the image in force (R50 to R57). -/
structure WardSt where
  state : LoaderState
  busy : Bool
  beginPort : Nat
  total : Nat
  chunk : Nat × Nat
  aperture : Mem
  staging : Mem
  covered : List (Nat × Nat)
  cand : Option Image
  image : Option Image
  deriving DecidableEq, Repr

/-! ### Registers -/

/-- A capture of an RWL register by a LATCH_GO (R366): its key, the value captured, the ports whose pending bit it holds
(R369), and the instant of the LATCH_GO on the block's elapsed time (R302). -/
structure Capture where
  key : Nat
  value : Word
  ports : List Nat
  taken : Nat
  deriving DecidableEq, Repr

/-- The registers of one block: values in force and RWL shadows that differ from their reset values, pending
captures, 64-bit counters that are not zero (R10, R366, R370). -/
structure RegBlock where
  vals : List (Nat × Word)
  shadows : List (Nat × Word)
  caps : List Capture
  counters : List (Nat × Nat)
  deriving DecidableEq, Repr

/-- A block of registers at its reset values. -/
def RegBlock.empty : RegBlock := ⟨[], [], [], []⟩

/-- The register store (R426): the blocks of BAR0 (R360). -/
structure Regs where
  global : RegBlock
  ward : RegBlock
  safe : RegBlock
  sec : RegBlock
  pwr : RegBlock
  time : RegBlock
  pci : RegBlock
  queue : RegBlock
  ing : RegBlock
  vdec : RegBlock
  nce : RegBlock
  attn : RegBlock
  ctl : RegBlock
  can : RegBlock
  eth : RegBlock
  core : RegBlock
  deriving DecidableEq, Repr

/-- Every register at its reset value. -/
def Regs.empty : Regs :=
  let e := RegBlock.empty
  ⟨e, e, e, e, e, e, e, e, e, e, e, e, e, e, e, e⟩

/-- A host port (R353 to R358, R370): its link and the width and speed negotiated, the speed limit that the last
training took up, whether RETRAIN has started a training, its snapshot holding set; its configuration space as the host has
written it and the Uncorrectable Error Status of Advanced Error Reporting (R355, R361); whether its PERST_N is asserted and
holds it in reset (R358, R428, R480). -/
structure PortSt where
  up : Bool
  width : Nat
  speed : Nat
  maxSpeed : Nat
  training : Bool
  holding : List (Nat × Nat)
  cfg : PciCfg
  aer : Nat
  perst : Bool
  deriving DecidableEq, Repr

/-! ### Control engine -/

/-- The states of a control channel (CTL_CH_STATUS.STATE, R309). -/
inductive ChanState where
  | disabled
  | stopped
  | running
  | identifying
  | failed
  deriving DecidableEq, Repr

/-- A received word, its timestamp in ns, and when its reception completed, on the block's elapsed time (R22, R291). -/
structure CtlWord where
  value : Nat
  ts : Nat
  arrived : Nat
  deriving DecidableEq, Repr

/-- A setpoint entry (R296): its words, its timestamp in ns, when each word was last written since RUN took effect (R291),
and when the entry was written, on the block's elapsed time (R22). -/
structure SpEntry where
  words : List Nat
  ts : Nat
  recv : List (Option Nat)
  written : Nat
  deriving DecidableEq, Repr

/-- A snapshot kept for a re-run (R306): sample number, inputs and setpoints with their timestamps, and what was in force at
that boundary: the input words of KIND 0, the active bank, the bank whose INIT is loaded there. -/
structure Snapshot where
  sample : Nat
  ins : List (Option CtlWord)
  sps : List (Option CtlWord)
  zero : List Bool
  bank : Nat
  init : Option Nat
  deriving DecidableEq, Repr

/-- A control channel beyond its registers: its state, whether it is a solo survivor, CFG_ERR, the words received, those
that stood before the instant of the latest reception, the setpoint entry and the one before its latest write (R22), the
start of the last sample on the block's elapsed time (R283), the flags of the last sample, the samples withheld while a
fault is identified, whether its law unit has failed and has not passed the built-in test laws since (R307), the state words at
the start of the first withheld sample, the bank whose INIT a swap has brought since and no sample has loaded (R302, R306). -/
structure ChanSt where
  state : ChanState
  solo : Bool
  cfgErr : Bool
  ins : List (Option CtlWord)
  before : List (Option CtlWord)
  sp : SpEntry
  spBefore : SpEntry
  lastStart : Option Nat
  flags : Nat
  withheld : List Snapshot
  unitFailed : Bool
  kept : List Nat
  initDue : Option Nat
  deriving DecidableEq, Repr

/-- A SENT receiver (R293, R294): the last calibration pulse, and the slow-channel message being received. -/
structure SentSt where
  lastCal : Option Nat
  slow : List (Nat × Nat)       -- bits 3 and 2 of the status nibbles received so far
  deriving DecidableEq, Repr

/-! ### CAN -/

/-- What a controller has chosen to send (R320, R325). -/
inductive CanSel where
  | safe
  | obj (i : Nat)
  | reference
  deriving DecidableEq, Repr

/-- A message object beyond its registers (R317 to R321). -/
structure CanObjSt where
  new : Bool
  overrun : Bool
  locked : Bool
  held : Option (CanFrame × Nat)
  pending : Bool
  noRetry : Bool
  rfmt : Nat
  seq : Nat
  brs : Bool
  esi : Bool
  dlc : Nat
  len : Nat
  reqLen : Nat                  -- CAN_OBJ_LEN as REQ took it, before any padding
  engFrame : Option CanFrame
  engNext : Option CanFrame     -- replaces the frame on the bus before any retry
  deriving DecidableEq, Repr

/-- A CAN controller beyond its registers (R320 to R325): STATE of CAN_STATUS, the error counters, the frame chosen or
on the bus, a stop that waits for the end of the frame, the safe-state frame, the reference schedule: the messages due, the
number of the next one, the seconds of the first one, the stamp of the last one sent, when the last one fell due, on the
block's elapsed time. -/
structure CanSt where
  state : Nat
  txErr : Nat
  rxErr : Nat
  lastErr : Nat
  tdcv : Nat
  cfgErr : Bool
  stopDue : Bool
  sel : Option CanSel
  safe : Option CanFrame
  objs : List (Nat × CanObjSt)
  refDue : Nat
  refK : Nat
  refSec : Nat
  refLast : Option Nat
  refAt : Option Nat
  deriving DecidableEq, Repr

/-! ### 10BASE-T1S -/

/-- A T1S port beyond its registers (R328 to R331): the command frames that wait, each with its channel (R300); the collisions
that the frame to be sent has met. -/
structure T1sSt where
  rxFifo : List (List Byte)
  cmds : List (Nat × List Byte)
  tx : Option (List Byte)
  plcaActive : Bool
  beaconSeen : Bool
  attempts : Nat
  deriving DecidableEq, Repr

/-! ### Time base, PTP, pulse generators, Ethernet -/

/-- The states of the time base (R335). -/
inductive TimeMode where
  | free
  | tracking
  | holdover
  deriving DecidableEq, Repr

/-- The servo of R340: whether it starts afresh with the next measurement, whether the next one is k = 1, the numbers
y, c, p (p in units of 2^-16 ns) and the master time of the measurement that last set p. -/
structure Servo where
  fresh : Bool
  first : Bool
  y : Rat
  c : Rat
  p : Int
  master : Option Int
  discards : Nat
  deriving DecidableEq, Repr

/-- A Sync that waits for its Follow_Up (R340). -/
structure SyncWait where
  ingress : Nat
  corr : Int
  deriving DecidableEq, Repr

/-- A PTP message that waits to be sent: kind, sequence number, the stamp of what it answers or
completes, the correction that it carries on. Kinds: 0 Sync, 1
Follow_Up, 2 Delay_Resp, 3 Pdelay_Resp, 4 Pdelay_Resp_Follow_Up, 5 Announce, 6 Delay_Req, 7 Pdelay_Req. -/
structure PtpMsg where
  kind : Nat
  seq : Nat
  stamp : Stamp
  corr : Int
  deriving DecidableEq, Repr

/-- A PTP message as it leaves (R339, R343): its UDP port where it goes over UDP, its destination address, domain,
clockIdentity, its timestamp field, correctionField in 2^-16 ns, traceable flags. Log entry 66. -/
structure PtpFrame where
  kind : Nat
  seq : Nat
  udp : Option Nat
  dest : List Nat
  domain : Nat
  clockId : Nat
  stamp : Stamp
  corr : Int
  traceable : Bool
  deriving DecidableEq, Repr

/-- A PTP port beyond its registers (R339 to R343): the mean link delay in 2^-16 ns, the delay intervals since the last
successful exchange, the Sync that waits for its Follow_Up, sequence numbers, Announce messages counted, the messages that
wait to be sent, the egress of the delay request without an answer yet and the lag of the last Sync behind its master, both in
2^-16 ns, whether the port was enabled without a clock identity and stays off (R351). -/
structure PtpSt where
  delay : Option Int
  misses : Nat
  wait : Option SyncWait
  syncSeq : Nat
  announceSeq : Nat
  delaySeq : Nat
  announces : Nat
  queue : List PtpMsg
  request : Option Nat
  lag : Option Int
  blocked : Bool
  deriving DecidableEq, Repr

/-- A pulse generator beyond its registers (R345 to R347): armed, the index of its next edge, a pulse in progress and when it
began, on the block's elapsed time; the level of its pin (R477). -/
structure PulseSt where
  armed : Bool
  nextEdge : Nat
  high : Bool
  since : Nat
  level : Bool := false
  deriving DecidableEq, Repr

/-- The time base (R332 to R337): its value in units of 2^-28 ns, coarse mode, the state, the offset last measured, the
extra addend that a slew still owes, the servo; the island's safety clock in ns, never stepped (R389); what the last tick
added, 0 after a step, and the time elapsed in ns. Log entry 78. -/
structure TimeSt where
  tb : Nat
  coarse : Bool
  mode : TimeMode
  inSync : Bool
  slew : Option Int
  servo : Servo
  ptp : List PtpSt
  pulse : List PulseSt
  safeClk : Nat
  last : Nat
  elapsed : Nat
  deriving DecidableEq, Repr

/-- An Ethernet port beyond its registers (R348 to R350): the link, and the command frames that wait, each with its channel
(R300). -/
structure EthSt where
  link : Bool
  master : Bool
  speed : Nat
  cmds : List (Nat × List Byte)
  deriving DecidableEq, Repr

/-! ### Safety -/

/-- A fault record (R397). -/
structure FaultRec where
  response : Nat
  unit : Nat
  code : Nat
  ts : Nat
  deriving DecidableEq, Repr

/-- An age monitor that is active (R376 to R378): its monitor timestamp in ns, the instant at which it became active, the
latest results of the channels that name it, whether it is exceeded, whether its exceedance has been a cause, and the
age at the last evaluation in µs. -/
structure MonSt where
  ts : Nat
  base : Nat
  latest : List (Nat × Nat)
  exceeded : Bool
  caused : Bool
  age : Nat
  deriving DecidableEq, Repr

/-- A unit under test keys (R388 to R395): enabled by the plan in force, granules completed, the granule that runs,
granules that mismatched once in this interval, passed, lapsed, out of service, its slot running, the banks that the running
granule has opened (R393). -/
structure TestSt where
  enabled : Bool
  doneGranules : Nat
  running : Bool
  mismatched : Bool
  passed : Bool
  lapsed : Bool
  oos : Bool
  inSlot : Bool
  opened : List Nat
  deriving DecidableEq, Repr

/-- The safety island, the deadbolt and the guard (R381 to R399). Instants of errors are on the safety clock. -/
structure SafeSt where
  state : Nat
  cause : Nat
  hard : List Nat
  entryCnt : Nat
  entryTs : Nat
  heartbeat : Bool
  repeatNo : Nat
  pairLost : List Nat
  flog : List FaultRec
  flogHead : Nat
  mons : List (Nat × MonSt)
  units : List TestSt
  towersOos : List Nat
  interval : Nat
  running : Bool
  plan : Option SafetyEntry
  nextPlan : Option SafetyEntry
  identifying : List Nat
  transients : List (Nat × Nat)
  errors : List (Nat × Nat)
  entryDue : Option (Nat × Nat)
  lastKick : Nat
  deriving DecidableEq, Repr

/-! ### Security -/

/-- An operation of the security engine, which serves one at a time in order of arrival (R411). -/
inductive SecOp where
  | attest (port : Nat) (report : List Byte)
  | enrol (port : Nat)
  | validate
  | advance (counter value : Nat)
  | firmware
  deriving DecidableEq, Repr

/-- The mailbox (R425), which follows the loader's rules. -/
structure MailboxSt where
  state : Nat
  busyCopy : Bool
  status : Nat
  total : Nat
  chunk : Nat × Nat
  aperture : Mem
  staging : Mem
  covered : List (Nat × Nat)
  deriving DecidableEq, Repr

/-- A request to the random generator (R417): the entropy input that seeded it, and the requests made since. -/
structure Rnd where
  seed : Nat
  k : Nat
  deriving DecidableEq, Repr

/-- A counter transaction with the secure flash (R410): counter, value, the flash's write count, nonce. -/
structure CtrTxn where
  counter : Nat
  value : Nat
  writes : Nat
  nonce : Rnd
  deriving DecidableEq, Repr

/-- The security engine and the secure flash (R403 to R416): root key recovery, the firmware that runs, the flash's
banks (none: as the module was made), preferred bank, counters and key slots; the engine's operations in order; the
IV counter and session, the swap nonces; the random generator's entropy input and the requests since (R417); the flash's write
count, the counters whose value is unknown, the session in PD0, the last transaction (R410, R411). -/
structure SecSt where
  puf : Nat
  romOnly : Bool
  fwRunning : Bool
  bank : Nat
  fallback : Bool
  fwVersion : Nat
  fwSecver : Nat
  fwDigest : List Byte
  banks : List (Option (List Byte))
  preferred : Nat
  counters : List Nat
  ctrFail : Bool
  slots : List (Option (Nat × Nat))
  engine : List SecOp
  mb : MailboxSt
  ivCount : Nat
  ivSession : Rnd
  nonces : List Rnd
  seed : Nat
  drawn : Nat
  writes : Nat
  unknown : List Nat
  session : Bool
  txn : Option CtrTxn
  deriving DecidableEq, Repr

/-! ### Power and start-up -/

/-- The states of a power domain (R426), numbered as PWR_DOM_STATE.STATE. -/
inductive DomState where
  | off
  | waking
  | on
  | retain
  deriving DecidableEq, Repr

/-- A power domain (R426 to R431, R436): its state, whether it wakes from OFF, its policy, its present point; when it last had
demand, and when it entered RETAIN, on the block's elapsed time (R429). -/
structure DomSt where
  state : DomState
  fromOff : Bool
  policy : Nat
  point : Nat
  demandAt : Nat
  retainAt : Nat
  deriving DecidableEq, Repr

/-- The governor and the meter (R437 to R443): ceilings and the counts of evaluations behind them (cap, base die, core
die 0, core die 1), dies and towers too hot, droop, supply faults that stand, a loss of the reference oscillator, a
rate error of the time base, the energy charged. -/
structure PwrSt where
  doms : List DomSt
  ceilings : List Nat
  calm : List Nat
  capZero : Nat
  hot : List Bool
  towerPaced : List Bool
  towerHot : List Bool
  supply : List SupplyFault
  oscLost : Bool
  rateBad : Bool
  drooping : List Bool
  meterFault : Bool
  vtDefault : Bool
  unattr : Nat
  partNj : List Nat
  modNj : Nat
  deriving DecidableEq, Repr

/-- The phases of key-off (R453). -/
inductive KeyOffPhase where
  | none
  | holding
  | lbist
  | lbistDone
  | parked
  deriving DecidableEq, Repr

/-- Start-up and key-off (R446 to R457): power good, the reference oscillator, the self-tests, readiness, the records
that wait for readiness, the key-off results that PD0 keeps, a key-off LBIST that power loss would cut. -/
structure BootSt where
  powered : Bool
  refOsc : Bool
  wakeStart : Bool
  lbistDone : Bool
  mbistDone : Bool
  ready : Bool
  records : List FaultRec
  keyOff : KeyOffPhase
  keyOffRecords : List FaultRec
  keyOffCut : Bool
  laneCfg : Nat
  cfgmSel : Nat
  deriving DecidableEq, Repr

/-! ### Key-value cache -/

/-- The states of a sequence context (R212), numbered as ATTN_CTXQ_STATE.STATE. -/
inductive CtxState where
  | free
  | open'
  | swappingOut
  | swapped
  | swappingIn
  | lost
  deriving DecidableEq, Repr

/-- A page of a lane that is not unmapped, as the context's own records hold it (R194). -/
inductive PageAt where
  | resident (slot : Nat)
  | swapped (slot gen : Nat)
  | staged (engine slot : Nat)
  deriving DecidableEq, Repr

/-- A lane (R193): committed and tentative positions, and its pages. -/
structure LaneSt where
  fill : Nat
  tent : Nat
  pages : List (Nat × PageAt)
  deriving DecidableEq, Repr

/-- A sequence context that is not FREE (R192 to R197, R210): its geometry, its swap generation, the time of its last
use, the page slots held for a swap-in and the target whose step asked for it (R211), the engine that moves its pages
(R217). -/
structure CtxSt where
  state : CtxState
  prio : Nat
  pin : Bool
  d : Nat
  kFmt : Nat
  vFmt : Nat
  maxPos : Nat
  ptAddr : Nat
  gen : Nat
  lastUse : Nat
  lanes : List LaneSt
  heldSlots : List Nat
  asker : Option Nat
  mover : Nat
  deriving DecidableEq, Repr

/-- A staging slot in use (R199): the page, the order in which its first row arrived, the rows present. -/
structure StageSlot where
  part : Nat
  ctx : Nat
  lane : Nat
  page : Nat
  order : Nat
  rows : Nat
  deriving DecidableEq, Repr

/-- An attention engine (R191, R199): its staging buffer of 8 slots, the extents of it that are poisoned (R139), and the
targets whose steps are at the engine, in order of arrival. -/
structure EngineSt where
  staging : Mem
  slots : List (Option StageSlot)
  poison : List (Nat × Nat)
  line : List Nat
  deriving DecidableEq, Repr

/-- The key-value pool of a partition: contexts, whether the free slots were below the threshold at the last change
(R218), and the targets whose steps wait for page slots, in order of request (R212). -/
structure PoolSt where
  ctxs : List (Nat × CtxSt)
  wasLow : Bool
  queue : List Nat
  deriving DecidableEq, Repr

/-! ### Sensor ingest -/

/-- An image: width, height, channels, 16-bit values in row-major order, channels interleaved (R256). -/
structure Pixels where
  w : Nat
  h : Nat
  nc : Nat
  data : List Nat
  deriving DecidableEq, Repr

/-- What a sample carries until its slot is written (R249): camera lines as received, or the bytes of its slot with the
rows that they hold. -/
inductive SampleData where
  | lines (l : List (List Nat))
  | rows (b : List Byte) (count : Nat)
  deriving DecidableEq, Repr

/-- A sample in an alignment stream (R264 to R268). `closed`: the source has ended it; `complete`: its last slot byte
is written. -/
structure SampleSt where
  stream : Nat
  seq : Nat
  ts : Nat
  id : Nat
  status : Nat
  data : SampleData
  closed : Bool
  complete : Bool
  rows : Nat
  deriving DecidableEq, Repr

/-- A camera port (R251 to R254): link, gear, whether a frame is in progress, the status of the last closed frame, an
upstream transaction in progress, the pipe and the alignment stream of the frame in progress (R54). The frame's sample
stands in its alignment stream. -/
structure CamSt where
  gear : Nat
  inFrame : Bool
  lines : Nat
  frameStatus : Nat
  last : Nat
  cci : Bool
  route : Option (Nat × Nat)
  deriving DecidableEq, Repr

/-- An open window of a ring (R266 to R269): its number, its buffer, its samples. Once closed it waits with its batch record
for the batch to be complete. A depot batch that is being built holds its requests in `record` (R276). -/
structure WindowSt where
  k : Nat
  buf : Option Nat
  skipped : Bool
  samples : List SampleSt
  closed : Bool
  record : List Byte
  srcTs : Nat
  deriving DecidableEq, Repr

/-- The states of a batch buffer (R269). -/
inductive BufSt where
  | free
  | filling
  | complete (seq : Nat) (srcTs : Nat)
  | claimed (srcTs : Nat)
  deriving DecidableEq, Repr

/-- A batch ring (R266 to R274, R276): buffers, open windows, the first window still to close, the batch numbers and
the head of its depot requests, a slot placement fault, samples that wait for a fifth window. -/
structure RingSt where
  bufs : List BufSt
  wins : List WindowSt
  waiting : List SampleSt
  nextWin : Nat
  batchNo : Nat
  reqNo : Nat
  cfgErr : Bool
  stopped : Bool
  deriving DecidableEq, Repr

/-- An alignment stream beyond its registers: its next sequence number, its last slot status, whether its last sample was
cut off while its source still sends (R267). -/
structure StreamSt where
  nextSeq : Nat
  last : Nat
  cut : Bool
  deriving DecidableEq, Repr

/-- A scatter engine (R263 to R265): the sweep in progress as its SWEEP field and the points written, the field value
whose change ends a resynchronisation, the last reason. -/
structure ScatSt where
  sweep : Option (Nat × Nat)
  resync : Option Nat
  reason : Nat
  deriving DecidableEq, Repr

/-- A decoded picture (R258 to R262): chroma format (0 monochrome, 1 4:2:0, 2 RGB888), bits, planes of 8- or 16-bit values. -/
structure Picture where
  w : Nat
  h : Nat
  chroma : Nat
  bits : Nat
  data : List Nat
  deriving DecidableEq, Repr

/-- A picture that waits for its output, with what its descriptor gives it, the words of the tensor stage's parameter set
in force as it began (R250), the alignment stream of its route and the owner of its stream as it began (R54); with the last
picture of a descriptor goes the number of its pictures. -/
structure PicWait where
  pic : Picture
  status : Nat
  ts : Nat
  tag : Nat
  sampleId : Option Nat
  wbAddr : Nat
  lastOf : Option Nat
  stage : List Nat
  route : Option Nat
  owner : Nat
  deriving DecidableEq, Repr

/-- A decoder stream (R258 to R262): state, reason of the last reset, the pictures that wait in output order, reference
memory held, whether a corrupt picture awaits the next random access point, the sequence header in force and the coded units
taken since the last reset, on which what the next one decodes to depends. -/
structure VdecSt where
  state : Nat
  reason : Nat
  queue : List PicWait
  refBytes : Nat
  corruptChain : Bool
  seq : Option SeqHeader
  units : List (List Byte)
  deriving DecidableEq, Repr

/-- An entry of the decoded-sample cache (R275, R278): the picture, its capture timestamp, its status, its units of 64 KiB,
whether it leaves once the batch that reads it is complete (R281). -/
structure CacheEntry where
  pic : Picture
  ts : Nat
  status : Nat
  units : Nat
  doomed : Bool
  deriving DecidableEq, Repr

/-- The ingest blocks (ch. 9). -/
structure IngSt where
  cams : List CamSt
  pipeErr : List Bool
  streams : List StreamSt
  rings : List RingSt
  scats : List ScatSt
  vdecs : List VdecSt
  vdecErr : List Bool
  cache : List (Nat × CacheEntry)
  deriving DecidableEq, Repr

/-! ### The outputs of the block -/

/-- What leaves the block: completions to a host, messages, host writes, frames, pin levels. Log entry 82. -/
inductive Out where
  | readData (port : Nat) (data : List Byte) (poisoned : Bool)
  | readAbort (port : Nat)
  | msi (port vector addr data : Nat)
  | hostWrite (port addr : Nat) (data : List Byte)
  | can (ctl : Nat) (frame : CanFrame)
  | eth (e : Nat) (frame : List Byte)
  | t1s (q : Nat) (frame : List Byte)
  | ptp (q : Nat) (frame : PtpFrame)
  | pulse (g : Nat) (level : Bool)
  | sentSup (on : Bool)
  | camTrigger (cam : Nat)
  | cci (cam dev reg : Nat) (read : Bool) (data : Nat)
  | deadbolt (running : Bool)
  | dominantOff (ctl : Nat)
  deriving DecidableEq, Repr

/-! ### The state -/

/-- Scratchpads, cores, jobs, queues, the number of the next job and the dispatcher (ch. 4, 5, 8); of each narrow-channel engine
the present granule, the partition served last in a granule that its owner left, and the partition that holds the present one
(R183). Log entry 75. -/
structure ComputeSt where
  cores : List CoreSt
  catches : List (Nat × Nat)
  parts : List PartSt
  queues : List (Nat × QueueSt)
  nceGranule : List Nat
  nceTurn : List Nat
  nceHolder : List (Option Nat)
  nextJob : Nat
  deriving DecidableEq, Repr

/-- The stacked DRAM (R148 to R153): its bytes, the granules poisoned, the towers. -/
structure DramSt where
  mem : Mem
  poison : List Nat
  towers : List TowerSt
  deriving DecidableEq, Repr

/-- The key-value cache (ch. 7). -/
structure KvSt where
  engines : List EngineSt
  pools : List PoolSt
  order : Nat
  deriving DecidableEq, Repr

/-- The control engine and the SENT receivers (ch. 10). -/
structure CtlSt where
  chans : List ChanSt
  sents : List SentSt
  deriving DecidableEq, Repr

/-- The state of the block. `pending` holds the commands that wait, first in, first out; `fresh` counts the free values
drawn (log entry 2); `out` lists what has left the block, oldest first. The three are the model's own. -/
structure State where
  pending : List Instr
  fresh : Nat
  out : List Out
  regs : Regs
  ports : List PortSt
  boot : BootSt
  ward : WardSt
  sec : SecSt
  pwr : PwrSt
  safe : SafeSt
  time : TimeSt
  comp : ComputeSt
  dram : DramSt
  kv : KvSt
  ing : IngSt
  ctl : CtlSt
  can : List CanSt
  t1s : List T1sSt
  eth : List EthSt
  deriving DecidableEq, Repr

/-- Why the block stops. No rule of the spec stops it, so there is no reason: every command answers a next state. Log entry 7.
-/
inductive Fault where
  deriving DecidableEq, Repr

/-- Why a command is refused. -/
inductive Refusal where
  /-- Raised by `exec` for a command that has no meaning yet. Safe. -/
  | notModelled (mnemonic : String)
  deriving DecidableEq, Repr

/-! ### Reset -/

/-- A park image, or a scratchpad, of which nothing is known: undefined bytes (log entry 2), every bank on, no tag (R135). -/
def Pad.reset (epoch : Nat) : Pad :=
  ⟨List.replicate 64 (.free epoch), [], [], List.replicate 64 .on, 0⟩

/-- A queue that is empty (R220). Log entry 91. -/
def QueueSt.empty : QueueSt := ⟨0, 0, true, none, none, false⟩

/-- A partition without jobs. Log entry 91. -/
def PartSt.empty : PartSt := ⟨[], 0, false, none, 65535, false, false, false⟩

/-- A setpoint entry that nothing has written. Log entry 91. -/
def SpEntry.reset : SpEntry := ⟨List.replicate 4 0, 0, List.replicate 4 none, 0⟩

/-- A control channel at reset (R303, R309). Log entry 91. -/
def ChanSt.reset : ChanSt :=
  ⟨.disabled, false, false, List.replicate 16 none, List.replicate 16 none, .reset, .reset, none, 0, [], false, [], none⟩

/-- A message object at reset. Log entry 91. -/
def CanObjSt.reset : CanObjSt := ⟨false, false, false, none, false, false, 0, 0, false, false, 0, 0, 0, none, none⟩

/-- A CAN controller at reset: in INIT (R323). Log entry 91. -/
def CanSt.reset : CanSt := ⟨0, 0, 0, 0, 0, false, false, none, none, [], 0, 0, 0, none, none⟩

/-- A 10BASE-T1S port at reset. Log entries 4, 91. -/
def T1sSt.reset : T1sSt := ⟨[], [], none, false, false, 0⟩

/-- A PTP port at reset. Log entry 91. -/
def PtpSt.reset : PtpSt := ⟨none, 0, none, 0, 0, 0, 0, [], none, none, false⟩

/-- A pulse generator at reset: its pin low (R477). Log entry 91. -/
def PulseSt.reset : PulseSt := ⟨false, 0, false, 0, false⟩

/-- The servo before its first measurement (R340). Log entry 91. -/
def Servo.reset : Servo := ⟨false, false, 0, 0, 0, none, 0⟩

/-- The time base as PD0 leaves reset (R332): zero, coarse until the reference oscillator runs (R334, R447), FREE. -/
def TimeSt.reset : TimeSt :=
  ⟨0, true, .free, false, none, .reset, List.replicate 8 .reset, List.replicate 8 .reset, 0, 0, 0⟩

/-- A unit that no plan tests. Log entry 91. -/
def TestSt.reset : TestSt := ⟨false, 0, false, false, false, false, false, false, []⟩

/-- The safety island as PD1 leaves reset (R402). -/
def SafeSt.reset : SafeSt :=
  ⟨0, 0, [], 0, 0, false, 0, [], [], 0, [], List.replicate 22 .reset, [], 0, false, none, none, [], [], [],
   none, 0⟩

/-- The mailbox at reset. Log entry 4. -/
def MailboxSt.reset : MailboxSt := ⟨0, false, 0, 0, (0, 0), .zero, .zero, []⟩

/-- The security engine of a new module as PD2 powers up (R403, R410): the flash as it was made. Log entry 4. -/
def SecSt.reset : SecSt :=
  ⟨0, false, false, 0, false, 0, 0, [], [none, none], 0, [0, 0, 0, 0], false, [none, none, none, none], [], .reset, 0, ⟨0, 0⟩,
   (List.range 8).map fun p => ⟨0, 1 + p⟩, 0, 9, 0, [], false, none⟩

/-- Domain d before readiness (R448): PD0 to PD4 on, the others off. -/
def DomSt.reset (d : Nat) : DomSt := ⟨if d < 5 then .on else .off, false, 0, 0, 0, 0⟩

/-- The governor at reset (R445): cap ceiling 6, thermal ceilings 7. -/
def PwrSt.reset : PwrSt :=
  ⟨(List.range 29).map DomSt.reset, [6, 7, 7, 7], [0, 0, 0, 0], 0, [false, false, false],
   List.replicate 4 false, List.replicate 4 false, [], false, false, List.replicate 16 false, false, false, 0,
   List.replicate 8 0, 0⟩

/-- Start-up at power good (R446). Log entry 4. -/
def BootSt.reset : BootSt := ⟨true, false, false, false, false, false, [], .none, [], false, 3, 3⟩

/-- A decoder stream at reset. Log entry 91. -/
def VdecSt.reset : VdecSt := ⟨0, 0, [], 0, false, none, []⟩

/-- A batch ring at reset. Log entry 91. -/
def RingSt.reset : RingSt := ⟨[], [], [], 0, 0, 0, false, false⟩

/-- The ingest blocks at reset. Log entry 91. -/
def IngSt.reset : IngSt :=
  ⟨List.replicate 16 ⟨0, false, 0, 0, 0, false, none⟩, List.replicate 16 false, List.replicate 64 ⟨0, 0, false⟩,
   List.replicate 8 .reset, List.replicate 4 ⟨none, none, 0⟩, List.replicate 64 .reset, List.replicate 64 false, []⟩

/-- The Ward loader at reset: no image in force (R51). Log entry 4. -/
def WardSt.reset : WardSt := ⟨.idle, false, 0, 0, (0, 0), .zero, .zero, [], none, none⟩

/-- Cores, catches and jobs as a power-up leaves them: the cores' domains are off, so every bank is OFF (R121, R155).
Log entry 90. -/
def ComputeSt.reset (epoch : Nat) : ComputeSt :=
  ⟨(List.range 16).map fun n => ⟨⟨List.replicate 64 (.free (epoch + n)), [], [], List.replicate 64 .off, 0⟩, none, [], 0⟩, [],
   List.replicate 8 .empty, [], [0, 0], [7, 7], [none, none], 0⟩

/-- The stacked DRAM at power good: what memory BIST leaves there (R450); towers off until readiness. Log entry 90. -/
def DramSt.reset : DramSt := ⟨.zero, [], List.replicate 4 ⟨.off, 0, false⟩⟩

/-- The key-value cache without a context; the staging buffers hold undefined bytes. Log entry 90. -/
def KvSt.reset (epoch : Nat) : KvSt :=
  ⟨(List.range 4).map fun e => ⟨⟨.free (epoch + e), []⟩, List.replicate 8 none, [], []⟩, List.replicate 8 ⟨[], false, []⟩, 0⟩

/-- The control engine at reset. Log entry 91. -/
def CtlSt.reset : CtlSt := ⟨List.replicate 24 .reset, List.replicate 16 ⟨none, []⟩⟩

/-- A port that has not trained its link; its configuration space as the PCI Express standard resets it. Its PERST_N is low, as
its pull-down leaves it until a host drives it high (R480). Log entries 16, 91. -/
def PortSt.reset : PortSt := ⟨false, 0, 0, 5, false, [], {}, 0, true⟩

/-- The block at the instant of power good (R446): registers at their reset values, nothing ready, the straps read 3
(log entry 4). -/
def State.reset : State where
  pending := []
  fresh := 20
  out := []
  regs := .empty
  ports := List.replicate 4 .reset
  boot := .reset
  ward := .reset
  sec := .reset
  pwr := .reset
  safe := .reset
  time := .reset
  comp := .reset 0
  dram := .reset
  kv := .reset 16
  ing := .reset
  ctl := .reset
  can := List.replicate 8 .reset
  t1s := List.replicate 4 .reset
  eth := List.replicate 4 ⟨false, false, 0, []⟩

end Sys2Proof.Machine
end

