-- ==== Sys2Proof/Machine/Ops.lean ====
section
/-!
DEFINITION. The named operations that every family shares: instants of the time base, bindings and routes of the image
in force, the register store, MSI-X messages, event registers, bus errors, fault records, free values.
-/
namespace Sys2Proof.Machine

/-! ### Instants -/

/-- Nanoseconds at which the seconds wrap (R338). -/
def nsWrap : Nat := 2 ^ 48 * 1000000000

/-- Nanoseconds of the time base (R332). -/
def TimeSt.ns (t : TimeSt) : Nat := t.tb / 2 ^ 28

/-- The fraction F of the time base, in 2^-16 ns (R332). -/
def TimeSt.frac (t : TimeSt) : Nat := t.tb / 2 ^ 12 % 2 ^ 16

/-- The present instant in ns. -/
def State.now (s : State) : Nat := s.time.ns

/-- The receive stamp of what arrives now: a multiple of 4 ns, from `back` ns before the present one on, `off` steps later
(R253: within 8 ns; R342: within 20 ns). Log entry 6. -/
def State.stampNear (s : State) (back off : Nat) : Nat := (s.now / 4 * 4 + 4 * off + nsWrap - back) % nsWrap

/-- The signed difference of two full time values (R338). -/
def tdiff (a b : Nat) : Int :=
  let d := (a + nsWrap - b % nsWrap) % nsWrap
  if d < nsWrap / 2 then (d : Int) else (d : Int) - (nsWrap : Int)

/-- The packing of a time value in 64 bits (R229). -/
def packTs (ns : Nat) : Nat := ns / 1000000000 % 2 ^ 34 * 2 ^ 30 + ns % 1000000000

/-- A time value from its packing (R229). -/
def unpackTs (v : Nat) : Nat := v / 2 ^ 30 * 1000000000 + v % 2 ^ 30

/-- The signed difference of two values packed as R229 states (R338). -/
def tdiffPacked (a b : Nat) : Int :=
  let m := 2 ^ 34 * 1000000000
  let d := (a + m - b % m) % m
  if d < m / 2 then (d : Int) else (d : Int) - (m : Int)

/-- The three register words of an instant: nanoseconds, seconds bits 31:0, seconds bits 47:32. -/
def tsWords (ns : Nat) : List Nat :=
  [ns % 1000000000, ns / 1000000000 % 2 ^ 32, ns / 1000000000 / 2 ^ 32 % 2 ^ 16]

/-! ### Ports, bindings and routes -/

/-- The number of ports that exist (R353). -/
def State.nPorts (s : State) : Nat := s.boot.laneCfg + 1

/-- The port's link is up, its PERST_N does not hold it and its function is in D0: requests pass, either way (R355, R421, R480).
Log entry 16. -/
def State.linkUp (s : State) (port : Nat) : Bool := match s.ports[port]? with
  | some p => p.up && !p.perst && !p.cfg.d3hot
  | none => false

/-- The configuration master port (R57). -/
def State.master (s : State) : Nat := if s.boot.cfgmSel < s.nPorts then s.boot.cfgmSel else 0

/-- A drive image is in force. -/
def State.drive (s : State) : Bool := match s.ward.image with
  | some i => i.profile == 1
  | none => false

/-- A depot image is in force. -/
def State.depot (s : State) : Bool := match s.ward.image with
  | some i => i.profile == 2
  | none => false

/-- The PARTITION entry of a partition. -/
def State.part (s : State) (p : Nat) : Option PartEntry :=
  s.ward.image.bind fun i => i.parts.find? fun e => e.index == p

/-- The binding of a queue (R38). -/
def Image.bindOf (i : Image) (q : Nat) : Option BindEntry :=
  i.binds.find? fun b => decide (b.first ≤ q) && decide (q ≤ b.first + b.countM1)

/-- The binding of a queue under the image in force. -/
def State.bindOf (s : State) (q : Nat) : Option BindEntry := s.ward.image.bind fun i => i.bindOf q

/-- A queue on the port is bound to the partition. -/
def State.bound (s : State) (part port : Nat) : Bool := match s.ward.image with
  | some i => i.binds.any fun b => b.part == part && b.port == port
  | none => false

/-- The ports with a queue bound to the partition. -/
def State.portsOf (s : State) (part : Nat) : List Nat := (List.range s.nPorts).filter fun x => s.bound part x

/-- The SAFETY partition. -/
def State.safetyPart (s : State) : Option PartEntry :=
  s.ward.image.bind fun i => i.parts.find? fun e => e.isSafety

/-- The partition of a physical core. -/
def State.partOfCore (s : State) (n : Nat) : Option Nat :=
  s.ward.image.bind fun i => (i.parts.find? fun e => tbit e.coreMask n).map (·.index)

/-- The partition of an attention engine. -/
def State.partOfEngine (s : State) (e : Nat) : Option Nat :=
  s.ward.image.bind fun i => (i.parts.find? fun x => tbit x.attnMask e).map (·.index)

/-- The route of a source (R39). -/
def State.route (s : State) (t ix : Nat) : Option RouteEntry :=
  s.ward.image.bind fun i => i.routes.find? fun r => r.srcType == t && r.srcIndex == ix

/-- The partition whose ring an alignment stream feeds (R249). -/
def State.ringOf (s : State) (stream : Nat) : Option Nat := (s.route 5 stream).map (·.part)

/-- The alignment stream that a pipe, a decoder stream or a scatter engine feeds. -/
def State.streamOf (s : State) (t ix : Nat) : Option Nat := (s.route t ix).map (·.dstIndex)

/-- The pipe that a camera port feeds. -/
def State.pipeOf (s : State) (cam : Nat) : Option Nat := (s.route 1 cam).map (·.dstIndex)

/-- The entry of a control channel, where it is enabled (R43). -/
def State.chanEntry (s : State) (c : Nat) : Option ChanEntry :=
  (s.ward.image.bind fun i => i.chans[c]?).filter (·.enabled)

/-! ### The register store -/

/-- The registers of a block, by its 1 MiB slot of BAR0 (R360). -/
def Regs.blk (r : Regs) (slot : Nat) : RegBlock :=
  match slot with
  | 0 => r.global
  | 1 => r.ward
  | 2 => r.safe
  | 3 => r.sec
  | 4 => r.pwr
  | 5 => r.time
  | 6 => r.pci
  | 7 => r.queue
  | 8 => r.ing
  | 9 => r.vdec
  | 10 => r.nce
  | 11 => r.attn
  | 12 => r.ctl
  | 13 => r.can
  | 14 => r.eth
  | _ => r.core

/-- The store with the registers of a block replaced. -/
def Regs.setBlk (r : Regs) (slot : Nat) (b : RegBlock) : Regs :=
  match slot with
  | 0 => { r with global := b }
  | 1 => { r with ward := b }
  | 2 => { r with safe := b }
  | 3 => { r with sec := b }
  | 4 => { r with pwr := b }
  | 5 => { r with time := b }
  | 6 => { r with pci := b }
  | 7 => { r with queue := b }
  | 8 => { r with ing := b }
  | 9 => { r with vdec := b }
  | 10 => { r with nce := b }
  | 11 => { r with attn := b }
  | 12 => { r with ctl := b }
  | 13 => { r with can := b }
  | 14 => { r with eth := b }
  | _ => { r with core := b }

/-- The slot of a key. -/
def slotOf (k : Nat) : Nat := keyOff k / 0x100000

/-- The value in force of a register. -/
def Regs.val (r : Regs) (k : Nat) : Nat :=
  match alGet (r.blk (slotOf k)).vals k with
  | some w => w.toNat
  | none => resetOf k % 2 ^ 32

/-- The value in force of a register. -/
def State.rv (s : State) (k : Nat) : Nat := s.regs.val k

/-- The store with a value in force set. -/
def Regs.setVal (r : Regs) (k v : Nat) : Regs :=
  let b := r.blk (slotOf k)
  r.setBlk (slotOf k) { b with vals := alPut (toWord (resetOf k)) b.vals k (toWord v) }

/-- The state with a value in force set. -/
def State.setReg (s : State) (k v : Nat) : State := { s with regs := s.regs.setVal k v }

/-- Consecutive words set. -/
def State.setRegs (s : State) (k : Nat) : List Nat → State
  | [] => s
  | v :: t => (s.setReg k v).setRegs (k + 4) t

/-- The shadow of an RWL register (R366): what a read returns. -/
def Regs.shadow (r : Regs) (k : Nat) : Nat :=
  match alGet (r.blk (slotOf k)).shadows k with
  | some w => w.toNat
  | none => resetOf k % 2 ^ 32

/-- The store with a shadow set. -/
def Regs.setShadow (r : Regs) (k v : Nat) : Regs :=
  let b := r.blk (slotOf k)
  r.setBlk (slotOf k) { b with shadows := alPut (toWord (resetOf k)) b.shadows k (toWord v) }

/-- A 64-bit counter, by the offset of its lower word (R370). -/
def State.ctr (s : State) (k : Nat) : Nat := (alGet (s.regs.blk (slotOf k)).counters k).getD 0

/-- The state with a counter increased, modulo 2^64 (R370). -/
def State.bump (s : State) (k n : Nat) : State :=
  let b := s.regs.blk (slotOf k)
  { s with regs := s.regs.setBlk (slotOf k) { b with counters := alPut 0 b.counters k ((s.ctr k + n) % two64) } }

/-- A block of registers after its domain's reset: values, shadows and captures at reset; the keys that a predicate
keeps stay. -/
def RegBlock.resetKeep (b : RegBlock) (keep : Nat → Bool) : RegBlock :=
  ⟨b.vals.filter (keep ·.1), b.shadows.filter (keep ·.1), b.caps.filter (keep ·.key), b.counters.filter (keep ·.1)⟩

/-! ### Free values and outputs -/

/-- A free number (log entry 2), and the state that has drawn it. -/
def State.draw (s : State) : Nat × State := (Config.freeNat s.fresh, { s with fresh := s.fresh + 1 })

/-- What leaves the block. Log entry 82. -/
def State.emit (s : State) (o : Out) : State := { s with out := s.out ++ [o] }

/-! ### Messages and events -/

/-- The key of a word of MSI-X entry v. Log entry 16. -/
def msixKey (port v o : Nat) : Nat := portKey port (0x640000 + 16 * v + o)

/-- The key of the pending-bit word of vector v. Log entry 16. -/
def pbaKey (port v : Nat) : Nat := portKey port (0x648000 + 4 * (v / 32))

/-- The configuration space of a port. -/
def State.pciCfg (s : State) (port : Nat) : PciCfg := (s.ports.getD port .reset).cfg

/-- A port sends one vector (R365): a message, or its pending bit where the vector or the function is masked; nothing where
MSI-X is not enabled or the function is in D3hot. Log entry 16. -/
def State.sendVector (s : State) (port v : Nat) : State :=
  let c := s.pciCfg port
  if !c.msixEnable || c.d3hot then s
  else if c.msixMask || tbit (s.rv (msixKey port v 12)) 0 then
    s.setReg (pbaKey port v) (s.rv (pbaKey port v) ||| 2 ^ (v % 32))
  else
    s.emit (.msi port v (s.rv (msixKey port v 0) + 2 ^ 32 * s.rv (msixKey port v 4)) (s.rv (msixKey port v 8)))

/-- Ports that a source's event register interrupts, by the key of the register (R365 and each block's chapter). -/
def State.eventPorts (s : State) (k : Nat) : List Nat :=
  let off := keyOff k
  let owner : Option Nat → List Nat := fun
    | some p => s.portsOf p
    | none => []
  let viaStream : Option Nat → List Nat := fun x => owner (x.bind fun st => s.ringOf st)
  match slotOf k with
  | 0 | 3 | 6 => [k / 2 ^ 26 - 1]
  | 1 | 4 | 5 | 13 | 14 => [s.master]
  | 2 =>
    (List.range s.nPorts).filter fun x => x == s.master || (s.safetyPart.any fun p => s.bound p.index x)
  | 7 => owner (some ((off - 0x701000) / 0x40))
  | 8 =>
    if off < 0x810000 then viaStream ((s.pipeOf ((off - 0x800000) / 0x1000)).bind fun p => s.streamOf 2 p)
    else owner (some ((off - 0x860000) / 0x100))
  | 9 =>
    let st := (off - 0x900000) / 0x1000
    match s.streamOf 3 st with
    | some a => viaStream (some a)
    | none =>
      let o := field (s.rv (0x900000 + 0x1000 * st)) 16 4
      if o < 8 then owner (some o) else []
  | 10 =>
    (List.range s.nPorts).filter fun x => match s.ward.image with
      | some i => i.parts.any fun p => p.nceShare != 0 && s.bound p.index x
      | none => false
  | 11 =>
    if 0xB30000 ≤ off ∧ off < 0xB30200 then owner (some ((off - 0xB30000) / 0x40))
    else owner (s.partOfEngine ((off - 0xB00000) / 0x40000))
  | 12 => owner ((s.chanEntry ((off - 0xC10000) / 0x1000)).map (·.part))
  | n => owner (s.partOfCore (n - 16))

/-- The vector of a source, sent on every port it interrupts (R365). -/
def State.sendSource (s : State) (k : Nat) : State :=
  (s.eventPorts k).foldl (fun s p => s.sendVector p (field (s.rv (portKey p (0x600080 + 4 * slotOf k))) 0 11)) s

/-- An event register has its enable register in the word after it; QUEUE_ERR, CAN_OBJ_EVENT and CAN_WAKE have none. -/
def hasEnable (k : Nat) : Bool :=
  decide (k < 2 ^ 30) && !(slotOf k == 13 && decide (0x38 ≤ keyOff k % 0x20000))

/-- Event bits set in an event register; a message goes out where an enabled bit changes from 0 to 1 (R365). -/
def State.raise (s : State) (k bits : Nat) : State :=
  let old := s.rv k
  let s1 := s.setReg k (old ||| bits)
  if hasEnable k && (clearBits bits old &&& s.rv (k + 4)) != 0 then s1.sendSource k else s1

/-- A W1C write (R11): the bits written as 1 clear, and a message goes out where an enabled bit stays set (R365). -/
def State.w1c (s : State) (k v : Nat) : State :=
  let x := clearBits (s.rv k) v
  let s1 := s.setReg k x
  if hasEnable k && (x &&& s.rv (k + 4)) != 0 then s1.sendSource k else s1

/-! ### Bus errors (R361) -/

/-- A bus error on a port: the count, and the log where it is clear (R361, R373). `kind` and `bar` as
PCI_BUSERR_INFO. -/
def State.busError (s : State) (port bar kind off : Nat) : State :=
  let k := fun o => portKey port (0x600000 + o)
  let s1 := s.setReg (k 0x38) (min (s.rv (k 0x38) + 1) 0xFFFFFFFF)
  if tbit (s.rv (k 0x20)) 31 then s1
  else
    let s2 := (s1.setReg (k 0x20) (2 ^ 31 + bar * 2 ^ 16 + kind)).setReg (k 0x24) (off % 2 ^ 32)
    let s3 := (s2.setReg (k 0x28) (off / 2 ^ 32 % 16)).setRegs (k 0x2C) (tsWords s.now)
    s3.raise (k 0x10) 1

/-- Completer Abort in the Uncorrectable Error Status of a port (R361): bit 15, as the PCI Express standard places it. Log entry
16. -/
def State.markAbort (s : State) (port : Nat) : State :=
  { s with ports := lmod s.ports port fun p => { p with aer := p.aer ||| 2 ^ 15 } }

/-- A read that is a bus error: Completer Abort, recorded in Advanced Error Reporting, and the log (R361). -/
def State.readError (s : State) (port bar kind off : Nat) : State :=
  ((s.busError port bar kind off).markAbort port).emit (.readAbort port)

/-! ### Fault records (R397) -/

/-- A record in the fault log, with FLOG (R397, R402). -/
def State.logFault (s : State) (r : FaultRec) : State :=
  let l := s.safe.flog ++ [r]
  let s1 := { s with safe := { s.safe with flog := l.drop (l.length - 64), flogHead := min (s.safe.flogHead + 1) 0xFFFFFFFF } }
  s1.raise 0x200020 0x100

/-- A record of the present instant. -/
def State.logNow (s : State) (response unit code : Nat) : State := s.logFault ⟨response, unit, code, s.now⟩

end Sys2Proof.Machine
end

