-- ==== Sys2Proof/Machine/Gate.lean ====
section
/-!
DEFINITION. The gate that every command of a port passes: it reaches the module (R353, R355, R480), the block can be accessed
in this phase of start-up (R448), the block's rules let the port write (R361). A command that a rule forbids is a bus error.
-/
namespace Sys2Proof.Machine

/-- What one command answers. -/
abbrev Answer := Host.Outcome State Fault Refusal

/-- The blocks that accept writes before readiness: GLOBAL, WARD, SEC, PCI (R448). -/
def earlySlot (slot : Nat) : Bool := slot == 0 || slot == 1 || slot == 3 || slot == 6

/-- The block of an offset accepts writes in this phase (R448). Log entry 9. -/
def State.phaseOk (s : State) (off : Nat) : Bool := s.boot.ready || earlySlot (off / 0x100000)

/-- The module is powered and not parked (R446, R453, R465): its ports can reach it. Log entry 9. -/
def State.alive (s : State) : Bool := s.boot.powered && s.boot.keyOff != .parked

/-- The port exists (R353). -/
def State.exists' (s : State) (port : Nat) : Bool := decide (port < s.nPorts)

/-- Requests of a port reach the module: it is powered and not parked, the port exists (R353: else it has no link), its PERST_N
does not hold it (R480), its link is up and its function is in D0 (R355). Log entries 7, 9, 16. -/
def State.reach (s : State) (port : Nat) : Bool :=
  s.alive && s.exists' port && s.linkUp port

/-- A command that a port gives by a write to a register of BAR0: a bus error where the phase or the block's rules
forbid the write, else its effect. What does not reach the module changes nothing. Log entries 7, 9, 16. -/
def State.gate (s : State) (port : Port) (off : Nat) (may : Bool) (f : State → State) : Answer :=
  if !s.reach port then .next s
  else if s.phaseOk off && may then .next (f s)
  else .next (s.busError port 0 3 off)

/-- A command of a port; what does not reach the module changes nothing. Log entries 7, 9, 16. -/
def State.onPort (s : State) (port : Port) (f : State → State) : Answer :=
  if s.reach port then .next (f s) else .next s

/-- An event of a port's link or of its PERST_N, whatever the power state of its function: one of a port that does not exist is
ignored (R353, R471). Log entries 7, 9, 16. -/
def State.onLink (s : State) (port : Port) (f : State → State) : Answer :=
  if s.alive && s.exists' port then .next (f s) else .next s

/-- Work of the safety island or of the security engine by itself: both need the reference oscillator (R25). Log entry 79. -/
def State.clocked (s : State) (f : State → State) : Answer := if s.boot.refOsc then .next (f s) else .next s

/-- The port is the configuration master (R57). -/
def State.isMaster (s : State) (port : Port) : Bool := port.val == s.master

/-- The port may write the SAFE block's commands (R402). -/
def State.isSafetyPort (s : State) (port : Port) : Bool :=
  s.isMaster port || (s.safetyPart.any fun p => s.bound p.index port)

end Sys2Proof.Machine
end

