-- ==== Sys2Proof/Machine/Latch.lean ====
section
/-!
DEFINITION. Buffered writes and latches (R366 to R369): what a LATCH_GO captures, how captures apply, when LATCH_DONE is
set; the gate of reads.
-/
namespace Sys2Proof.Machine

/-- A SAFE_AGE_ESC register. -/
def isEsc (k : Nat) : Bool := decide (0x200080 ≤ keyOff k) && decide (keyOff k < 0x2000A0)

/-- The value that a captured register takes: a bit of SAFE_AGE_ESC that is in force stays set (R380). Log entry 24. -/
def RegBlock.applied (b : RegBlock) (c : Capture) : Word :=
  if isEsc c.key then (alGet b.vals c.key).getD (toWord (resetOf c.key)) ||| c.value else c.value

/-- The pending captures whose key a predicate picks take effect. -/
def RegBlock.applyCaps (b : RegBlock) (pick : Nat → Bool) : RegBlock :=
  { b with
    vals := (b.caps.filter fun c => pick c.key).foldl (fun v c => alPut (toWord (resetOf c.key)) v c.key (b.applied c)) b.vals,
    caps := b.caps.filter fun c => !pick c.key }

/-- The pending captures whose key a predicate picks are dropped. -/
def RegBlock.dropCaps (b : RegBlock) (pick : Nat → Bool) : RegBlock := { b with caps := b.caps.filter fun c => !pick c.key }

/-- The captures of a block that a predicate picks take effect (R367). -/
def State.applyCaps (s : State) (slot : Nat) (pick : Nat → Bool) : State :=
  { s with regs := s.regs.setBlk slot ((s.regs.blk slot).applyCaps pick) }

/-- The captures of a block that a predicate picks are dropped. -/
def State.dropCaps (s : State) (slot : Nat) (pick : Nat → Bool) : State :=
  { s with regs := s.regs.setBlk slot ((s.regs.blk slot).dropCaps pick) }

/-- A field that takes effect at once inside an RWL register (CAN_CTL.INIT, VDEC_STR_CFG.OWNER): set in the value in force,
in the shadow and in a pending capture. Log entry 85. -/
def State.setLive (s : State) (k lo w x : Nat) : State :=
  let r := (s.regs.setVal k (putField (s.rv k) lo w x)).setShadow k (putField (s.regs.shadow k) lo w x)
  let b := r.blk (slotOf k)
  let upd : Capture → Capture := fun c => if c.key = k then { c with value := toWord (putField c.value.toNat lo w x) } else c
  { s with regs := r.setBlk (slotOf k) { b with caps := b.caps.map upd } }

/-- The pending captures of every block. -/
def Regs.allCaps (r : Regs) : List Capture := (List.range 16).flatMap fun b => (r.blk b).caps

/-- GLOBAL_LATCH_PEND of a port (R369). -/
def State.latchPend (s : State) (port : Nat) : Nat :=
  s.regs.allCaps.foldl (fun m c => if c.ports.contains port then m ||| 2 ^ groupOf c.key else m) 0

/-- LATCH_DONE on each port whose GLOBAL_LATCH_PEND has become 0 (R369). Log entry 19. -/
def State.latchDone (t s : State) : State :=
  (List.range s.nPorts).foldl (fun t p =>
    if s.latchPend p != 0 && t.latchPend p == 0 then t.raise (portKey p 0x40) 1 else t) t

/-- The instance that owns a register of a latch group (R367). Log entry 18. -/
def instOf (k : Nat) : Nat :=
  let off := keyOff k
  match groupOf k with
  | 0 => k / 2 ^ 26 * 16 - 16 + (off - 0x600100) / 8
  | 1 => (off - 0x610000) / 16
  | 2 => (off - 0xC10000) / 0x1000
  | 3 =>
    if 0xC10000 ≤ off then (off - 0xC10000) / 0x1000
    else if 0xC00C00 ≤ off then 40 + (off - 0xC00C00) / 4
    else 24 + (off - 0xC00800) / 0x20
  | 4 => if off < 0x810000 then (off - 0x800000) / 0x1000 else 16 + (off - 0x810000) / 0x2000
  | 5 =>
    if off < 0x860000 then (off - 0x850000) / 0x100
    else if off < 0x870000 then 64 + (off - 0x860000) / 0x100 else 64 + (off - 0x870000) / 0x100
  | 6 => (off - 0x840000) / 0x1000
  | 7 => (off - 0x900000) / 0x1000
  | 8 => (k - 2 ^ 30) / 64
  | 9 =>
    let n := (off - 0xD00000) / 0x20000
    let d := (off - 0xD00000) % 0x20000
    if d < 0x10000 then n else 8 + 128 * n + (d - 0x10000) / 0x80
  | 10 => (off - 0xE80000) / 0x10000
  | 11 =>
    if off < 0x510000 then 0
    else if off < 0x520000 then 1 + (off - 0x510000) / 0x100 else 9 + (off - 0x520000) / 0x40
  | 12 => (off - 0xB30000) / 0x40
  | 13 => (off - 0xE00000) / 0x10000
  | 14 => if 0x400100 ≤ off ∧ off < 0x400120 then 1 + (off - 0x400100) / 4 else 0
  | _ => 0

/-- The block of a latch group. -/
def slotOfGroup (g : Nat) : Nat :=
  match g with
  | 0 => 6 | 1 => 6 | 2 => 12 | 3 => 12 | 4 => 8 | 5 => 8 | 6 => 8 | 7 => 9 | 8 => 7 | 9 => 13 | 10 => 14 | 11 => 5 | 12 => 11
  | 13 => 14 | 14 => 4 | 15 => 2 | _ => 15

/-- The captures of a block that a predicate picks take effect in one action, with what they bring about, and LATCH_DONE
where a port waits for no more (R367, R369). -/
def State.applyReady (s : State) (slot : Nat) (pick : Capture → Bool) (after : State → State) : State :=
  let ks := ((s.regs.blk slot).caps.filter pick).map (·.key)
  if ks.isEmpty then s else (after (s.applyCaps slot fun k => ks.contains k)).latchDone s

/-- A capture of an instance of a latch group. -/
def Capture.isOf (c : Capture) (g i : Nat) : Bool := groupOf c.key == g && instOf c.key == i

/-- A read that a command makes on a port: before readiness a block other than GLOBAL, PCI, SEC and
WARD reads 0 (R448). Log entry 9. -/
def State.readGate (s : State) (port : Port) (off : Nat) (f : State → State) : Answer :=
  if !s.reach port then .next s
  else if s.phaseOk off then .next (f s)
  else .next (s.emit (.readData port.val [0, 0, 0, 0] false))

end Sys2Proof.Machine
end

