-- ==== Sys2Proof/Machine/Arith.lean ====
section
/-!
DEFINITION. Element formats, group scales, the long accumulator and read-out (R61 to R82).
An exact dyadic value is a pair (m, e) that stands for m × 2^e.
-/
namespace Sys2Proof.Machine

/-- An element format (R61): its width, and for a float its exponent bits, mantissa bits and bias. -/
structure Fmt where
  width : Nat
  isInt : Bool
  eb : Nat
  p : Nat
  bias : Nat
  hasNan : Bool
  hasInf : Bool
  deriving DecidableEq, Repr

/-- The format of a 4-bit code; codes 0xB to 0xF are reserved (R61). -/
def fmtOf (c : Nat) : Option Fmt :=
  match c with
  | 0 => some ⟨4, true, 0, 0, 0, false, false⟩
  | 1 => some ⟨8, true, 0, 0, 0, false, false⟩
  | 2 => some ⟨16, true, 0, 0, 0, false, false⟩
  | 3 => some ⟨4, false, 2, 1, 1, false, false⟩
  | 4 => some ⟨6, false, 3, 2, 3, false, false⟩
  | 5 => some ⟨8, false, 4, 3, 7, true, false⟩
  | 6 => some ⟨8, false, 5, 2, 15, true, true⟩
  | 7 => some ⟨16, false, 8, 7, 127, true, true⟩
  | 8 => some ⟨16, false, 5, 10, 15, true, true⟩
  | 9 => some ⟨32, false, 8, 23, 127, true, true⟩
  | 10 => some ⟨32, true, 0, 0, 0, false, false⟩
  | _ => none

/-- The format of a code, INT32 where the code is reserved (callers check R80 first). -/
def fmtD (c : Nat) : Fmt := (fmtOf c).getD ⟨32, true, 0, 0, 0, false, false⟩

/-- BF16 and FP16, whose products are terms of their own and which carry no scales (R66, R68). -/
def isFp16 (c : Nat) : Bool := c == 7 || c == 8

/-- The formats 0x0 to 0x6 that may carry a scale tensor (R66). -/
def mayScale (c : Nat) : Bool := decide (c ≤ 6)

/-- Exponent of the unit q of a format (R61, R63). -/
def Fmt.qe (f : Fmt) : Int := if f.isInt then 0 else 1 - (f.bias : Int) - (f.p : Int)

/-- The code of NaN that the device writes (R64); 0 where the format has none (R73). -/
def Fmt.nanCode (f : Fmt) : Nat :=
  if f.hasNan then
    if f.hasInf then (2 ^ f.eb - 1) * 2 ^ f.p + 2 ^ (f.p - 1) else (2 ^ f.eb - 1) * 2 ^ f.p + (2 ^ f.p - 1)
  else 0

/-- An element read from memory (R62, R63, R73). -/
inductive Elem where
  | num (n : Int)          -- the value n × q
  | nonFinite              -- a NaN or an infinity
  deriving DecidableEq, Repr

/-- Decoding of an element code (R62, R63). -/
def Fmt.decode (f : Fmt) (c : Nat) : Elem :=
  if f.isInt then .num (sgn f.width c) else
  let m := field c 0 f.p
  let e := field c f.p f.eb
  let s := tbit c (f.width - 1)
  let special :=
    if f.hasInf then e == 2 ^ f.eb - 1
    else f.hasNan && e == 2 ^ f.eb - 1 && m == 2 ^ f.p - 1
  if special then .nonFinite else
  let n : Nat := if e = 0 then m else (2 ^ f.p + m) * 2 ^ (e - 1)
  .num (if s then -(n : Int) else (n : Int))

/-- The largest finite value as a multiple of q (R61). -/
def Fmt.maxN (f : Fmt) : Nat :=
  if f.isInt then 2 ^ (f.width - 1) - 1
  else if f.hasInf then (2 ^ (f.p + 1) - 1) * 2 ^ (2 ^ f.eb - 3)
  else if f.hasNan then (2 ^ (f.p + 1) - 2) * 2 ^ (2 ^ f.eb - 2)
  else (2 ^ (f.p + 1) - 1) * 2 ^ (2 ^ f.eb - 2)

/-- The negative limit as a multiple of q (R74). -/
def Fmt.minN (f : Fmt) : Int := if f.isInt then -((f.maxN : Int) + 1) else -(f.maxN : Int)

/-! ### Exact dyadic values -/

/-- An exact dyadic value m × 2^e. -/
structure Dy where
  m : Int
  e : Int
  deriving DecidableEq, Repr

/-- The integer part toward minus infinity of m × 2^e. -/
def Dy.floor (d : Dy) : Int := if 0 ≤ d.e then d.m * (2 ^ d.e.toNat : Nat) else d.m / ((2 ^ (-d.e).toNat : Nat) : Int)

/-- Exact comparison of two dyadic values. -/
def Dy.le (a b : Dy) : Bool :=
  let e := min a.e b.e
  decide (a.m * ((2 ^ (a.e - e).toNat : Nat) : Int) ≤ b.m * ((2 ^ (b.e - e).toNat : Nat) : Int))

/-- Strict comparison. -/
def Dy.lt (a b : Dy) : Bool := !(b.le a)

/-- Magnitude. -/
def Dy.abs (a : Dy) : Dy := ⟨(a.m.natAbs : Int), a.e⟩

/-- Exact sum. -/
def Dy.add (a b : Dy) : Dy :=
  let e := min a.e b.e
  ⟨a.m * ((2 ^ (a.e - e).toNat : Nat) : Int) + b.m * ((2 ^ (b.e - e).toNat : Nat) : Int), e⟩

/-- Exact product. -/
def Dy.mul (a b : Dy) : Dy := ⟨a.m * b.m, a.e + b.e⟩

/-- Scaling by a power of two. -/
def Dy.shift (a : Dy) (k : Int) : Dy := ⟨a.m, a.e + k⟩

/-! ### Rounding into a format -/

/-- The two neighbours of a magnitude: the number n of steps below it, the exponent of the step, and the exact rest
(rest, over the exponent) above n steps. -/
structure Near where
  n : Nat
  se : Int
  rest : Nat
  re : Int
  deriving DecidableEq, Repr

/-- Where the magnitude m × 2^e lies among the representable values of a format. -/
def Fmt.near (f : Fmt) (m : Nat) (e : Int) : Near :=
  let se : Int := if f.isInt then 0 else max (((Nat.log2 m : Nat) : Int) + e - (f.p : Int)) f.qe
  if se ≤ e then ⟨m * 2 ^ (e - se).toNat, se, 0, e⟩
  else
    let k := (se - e).toNat
    ⟨m / 2 ^ k, se, m % 2 ^ k, e⟩

/-- The code of n steps of exponent se, with a sign. -/
def Fmt.code (f : Fmt) (neg : Bool) (n : Nat) (se : Int) : Nat :=
  if f.isInt then unsgn f.width (if neg then -(n : Int) else n)
  else if n = 0 then 0
  else (if neg then 2 ^ (f.width - 1) else 0) + ((se - f.qe).toNat * 2 ^ f.p + n)

/-- Rounding to nearest, ties to even (R76): the steps after rounding. -/
def Near.rne (x : Near) : Nat :=
  let full := 2 ^ (x.se - x.re).toNat
  if full < 2 * x.rest then x.n + 1
  else if 2 * x.rest = full ∧ x.n % 2 = 1 then x.n + 1
  else x.n

/-- Seeded stochastic rounding (R77) of a magnitude whose sign is `neg`, by the 24-bit draw b. -/
def Near.stochastic (x : Near) (neg : Bool) (b : Nat) : Nat :=
  let full := 2 ^ (x.se - x.re).toNat
  if x.rest = 0 then x.n
  else if neg then (if b * full < (full - x.rest) * 2 ^ 24 then x.n else x.n + 1)
  else (if b * full < x.rest * 2 ^ 24 then x.n + 1 else x.n)

/-- The mixing function of the generator (R77). -/
def mix64 (z : Nat) : Nat :=
  let z1 := (z ^^^ (z / 2 ^ 30)) * 0xBF58476D1CE4E5B9 % two64
  let z2 := (z1 ^^^ (z1 / 2 ^ 27)) * 0x94D049BB133111EB % two64
  z2 ^^^ (z2 / 2 ^ 31)

/-- The 24-bit generator value of an element (R77). -/
def stochDraw (seed tensorId index : Nat) : Nat :=
  let golden := 0x9E3779B97F4A7C15
  let key := mix64 ((seed + golden * (tensorId + 1)) % two64)
  let word := mix64 ((key + golden * (index + 1)) % two64)
  field word 40 24

/-- How an element is rounded: to nearest, or by the draw of R77. -/
inductive RoundMode where
  | nearest
  | stochastic (draw : Nat)
  deriving DecidableEq, Repr

/-- Steps 3 to 5 of R74 on V′: the code written and whether status 0x0201 is raised. -/
def Fmt.convert (f : Fmt) (r : RoundMode) (v : Dy) : Nat × Bool :=
  if v.m = 0 then (0, false)
  else if Dy.lt ⟨f.maxN, f.qe⟩ v then (f.code false (f.near f.maxN f.qe).n (f.near f.maxN f.qe).se, true)
  else if Dy.lt v ⟨f.minN, f.qe⟩ then
    (f.code true (f.near f.minN.natAbs f.qe).n (f.near f.minN.natAbs f.qe).se, true)
  else
    let neg := decide (v.m < 0)
    let x := f.near v.m.natAbs v.e
    let n := match r with
      | .nearest => x.rne
      | .stochastic b => x.stochastic neg b
    (f.code neg n x.se, false)

/-- The code of the positive or negative limit of a format (R74). -/
def Fmt.limit (f : Fmt) (neg : Bool) : Nat :=
  let n := if neg then f.minN.natAbs else f.maxN
  f.code neg (f.near n f.qe).n (f.near n f.qe).se

/-! ### The arithmetic control word -/

/-- The fields of ARITH (R79). -/
structure Arith where
  tensorId : Nat
  outExp : Nat
  stoch : Bool
  accLsb : Int
  k : Nat
  outFmt : Nat
  wFmt : Nat
  aFmt : Nat
  deriving DecidableEq, Repr

/-- Decoding of the 64-bit word (R79). -/
def Arith.ofNat (w : Nat) : Arith :=
  { tensorId := field w 32 32, outExp := field w 24 8, stoch := tbit w 23, accLsb := sgn 9 (field w 14 9),
    k := field w 12 2 + 1, outFmt := field w 8 4, wFmt := field w 4 4, aFmt := field w 0 4 }

/-- The conditions of R80 that refuse a word with 0x0204. -/
def Arith.invalid (a : Arith) (scaleA scaleW : Bool) : Bool :=
  (fmtOf a.outFmt).isNone || (fmtOf a.wFmt).isNone || (fmtOf a.aFmt).isNone ||
  decide (9 ≤ a.aFmt) || decide (9 ≤ a.wFmt) ||
  (a.outExp == 0xFF && decide (7 ≤ a.outFmt)) ||
  (scaleA && isFp16 a.aFmt) || (scaleW && isFp16 a.wFmt)

/-- The rate class of R67: 64, 32 or 16 products per DPU per cycle. -/
def rateR (fa fw : Nat) : Nat :=
  let wide (c : Nat) : Bool := c == 2 || c == 7 || c == 8
  let mid (c : Nat) : Bool := c == 1 || c == 4 || c == 5 || c == 6
  if wide fa || wide fw then 16 else if mid fa || mid fw then 32 else 64

/-! ### The long accumulator -/

/-- The sum of the t values (R70), whether a term was out of window (R71), and whether the output is non-finite (R73). -/
structure Acc where
  sum : Int
  oow : Bool
  nf : Bool
  deriving DecidableEq, Repr

/-- The accumulator at the start of a command (R69). -/
def Acc.zero : Acc := ⟨0, false, false⟩

/-- Entry of one term (R70, R71). -/
def Acc.enter (l : Int) (a : Acc) (t : Dy) : Acc :=
  let v := (t.shift (-l)).floor
  { a with sum := a.sum + v, oow := a.oow || decide (v < -(2 ^ 127 : Nat)) || decide (((2 ^ 127 : Nat) : Int) ≤ v) }

/-- Union of two partial accumulations of one output. -/
def Acc.merge (a b : Acc) : Acc := ⟨a.sum + b.sum, a.oow || b.oow, a.nf || b.nf⟩

/-- A as two's complement (R70). -/
def Acc.a (x : Acc) : Int := sgn 128 (unsgn 128 x.sum)

/-- One pair of operand elements of a reduction, with the group scales of both (R66, R68). -/
structure MacIn where
  a : Nat
  w : Nat
  xa : Nat
  xw : Nat
  deriving DecidableEq, Repr

/-- Exact integer product of two elements in units of qa × qw; none where either is non-finite. -/
def elemProduct (fa fw : Fmt) (i : MacIn) : Option Int :=
  match fa.decode i.a, fw.decode i.w with
  | .num x, .num y => some (x * y)
  | _, _ => none

/-- Entry of one scale group (R68): one group term, or one product term for each product where an operand is BF16 or
FP16. A NaN scale or a non-finite element marks the output (R73). -/
def Acc.group (ca cw : Nat) (l : Int) (a : Acc) (g : List MacIn) : Acc :=
  let fa := fmtD ca
  let fw := fmtD cw
  match g with
  | [] => a
  | h :: _ =>
    let ps := g.map (elemProduct fa fw)
    let nf := h.xa == 255 || h.xw == 255 || ps.any Option.isNone
    let ex : Int := fa.qe + fw.qe + ((h.xa : Int) - 127) + ((h.xw : Int) - 127)
    let a := { a with nf := a.nf || nf }
    if isFp16 ca || isFp16 cw then ps.foldl (fun a p => Acc.enter l a ⟨p.getD 0, ex⟩) a
    else Acc.enter l a ⟨ps.foldl (fun s p => s + p.getD 0) 0, ex⟩

/-- Cutting a list into groups of n from index 0 (R66). -/
def chunksOf {α : Type} (n : Nat) : Nat → List α → List (List α)
  | 0, _ => []
  | _, [] => []
  | fuel + 1, l => l.take n :: chunksOf n fuel (l.drop n)

/-- The reduction of one output over all its elements (R68 to R73), groups of 32 × k. -/
def reduceDot (ca cw k : Nat) (l : Int) (xs : List MacIn) : Acc :=
  (chunksOf (32 * k) xs.length xs).foldl (Acc.group ca cw l) Acc.zero

/-- Entry of an FP32 bias as one further term (R68, R73). -/
def Acc.bias (l : Int) (a : Acc) (code : Nat) : Acc :=
  match (fmtD 9).decode code with
  | .num n => a.enter l ⟨n, (fmtD 9).qe⟩
  | .nonFinite => { a with nf := true }

/-! ### Read-out -/

/-- The conditions that one output element raised (R81), for the status and the flag map. -/
structure Cond where
  sat : Bool
  oow : Bool
  nf : Bool
  deriving DecidableEq, Repr

/-- No condition. -/
def Cond.none : Cond := ⟨false, false, false⟩

/-- Union of the conditions of several elements. -/
def Cond.or (a b : Cond) : Cond := ⟨a.sat || b.sat, a.oow || b.oow, a.nf || b.nf⟩

/-- Any condition: the bit of the flag map (R82). -/
def Cond.any (a : Cond) : Bool := a.sat || a.oow || a.nf

/-- The status of R82 for the conditions of a command: 0x0205, then 0x0202, then 0x0201. -/
def Cond.status (c : Cond) : Nat := if c.nf then 0x0205 else if c.oow then 0x0202 else if c.sat then 0x0201 else 0

/-- Read-out of one output under scale X (R74). -/
def readOut (f : Fmt) (x : Nat) (r : RoundMode) (l : Int) (acc : Acc) : Nat × Cond :=
  if acc.nf then (f.nanCode, ⟨false, acc.oow, true⟩)
  else if acc.oow then (f.limit (decide (acc.a < 0)), ⟨false, true, false⟩)
  else
    let c := f.convert r (Dy.shift ⟨acc.a, l⟩ (127 - (x : Int)))
    (c.1, ⟨c.2, false, false⟩)

/-- The scale chosen for a group whose largest counted magnitude is m (R75). -/
def groupScale (f : Fmt) (m : Dy) : Nat :=
  if m.m = 0 then 127
  else ((List.range 255).find? fun (x : Nat) => Dy.le (m.shift (127 - (x : Int))) ⟨f.maxN, f.qe⟩).getD 254

/-- The largest |V| among the elements of a group that are neither non-finite nor out of window (R75). -/
def groupMax (l : Int) (g : List Acc) : Dy :=
  g.foldl (fun m a => if a.nf || a.oow then m else
    let v := Dy.abs ⟨a.a, l⟩
    if m.lt v then v else m) ⟨0, 0⟩

/-- Read-out of one row of outputs (R74, R75): the codes with their conditions, and the scales written. The element
index of the first element is `base` (R77); `gsz` is the output scale group. -/
def readOutRow (ar : Arith) (seed base gsz : Nat) (accs : List Acc) : List (Nat × Cond) × List Nat :=
  let f := fmtD ar.outFmt
  let mode (i : Nat) : RoundMode := if ar.stoch then .stochastic (stochDraw seed ar.tensorId (base + i)) else .nearest
  if ar.outExp = 0xFF then
    let gs := chunksOf gsz accs.length accs
    let xs := gs.map fun g => groupScale f (groupMax ar.accLsb g)
    (accs.zipIdx.map fun p => readOut f (xs.getD (p.2 / gsz) 127) (mode p.2) ar.accLsb p.1, xs)
  else (accs.zipIdx.map fun p => readOut f ar.outExp (mode p.2) ar.accLsb p.1, [])

/-- ReLU on a written code (R106): a negative result becomes +0 and a NaN stays NaN. -/
def Fmt.relu (f : Fmt) (c : Nat) : Nat :=
  match f.decode c with
  | .num n => if n < 0 then 0 else c
  | .nonFinite => c

end Sys2Proof.Machine
end

