-- ==== Sys2Proof/Machine/Flags.lean ====
section
/-!
DEFINITION. Status codes: their ranks (R82, R103, R158, R189, R216, R232, R401, R423, R454), which are refusals, which
stop a job (R231).
-/
namespace Sys2Proof.Machine

/-- The job-level codes, highest first (R232, R423, R454). -/
def jobCodes : List Nat :=
  [0x0631, 0x0510, 0x0512, 0x0513, 0x0511, 0x0515, 0x0301, 0x0314, 0x0402, 0x060E, 0x060F, 0x0401, 0x0630, 0x0312, 0x0632]

/-- The refusals of a step, highest first. -/
def refusalCodes : List Nat :=
  [0x0620, 0x0623, 0x0622, 0x0621, 0x0301, 0x0510, 0x0512, 0x0513, 0x0511, 0x0515, 0x0624, 0x0625, 0x0626, 0x0627,
   0x0629, 0x0628, 0x0640, 0x0204, 0x0203]

/-- The codes that end a step, highest first. -/
def endingCodes : List Nat :=
  [0x0514, 0x0403, 0x0404, 0x0313, 0x0332, 0x0330, 0x0331, 0x0303, 0x0304, 0x0312, 0x0341]

/-- The codes of steps that run to completion, highest first. -/
def runningCodes : List Nat := [0x0311, 0x0310, 0x0342, 0x0205, 0x0202, 0x0201, 0x0011]

/-- The step codes, highest first. -/
def stepCodes : List Nat := refusalCodes ++ endingCodes ++ runningCodes

/-- The rank of a step code, 0 highest; success ranks below every code. -/
def stepRank (c : Nat) : Nat := if c = 0 then 1000 else stepCodes.idxOf c

/-- The higher-ranked of two step codes (R82). -/
def worse (a b : Nat) : Nat := if stepRank b < stepRank a then b else a

/-- A code refuses its step (R102, R103). -/
def isRefusal (c : Nat) : Bool := refusalCodes.contains c

/-- A code ends its step and stops its job (R231): a refusal, or a code whose outcome is "Ends". -/
def isStopping (c : Nat) : Bool := refusalCodes.contains c || endingCodes.contains c

/-- The refusals that a window check makes (R421). -/
def isWindowCode (c : Nat) : Bool := [0x0510, 0x0511, 0x0512, 0x0513, 0x0515].contains c

/-- The codes that are job-level wherever they arise (R232). -/
def jobOnly (c : Nat) : Bool := [0x0631, 0x0314, 0x0402, 0x060E, 0x060F, 0x0401, 0x0630, 0x0632].contains c

/-- The rank of a raised code in its job (R232): job-level codes outrank every step code. `source` 31 is the job. -/
def jobRank (code source : Nat) : Nat :=
  if jobOnly code || source == 31 then jobCodes.idxOf code else 100 + stepRank code

/-- The first code of a list of checks that is not zero (R102). -/
def firstCode : List Nat → Nat
  | [] => 0
  | c :: t => if c = 0 then firstCode t else c

/-- A code where a condition of failure holds. -/
def codeIf (b : Bool) (c : Nat) : Nat := if b then c else 0

end Sys2Proof.Machine
end

