-- ==== Sys2Proof/Machine/Space.lean ====
section
/-!
DEFINITION. The spaces that the device reaches: the partitions' DRAM (R148), the host windows and the window check
(R364, R421), the DMA address form (R143).
-/
namespace Sys2Proof.Machine

/-- The device address and the size in bytes of a partition's DRAM space, where it is granted (R148, R244). -/
def State.dramOf (s : State) (p : Nat) : Option (Nat × Nat) :=
  match s.part p, s.comp.parts[p]? with
  | some e, some q => if q.granted then some (q.base, e.quota * 2 ^ 20) else none
  | _, _ => none

/-- The extent lies in the partition's DRAM space. -/
def State.inDram (s : State) (p off len : Nat) : Bool := match s.dramOf p with
  | some (_, size) => decide (off + len ≤ size)
  | none => false

/-- Bytes of a partition's DRAM. -/
def State.readDram (s : State) (p off len : Nat) : List Byte := match s.dramOf p with
  | some (base, _) => s.dram.mem.readBytes (base + off) len
  | none => List.replicate len 0

/-- The towers in service, ascending (R244). -/
def State.towersIn (s : State) : List Nat := (List.range 4).filter fun t => !s.safe.towersOos.contains t

/-- The tower of a device address (R149, R244). -/
def State.towerOf (s : State) (addr : Nat) : Nat :=
  let l := s.towersIn
  l.getD (addr / 2048 % l.length) 0

/-- Bytes below an address in the lines of the j-th of n towers. -/
def lineBytes (n j x : Nat) : Nat :=
  (x / 2048 + (n - 1 - j)) / n * 2048 + (if x / 2048 % n = j then x % 2048 else 0)

/-- A tower in self-refresh returns to ACTIVE before it serves an access (R153). -/
def TowerSt.serve (t : TowerSt) : TowerSt :=
  if t.state = .selfRefresh then { t with state := .active } else t

/-- Bytes of an access that a tower serves, counted (R153, R159): at `k` the counter of tower 0. -/
def State.serveTower (s : State) (k t n : Nat) : State :=
  if n = 0 then s
  else ({ s with dram := { s.dram with towers := lmod s.dram.towers t TowerSt.serve } } : State).bump (k + 8 * t) n

/-- Bytes of an access served and counted for each tower (R153, R159): at `k` the counter of tower 0. Log entry 77. -/
def State.countDram (s : State) (k addr len : Nat) : State :=
  let l := s.towersIn
  (l.zipIdx).foldl (fun s x =>
    s.serveTower k x.1 (lineBytes l.length x.2 (addr + len) - lineBytes l.length x.2 addr)) s

/-- A read of a partition's DRAM counted (R159). -/
def State.countRead (s : State) (p off len : Nat) : State := match s.dramOf p with
  | some (base, _) => s.countDram 0x480020 (base + off) len
  | none => s

/-- An overwrite of whole 32-byte blocks removes their poison (R139, R151). -/
def unpoison (poison : List Nat) (unit a len : Nat) : List Nat :=
  poison.filter fun g => !(decide (a ≤ g * unit) && decide (g * unit + unit ≤ a + len))

/-- The DRAM after bytes are written at a device address. -/
def DramSt.write (d : DramSt) (a : Nat) (bs : List Byte) : DramSt :=
  { d with mem := d.mem.writeBytes a bs, poison := unpoison d.poison 32 a bs.length }

/-- Bytes written to a partition's DRAM. -/
def State.writeDram (s : State) (p off : Nat) (bs : List Byte) : State := match s.dramOf p with
  | some (base, _) => ({ s with dram := s.dram.write (base + off) bs }).countDram 0x480040 (base + off) bs.length
  | none => s

/-- The extent of device addresses holds poison (R139). -/
def poisoned (poison : List Nat) (unit a len : Nat) : Bool :=
  poison.any fun g => decide (g * unit < a + len) && decide (a < g * unit + unit)

/-- The key of a window entry (R364). -/
def winKey (p w : Nat) : Nat := 0x610000 + 0x1000 * p + 0x10 * w

/-- The size in bytes of a window. -/
def State.winSize (s : State) (p w : Nat) : Nat := s.rv (winKey p w + 12) * 4096

/-- The host address of an offset in a window (R364), of 64 bits (R13). Log entry 92. -/
def State.winAddr (s : State) (p w o : Nat) : Nat :=
  (s.rv (winKey p w + 4) + 2 ^ 32 * s.rv (winKey p w + 8) + o) % 2 ^ 64

/-- The window check (R421): zero where the request may go, else the status of the first check that fails. -/
def State.windowCheck (s : State) (p w o len : Nat) (read sealing : Bool) : Nat :=
  let ctl := s.rv (winKey p w)
  let size := s.winSize p w
  if !(tbit ctl 31 && size != 0 && s.bound p (w / 64)) then 0x0510
  else if size < o + len then 0x0512
  else if !(if read then tbit ctl 30 else tbit ctl 29) then 0x0513
  else if !s.linkUp (w / 64) then 0x0511
  else if sealing && decide (size < 4128 * ((o + len + 4095) / 4096)) then 0x0515
  else 0

/-- A window check has refused a request: WIN_REFUSED on every port bound to the partition (R421, R424). -/
def State.winRefused (s : State) (p : Nat) : State :=
  (s.portsOf p).foldl (fun s x => s.raise (portKey x 0x300004) 8) s

/-- AUTH_FAIL on every port bound to the partition (R420, R424). -/
def State.authFail (s : State) (p : Nat) : State :=
  (s.portsOf p).foldl (fun s x => s.raise (portKey x 0x300004) 4) s

/-- A host write through a window. -/
def State.hostWrite (s : State) (p w o : Nat) (bs : List Byte) : State :=
  s.emit (.hostWrite (w / 64) (s.winAddr p w o) bs)

/-- A place in DMA address form where space 1 and space 2 are both possible and nothing else tells them apart: a window
number other than 0 means a host window (log entry 5). -/
inductive Place where
  | dram (off : Nat)
  | host (w off : Nat)
  | none
  deriving DecidableEq, Repr

/-- The place of a 64-bit address in DMA address form (log entry 5). -/
def placeOf (a : Nat) : Place :=
  if a / 2 ^ 56 % 256 ≠ 0 then .none
  else if a / 2 ^ 48 % 256 = 0 then .dram (a % 2 ^ 48) else .host (a / 2 ^ 48 % 256) (a % 2 ^ 48)

/-- A place some bytes further on. -/
def Place.plus (x : Place) (n : Nat) : Place := match x with
  | .dram o => .dram (o + n)
  | .host w o => .host w (o + n)
  | .none => .none

/-- What is wrong with an access to a place: zero for nothing (R145, R421). -/
def State.placeCheck (s : State) (p : Nat) (x : Place) (len : Nat) (read : Bool) : Nat := match x with
  | .dram o => if s.inDram p o len then 0 else 0x0301
  | .host w o => s.windowCheck p w o len read false
  | .none => 0x0301

/-- The bytes read at a place; for a host place those that the host returns. -/
def State.placeRead (s : State) (p : Nat) (x : Place) (len : Nat) (host : List Byte) : List Byte := match x with
  | .dram o => s.readDram p o len
  | .host _ _ => sliceAt host 0 len
  | .none => List.replicate len 0

/-- Bytes written at a place. -/
def State.placeWrite (s : State) (p : Nat) (x : Place) (bs : List Byte) : State := match x with
  | .dram o => s.writeDram p o bs
  | .host w o => s.hostWrite p w o bs
  | .none => s

/-- A refusal of a place's access: WIN_REFUSED where the window check made it. -/
def State.placeRefused (s : State) (p : Nat) (x : Place) : State := match x with
  | .host _ _ => s.winRefused p
  | _ => s

end Sys2Proof.Machine
end

