-- ==== Sys2Proof/Machine/Operands.lean ====
section
/-!
DEFINITION. Operands of steps: the scratchpad and its banks (R127 to R133, R155), extents (R484), rows and packed
elements (R105, R130).
-/
namespace Sys2Proof.Machine

/-- Bytes of a scratchpad bank (R127). -/
def bankBytes : Nat := 0x80000
/-- Bytes of a scratchpad (R127). -/
def padBytes : Nat := 0x2000000

/-! ### Scratchpad bytes -/

/-- A byte of a scratchpad. -/
def Pad.byte (p : Pad) (a : Nat) : Byte :=
  (alGet p.cells a).getD ((p.fills.getD (a / bankBytes) .zero).byte a)

/-- Consecutive bytes. -/
def Pad.bytes (p : Pad) (a n : Nat) : List Byte := (List.range n).map fun i => p.byte (a + i)

/-- One byte written. -/
def Pad.put (p : Pad) (a : Nat) (b : Byte) : Pad :=
  { p with cells := putCell (p.fills.getD (a / bankBytes) .zero) p.cells a b }

/-- Consecutive bytes written, poison untouched. -/
def Pad.putBytes (p : Pad) (a : Nat) : List Byte → Pad
  | [] => p
  | b :: bs => (p.put a b).putBytes (a + 1) bs

/-- Consecutive bytes written; a whole granule overwritten loses its poison (R139), a write to the weight-resident
region, below `weights`, sets the tag to 0 (R135). -/
def Pad.write (p : Pad) (weights a : Nat) (bs : List Byte) : Pad :=
  let q := p.putBytes a bs
  { q with poison := unpoison p.poison 8 a bs.length, tag := if a < weights ∧ bs ≠ [] then 0 else p.tag }

/-- Poison marks set on the granules that an extent touches (R139): 8 bytes in the activation region, 32 bytes in the
weight-resident region. -/
def Pad.mark (p : Pad) (weights a len : Nat) : Pad :=
  let lo := if a < weights then a / 32 * 4 else a / 8
  let hi := if a < weights then cdiv (a + len) 32 * 4 else cdiv (a + len) 8
  { p with poison := p.poison ++ ((List.range (hi - lo)).map (lo + ·)).filter fun g => !p.poison.contains g }

/-- A scratchpad as the first step of a command finds it (R98, R133): the banks from `act` hold undefined bytes. A poison mark that
an earlier command left there stays until its word is overwritten (R139), and a read of it before that is an error. Log entry 34. -/
def Pad.openCommand (p : Pad) (act epoch : Nat) : Pad :=
  { p with fills := (List.range 64).map fun b => if act ≤ b then .free epoch else p.fills.getD b .zero,
           cells := p.cells.filter fun c => decide (c.1 / bankBytes < act) }

/-! ### Extents (R484) -/

/-- An extent: its first byte and its length. -/
structure Ext where
  lo : Nat
  len : Nat
  deriving DecidableEq, Repr

/-- Two extents share a byte. -/
def Ext.meets (a b : Ext) : Bool := decide (a.lo < b.lo + b.len) && decide (b.lo < a.lo + a.len)

/-- Any extent of one list meets any of the other. -/
def extsMeet (xs ys : List Ext) : Bool := xs.any fun x => ys.any x.meets

/-- Two of the extents of a list meet. -/
def selfMeet : List Ext → Bool
  | [] => false
  | x :: t => (t.any x.meets) || selfMeet t

/-- The extent of `rows` rows of `bytes` bytes at a pitch, in `planes` planes at their pitch. A pitch of 0 repeats. -/
def extOf (lo bytes rows pitch planes planePitch : Nat) : Ext :=
  ⟨lo, (planes - 1) * planePitch + (rows - 1) * pitch + bytes⟩

/-- The banks that an extent touches. -/
def Ext.banks (e : Ext) : List Nat :=
  if e.len = 0 then [] else
    (List.range 64).filter fun b => decide (e.lo / bankBytes ≤ b) && decide (b ≤ (e.lo + e.len - 1) / bankBytes)

/-! ### Banks (R155) -/

/-- The state of the bank of an address. -/
def Pad.bankAt (p : Pad) (a : Nat) : BankSt := p.banks.getD (a / bankBytes) .on

/-- What an access to a bank meets: 0 accepted, else the code that refuses it (R155). -/
def bankCode : BankSt → Nat
  | .closing => 0x0303
  | .off => 0x0304
  | _ => 0

/-- An access to some of the extents would be held: a bank is opening (R155). Log entry 33. -/
def Pad.held (p : Pad) (xs : List Ext) : Bool :=
  xs.any fun e => e.banks.any fun b => p.banks.getD b .on == .opening

/-- The code of the first access of the extents that a bank refuses. Log entry 33. -/
def Pad.refused (p : Pad) (xs : List Ext) : Nat :=
  firstCode (xs.flatMap fun e => e.banks.map fun b => bankCode (p.banks.getD b .on))

/-- The extents hold poison (R139). -/
def Pad.poisonIn (p : Pad) (xs : List Ext) : Bool := xs.any fun e => poisoned p.poison 8 e.lo e.len

/-! ### Rows and elements (R105, R130) -/

/-- The bytes of a row of K elements of width w, without padding. -/
def rowBytes (w k : Nat) : Nat := cdiv (k * w) 8

/-- The pitch of a row (R105). -/
def pitchOf (w k : Nat) : Nat := roundUp (rowBytes w k) 32

/-- Element i of packed bytes (R130). -/
def elemAt (w : Nat) (bs : List Byte) (i : Nat) : Nat :=
  if w = 4 then field (byteAt bs (i / 2)).toNat (4 * (i % 2)) 4
  else if w = 6 then field (leAt bs (i / 4 * 3) 3) (6 * (i % 4)) 6
  else leAt bs (i * (w / 8)) (w / 8)

/-- The first n elements of packed bytes. -/
def unpackElems (w n : Nat) (bs : List Byte) : List Nat := (List.range n).map (elemAt w bs)

/-- Elements packed into bytes, without padding (R130). -/
def packElems (w : Nat) (xs : List Nat) : List Byte :=
  if w = 4 then (List.range (cdiv xs.length 2)).map fun i =>
    BitVec.ofNat 8 (xs.getD (2 * i) 0 % 16 + xs.getD (2 * i + 1) 0 % 16 * 16)
  else if w = 6 then
    ((List.range (cdiv xs.length 4)).flatMap fun j =>
      natLe 3 (((List.range 4).map fun k => xs.getD (4 * j + k) 0 % 64 * 64 ^ k).sum)).take (rowBytes 6 xs.length)
  else xs.flatMap (natLe (w / 8))

/-- Bytes padded with zeros to a length. -/
def padTo (n : Nat) (bs : List Byte) : List Byte := bs ++ List.replicate (n - bs.length) 0

/-- Rows packed at their pitch. -/
def packRows (w : Nat) (rows : List (List Nat)) : List Byte :=
  rows.flatMap fun r => padTo (pitchOf w r.length) (packElems w r)

/-- Bits packed without row padding, bit i in byte ⌊i/8⌋ at bit i mod 8 (R105). -/
def packBits (bs : List Bool) : List Byte :=
  (List.range (cdiv bs.length 8)).map fun i =>
    BitVec.ofNat 8 (((List.range 8).map fun k => flagBit k (bs.getD (8 * i + k) false)).sum)

/-- The "none" address of a body. -/
def noAddr : Nat := 0xFFFFFFFF

/-- Row r of a tensor of elements of width w in bytes that begin at its first row. -/
def tensorRow (w k r : Nat) (bs : List Byte) : List Nat := unpackElems w k (bs.drop (r * pitchOf w k))

end Sys2Proof.Machine
end

