-- ==== Sys2Proof/Machine/Sm4.lean ====
section
/-!
DEFINITION. SM4 and its use in GCM (R416). The S-box, the system parameter and the round constants are those of
GB/T 32907, the mode that of NIST SP 800-38D (log entry 3).
-/
namespace Sys2Proof.Machine

/-- The S-box of SM4. -/
def sm4Sbox : List Nat :=
  [0xD6, 0x90, 0xE9, 0xFE, 0xCC, 0xE1, 0x3D, 0xB7, 0x16, 0xB6, 0x14, 0xC2, 0x28, 0xFB, 0x2C, 0x05] ++
  [0x2B, 0x67, 0x9A, 0x76, 0x2A, 0xBE, 0x04, 0xC3, 0xAA, 0x44, 0x13, 0x26, 0x49, 0x86, 0x06, 0x99] ++
  [0x9C, 0x42, 0x50, 0xF4, 0x91, 0xEF, 0x98, 0x7A, 0x33, 0x54, 0x0B, 0x43, 0xED, 0xCF, 0xAC, 0x62] ++
  [0xE4, 0xB3, 0x1C, 0xA9, 0xC9, 0x08, 0xE8, 0x95, 0x80, 0xDF, 0x94, 0xFA, 0x75, 0x8F, 0x3F, 0xA6] ++
  [0x47, 0x07, 0xA7, 0xFC, 0xF3, 0x73, 0x17, 0xBA, 0x83, 0x59, 0x3C, 0x19, 0xE6, 0x85, 0x4F, 0xA8] ++
  [0x68, 0x6B, 0x81, 0xB2, 0x71, 0x64, 0xDA, 0x8B, 0xF8, 0xEB, 0x0F, 0x4B, 0x70, 0x56, 0x9D, 0x35] ++
  [0x1E, 0x24, 0x0E, 0x5E, 0x63, 0x58, 0xD1, 0xA2, 0x25, 0x22, 0x7C, 0x3B, 0x01, 0x21, 0x78, 0x87] ++
  [0xD4, 0x00, 0x46, 0x57, 0x9F, 0xD3, 0x27, 0x52, 0x4C, 0x36, 0x02, 0xE7, 0xA0, 0xC4, 0xC8, 0x9E] ++
  [0xEA, 0xBF, 0x8A, 0xD2, 0x40, 0xC7, 0x38, 0xB5, 0xA3, 0xF7, 0xF2, 0xCE, 0xF9, 0x61, 0x15, 0xA1] ++
  [0xE0, 0xAE, 0x5D, 0xA4, 0x9B, 0x34, 0x1A, 0x55, 0xAD, 0x93, 0x32, 0x30, 0xF5, 0x8C, 0xB1, 0xE3] ++
  [0x1D, 0xF6, 0xE2, 0x2E, 0x82, 0x66, 0xCA, 0x60, 0xC0, 0x29, 0x23, 0xAB, 0x0D, 0x53, 0x4E, 0x6F] ++
  [0xD5, 0xDB, 0x37, 0x45, 0xDE, 0xFD, 0x8E, 0x2F, 0x03, 0xFF, 0x6A, 0x72, 0x6D, 0x6C, 0x5B, 0x51] ++
  [0x8D, 0x1B, 0xAF, 0x92, 0xBB, 0xDD, 0xBC, 0x7F, 0x11, 0xD9, 0x5C, 0x41, 0x1F, 0x10, 0x5A, 0xD8] ++
  [0x0A, 0xC1, 0x31, 0x88, 0xA5, 0xCD, 0x7B, 0xBD, 0x2D, 0x74, 0xD0, 0x12, 0xB8, 0xE5, 0xB4, 0xB0] ++
  [0x89, 0x69, 0x97, 0x4A, 0x0C, 0x96, 0x77, 0x7E, 0x65, 0xB9, 0xF1, 0x09, 0xC5, 0x6E, 0xC6, 0x84] ++
  [0x18, 0xF0, 0x7D, 0xEC, 0x3A, 0xDC, 0x4D, 0x20, 0x79, 0xEE, 0x5F, 0x3E, 0xD7, 0xCB, 0x39, 0x48]

/-- A word rotated left. -/
def rotW (x n : Nat) : Nat := (x * 2 ^ n + x / 2 ^ (32 - n)) % 2 ^ 32

/-- The four S-boxes on a word. -/
def sm4Tau (a : Nat) : Nat :=
  sm4Sbox.getD (field a 24 8) 0 * 2 ^ 24 + sm4Sbox.getD (field a 16 8) 0 * 2 ^ 16 + sm4Sbox.getD (field a 8 8) 0 * 2 ^ 8 +
    sm4Sbox.getD (field a 0 8) 0

/-- Round constant i. -/
def sm4Ck (i : Nat) : Nat := (List.range 4).foldl (fun a j => a * 256 + (4 * i + j) * 7 % 256) 0

/-- Four words of a 128-bit block. -/
def words4 (b : Nat) : Nat × Nat × Nat × Nat := (field b 96 32, field b 64 32, field b 32 32, field b 0 32)

/-- The round keys of a key. -/
def sm4Keys (key : Nat) : List Nat :=
  let (a, b, c, d) := words4 (key ^^^ 0xA3B1BAC656AA3350677D9197B27022DC)
  ((List.range 32).foldl (fun (st : (Nat × Nat × Nat × Nat) × List Nat) i =>
    let (k0, k1, k2, k3) := st.1
    let t := sm4Tau (k1 ^^^ k2 ^^^ k3 ^^^ sm4Ck i)
    let k := k0 ^^^ t ^^^ rotW t 13 ^^^ rotW t 23
    ((k1, k2, k3, k), k :: st.2)) ((a, b, c, d), [])).2.reverse

/-- SM4 encryption of one 128-bit block under its round keys. -/
def sm4Block (rk : List Nat) (blk : Nat) : Nat :=
  let (x0, x1, x2, x3) := rk.foldl (fun (st : Nat × Nat × Nat × Nat) k =>
    let (a, b, c, d) := st
    let t := sm4Tau (b ^^^ c ^^^ d ^^^ k)
    (b, c, d, a ^^^ t ^^^ rotW t 2 ^^^ rotW t 10 ^^^ rotW t 18 ^^^ rotW t 24)) (words4 blk)
  x3 * 2 ^ 96 + x2 * 2 ^ 64 + x1 * 2 ^ 32 + x0

/-- The product of GCM's field, by the bits of x from the highest. -/
def gcmMulGo : Nat → Nat → Nat → Nat → Nat
  | 0, _, _, z => z
  | n + 1, x, v, z =>
    let z' := if tbit x n then z ^^^ v else z
    let v' := if v % 2 = 1 then (v / 2) ^^^ 0xE1000000000000000000000000000000 else v / 2
    gcmMulGo n x v' z'

/-- The product of GCM's field. -/
def gcmMul (x y : Nat) : Nat := gcmMulGo 128 x y 0

/-- Blocks of 16 bytes, the last padded with zeros. -/
def blocks16 : Nat → List Byte → List Nat
  | 0, _ => []
  | n + 1, b => if b.isEmpty then [] else beNat (sliceAt b 0 16) :: blocks16 n (b.drop 16)

/-- GHASH over blocks. -/
def ghash (h : Nat) (l : List Nat) : Nat := l.foldl (fun y x => gcmMul (y ^^^ x) h) 0

/-- Counter mode from a counter block. -/
def ctrMode (rk : List Nat) : Nat → Nat → List Byte → List Byte
  | 0, _, _ => []
  | n + 1, j, b =>
    if b.isEmpty then []
    else
      let ks := natBe 16 (sm4Block rk j)
      (List.zipWith (fun x y => x ^^^ y) (b.take 16) ks) ++
        ctrMode rk n (j / 2 ^ 32 * 2 ^ 32 + (j + 1) % 2 ^ 32) (b.drop 16)

/-- The tag of a ciphertext (R416). -/
def gcmTag (rk : List Nat) (iv aad ct : List Byte) : List Byte :=
  let h := sm4Block rk 0
  let j0 := beNat iv * 2 ^ 32 + 1
  let g := ghash h (blocks16 (aad.length / 16 + 1) aad ++ blocks16 (ct.length / 16 + 1) ct ++
    [aad.length * 8 * 2 ^ 64 + ct.length * 8])
  natBe 16 (g ^^^ sm4Block rk j0)

/-- Encryption: ciphertext and tag (R416). -/
def gcmSeal (key : Nat) (iv aad pt : List Byte) : List Byte × List Byte :=
  let rk := sm4Keys key
  let ct := ctrMode rk (pt.length / 16 + 1) (beNat iv * 2 ^ 32 + 2) pt
  (ct, gcmTag rk iv aad ct)

/-- Decryption: the plaintext, where the tag fits (R416, R420). -/
def gcmOpen (key : Nat) (iv aad ct tag : List Byte) : Option (List Byte) :=
  let rk := sm4Keys key
  if gcmTag rk iv aad ct = tag then some (ctrMode rk (ct.length / 16 + 1) (beNat iv * 2 ^ 32 + 2) ct) else none

end Sys2Proof.Machine
end

