-- ==== Sys2Proof/Machine/Keys.lean ====
section
/-!
DEFINITION. The random generator, the keys derived from the root key and the device's identity (R404 to R406, R410, R417).
-/
namespace Sys2Proof.Machine

/-! ### The random generator: the CTR_DRBG of NIST SP 800-90A on SM4 (R417) -/

/-- The update of the working state (key, V) with 256 bits of data. Log entry 3. -/
def drbgUpdate (kv : Nat × Nat) (data : Nat) : Nat × Nat :=
  let rk := sm4Keys kv.1
  (sm4Block rk ((kv.2 + 1) % 2 ^ 128) ^^^ field data 128 128, sm4Block rk ((kv.2 + 2) % 2 ^ 128) ^^^ field data 0 128)

/-- The working state that an entropy input gives after a number of requests of one block each. Log entry 70. -/
def drbgState (seed : Nat) : Nat → Nat × Nat
  | 0 => drbgUpdate (0, 0) (Config.entropy seed)
  | n + 1 =>
    let kv := drbgState seed n
    drbgUpdate (kv.1, (kv.2 + 1) % 2 ^ 128) 0

/-- The 128 bits that a request returned. -/
def Rnd.value (r : Rnd) : Nat :=
  let kv := drbgState r.seed r.k
  sm4Block (sm4Keys kv.1) ((kv.2 + 1) % 2 ^ 128)

/-- A request to the generator, which is seeded anew when the standard's limit of requests is reached. Log entry 70. -/
def State.random (s : State) : Rnd × State :=
  if s.sec.drawn < 2 ^ 48 then (⟨s.sec.seed, s.sec.drawn⟩, { s with sec := { s.sec with drawn := s.sec.drawn + 1 } })
  else (⟨s.fresh, 0⟩, { s with sec := { s.sec with seed := s.fresh, drawn := 1 }, fresh := s.fresh + 1 })

/-! ### Derived keys: the counter-mode KDF of NIST SP 800-108 with HMAC-SM3 (R404) -/

/-- ASCII bytes. -/
def ascii (m : String) : List Byte := m.toList.map fun c => BitVec.ofNat 8 c.toNat

/-- The context of a key: its label, then the further inputs, each little-endian (R404). Log entry 70. -/
def kdfContext (label : String) (inputs : List (List Byte)) : List Byte := ascii label ++ inputs.flatten

/-- A key of whole bytes, by its label and further inputs. Log entry 70. Log entry 3. -/
def derive (bits : Nat) (label : String) (inputs : List (List Byte)) : List Byte :=
  ((List.range ((bits + 255) / 256)).flatMap fun i =>
    hmacSm3 (natBe 32 Config.rootKey) (Config.kdfFrame (i + 1) bits (kdfContext label inputs))).take (bits / 8)

/-- The identity private key (R404). Log entry 70. -/
def idKey : Nat := 1 + beNat (derive 320 "ID" []) % (sm2N - 1)

/-- The counter key (R404). -/
def counterKey : List Byte := derive 256 "CTR" []

/-- The object key of a partition under the image in force (R404). -/
def State.objKey (s : State) (p : Nat) : Nat :=
  beNat (derive 128 "OBJ"
    [natLe Config.indexBytes p, match s.ward.image with | some i => i.imageId | none => List.replicate 16 0#8])

/-- The swap key of a partition under its swap nonce (R404). -/
def State.swapKey (s : State) (p : Nat) : Nat :=
  beNat (derive 128 "SWP" [natLe Config.indexBytes p, natLe 16 (s.sec.nonces.getD p ⟨0, 0⟩).value])

/-! ### The device's identity (R405, R406) -/

/-- The identity public key: the point of the private key (R405). -/
def identityPub : Nat × Nat := (ecMul 256 idKey (some sm2G)).getD (0, 0)

/-- The Device Serial Number (R405). -/
def deviceSerial : Nat := beAt (sm3 ([4#8] ++ natBe 32 identityPub.1 ++ natBe 32 identityPub.2)) 0 8

/-- The inverse modulo the order of the curve. -/
def invN (x : Nat) : Nat := powMod sm2N 256 (x % sm2N) (sm2N - 2)

/-- The signature of a digest e under the private key d with one random number k, where k serves (R406). -/
def sm2SignWith (d e k : Nat) : Option (Nat × Nat) :=
  match ecMul 256 k (some sm2G) with
  | some (x, _) =>
    let r := (e + x) % sm2N
    let t := invN (1 + d) * (k + (sm2N - d % sm2N) * r) % sm2N
    if r = 0 ∨ r + k = sm2N ∨ t = 0 then none else some (r, t)
  | none => none

/-- The signature (r, s) of a message under the identity key (R406): the first of some random numbers that serves. Log entry 3. -/
def identitySign (m : List Byte) (ks : List Nat) : Nat × Nat :=
  ((ks.filterMap fun k => sm2SignWith idKey (beNat (sm3 (sm2Za identityPub ++ m))) (1 + k % (sm2N - 1))).head?).getD (0, 0)

/-! ### Counter transactions (R410) -/

/-- The authentication of a counter transaction. Log entry 70. -/
def CtrTxn.mac (t : CtrTxn) : List Byte :=
  hmacSm3 counterKey (Config.txnFrame t.counter t.value t.writes t.nonce.value)

/-- A counter transaction takes place (R410): a fresh nonce, and the session with the flash in PD0. -/
def State.transact (s : State) (c v : Nat) (write : Bool) : State :=
  let (n, s1) := s.random
  let w := if write then s.sec.writes + 1 else s.sec.writes
  { s1 with sec := { s1.sec with txn := some ⟨c, v, w, n⟩, writes := w, session := true } }

end Sys2Proof.Machine
end

