-- ==== Sys2Proof/Machine/Causes.lean ====
section
/-!
DEFINITION. The causes of the safe state (R381): which stand, what a detection does, what the entry does (R382 to R384).
-/
namespace Sys2Proof.Machine

/-- Bit m of SAFE_AGE_ESC in force (R380). -/
def State.esc (s : State) (m : Nat) : Bool := tbit (s.rv (0x200080 + 4 * (m / 32))) (m % 32)

/-- A unit is out of service (cores 0 to 15, attention engines 16 to 19, narrow-channel engines 20 and 21). -/
def State.unitOos (s : State) (u : Nat) : Bool := match s.safe.units[u]? with
  | some t => t.oos
  | none => false

/-- A unit is lapsed (R395). -/
def State.unitLapsed (s : State) (u : Nat) : Bool := match s.safe.units[u]? with
  | some t => t.lapsed
  | none => false

/-- The partition has a host in service: a core, or in a HINGED partition a pair (R241, R245). -/
def State.hostInService (s : State) (p : PartEntry) : Bool :=
  (List.range 16).any fun n =>
    tbit p.coreMask n && !s.unitOos n && (!p.hinged || !s.unitOos (n ^^^ 1))

/-- A channel is FAILED, and the age monitor that it names escalates (R381). -/
def State.failedEsc (s : State) (c : Nat) : Bool :=
  (match s.ctl.chans[c]? with
    | some x => x.state == .failed
    | none => false) &&
  (match s.chanEntry c with
    | some e => e.ageMon != 0xFF && s.esc e.ageMon
    | none => false)

/-- A cause 0x0410 + c is standing, or hard and has occurred (R381, R402). Log entries 44, 75. -/
def State.standing (s : State) (c : Nat) : Bool :=
  match c with
  | 0 => s.drive && s.safe.mons.any fun m => m.2.exceeded && s.esc m.1
  | 1 => s.drive && (match s.safe.plan with | some p => p.lapsePolicy == 1 | none => false) &&
      (List.range 22).any s.unitLapsed
  | 2 => s.drive && match s.safetyPart with
    | some p => !s.hostInService p
    | none => false
  | 3 => !s.safe.pairLost.isEmpty || (List.range 24).any s.failedEsc
  | 8 => s.pwr.hot.any id || s.pwr.towerHot.any id || !s.pwr.supply.isEmpty || s.pwr.oscLost || s.pwr.rateBad
  | n => s.safe.hard.contains n

/-- Some cause stands or is hard. -/
def State.anyStanding (s : State) : Bool := (List.range 9).any s.standing

/-- SAFE_STANDING (R402). -/
def State.standingWord (s : State) : Nat := maskOf ((List.range 9).filter s.standing)

/-- A cause is detected (R381, R382): its record, a hard cause remembered, and the entry due where the heartbeat runs
under a drive image. Log entries 28, 81. -/
def State.detect (s : State) (c unit response : Nat) : State :=
  let s1 := s.logNow response unit (0x0410 + c)
  let hard := if 5 ≤ c ∧ c ≤ 7 ∧ !s1.safe.hard.contains c then s1.safe.hard ++ [c] else s1.safe.hard
  let due := match s1.safe.entryDue with
    | some d => some d
    | none => if s1.drive && s1.safe.state == 1 then some (c, s1.now) else none
  { s1 with safe := { s1.safe with hard := hard, entryDue := due } }

/-- The safe-state frame (R384) of a cause and its detection instant. -/
def safeFrame (e : SafetyEntry) (cause ts repeatNo : Nat) : CanFrame :=
  let w := ts / 1000000000 % 4 * 2 ^ 30 + ts % 1000000000
  { ide := tbit e.frameId 31, id := if tbit e.frameId 31 then field e.frameId 0 29 else field e.frameId 0 11, kind := 0,
    brs := false, esi := false, rtr := false, sdt := 0, vcid := 0, af := 0, sec := false, dlc := 8,
    data := [0x01#8, BitVec.ofNat 8 repeatNo] ++ natLe 2 (0x0410 + cause) ++ natLe 4 w }

/-- A safe-state frame made pending at SAFE_CAN (R320, R382). -/
def State.putSafeFrame (s : State) (cause ts repeatNo : Nat) : State :=
  match s.ward.image.bind (·.safety) with
  | none => s
  | some e => { s with can := lmod s.can e.safeCan fun c => { c with safe := some (safeFrame e cause ts repeatNo) } }

/-- The safe-state frame of the present safe state made pending (R382, R384). -/
def State.queueSafeFrame (s : State) (repeatNo : Nat) : State := s.putSafeFrame s.safe.cause s.safe.entryTs repeatNo

/-- Both deadbolt pins go low (R383). -/
def State.stopHeartbeat (s : State) : State :=
  if s.safe.heartbeat then ({ s with safe := { s.safe with heartbeat := false } }).emit (.deadbolt false) else s

/-- The heartbeat starts, with a rising edge on DEADBOLT_A (R383, R452). -/
def State.startHeartbeat (s : State) : State :=
  ({ s with safe := { s.safe with heartbeat := true } }).emit (.deadbolt true)

/-- The island as a command leaves it that neither enters nor leaves the safe state: the deadbolt's state, cause, entry
count and stamp, heartbeat and repeat number stand as before. -/
def SafeSt.carry (new old : SafeSt) : SafeSt :=
  { new with state := old.state, cause := old.cause, entryCnt := old.entryCnt, entryTs := old.entryTs,
             heartbeat := old.heartbeat, repeatNo := old.repeatNo }

/-- The entry into the safe state (R382): first cause, detection instant, count, heartbeat, frame, event. -/
def State.enterSafe (s : State) (c ts : Nat) : State :=
  let s1 := { s with safe := { s.safe with
    state := 2, cause := c, entryTs := ts, entryCnt := (s.safe.entryCnt + 1) % 2 ^ 32, repeatNo := 0, entryDue := none } }
  ((s1.stopHeartbeat).queueSafeFrame 0).raise 0x200020 1

end Sys2Proof.Machine
end

