-- ==== Sys2Proof/Machine/Units.lean ====
section
/-!
DEFINITION. What the loss of a unit does at once (R150, R213, R231, R240): its mark, the jobs that stop, the contexts
that become LOST, and the marks of memory errors (R139, R161, R398).
-/
namespace Sys2Proof.Machine

/-- The key of a pool register of a partition (R218). -/
def poolKey (p o : Nat) : Nat := 0xB30000 + 0x40 * p + o

/-- A context of a pool changed. -/
def State.modCtx (s : State) (p c : Nat) (f : CtxSt → CtxSt) : State :=
  let g : PoolSt → PoolSt := fun q =>
    match alGet q.ctxs c with
    | some x => { q with ctxs := alSet q.ctxs c (f x) }
    | none => q
  { s with kv := { s.kv with pools := lmod s.kv.pools p g } }

/-- The running job of a partition changed. -/
def State.modJob (s : State) (p : Nat) (f : Job → Job) : State :=
  { s with comp := { s.comp with parts := lmod s.comp.parts p fun q => { q with job := q.job.map f } } }

/-- Pages of the context move at an engine (R210, R211, R217). -/
def CtxSt.moves (c : CtxSt) (q : Nat) : Bool :=
  c.mover == q && (c.state == .swappingOut || (c.state == .swappingIn && !c.heldSlots.isEmpty))

/-- Steps that wait for pages of a context to move are taken up again (R211 to R213). -/
def State.releaseSwap (s : State) (p c : Nat) : State :=
  let f : TargetSt → TargetSt := fun x => if x.phase = .swapWait c then { x with phase := .started } else x
  s.modJob p fun j => { j with targets := j.targets.map f }

/-! ### Attention engines -/

/-- The engines of a partition that are in service, ascending (R243). -/
def State.enginesIn (s : State) (e : PartEntry) : List Nat := (bitsOf 4 e.attnMask).filter fun q => !s.unitOos (16 + q)

/-- The serving engine of a physical core (R191, R243). -/
def State.engineOf (s : State) (e : PartEntry) (core : Nat) : Option Nat :=
  let l := s.enginesIn e
  if l.contains (core / 4) then some (core / 4) else l[core / 4 % l.length]?

/-- The key of an engine's register (R217). -/
def attnKey (q o : Nat) : Nat := 0xB00000 + 0x40000 * q + o

/-- The step at the head of a target is one of the attention chapter (R190) that an engine executes or has executed. -/
def TargetSt.atEngine (x : TargetSt) : Bool := match x.steps, x.phase with
  | (_, b) :: _, .swapWait _ => decide (0x20 ≤ leAt b 0 1) && decide (leAt b 0 1 < 0x30)
  | (_, b) :: _, .started => decide (0x20 ≤ leAt b 0 1) && decide (leAt b 0 1 < 0x30)
  | (_, b) :: _, .done _ _ => decide (0x20 ≤ leAt b 0 1) && decide (leAt b 0 1 < 0x30)
  | _, _ => false

/-- A context becomes LOST, with LOST in the pool events (R213); a step that waits on it is taken up again and ends. -/
def State.loseCtx (s : State) (p c : Nat) : State :=
  ((s.modCtx p c fun x => { x with state := .lost, heldSlots := [] }).releaseSwap p c).raise (poolKey p 0x2C) 4

/-- Every context that a predicate picks becomes LOST. -/
def State.loseCtxs (s : State) (pick : CtxSt → Bool) : State :=
  (List.range 8).foldl (fun s p =>
    match s.kv.pools[p]? with
    | some q => (q.ctxs.filter fun x => x.2.state != .lost && pick x.2).foldl (fun s x => s.loseCtx p x.1) s
    | none => s) s

/-- A page of the context is staged in the engine. -/
def CtxSt.stagedIn (c : CtxSt) (e : Nat) : Bool :=
  c.lanes.any fun l => l.pages.any fun p => match p.2 with
    | .staged e' _ => e' == e
    | _ => false

/-- A target as its job stops (R123, R231): a catch wait is abandoned at once and its command ends; a target between
commands takes no further step; another runs to its next command boundary. -/
def TargetSt.stopNow (x : TargetSt) : TargetSt :=
  let ends : TargetSt :=
    { x with steps := [], phase := .fresh, cmdOpen := false, skip := 0, stopped := true, wrote := false, ueMet := false }
  match x.phase with
  | .waitHead => ends
  | .catchWait _ => ends
  | _ => if x.cmdOpen then x else ends

/-- A job stops (R231): delivery ends, waits are abandoned. -/
def Job.stop (j : Job) : Job :=
  { j with halted := true, stopping := true, targets := j.targets.map TargetSt.stopNow }

/-- A job stops with a code of its own. -/
def Job.stopWith (j : Job) (r : Raised) : Job := { j.stop with raised := j.raised ++ [r] }

/-- The logical cores mapped to a physical core (R241); in a HINGED partition to its pair. -/
def State.hostedBy (s : State) (p n : Nat) : List Nat :=
  match s.comp.parts[p]?, s.part p with
  | some q, some e =>
    (List.range 16).filter fun i => match q.map[i]? with
      | some (some h) => h == (if e.hinged then n / 2 * 2 else n)
      | _ => false
  | _, _ => []

/-- A target whose command is lost with its host (R240). -/
def TargetSt.lose (t : TargetSt) : TargetSt :=
  { t with steps := [], phase := .fresh, cmdOpen := false, stopped := true, wrote := false, ueMet := false }

/-- A context whose slots cannot all be obtained is SWAPPED again (R211). -/
def CtxSt.backOut (x : CtxSt) : CtxSt := { x with state := .swapped, asker := none }

/-- Requests for page slots that are lost with their steps (R211, R240): a context that had none of its slots yet is SWAPPED
again, and the steps that wait for pages of the partition to move are taken up again. Log entry 40. -/
def State.dropAskers (s : State) (p : Nat) (lost : List Nat) : State :=
  let f : Nat × CtxSt → Nat × CtxSt := fun x =>
    (x.1, if x.2.state = .swappingIn ∧ x.2.heldSlots = [] ∧ x.2.asker.any lost.contains = true then x.2.backOut else x.2)
  let wake : TargetSt → TargetSt := fun x => match x.phase with
    | .swapWait _ => { x with phase := .started }
    | _ => x
  ({ s with kv := { s.kv with pools := lmod s.kv.pools p fun q => { q with ctxs := q.ctxs.map f } } }).modJob p fun j =>
    { j with targets := j.targets.map wake }

/-- A core of a partition is lost: the job that runs stops with 0x0401, a re-map is due (R232, R240). Log entry 76. -/
def State.partLosesCore (s : State) (p n : Nat) : State :=
  let hosted := s.hostedBy p n
  let s1 := s.modJob p fun j =>
    let last := match hosted with
      | i :: _ => (match j.targets.find? fun t => t.id == i with | some t => t.lastStep | none => 0xFFFFFFFF)
      | [] => 0xFFFFFFFF
    let j1 := j.stopWith ⟨0x0401, hosted.headD 31, last⟩
    { j1 with targets := j1.targets.map fun t => if hosted.contains t.id then t.lose else t }
  let s1 := s1.dropAskers p hosted
  { s1 with comp := { s1.comp with parts := lmod s1.comp.parts p fun q => { q with remapDue := true } } }

/-- A partition loses a unit that is no core (an attention engine, a tower): the targets of `hit`, whose step ran on it, lose
their command, and the lowest of them is the raiser of 0x0401 (R232, R240). Log entry 76. -/
def State.partLosesOther (s : State) (p : Nat) (hit : List Nat) : State :=
  let s1 := s.modJob p fun j =>
    let first := j.targets.find? fun t => some t.id == ((List.range 16).find? fun i => hit.contains i)
    let j1 := j.stopWith ⟨0x0401, (first.map (·.id)).getD 31, (first.map (·.lastStep)).getD 0xFFFFFFFF⟩
    { j1 with targets := j1.targets.map fun t => if hit.contains t.id then t.lose else t }
  let s1 := s1.dropAskers p hit
  { s1 with comp := { s1.comp with parts := lmod s1.comp.parts p fun q => { q with remapDue := true } } }

/-- The targets of a partition whose step runs on an attention engine. -/
def State.atEngine (s : State) (p q : Nat) : List Nat :=
  match s.part p, s.comp.parts[p]? with
  | some e, some x => (x.job.map (·.targets)).getD [] |>.filterMap fun t =>
    if t.atEngine && ((x.map[t.id]?).join.bind fun h => s.engineOf e h) == some q then some t.id else none
  | _, _ => []

/-- The island takes a core, an attention engine or a narrow-channel engine out of service, with its record (R394,
R398, R240). -/
def State.loseUnit (s : State) (u code : Nat) : State :=
  if s.unitOos u then s
  else
    let ran := if 16 ≤ u ∧ u < 20 then ((s.partOfEngine (u - 16)).map fun p => s.atEngine p (u - 16)).getD [] else []
    let s1 := { s with safe := { s.safe with units := lmod s.safe.units u fun t =>
      { t with oos := true, lapsed := false, running := false } } }
    let s2 := (s1.logNow 1 u code).raise 0x200020 0x40
    if u < 16 then
      match s2.partOfCore u with
      | some p => s2.partLosesCore p u
      | none => s2
    else if u < 20 then
      let a := s2.loseCtxs fun c => c.stagedIn (u - 16)
      match a.partOfEngine (u - 16) with
      | some p => a.partLosesOther p ran
      | none => a
    else s2

/-- A batch ring emptied and stopped until the re-map completes (R274). -/
def RingSt.cut (r : RingSt) : RingSt :=
  { r with bufs := r.bufs.map fun _ => .free, wins := [], waiting := [], stopped := true }

/-- A decoder stream whose reference memory is lost (R26, R261): the pictures that it holds are corrupt, and so is every
picture that depends on a lost one. Log entry 52. -/
def VdecSt.lose (v : VdecSt) : VdecSt :=
  { v with queue := v.queue.map fun x => { x with status := if x.status = 0 then 0x0107 else x.status },
           corruptChain := v.corruptChain || v.refBytes != 0 }

/-- A DRAM tower leaves service (R150, R213, R244, R274, R275): every partition's DRAM becomes undefined, contexts are
LOST, rings and cache are emptied, decoder pictures are corrupt, jobs stop. Log entries 34, 76. -/
def State.loseTower (s : State) (t : Nat) (code : Option Nat) : State :=
  if s.safe.towersOos.contains t then s
  else
    let s1 := { s with
      safe := { s.safe with towersOos := s.safe.towersOos ++ [t] }
      dram := { mem := ⟨.free s.fresh, []⟩, poison := [],
                towers := lmod s.dram.towers t fun x => { x with state := .outOfService } }
      fresh := s.fresh + 1
      ing := { s.ing with cache := [], rings := s.ing.rings.map RingSt.cut, vdecs := s.ing.vdecs.map VdecSt.lose } }
    let s2 := match code with
      | some c => (s1.logNow 1 (24 + t) c).raise 0x200020 0x40
      | none => s1.raise 0x200020 0x40
    let s3 := s2.loseCtxs fun _ => true
    let s3 := { s3 with comp := { s3.comp with parts := s3.comp.parts.map fun q => { q with dramLost := true } } }
    (List.range 8).foldl (fun s p => if (s.part p).isSome then s.partLosesOther p [] else s) s3

/-! ### Memory errors -/

/-- A 32-bit counter of SAFE_MEM increased; it stops at its maximum (R160). -/
def State.memCount (s : State) (k n : Nat) : State := s.setReg k (min (s.rv k + n) 0xFFFFFFFF)

/-- The log of the first uncorrected error (R160, R161). -/
def State.memLog (s : State) (src addr : Nat) : State :=
  if tbit (s.rv 0x2400A0) 31 then s
  else ((((s.setReg 0x2400A0 (2 ^ 31 + src)).setReg 0x2400A4 (addr % 2 ^ 32)).setReg 0x2400A8 (addr / 2 ^ 32 % 2 ^ 16)).setRegs
    0x2400AC (tsWords s.now))

/-- The island's own record of errors (R398): unit, its kind, the instant on the safety clock; those within 1 s. Log entry 78. -/
def State.recentErrors (s : State) (kind : Nat) (n : Nat) : State × Nat :=
  let now := s.time.safeClk
  let l := (s.safe.errors.filter fun e => decide (now ≤ e.2 + 1000000000)) ++ List.replicate n (kind, now)
  ({ s with safe := { s.safe with errors := l } }, (l.filter fun e => e.1 == kind).length)

/-- Corrected scratchpad errors of a core (R161, R398). -/
def State.spCorrected (s : State) (core n : Nat) : State :=
  if n = 0 then s
  else
    let (s1, k) := (s.memCount (0x240000 + 4 * core) n).recentErrors (100 + core) n
    if 1000 ≤ k then s1.loseUnit core 0x0423 else s1

/-- An uncorrected scratchpad error of a core at an offset (R139, R161, R398). -/
def State.spUncorrected (s : State) (core addr region : Nat) (scrub : Bool) : State :=
  let s1 := (s.memCount (0x240040 + 4 * core) 1).memLog (core + flagBit 9 scrub + region * 2 ^ 8) addr
  let (s2, k) := s1.recentErrors (200 + core) 1
  if 3 ≤ k then s2.loseUnit core 0x0422 else s2

/-- Corrected errors of a tower (R161). -/
def State.dramCorrected (s : State) (t : Nat) : State := s.memCount (0x240080 + 4 * t) 1

/-- An uncorrected error of a tower at a device address (R139, R161, R398). -/
def State.dramUncorrected (s : State) (t addr : Nat) : State :=
  let s1 := (s.memCount (0x240090 + 4 * t) 1).memLog (16 + t) addr
  let (s2, k) := s1.recentErrors (300 + t) 1
  if 16 ≤ k then s2.loseTower t (some 0x0422) else s2

/-- An engine's residue check has failed (R398, R400). Log entry 34. -/
def State.residueFailed (s : State) (u : Nat) : State :=
  let (s1, k) := s.recentErrors (400 + u) 1
  if 2 ≤ k then s1.loseUnit u 0x0424 else s1

end Sys2Proof.Machine
end

