-- ==== Sys2Proof/Machine/Safety.lean ====
section
/-!
DEFINITION. Age monitors, the safe state, the guard, test keys and hinged core pairs (R376 to R399, R452).
-/
namespace Sys2Proof.Machine

/-! ### Age monitors -/

/-- What a monitor watches (R376): the channels that name it, a queue, a ring, or nothing. -/
inductive MonBind where
  | none
  | chans (l : List Nat)
  | queue (q : Nat)
  | ring (r : Nat)
  deriving DecidableEq, Repr

/-- The leader of a channel's pair, or the channel itself (R304: the member of lower number leads). -/
def State.leaderOf (s : State) (c : Nat) : Nat := match s.chanEntry c with
  | some e => if e.partner < 24 then min c e.partner else c
  | none => c

/-- The monitor that governs a channel's frames (R43, R376): the leader's AGE_MON; none where it is 0xFF. -/
def State.chanMon (s : State) (c : Nat) : Option Nat :=
  ((s.chanEntry (s.leaderOf c)).map (·.ageMon)).filter (· != 0xFF)

/-- The channels, leaders of their pairs, whose monitor is m. -/
def State.chansOf (s : State) (m : Nat) : List Nat :=
  (List.range 24).filter fun c => s.leaderOf c == c && s.chanMon c == some m

/-- The binding of a monitor (R376). -/
def State.monBind (s : State) (m : Nat) : MonBind :=
  let l := s.chansOf m
  if !l.isEmpty then .chans l
  else
    let w := s.rv (0x220000 + 16 * m)
    match field w 30 2 with
    | 1 => .queue (field w 0 16)
    | 2 => .ring (field w 0 16)
    | _ => .none

/-- The limit of a monitor in µs (R42). -/
def State.monLimit (s : State) (m : Nat) : Nat := match s.ward.image with
  | some i => i.ages.getD m 0
  | none => 0

/-- The monitor is active (R376). Log entry 86. -/
def State.monActive (s : State) (m : Nat) : Bool := s.drive && s.monLimit m != 0 && s.monBind m != .none

/-- The monitors after a switch or the apply of a binding (R377): a monitor that becomes active, or whose binding has
changed, takes the present instant; the others keep their timestamp, and their exceedance remains a cause that has occurred only
where their ESC bit remains set (R379). Log entry 86. -/
def State.refreshMons (s old : State) : State :=
  let act := (List.range 256).filter s.monActive
  let new : MonSt := ⟨s.now, s.now, [], false, false, 0⟩
  let mons := act.map fun m =>
    match alGet old.safe.mons m with
    | some x => (m, if old.monBind m = s.monBind m then { x with caused := x.caused && s.esc m } else new)
    | none => (m, new)
  { s with safe := { s.safe with mons := mons } }

/-- The earliest of a list of instants in the sense of R338. -/
def earliest : List Nat → Nat → Nat
  | [], d => d
  | a :: t, d => earliest t (if tdiff a d < 0 then a else d)

/-- A delivered result of a channel (R377). -/
def State.deliverChan (s : State) (c ts : Nat) : State :=
  let lead := s.leaderOf c
  match s.chanMon c with
  | none => s
  | some n => match alGet s.safe.mons n with
    | none => s
    | some m =>
      let l := alSet m.latest lead ts
      let all := (s.chansOf n).map fun x => (alGet l x).getD m.base
      let m' := { m with latest := l, ts := earliest (all.drop 1) (all.headD ts) }
      { s with safe := { s.safe with mons := alSet s.safe.mons n m' } }

/-- A delivered result of a queue or a ring (R377). -/
def State.deliver (s : State) (b : MonBind) (ts : Nat) : State :=
  let f : Nat × MonSt → Nat × MonSt := fun x => if s.monBind x.1 = b then (x.1, { x.2 with ts := ts }) else x
  { s with safe := { s.safe with mons := s.safe.mons.map f } }

/-- The evaluation of one active monitor (R378, R379, R381). -/
def State.evalMon (s : State) (m : Nat) : State :=
  match alGet s.safe.mons m with
  | none => s
  | some x =>
    let age := tdiff s.now x.ts
    let late := decide ((s.monLimit m * 1000 : Nat) < age)
    let caused := late && (x.caused || s.esc m)
    let us := if age < 0 then 0 else min (age.toNat / 1000) 0xFFFFFFFF
    let x' := { x with exceeded := late, caused := caused, age := us }
    let s1 := { s with safe := { s.safe with mons := alSet s.safe.mons m x' } }
    let s2 := if late && !x.exceeded then
        (if s.esc m then s1 else s1.logNow 0 0xFF 0x0425).raise 0x200020 4
      else s1
    if caused && !x.caused then s2.detect 0 0xFF 2 else s2

/-- The captures of the SAFE block apply at an evaluation (R402). Log entry 18. -/
def State.safeBoundary (s : State) : State :=
  s.applyReady 2 (fun c => groupOf c.key == 15) fun t => t.refreshMons s

/-- One evaluation of every active monitor, under the escalations and bindings then in force; none under a depot image
(R378, R380, R402). -/
def State.evalAges (s : State) : State :=
  if s.drive then (List.range 256).foldl State.evalMon s.safeBoundary else s

/-- What the commands of the tests and the pairs may change. -/
def commitSafe (s t : State) : State :=
  { s with safe := t.safe.carry s.safe, out := t.out, comp := t.comp, kv := t.kv, dram := t.dram, ing := t.ing, time := t.time,
           pwr := t.pwr, fresh := t.fresh,
           regs := { s.regs with safe := t.regs.safe, pci := t.regs.pci, attn := t.regs.attn, time := t.regs.time,
                                 core := t.regs.core, queue := t.regs.queue } }

/-- What the safe state's commands may change: the island, the safe-state frame, messages. -/
def commitState (s t : State) : State :=
  { s with safe := t.safe, out := t.out, can := t.can, fresh := t.fresh,
           regs := { s.regs with global := t.regs.global, safe := t.regs.safe, pci := t.regs.pci } }

/-- The present instant is a multiple of 1 µs of the time base, to which it has come with its last advance (R378). Log entry 6. -/
def State.onMicro (s : State) : Bool := decide (s.time.tb % (1000 * 2 ^ 28) < max s.time.last 1)

/-- An evaluation, which falls on the grid of 1 µs (R378). -/
def execAgeEvaluation (s : State) : Answer := s.clocked fun s => commitState s (if s.onMicro then s.evalAges else s)

/-- The island's decision on the first cause (R382). -/
def execSafeStateEntry (s : State) : Answer :=
  .next (commitState s (match s.safe.entryDue with
    | some (c, ts) => if s.safe.state = 1 then s.enterSafe c ts else { s with safe := { s.safe with entryDue := none } }
    | none => s))

/-- The safe-state frame every 100 ms while the safe state lasts (R384). -/
def execSafeFrameRepeat (s : State) : Answer :=
  .next (commitState s
    (if s.safe.state = 2 then
      let n := (s.safe.repeatNo + 1) % 256
      ({ s with safe := { s.safe with repeatNo := n } }).queueSafeFrame n
    else s))

/-- RESUME is accepted (R385, R452): to leave the safe state, or to arm. Log entry 80. -/
def State.resumeOk (s : State) (key : Nat) : Bool :=
  let k := key == s.safe.entryCnt % 2 ^ 16
  match s.safe.state with
  | 2 => k && !s.anyStanding
  | 0 => k && s.drive && !s.anyStanding && s.boot.ready && s.time.mode != .free
  | _ => false

/-- The effect of RESUME (R385, R452). -/
def State.doResume (s : State) (key : Nat) : State :=
  if s.resumeOk key then
    let s1 := { s with safe := { s.safe with state := 1 } }
    if s.safe.state = 2 then s1.startHeartbeat.raise 0x200020 2 else s1.startHeartbeat
  else s.raise 0x200020 0x80

/-- RESUME written to SAFE_CMD (R385, R402). -/
def execResume (port : Port) (value : Word) (s : State) : Answer :=
  s.gate port 0x200004 (s.isSafetyPort port) fun s => commitState s (s.doResume (field value.toNat 16 16))

/-- ENTER written to SAFE_CMD (R386). -/
def execEnter (port : Port) (_value : Word) (s : State) : Answer :=
  s.gate port 0x200004 (s.isSafetyPort port) fun s => commitState s (s.detect 4 0xFF 2)

/-- The deadbolt unit reads both pins back (R383). -/
def execDeadboltReadback (mismatch : Bool) (s : State) : Answer :=
  .next (commitState s (if mismatch && s.safe.heartbeat then s.detect 5 0xFF 2 else s))

/-- The island kicks the guard (R399). -/
def execGuardKick (s : State) : Answer :=
  s.clocked fun s => commitState s { s with safe := { s.safe with lastKick := s.time.safeClk } }

/-- The guard acts (R399): pins low at once, and the safe-state frame with the guard's own cause, whatever the island does. The
safe state is entered with the first cause where one was due before. Log entry 79. -/
def State.guardActs (s : State) (c : Nat) : State :=
  let s1 := s.detect c 0xFF 2
  let s2 := match s1.safe.entryDue with
    | some (c', ts) => if s1.safe.state = 1 then s1.enterSafe c' ts else s1.stopHeartbeat
    | none => s1.stopHeartbeat
  s2.putSafeFrame c s.now 0

/-- No kick for the guard's time (R399). -/
def execGuardTimeout (s : State) : Answer := .next (commitState s (s.guardActs 7))

/-- The island's lockstep comparator or supply monitor trips (R399). -/
def execIslandLockstepTrip (s : State) : Answer := .next (commitState s (s.guardActs 6))

/-- What the loss of the reference oscillator may change: of the deadbolt only its pins, which go low. -/
def commitOsc (s t : State) : State :=
  { s with safe := { t.safe.carry s.safe with heartbeat := s.safe.heartbeat && t.safe.heartbeat }, out := t.out,
           time := t.time, boot := { s.boot with refOsc := t.boot.refOsc }, pwr := t.pwr,
           regs := { s.regs with safe := t.regs.safe, pci := t.regs.pci } }

/-- The reference oscillator stops (R334, R399): pins low, cause 0x0418, coarse mode. -/
def execReferenceOscillatorStop (s : State) : Answer :=
  let t := { s with boot := { s.boot with refOsc := false }, pwr := { s.pwr with oscLost := true },
                    time := { s.time with coarse := true, mode := .free, inSync := false } }
  .next (commitOsc s ((if s.pwr.oscLost then t else t.detect 8 0xFF 2).stopHeartbeat))

/-! ### Test keys -/

/-- Granules of a unit's test key (R388). -/
def granulesOf (u : Nat) : Nat := if u < 16 then 8 else 2

/-- The core whose slot tests a unit (R388). -/
def slotCore (u : Nat) : Nat := if u < 16 then u else if u < 20 then 4 * (u - 16) else 8 * (u - 20)

/-- The plan tests a unit: its slot is enabled (R388, R395). -/
def planTests (p : Option SafetyEntry) (u : Nat) : Bool := match p with
  | some e => (match e.slots[slotCore u]? with | some x => x.enabled | none => false)
  | none => false

/-- A unit of the test keys changed. -/
def State.modUnit (s : State) (u : Nat) (f : TestSt → TestSt) : State :=
  { s with safe := { s.safe with units := lmod s.safe.units u f } }

/-- A pair that identifies a fault runs its whole key now, whatever the plan (R396). -/
def State.identifyingCore (s : State) (u : Nat) : Bool := decide (u < 16) && s.safe.identifying.contains (u / 2)

/-- The banks that a core's test can write (R393). -/
def testBanks : List Nat := [62, 63]

/-- Banks 62 and 63 as a test finds them (R393): opened where they are off. -/
def Pad.openTest (p : Pad) : Pad :=
  { p with banks := testBanks.foldl (fun l b => if l.getD b .on = .off then l.set b .on else l) p.banks }

/-- Banks 62 and 63 after a test has written them (R393): their contents are the test's, which the spec does not give; those
that it opened are off again. -/
def Pad.afterTest (p : Pad) (opened : List Nat) (epoch : Nat) : Pad :=
  { p with fills := (p.fills.set 62 (.free epoch)).set 63 (.free epoch),
           cells := p.cells.filter fun c => decide (c.1 / 0x80000 < 62),
           poison := p.poison.filter fun g => decide (g * 8 / 0x80000 < 62),
           banks := opened.foldl (fun l b => l.set b .off) p.banks }

/-- The granule that runs on a unit ends or is abandoned (R391, R393): on a core its two banks are left as the test leaves
them. -/
def State.leaveGranule (s : State) (u : Nat) : State := match s.safe.units[u]? with
  | none => s
  | some t =>
    if !t.running then s
    else
      let s1 := s.modUnit u fun t => { t with running := false, opened := [] }
      if u < 16 then
        let f : CoreSt → CoreSt := fun c => { c with pad := c.pad.afterTest t.opened s.fresh }
        { s1 with comp := { s1.comp with cores := lmod s1.comp.cores u f }, fresh := s1.fresh + 1 }
      else s1

/-- The plan of the interval that begins (R389): under it each unit in service starts untested. Log entry 27. -/
def State.startInterval (s : State) (plan : Option SafetyEntry) : State :=
  let s := (List.range 22).foldl State.leaveGranule s
  let f : Nat → TestSt := fun u =>
    match s.safe.units[u]? with
    | some t => { t with enabled := planTests plan u && !t.oos, doneGranules := 0, mismatched := false, passed := false,
                         inSlot := false, lapsed := t.lapsed && planTests plan u && !t.oos }
    | none => .reset
  { s with safe := { s.safe with plan := plan, running := plan.isSome, units := (List.range 22).map f } }

/-- LAPSE_POLICY of a plan is 1 (R395). -/
def lapseIsCause (plan : Option SafetyEntry) : Bool := plan.any fun p => p.lapsePolicy == 1

/-- A unit that ends an interval without passing lapses (R395): a cause or a record, by the plan in force; one that is lapsed
already stays so. -/
def State.lapse (s : State) (u : Nat) : State :=
  match s.safe.units[u]? with
  | none => s
  | some t =>
    if !(t.enabled && !t.oos && !t.passed && !t.lapsed) then s
    else
      let s1 := (s.modUnit u fun t => { t with lapsed := true }).raise 0x200020 8
      if lapseIsCause s.safe.plan then s1.detect 1 u 2 else s1.logNow 0 u 0x0426

/-- The units that stay lapsed under a plan that makes a lapse a cause, where the plan before did not (R381, R395). Log entry
27. -/
def State.lapseCauses (s : State) (old : Option SafetyEntry) : State :=
  if lapseIsCause s.safe.plan && !lapseIsCause old then
    ((List.range 22).filter s.unitLapsed).foldl (fun s u => s.detect 1 u 2) s
  else s

/-- The end of a fault-tolerant time interval and the start of the next (R389, R394, R395). -/
def State.endInterval (s : State) : State :=
  if !s.safe.running then s
  else
    let s1 := (List.range 22).foldl State.lapse s
    let s2 := { s1 with safe := { s1.safe with interval := (s1.safe.interval + 1) % 2 ^ 32 } }
    (s2.startInterval s2.safe.nextPlan).lapseCauses s.safe.plan

/-- The end of an interval, on the island's clock (R389). -/
def execIntervalEnd (s : State) : Answer := s.clocked fun s => commitSafe s s.endInterval

/-- A domain that is off or retained starts to wake (R428). -/
def DomSt.wake (d : DomSt) : DomSt :=
  if d.state = .on ∨ d.state = .waking then d else { d with state := .waking, fromOff := d.state == .off }

/-- A unit in service has granules to run, or runs one: tested and not passed, or identified with its pair (R390 to R396). -/
def State.testDue (s : State) (u : Nat) : Bool := match s.safe.units[u]? with
  | some t => !t.oos && ((s.safe.running && t.enabled && !t.passed) || s.identifyingCore u)
  | none => false

/-- A granule is owed to a unit: it has one to run, and none runs. -/
def State.granuleOwed (s : State) (u : Nat) : Bool := s.testDue u && !(s.safe.units.getD u .reset).running

/-- The identification of a pair ends (R396): a core that fails leaves service; if both pass, the mismatch is a
transient, and a third within 1 s takes both out. -/
def State.pairIdentified (s : State) (pair : Nat) (evenFails oddFails : Bool) : State :=
  if !s.safe.identifying.contains pair then s
  else
    let s1 := { s with safe := { s.safe with identifying := s.safe.identifying.filter (· != pair) } }
    let s2 := if evenFails then (s1.raise 0x200020 0x10).loseUnit (2 * pair) 0x0420 else s1
    let s3 := if oddFails then (s2.raise 0x200020 0x10).loseUnit (2 * pair + 1) 0x0420 else s2
    if evenFails || oddFails then s3
    else
      let now := s3.time.safeClk
      let l := (s3.safe.transients.filter fun e => decide (now ≤ e.2 + 1000000000)) ++ [(pair, now)]
      let s4 := ({ s3 with safe := { s3.safe with transients := l } }).logNow 0 (2 * pair) 0x0421
      if 3 ≤ (l.filter fun e => e.1 == pair).length then (s4.loseUnit (2 * pair) 0x0421).loseUnit (2 * pair + 1) 0x0421
      else s4

/-- The identification of a hinged pair by its test key ends (R396). -/
def execPairIdentificationDone (pair : Fin 8) (evenFails oddFails : Bool) (s : State) : Answer :=
  .next (commitSafe s (s.pairIdentified pair evenFails oddFails))

/-- SAFE_MEM_CLR bit 0: the counters clear, from any port (R160). -/
def State.memCountersClear (s : State) : State :=
  (s.setRegs 0x240000 (List.replicate 32 0)).setRegs 0x240080 (List.replicate 8 0)

/-- SAFE_MEM_CLR bit 1: the log clears (R160). -/
def State.memLogClear (s : State) : State := s.setRegs 0x2400A0 (List.replicate 6 0)

/-- SAFE_MEM_CLR written with bit 0 (R160, R161). -/
def execSafeMemCounterClear (port : Port) (s : State) : Answer :=
  s.gate port 0x2400C0 true fun s => commitState s s.memCountersClear

/-- SAFE_MEM_CLR written with bit 1 (R160, R161). -/
def execSafeMemLogClear (port : Port) (s : State) : Answer :=
  s.gate port 0x2400C0 true fun s => commitState s s.memLogClear

end Sys2Proof.Machine
end

