-- ==== Sys2Proof/Machine/Power.lean ====
section
/-!
DEFINITION. Power domains, operating points, the governor, droop, supply monitors, metering and tower self-refresh
(R153, R426 to R445).
-/
namespace Sys2Proof.Machine

/-- The key of a register of the PWR block. -/
def pwrKey (o : Nat) : Nat := 0x400000 + o

/-- An event bit of PWR_EVENT (R445). -/
def State.pwrEvent (s : State) (bit : Nat) : State := s.raise (pwrKey 4) (2 ^ bit)

/-- A power domain changed. -/
def State.modDom (s : State) (d : Nat) (f : DomSt → DomSt) : State :=
  { s with pwr := { s.pwr with doms := lmod s.pwr.doms d f } }

/-! ### The voltage table (R435) -/

/-- A byte of the table in use. Log entry 73. -/
def vtByte (dflt : Bool) (i : Nat) : Nat := (if dflt then Config.vtDefault i else Config.vtDevice i).toNat

/-- Voltage of die row d at point k, in mV. Log entry 73. -/
def vtVolt (dflt : Bool) (d k : Nat) : Nat := vtByte dflt (0x10 + 16 * d + 2 * k) + 256 * vtByte dflt (0x11 + 16 * d + 2 * k)

/-- The device's own table passes the checks of power-up (R435). Log entry 73. -/
def vtValid : Bool :=
  let b : Nat → Nat := vtByte false
  let le (o n : Nat) : Nat := (List.range n).foldl (fun a i => a + b (o + i) * 256 ^ i) 0
  le 0 4 == 0x54565A41 && le 4 2 == 1 && le 8 8 == deviceSerial &&
  ((List.range 3).all fun d => (List.range 8).all fun k =>
    decide (600 ≤ vtVolt false d k) && decide (vtVolt false d k ≤ 1000) &&
    (k == 0 || decide (vtVolt false d (k - 1) ≤ vtVolt false d k))) &&
  ((List.range 16).all fun n => decide ((sgn 8 (b (0x40 + n))).natAbs ≤ 30)) && decide (b 0x50 ≤ 40)

/-- The core die of a core: cores 0 to 7 on die 0, 8 to 15 on die 1 (ch. 1). -/
def dieOf (core : Nat) : Nat := core / 8

/-- The voltage of a unit by its domain, at a point (R435). -/
def unitVolt (dflt : Bool) (dom k : Nat) : Int :=
  let age : Int := vtByte dflt 0x50
  if 13 ≤ dom then (vtVolt dflt (dieOf (dom - 13)) k : Int) + sgn 8 (vtByte dflt (0x40 + (dom - 13))) + age
  else (vtVolt dflt 2 k : Int) + age

/-! ### Operating points (R434, R436) -/

/-- A partition is exempt from the cap (R438). -/
def State.exempt (s : State) (p : Nat) : Bool := tbit (s.rv (pwrKey 0x120)) p

/-- OP_MAX of a partition. -/
def State.opMax (s : State) (p : Nat) : Nat := field (s.rv (pwrKey (0x100 + 4 * p))) 0 3

/-- The effective point of the unit of a domain (R434). -/
def State.effPoint (s : State) (d : Nat) : Nat :=
  let c := fun i => s.pwr.ceilings.getD i 7
  let vt := if s.pwr.vtDefault then 4 else 7
  if d = 8 then
    let ex := match s.ward.image with
      | some i => i.parts.any fun p => p.nceShare != 0 && s.exempt p.index
      | none => false
    min 6 (min (if ex then 7 else c 0) (min (c 1) vt))
  else
    let owner := if 13 ≤ d then s.partOfCore (d - 13) else s.partOfEngine (d - 9)
    let lim := match owner with
      | some p => min (s.opMax p) (if s.exempt p then 7 else c 0)
      | none => c 0
    let th := if 13 ≤ d then c (2 + dieOf (d - 13)) else c 1
    min lim (min th vt)

/-- The domain holds a unit with an operating point. -/
def hasPoint (d : Nat) : Bool := decide (8 ≤ d)

/-- One step of a unit towards its effective point (R436). -/
def State.pointStep (s : State) (d : Nat) : State :=
  if !hasPoint d then s
  else s.modDom d fun x =>
    let e := s.effPoint d
    { x with point := if x.point < e then x.point + 1 else if e < x.point then x.point - 1 else x.point }

/-! ### Domain states (R426 to R431) -/

/-- The scratchpad of a core that wakes (R155, R430): from OFF every bank comes up ON and zero-filled; from RETAIN the
activation banks that are ON are zero-filled. `act` is the first activation bank. -/
def Pad.wake (p : Pad) (fromOff : Bool) (act : Nat) : Pad :=
  let clean : Nat → Bool := fun b => fromOff || (decide (act ≤ b) && p.banks.getD b .on == .on)
  { fills := (List.range 64).map fun b => if clean b then .zero else p.fills.getD b .zero,
    cells := p.cells.filter fun c => !clean (c.1 / 0x80000),
    poison := p.poison.filter fun g => !clean (g * 8 / 0x80000),
    banks := if fromOff then List.replicate 64 .on else p.banks,
    tag := if fromOff then 0 else p.tag }

/-- The scratchpad of a core that enters RETAIN: the activation banks lose their contents (R430). -/
def Pad.retain (p : Pad) (act epoch : Nat) : Pad :=
  let fill : Nat → Fill := fun b => if act ≤ b then .free epoch else p.fills.getD b .zero
  { p with fills := (List.range 64).map fill,
           cells := p.cells.filter fun c => decide (c.1 / 0x80000 < act),
           poison := p.poison.filter fun g => decide (g * 8 / 0x80000 < act) }

/-- The scratchpad of a core whose domain goes OFF (R131, R135, R155, R430). -/
def Pad.off (epoch : Nat) : Pad :=
  ⟨List.replicate 64 (.free epoch), [], [], List.replicate 64 .off, 0⟩

/-- The first activation bank of a core (R128: the weight-resident region comes first). -/
def State.actBank (s : State) (core : Nat) : Nat := match s.ward.image with
  | some i => i.scratch.getD core 0 * 2
  | none => 0

/-- A core's scratchpad changed, with a fresh epoch for what becomes undefined. -/
def State.modPad (s : State) (core : Nat) (f : Pad → Nat → Pad) : State :=
  let g : CoreSt → CoreSt := fun c => { c with pad := f c.pad s.fresh }
  { s with comp := { s.comp with cores := lmod s.comp.cores core g }, fresh := s.fresh + 1 }

/-- A domain is ON. -/
def State.domOn (s : State) (d : Nat) : Bool := match s.pwr.doms[d]? with
  | some x => x.state == .on
  | none => false

/-! ### Pins that follow a domain (R477, R479) -/

/-- The key of a pulse generator's register. -/
def pgKey (g o : Nat) : Nat := 0x520000 + 0x40 * g + o

/-- A pulse pin is driven to a level (R346, R477). -/
def State.drivePin (s : State) (g : Nat) (level : Bool) : State :=
  ({ s with time := { s.time with pulse := lmod s.time.pulse g fun p => { p with level := level } } }).emit (.pulse g level)

/-- The level at which a pin rests while PD4 is ON (R477): opposite to its pulse polarity. -/
def State.restLevel (s : State) (g : Nat) : Bool := tbit (s.rv (pgKey g 0)) 29

/-- A pin without a pulse in progress takes a level, where it does not stand at it. -/
def State.settlePin (s : State) (g : Nat) (level : Bool) : State := match s.time.pulse[g]? with
  | some p => if p.high || p.level == level then s else s.drivePin g level
  | none => s

/-- The pins without a pulse in progress rest as POL says, where PD4 is ON (R477). -/
def State.restPins (s : State) : State :=
  if s.domOn 4 then (List.range 8).foldl (fun s g => s.settlePin g (s.restLevel g)) s else s

/-- The pulse pins of a module whose PD4 has no supply: low, and no pulse in progress (R477). Log entry 67. -/
def State.pinsOff (s : State) : State :=
  (List.range 8).foldl (fun (s : State) g => match s.time.pulse[g]? with
    | some p =>
      let t : State := { s with time := { s.time with pulse := s.time.pulse.set g { p with high := false } } }
      if p.level then t.drivePin g false else t
    | none => s) s

/-- The supplies of the SENT sensors are on whenever PD5 is ON (R479): a change shows. -/
def State.supplied (t old : State) : State := if t.domOn 5 = old.domOn 5 then t else t.emit (.sentSup (t.domOn 5))

/-! ### The scrubber (R138, R139) -/

/-- The bytes of the weight-resident region of a core (R127). -/
def State.weights (s : State) (core : Nat) : Nat := s.actBank core * bankBytes

/-- One word of the weight-resident region scrubbed, in a bank that is ON (R138, R139). -/
def State.scrubWord (s : State) (core word : Nat) (r : ScrubResult) : State :=
  let w := s.weights core
  match s.comp.cores[core]? with
  | some c =>
    if decide (w ≤ 32 * word) || c.pad.bankAt (32 * word) != .on then s
    else if r = .uncorrected ∨ poisoned c.pad.poison 8 (32 * word) 32 = true then
      (s.modPad core fun p _ => { p.mark w (32 * word) 1 with tag := 0 }).spUncorrected core (32 * word) 1 true
    else if r = .corrected then s.spCorrected core 1 else s
  | none => s

/-- The scrubber's position in a core: the word that it reads next; a pass begins anew where the region has ended (R138, R430). -/
def State.scrubAt (s : State) (core : Nat) : Nat := match s.comp.cores[core]? with
  | some c => if 32 * c.scrubPos < s.weights core then c.scrubPos else 0
  | none => 0

/-- A core's scrubber moves to a word. -/
def State.setScrub (s : State) (core pos : Nat) : State :=
  { s with comp := { s.comp with cores := lmod s.comp.cores core fun c => { c with scrubPos := pos } } }

/-- The scrubber of a core whose domain is ON reads the word at its position and goes on to the next (R138). Log entry 74. -/
def State.scrub (s : State) (core word : Nat) (r : ScrubResult) : State :=
  if s.domOn (13 + core) && word == s.scrubAt core && decide (32 * word < s.weights core) then
    (s.scrubWord core word r).setScrub core (word + 1)
  else s

/-- A full scrub pass of a core (R138): the words in which an error is found, and those that are poisoned (R139). -/
def State.scrubPass (s : State) (core : Nat) (found : List (Nat × ScrubResult)) : State :=
  let marked : List Nat := match s.comp.cores[core]? with
    | some c => ((c.pad.poison.map (· / 4)).foldr (fun a l => if l.contains a then l else a :: l) []).filter fun w =>
        !found.any fun x => x.1 == w
    | none => []
  (found ++ marked.map fun w => (w, ScrubResult.clean)).foldl (fun s x => s.scrubWord core x.1 x.2) s

/-- Bit 31 of one of n registers, `stride` bytes apart, is set in force: an enable. -/
def State.anyOn (s : State) (k stride n : Nat) : Bool := (List.range n).any fun i => tbit (s.rv (k + stride * i)) 31

/-- A job of the partition runs. -/
def State.jobRuns (s : State) (p : Nat) : Bool := (s.comp.parts.getD p .empty).job.isSome

/-- A narrow-channel engine has a step delivered (R428). -/
def State.nceHas (s : State) (e : Nat) : Bool :=
  s.comp.parts.any fun q => q.job.any fun j => j.targets.any fun x => x.id == 16 + e && !x.steps.isEmpty

/-- A depot request ring has TAIL ≠ HEAD (R428). -/
def State.depHas (s : State) (p : Nat) : Bool :=
  let n := 2 ^ field (s.rv (0x870000 + 0x100 * p + 8)) 16 4
  s.rv (0x870000 + 0x100 * p + 0xC) % n != (s.ing.rings.getD p .reset).reqNo % n

/-- A swap is in progress on an engine: pages of a context of its partition move there (R210, R211, R428). -/
def State.swapsOn (s : State) (p q : Nat) : Bool := match s.kv.pools[p]? with
  | some k => k.ctxs.any fun x => x.2.moves q
  | none => false

/-- The slot of a unit's test runs, and the unit has granules to run in it (R388, R390). -/
def State.slotOwed (s : State) (u : Nat) : Bool := (s.safe.units.getD (slotCore u) .reset).inSlot && s.testDue u

/-- A domain has demand (R428). Log entry 74. -/
def State.hasDemand (s : State) (d : Nat) : Bool :=
  match d with
  | 0 | 1 | 2 => true
  | 3 => (List.range s.nPorts).any fun x => !(s.ports.getD x .reset).perst
  | 4 => (s.can.any fun c => c.state != 0) || s.anyOn 0xE80000 0x10000 4 || s.anyOn 0xE00000 0x10000 4 || s.anyOn 0x510000 0x100 8
  | 5 => s.anyOn 0xC10000 0x1000 24 || s.anyOn 0xC00800 0x20 16
  | 6 => s.anyOn 0x800000 0x1000 16
  | 7 => s.anyOn 0x900000 0x1000 64
  | 8 => s.nceHas 0 || s.nceHas 1 || s.testDue 20 || s.testDue 21 || s.anyOn 0x860000 0x100 8 || s.anyOn 0x840000 0x1000 4 ||
      (List.range 8).any s.depHas
  | n =>
    if n < 13 then
      s.testDue (16 + (n - 9)) || (match s.partOfEngine (n - 9) with
        | some p => s.jobRuns p || s.swapsOn p (n - 9)
        | none => false)
    else s.testDue (n - 13) || (s.safe.units.getD (n - 13) .reset).inSlot || (match s.partOfCore (n - 13) with
      | some p => s.jobRuns p
      | none => false)

/-- Demand on a domain (R428): under policy 0 it wakes. -/
def State.demand (s : State) (d : Nat) : State :=
  match s.pwr.doms[d]? with
  | some x => if x.policy = 0 ∧ s.ward.image.isSome then s.modDom d DomSt.wake else s
  | none => s

/-- A domain that is WAKING is ON (R429, R430); a core that leaves RETAIN runs one full scrub pass, which finds errors in
the words of `found` (R138); the pins that follow PD4 and PD5 take their levels (R477, R479). Log entry 74. -/
def State.wakeDone (s : State) (d : Nat) (found : List (Nat × ScrubResult)) : State :=
  match s.pwr.doms[d]? with
  | some x =>
    if x.state = .waking then
      let s1 := (s.modDom d fun x => { x with state := .on, fromOff := false, point := s.effPoint d }).bump
        (pwrKey (0x10200 + 8 * d)) 1
      let s1 := if d = 4 then s1.restPins else s1.supplied s
      if 13 ≤ d then
        let s2 := s1.modPad (d - 13) fun p _ => p.wake x.fromOff (s.actBank (d - 13))
        if x.fromOff then s2 else s2.scrubPass (d - 13) found
      else s1
    else s
  | none => s

/-- A bank of the core is on its way (R429). -/
def State.bankMoves (s : State) (core : Nat) : Bool := match s.comp.cores[core]? with
  | some c => c.pad.banks.any fun b => b == .closing || b == .opening
  | none => false

/-- The instant at which a domain last had demand moves on with time (R429). -/
def State.noteDemand (s : State) : State :=
  let note : DomSt × Nat → DomSt := fun x => if s.hasDemand x.2 then { x.1 with demandAt := s.time.elapsed } else x.1
  { s with pwr := { s.pwr with doms := s.pwr.doms.zipIdx.map note } }

/-- RET_IDLE in ns (R429, R445). -/
def State.retIdle (s : State) : Nat := s.rv (pwrKey 0x30) / 65536 * 1000

/-- OFF_IDLE in ns (R429, R445). -/
def State.offIdle (s : State) : Nat := s.rv (pwrKey 0x30) % 65536 * 1000000

/-- A policy-0 domain that has had no demand for RET_IDLE enters RETAIN (R429, R430); a DMA step of a core is in flight only while
a job runs. Log entry 74. -/
def State.retain (s : State) (d : Nat) : State :=
  match s.pwr.doms[d]? with
  | some x =>
    if x.state = .on ∧ x.policy = 0 ∧ d ≠ 0 ∧ s.ward.image.isSome ∧ s.hasDemand d = false ∧
        x.demandAt + s.retIdle ≤ s.time.elapsed ∧ !(decide (13 ≤ d) && s.bankMoves (d - 13)) then
      let s1 := (s.modDom d fun x => { x with state := .retain, retainAt := s.time.elapsed }).supplied s
      if 13 ≤ d then s1.modPad (d - 13) fun p e => p.retain (s.actBank (d - 13)) e else s1
    else s
  | none => s

/-- An engine's staging buffer holds pages (R200, R429). -/
def State.stages (s : State) (e : Nat) : Bool := match s.kv.engines[e]? with
  | some x => x.slots.any Option.isSome
  | none => false

/-- The targets of a partition's job are between commands. -/
def State.jobBetween (s : State) (p : Nat) : Bool :=
  (s.comp.parts.getD p .empty).job.all fun j => j.targets.all fun x => !x.cmdOpen

/-- The units of a domain are idle (R431): nothing that has begun is unfinished, and no slot of a test key that was to find it ON
runs (R390). Log entry 74. -/
def State.domIdle (s : State) (d : Nat) : Bool :=
  let tested : Nat → Bool := fun u => (s.safe.units.getD u .reset).running
  match d with
  | 4 => s.can.all fun c => c.state = 0 || c.sel.isNone
  | 5 => s.ctl.chans.all fun c => !(c.lastStart.any fun x => decide (s.time.elapsed < x + 304)) && c.withheld.isEmpty
  | 6 => s.ing.cams.all fun c => !c.inFrame && !c.cci
  | 7 => s.ing.vdecs.all fun v => v.queue.isEmpty
  | 8 => !tested 20 && !tested 21 && !s.slotOwed 20 && !s.slotOwed 21 && !s.nceHas 0 && !s.nceHas 1 && (s.ing.rings.all fun r => r.wins.isEmpty) &&
      s.ing.scats.all fun x => x.sweep.isNone
  | n =>
    if n < 9 then true
    else if n < 13 then !tested (7 + n) && !s.slotOwed (7 + n) && !s.stages (n - 9) && (match s.partOfEngine (n - 9) with
      | some p => !s.swapsOn p (n - 9) && (s.atEngine p (n - 9)).isEmpty
      | none => true)
    else !tested (n - 13) && !(s.safe.units.getD (n - 13) .reset).inSlot && !s.bankMoves (n - 13) && (match s.partOfCore (n - 13) with
      | some p => s.jobBetween p
      | none => true)

/-- What a domain loses as its supply is removed (R426): what its blocks hold beyond the register store. What a register shows
stands: errors counted, flags, states. The operations in progress and what had been received are lost. Log entry 74. -/
def State.domLoses (s : State) (d : Nat) : State :=
  match d with
  | 3 => { s with ports := s.ports.map fun x => { PortSt.reset with perst := x.perst } }
  | 4 =>
    let can : CanSt → CanSt := fun c => { c with state := if c.stopDue then 0 else c.state, stopDue := false, sel := none }
    let ptp : PtpSt → PtpSt := fun x => { x with wait := none, queue := [], request := none, lag := none }
    let t : State := { s with can := s.can.map can
                              t1s := s.t1s.map fun x => { x with rxFifo := [], cmds := [] }
                              eth := s.eth.map fun x => { x with link := false, cmds := [] }
                              time := { s.time with ptp := s.time.ptp.map ptp } }
    t.pinsOff
  | 5 =>
    let chan : ChanSt → ChanSt := fun c =>
      { c with state := if c.state = .identifying then .running else c.state, ins := ChanSt.reset.ins
               before := ChanSt.reset.before, lastStart := none, withheld := [], kept := [], initDue := none }
    { s with ctl := ⟨s.ctl.chans.map chan, List.replicate 16 ⟨none, []⟩⟩ }
  | 6 =>
    let cam : CamSt → CamSt := fun c => { c with gear := 0, inFrame := false, cci := false, route := none }
    { s with ing := { s.ing with cams := s.ing.cams.map cam } }
  | 7 =>
    let vdec : VdecSt → VdecSt := fun v => { v with queue := [] }
    { s with ing := { s.ing with vdecs := s.ing.vdecs.map vdec, cache := [] } }
  | 8 =>
    let freed : BufSt → BufSt := fun b => match b with
      | .claimed ts => .claimed ts
      | _ => .free
    let ring : RingSt → RingSt := fun r => { r with bufs := r.bufs.map freed, wins := [], waiting := [] }
    let scat : ScatSt → ScatSt := fun x => { x with sweep := none, resync := none }
    { s with ing := { s.ing with rings := s.ing.rings.map ring, scats := s.ing.scats.map scat } }
  | n =>
    if n < 9 then s
    else if n < 13 then
      let engine : EngineSt → EngineSt := fun e => ⟨.zero, e.slots.map fun _ => none, [], e.line⟩
      { s with kv := { s.kv with engines := lmod s.kv.engines (n - 9) engine } }
    else (s.modPad (n - 13) fun _ e => .off e).setScrub (n - 13) 0

/-- A domain goes OFF (R429, R431): a core or an engine that has been in RETAIN for OFF_IDLE under policy 0 and has no demand,
or a domain whose policy is 2 once its units are idle; the catches read 0 once every core domain is off (R121). -/
def State.goOff (s : State) (d : Nat) : State :=
  match s.pwr.doms[d]? with
  | some x =>
    let long := x.policy == 0 && x.state == .retain && decide (9 ≤ d) && s.offIdle != 0 && !s.hasDemand d &&
      decide (x.retainAt + s.offIdle ≤ s.time.elapsed)
    let barred := x.policy == 2 && (x.state == .on || x.state == .retain) && s.domIdle d
    let engine := decide (9 ≤ d) && decide (d < 13) && s.stages (d - 9)
    if (long || barred) && d != 0 && !engine then
      let s2 := ((s.modDom d fun x => { x with state := .off, point := 0 }).domLoses d).supplied s
      if (List.range 16).all fun n => (match s2.pwr.doms[13 + n]? with | some y => y.state == .off | none => true)
      then { s2 with comp := { s2.comp with catches := [] } } else s2
    else s
  | none => s

/-! ### The governor (R437 to R440) -/

/-- The cap ceiling after an evaluation: ceiling, calm evaluations, evaluations above the cap at OP0, CAP_UNMET. Log entry 74. -/
def capEval (ceil calm atZero cap p : Nat) : Nat × Nat × Nat × Bool :=
  if cap < p then
    let z := if ceil = 0 then atZero + 1 else atZero
    (ceil - 1, 0, z, z == 10)
  else
    let c := if p * 100 ≤ 95 * cap then min (calm + 1) 10 else 0
    (if c = 10 then min (ceil + 1) 7 else ceil, c, 0, false)

/-- A die's thermal ceiling after an evaluation: ceiling, calm evaluations, too hot (R440). Temperatures in °C + 64. -/
def thermEval (ceil calm throt t : Nat) (hot : Bool) : Nat × Nat × Bool :=
  let hot' := if 189 ≤ t then true else if t ≤ 179 then false else hot
  if 189 ≤ t then (0, 0, hot')
  else if throt + 64 ≤ t then (ceil - 1, 0, hot')
  else if t ≤ throt + 59 then
    let c := min (calm + 1) 10
    (if c = 10 then min (ceil + 1) 7 else ceil, c, hot')
  else (ceil, 0, hot')

/-- A flag with hysteresis: set at or above one bound, clear at or below another. -/
def hyst (old : Bool) (t up down : Nat) : Bool := if up ≤ t then true else if t ≤ down then false else old

/-- One evaluation of the governor (R437, R440): P in 0.1 W, temperatures of base die, core die 0, core die 1 and the towers in
°C + 64. Each die and each tower that becomes too hot is a signal of its own to the island. Log entry 81. -/
def State.govern (s : State) (power : Nat) (temps towers : List Nat) : State :=
  let w := s.pwr
  let t := fun i => temps.getD i 0
  let (cap, calm, atZero, unmet) := capEval (w.ceilings.getD 0 6) (w.calm.getD 0 0) w.capZero (s.rv (pwrKey 0x10) * 10) power
  let throt := s.rv (pwrKey 0x20)
  let th := (List.range 3).map fun i =>
    thermEval (w.ceilings.getD (i + 1) 7) (w.calm.getD (i + 1) 0) throt (t i) (w.hot.getD i false)
  let fell := (List.range 3).any fun i => decide ((th.getD i (7, 0, false)).1 < w.ceilings.getD (i + 1) 7)
  let paced := (List.range 4).map fun i => hyst (w.towerPaced.getD i false) (towers.getD i 0) 159 154
  let tHot := (List.range 4).map fun i => hyst (w.towerHot.getD i false) (towers.getD i 0) 169 159
  let began := (List.range 4).any fun i => paced.getD i false && !w.towerPaced.getD i false
  let s1 := { s with
    pwr := { w with ceilings := cap :: th.map (·.1), calm := calm :: th.map (·.2.1), capZero := atZero,
                    hot := th.map (·.2.2), towerPaced := paced, towerHot := tHot }
    dram := { s.dram with towers := (List.range 4).map fun i =>
      let x := s.dram.towers.getD i ⟨.off, 0, false⟩
      { x with temp := towers.getD i 0, refreshX2 := decide (149 < towers.getD i 0) } } }
  let s2 := if unmet then s1.pwrEvent 2 else s1
  let s3 := if fell then s2.pwrEvent 3 else s2
  let s4 := if began then s3.pwrEvent 4 else s3
  let hotter := ((List.range 3).filter fun i => (th.getD i (7, 0, false)).2.2 && !w.hot.getD i false).length +
    ((List.range 4).filter fun i => tHot.getD i false && !w.towerHot.getD i false).length
  (List.range hotter).foldl (fun s _ => s.detect 8 0xFF 2) s4

/-! ### Metering (R442 to R444) -/

/-- The model estimate of one unit's activity in hundredths of a pJ, before the voltage factor (R444). -/
def centiPj (a : Activity) : Nat :=
  let engine := if a.dom.val = 8 then 1100 else 4100
  let on := if 13 ≤ a.dom.val then 1200 - 18 * a.banksOff else if 9 ≤ a.dom.val then 900 else 0
  14 * a.prod4 + 25 * a.prod8 + 55 * a.prod16 + 200 * a.lanes + 8 * a.spBytes + 1000 * a.dramBytes + 2000 * a.hostBytes +
    100 * engine * a.engineCycles + 100 * on * a.onTime

/-- The jobs that an interval counts activity of, each once: partition and number. -/
def activeJobs (l : List Activity) : List (Nat × Nat) :=
  l.foldr (fun a r => if r.contains (a.part.val, a.job) then r else (a.part.val, a.job) :: r) []

/-- The activity of one job. -/
def activityOf (l : List Activity) (k : Nat × Nat) : List Activity := l.filter fun a => (a.part.val, a.job) == k

/-- The model estimate of a job in an interval, in whole nJ (R443, R444). -/
def State.modelNj (s : State) (l : List Activity) (k : Nat × Nat) : Nat :=
  let r : Rat := (activityOf l k).foldl (fun (acc : Rat) a =>
    let k := match s.pwr.doms[a.dom.val]? with | some d => d.point | none => 0
    let v : Rat := unitVolt s.pwr.vtDefault a.dom k
    let v6 : Rat := unitVolt s.pwr.vtDefault a.dom 6
    acc + (centiPj a : Rat) * (v / v6) * (v / v6)) 0
  (r / 100000).floor.toNat

/-- A µJ counter that takes an amount in nJ, with the nJ left over. -/
def State.addNj (s : State) (k rest nj : Nat) : State × Nat := (s.bump k ((rest + nj) / 1000), (rest + nj) % 1000)

/-- A partition's job counts its energy by the model (R443). -/
def State.modelled (s : State) (p : Nat) : Bool := match s.part p with
  | some e => e.energyModel
  | none => false

/-- What each job receives of an interval (R443): partition and number of the job, and nJ. Log entry 75. -/
def State.shares (s : State) (e : Nat) (l : List Activity) : List ((Nat × Nat) × Nat) :=
  let ks := activeJobs l
  let models := (ks.filter fun k => s.modelled k.1).map fun k => (k, s.modelNj l k)
  let r := e - (models.map (·.2)).sum
  let times := (ks.filter fun k => !s.modelled k.1).map fun k => (k, ((activityOf l k).map (·.coreTime)).sum)
  let total := (times.map (·.2)).sum
  models ++ times.map fun x => (x.1, if total = 0 then 0 else r * x.2 / total)

/-- A job takes energy, be it running or suspended; one that has ended takes none (R443). -/
def State.creditJob (s : State) (serial nj : Nat) : State :=
  let put : Job → Job := fun j => if j.serial = serial then { j with energy := j.energy + nj } else j
  { s with comp := { s.comp with parts := s.comp.parts.map fun q => { q with job := q.job.map put }
                                 queues := s.comp.queues.map fun x => (x.1, { x.2 with susp := x.2.susp.map put }) } }

/-- One share of an interval (R443): to its job, and to the counter of its partition. -/
def State.attribute (s : State) (x : (Nat × Nat) × Nat) : State :=
  let (a, rest) := s.addNj (pwrKey (0x10040 + 8 * x.1.1)) (s.pwr.partNj.getD x.1.1 0) x.2
  let b := a.creditJob x.1.2 x.2
  { b with pwr := { b.pwr with partNj := b.pwr.partNj.set x.1.1 rest } }

/-- One metering interval (R442, R443). -/
def State.meter (s : State) (energy : Nat) (ok : Bool) (l : List Activity) : State :=
  let e := if ok then energy else 0
  let s0 := { s with pwr := { s.pwr with meterFault := !ok } }
  let s1 := if !ok && !s.pwr.meterFault then s0.pwrEvent 1 else s0
  let (s2, mr) := s1.addNj (pwrKey 0x10000) s1.pwr.modNj e
  let sh := s.shares e l
  let un := e - (sh.map (·.2)).sum
  let (s3, ur) := s2.addNj (pwrKey 0x10008) s2.pwr.unattr un
  let s4 := { s3 with pwr := { s3.pwr with modNj := mr, unattr := ur } }
  sh.foldl State.attribute s4

/-! ### Commands -/

/-- What the commands of this chapter may change. -/
def commitPwr (s t : State) : State :=
  { s with pwr := t.pwr, out := t.out, safe := t.safe.carry s.safe, comp := t.comp, dram := t.dram, fresh := t.fresh,
           regs := { s.regs with pwr := t.regs.pwr, pci := t.regs.pci, safe := t.regs.safe, global := t.regs.global } }

/-- What the removal of a domain's supply may change (R426). -/
def commitOff (s t : State) : State :=
  { s with pwr := t.pwr, out := t.out, ports := t.ports, comp := t.comp, kv := t.kv, ing := t.ing, ctl := t.ctl, can := t.can, t1s := t.t1s,
           eth := t.eth, time := t.time, fresh := t.fresh }

/-- The captures of latch group 14 apply (R445). -/
def State.governorBoundary (s : State) : State := s.applyReady 4 (fun c => groupOf c.key == 14) id

/-- The governor evaluates (R437, R440), with the captured configuration of the block (R445). -/
def execGovernorEvaluation (power voltage : Nat) (temps towers : List Nat) (s : State) : Answer :=
  .next (commitPwr s (((s.governorBoundary.govern power temps towers).setReg (pwrKey 0x14) (voltage % 65536 * 65536 + power % 65536)).setReg
    (pwrKey 0x24) (temps.getD 0 0 % 256 * 65536 + temps.getD 2 0 % 256 * 256 + temps.getD 1 0 % 256)))

/-- Demand arises (R428): some condition of the domain's row holds. Of a module without power, or parked, only PD0 can be ON (R426).
Log entry 74. -/
def execDemand (dom : DomIx) (s : State) : Answer :=
  .next (commitPwr s (if s.alive && s.hasDemand dom then s.demand dom else s))

/-- A wake is complete (R429, R430). -/
def execWakeComplete (woken : Woken) (s : State) : Answer :=
  .next { commitPwr s (s.wakeDone woken.dom woken.found) with time := (s.wakeDone woken.dom woken.found).time }

/-- A domain enters RETAIN (R429). -/
def execRetainEntry (dom : DomIx) (s : State) : Answer := .next (commitPwr s (s.retain dom))

/-- A domain goes OFF (R429, R431). -/
def execOffEntry (dom : DomIx) (s : State) : Answer := .next (commitOff s (s.goOff dom))

/-- A unit has moved one point (R436). -/
def execPointStepDone (dom : DomIx) (s : State) : Answer := .next (commitPwr s (s.pointStep dom))

/-- A core's supply droops: its clock stretches (R439). -/
def execDroopDetect (core : CoreIx) (s : State) : Answer :=
  .next (commitPwr s { s with pwr := { s.pwr with drooping := s.pwr.drooping.set core true } })

/-- The stretch ends; the stretched cycles count (R439). Log entry 75. -/
def execDroopEnd (core : CoreIx) (cycles : Nat) (s : State) : Answer :=
  .next (commitPwr s
    (if s.pwr.drooping.getD core false then
      ({ s with pwr := { s.pwr with drooping := s.pwr.drooping.set core false } }).bump (pwrKey (0x10100 + 8 * core)) cycles
    else s))

/-- A metering interval ends (R442, R443). -/
def execMeteringInterval (energy : Nat) (selfCheckOk : Bool) (activity : List Activity) (s : State) : Answer :=
  .next (commitPwr s (s.meter energy selfCheckOk activity))

/-- A supply monitor trips (R441): MONITOR, cause 0x0418. Log entry 75. -/
def execSupplyMonitorTrip (source : SupplyFault) (s : State) : Answer :=
  .next (commitPwr s
    (if s.pwr.supply.contains source then s
    else
      let t := ({ s with pwr := { s.pwr with supply := s.pwr.supply ++ [source] } }).pwrEvent 5
      t.detect 8 0xFF 2))

/-- The condition of a supply monitor is over (R441). -/
def execSupplyMonitorClear (source : SupplyFault) (s : State) : Answer :=
  .next (commitPwr s { s with pwr := { s.pwr with supply := s.pwr.supply.filter (· != source) } })

/-- A tower changed. -/
def State.modTower (s : State) (t : Nat) (f : TowerSt → TowerSt) : State :=
  { s with dram := { s.dram with towers := lmod s.dram.towers t f } }

/-- An idle tower enters SELF_REFRESH, where SR_EN is set (R153). -/
def execSelfRefreshEntry (tower : Fin 4) (s : State) : Answer :=
  .next (commitPwr s
    (if tbit (s.rv (pwrKey 0x80000)) 16 then
      s.modTower tower fun x => if x.state = .active then { x with state := .selfRefresh } else x
    else s))

/-- An access returns a tower to ACTIVE; its contents were retained (R153). -/
def execSelfRefreshExit (tower : Fin 4) (s : State) : Answer :=
  .next (commitPwr s (s.modTower tower fun x => if x.state = .selfRefresh then { x with state := .active } else x))

end Sys2Proof.Machine
end

