-- ==== Sys2Proof/Machine/Steps.lean ====
section
/-!
DEFINITION. The life of a step on its target: header (R97), which steps may start (R100 to R102, R231, R390 to R393), the
catches (R121 to R123), the effect, the end (R97, R103, R125, R171), and what a target does between steps (R98, R231,
R234).
-/
namespace Sys2Proof.Machine

/-! ### The header (R97, R225) -/

/-- OPCODE. -/
def hOp (b : List Byte) : Nat := leAt b 0 1
/-- LCORE. -/
def hLcore (b : List Byte) : Nat := field (leAt b 1 1) 0 4
/-- CBLK. -/
def hCblk (b : List Byte) : Nat := field (leAt b 1 1) 4 3
/-- LAST. -/
def hLast (b : List Byte) : Bool := tbit (leAt b 1 1) 7
/-- The header WAIT is enabled. -/
def hWait (b : List Byte) : Bool := tbit (leAt b 2 1) 7
/-- The catch of the header WAIT. -/
def hWaitIx (b : List Byte) : Nat := field (leAt b 2 1) 0 6
/-- The header POST is enabled. -/
def hPost (b : List Byte) : Bool := tbit (leAt b 3 1) 7
/-- The catch of the header POST. -/
def hPostIx (b : List Byte) : Nat := field (leAt b 3 1) 0 6
/-- SEQ of the CHAIN word. -/
def hSeq (b : List Byte) : Nat := field (leAt b 4 4) 8 24
/-- TARGET of the CHAIN word: a narrow-channel engine. -/
def hEngine (b : List Byte) : Bool := tbit (leAt b 4 4) 0
/-- A reserved bit of the header is set. -/
def hReserved (b : List Byte) : Bool := tbit (leAt b 2 1) 6 || tbit (leAt b 3 1) 6 || field (leAt b 4 4) 1 7 != 0

/-- The target of a step (R226). An engine number above 1, which R180 refuses, stands at engine LCORE mod 2. Log entry 38. -/
def targetOf (b : List Byte) : Nat := if hEngine b then 16 + hLcore b % 2 else hLcore b

/-- The allocated opcodes (R99, R140, R162, R190, R296). -/
def knownOp (o : Nat) : Bool :=
  [0x01, 0x03, 0x04, 0x05, 0x10, 0x11, 0x12, 0x18, 0x20, 0x21, 0x22, 0x23, 0x30, 0x31, 0x32, 0x33, 0x34, 0x40].contains o

/-- A byte at 0x08 that selects among the steps of one opcode has a value that the opcode leaves undefined. -/
def undefinedOp (b : List Byte) : Bool :=
  let v := leAt b 8 1
  match hOp b with
  | 0x05 => decide (3 < v)
  | 0x33 => decide (1 < v)
  | 0x34 => decide (1 < v)
  | 0x23 => decide (6 < v)
  | _ => false

/-- The logical core count (R93). -/
def lcoreCount (e : PartEntry) : Nat := if e.hinged then popCount 16 e.coreMask / 2 else popCount 16 e.coreMask

/-- Checks 1 to 3 of R102 on the header (R226, R180). -/
def headerCheck (e : PartEntry) (b : List Byte) : Nat :=
  firstCode
    [codeIf (!knownOp (hOp b)) 0x0620, codeIf (!hEngine b && decide (lcoreCount e ≤ hLcore b)) 0x0623,
     codeIf (hEngine b != (hOp b == 0x18) || (hEngine b && decide (2 ≤ hLcore b)) || hReserved b || undefinedOp b) 0x0622]

/-! ### Hosts and scratchpads (R241, R242) -/

/-- The host of a logical core: its physical core, the lower one of a pair. -/
def State.hostOf (s : State) (p i : Nat) : Option Nat := (s.comp.parts[p]?.bind fun q => q.map[i]?).join

/-- The scratchpad of a logical core on its host: the host's own, or a park image (R242). -/
def CoreSt.padOf (c : CoreSt) (i : Nat) : Pad :=
  if c.loaded = some i then c.pad else (alGet c.parks i).getD c.pad

/-- The core with the scratchpad of a logical core replaced. -/
def CoreSt.setPadOf (c : CoreSt) (i : Nat) (p : Pad) : CoreSt :=
  if c.loaded = some i ∨ (alGet c.parks i).isNone then { c with pad := p } else { c with parks := alSet c.parks i p }

/-- The scratchpad of logical core i of a partition. -/
def State.padOf (s : State) (p i : Nat) : Pad :=
  match (s.hostOf p i).bind fun h => s.comp.cores[h]? with
  | some c => c.padOf i
  | none => .reset 0

/-- The physical cores of a logical core: its host, in a HINGED partition both cores of the pair (R125). -/
def State.coresOf (s : State) (p t : Nat) : List Nat := match s.hostOf p t, s.part p with
  | some h, some e => if e.hinged then [h, h + 1] else [h]
  | _, _ => []

/-- The scratchpads of a logical core: one, or the two of a pair. -/
def State.padsOf (s : State) (p i : Nat) : List Pad :=
  (s.coresOf p i).filterMap fun h => (s.comp.cores[h]?).map (·.padOf i)

/-- The scratchpad of a logical core changed, in a pair both scratchpads alike (R125). Log entry 35. -/
def State.modPadOf (s : State) (p i : Nat) (f : Pad → Pad) : State :=
  { s with comp := { s.comp with
    cores := (s.coresOf p i).foldl (fun l h => lmod l h fun c => c.setPadOf i (f (c.padOf i))) s.comp.cores } }

/-- An access to some extents of a logical core's scratchpad would be held: a bank is opening (R155). -/
def State.padHeld (s : State) (p i : Nat) (xs : List Ext) : Bool := (s.padsOf p i).any fun a => a.held xs

/-! ### Targets -/

/-- What a step finds around it. -/
structure StepCtx where
  p : Nat
  t : Nat
  part : PartEntry
  job : Job
  tgt : TargetSt
  idx : Nat
  b : List Byte
  core : Nat
  deriving DecidableEq, Repr

/-- One target of a partition's running job changed. -/
def State.modTgt (s : State) (p t : Nat) (f : TargetSt → TargetSt) : State :=
  s.modJob p fun j => { j with targets := j.targets.map fun x => if x.id = t then f x else x }

/-- The target of the running job. -/
def State.tgt (s : State) (p t : Nat) : Option TargetSt :=
  (s.comp.parts[p]?.bind (·.job)).bind fun j => j.targets.find? fun x => x.id == t

/-- The attention or key-value step at the head of a target is at its engine: it waits, or is to be taken up. -/
def State.isAsking (s : State) (p t : Nat) : Bool := match s.tgt p t with
  | some x => (match x.phase with
    | .done _ _ => false
    | _ => x.atEngine)
  | none => false

/-- The phase of the step at the head, where it is still the step of that index. -/
def State.setPhase (s : State) (p t idx : Nat) (ph : StepPhase) : State :=
  s.modTgt p t fun x => if (x.steps.head?.map (·.1)) = some idx then { x with phase := ph } else x

/-- Jobs are held at their boundaries: a Ward hold, or key-off (R53, R453). -/
def State.held (s : State) : Bool := s.ward.state == .holding || s.boot.keyOff != .none

/-- The target waits on a catch (R122, R123). -/
def TargetSt.isWaiting (x : TargetSt) : Bool := match x.steps, x.phase with
  | _ :: _, .waitHead => true
  | _ :: _, .catchWait _ => true
  | _, _ => false

/-- The owner of a granule (R183, NCE_PLAN); none where no partition owns it. -/
def State.granuleOwner (s : State) (g : Nat) : Option Nat :=
  ((List.range 8).foldl (fun (a : Nat × Option Nat) p => match s.part p with
    | some e => (a.1 + e.nceShare, if a.2.isNone && decide (g < a.1 + e.nceShare) then some p else a.2)
    | none => a) (0, none)).2

/-- A partition has a step ready on a narrow-channel engine (R183): every delivered step that does not wait on a catch counts, also
one that a hold keeps from starting or that a check will refuse. Log entry 36. -/
def State.nceReady (s : State) (p e : Nat) : Bool := match s.tgt p (16 + e) with
  | some x => !x.steps.isEmpty && !x.isWaiting
  | none => false

/-- The partition that a granule of an engine goes to now, with whether it is its owner: the owner where it has a step
ready, else the next partition in turn that has one (R183). -/
def State.granuleTo (s : State) (e g : Nat) : Option (Nat × Bool) :=
  let turn := (List.range 8).map fun i => (s.comp.nceTurn.getD e 7 + 1 + i) % 8
  match (s.granuleOwner g).filter fun p => s.nceReady p e with
  | some p => some (p, true)
  | none => (turn.find? fun p => s.nceReady p e).map fun p => (p, false)

/-- A granule taken by a partition: it holds it to its end, and the turn moves where it is not its owner (R183). -/
def State.takeGranule (s : State) (e : Nat) (x : Option (Nat × Bool)) : State :=
  { s with comp := { s.comp with
    nceHolder := s.comp.nceHolder.set e (x.map (·.1))
    nceTurn := match x with
      | some (p, false) => s.comp.nceTurn.set e p
      | _ => s.comp.nceTurn } }

/-- A partition may run a step on an engine in its present granule: it holds it, or nobody does and it goes to it. Log entry 36. -/
def State.granuleFree (s : State) (p e : Nat) : Bool :=
  match s.comp.nceHolder.getD e none with
  | some q => p == q
  | none => (s.granuleTo e (s.comp.nceGranule.getD e 0)).any fun x => x.1 == p

/-- A physical core can run a step of a partition now (R390 to R393, R429): its domain is on, it is in service, no granule
runs on it, and its slot does not reserve it against work that is not safety-relevant; a command that is running completes
to its boundary. Log entry 46. -/
def State.coreFree (s : State) (e : PartEntry) (n : Nat) (cmdOpen : Bool) : Bool :=
  s.domOn (13 + n) && match s.safe.units[n]? with
    | some u => !u.oos && !u.running && (cmdOpen || e.isSafety || !u.inSlot || u.passed)
    | none => false

/-- The target's unit can run a step now; on a narrow-channel engine in a granule that the partition has (R183). -/
def State.targetFree (s : State) (e : PartEntry) (p : Nat) (x : TargetSt) : Bool :=
  if 16 ≤ x.id then
    s.domOn 8 && (match s.safe.units[4 + x.id]? with
      | some u => !u.running
      | none => false) && s.granuleFree p (x.id - 16)
  else match s.hostOf p x.id with
    | some h =>
      s.coreFree e h x.cmdOpen && (!e.hinged || s.coreFree e (h + 1) x.cmdOpen) &&
        (match s.comp.cores[h]? with | some c => c.loaded == some x.id | none => false)
    | none => false

/-- The phases from which a command of the table takes a step on. -/
def StepPhase.mayRun : StepPhase → Bool
  | .fresh => true
  | .ready => true
  | .started => true
  | _ => false

/-- The step at the head of a target that may run now and that a predicate picks: not begun, its header count taken, or
its effect held; no command begins while jobs are held or while the job stops. Log entry 6. -/
def State.stepAt (s : State) (p t : Nat) (pick : List Byte → Bool) : Option StepCtx := do
  let e ← s.part p
  let q ← s.comp.parts[p]?
  let j ← q.job
  let x ← j.targets.find? fun x => x.id == t
  let (idx, b) ← x.steps.head?
  let may := x.phase.mayRun && !x.stopped && x.skip == 0 && pick b &&
    (x.cmdOpen || !(s.held || j.stopping || j.suspending)) && s.targetFree e p x
  if may then some ⟨p, t, e, j, x, idx, b, (s.hostOf p t).getD 0⟩ else none

/-- CORE_CTL of a core takes its capture at a command boundary (R126, R368). Log entry 18. -/
def State.applyCore (s : State) (n : Nat) : State := s.applyReady 15 (fun c => groupOf c.key == 16 + n) id

/-- A target stands at a command boundary of its cores (R126). -/
def State.coreBoundary (s : State) (p t : Nat) : State :=
  (if 16 ≤ t then [] else s.coresOf p t).foldl State.applyCore s

/-- The command in progress opens where none is: its first step has come up. -/
def State.openCommand (s : State) (c : StepCtx) : State :=
  if c.tgt.cmdOpen then s
  else (s.coreBoundary c.p c.t).modTgt c.p c.t fun x =>
    { x with cmdOpen := true, cmdStart := c.idx, cmdCount := 0, skip := 0 }

/-- The step is the first of its command. -/
def StepCtx.first (c : StepCtx) : Bool := !c.tgt.cmdOpen || c.tgt.cmdStart == c.idx

/-- The job carries UNVERIFIED where a step runs on a unit whose test key has lapsed (R228, R395). -/
def State.markLapsed (s : State) (p : Nat) (lapsed : Bool) : State :=
  s.modJob p fun j => { j with unverified := j.unverified || lapsed }

/-- A step starts (R98, R102, R133, R183, R395): at the first of a command the activation region becomes undefined; it is
the last step started; an engine's free granule is taken; a lapsed core or narrow-channel engine marks the job. -/
def State.startStep (s : State) (c : StepCtx) : State :=
  let s1 := if 16 ≤ c.t then
      (if (s.comp.nceHolder.getD (c.t - 16) none).isNone then
        s.takeGranule (c.t - 16) (s.granuleTo (c.t - 16) (s.comp.nceGranule.getD (c.t - 16) 0)) else s)
    else if c.first then
      let s2 := s.modPadOf c.p c.t fun a => a.openCommand (s.actBank c.core) s.fresh
      { s2 with fresh := s2.fresh + 1 }
    else s
  let s3 := (s1.modTgt c.p c.t fun x => { x with lastStep := c.idx }).modJob c.p fun j => { j with ran := true }
  s3.markLapsed c.p (if 16 ≤ c.t then s.unitLapsed (4 + c.t) else (s.coresOf c.p c.t).any s.unitLapsed)

/-! ### Catches (R121 to R123) -/

/-- The key of a catch of a partition. -/
def catchKey (p cblk ix : Nat) : Nat := (8 * p + cblk) * 64 + ix

/-- The count of a catch. -/
def State.catchAt (s : State) (k : Nat) : Nat := (alGet s.comp.catches k).getD 0

/-- A catch set. -/
def State.setCatch (s : State) (k v : Nat) : State :=
  { s with comp := { s.comp with catches := alPut 0 s.comp.catches k v } }

/-- A post of n counts, and whether the count saturates (R122). -/
def State.postCatch (s : State) (k n : Nat) : State × Bool :=
  let v := s.catchAt k + n
  (s.setCatch k (min v 65535), decide (65535 < v))

/-- The catch and the count that a target waits for. -/
def TargetSt.waits (x : TargetSt) (p : Nat) : Option (Nat × Nat) :=
  match x.steps.head?, x.phase with
  | some (_, b), .waitHead => some (catchKey p (hCblk b) (hWaitIx b), 1)
  | some (_, b), .catchWait v => some (catchKey p (hCblk b) (leAt b 9 1), v)
  | _, _ => none

/-- The targets of a partition that wait on a catch, in ascending order. -/
def State.waiters (s : State) (p k : Nat) : List Nat :=
  (List.range 18).filter fun t => match s.tgt p t with
    | some x => (match x.waits p with | some (k', _) => k' == k | none => false)
    | none => false

/-- A wait takes its count at once where the count suffices and no target that ranks before waits on the same catch
(R123). -/
def State.tryTake (s : State) (p t k v : Nat) : Option State :=
  if v ≤ s.catchAt k ∧ !((s.waiters p k).any fun u => decide (u < t)) then some (s.setCatch k (s.catchAt k - v)) else none

/-- One waiter served where the count suffices; none stops the serving (R123). -/
def State.serveOne (s : State) (p k t : Nat) : Option State := do
  let x ← s.tgt p t
  let (_, v) ← x.waits p
  if v ≤ s.catchAt k then
    some ((s.setCatch k (s.catchAt k - v)).modTgt p t fun x =>
      { x with phase := if x.phase = .waitHead then .ready else .done 0 false })
  else none

/-- The waiters of a catch served in rank order for as long as the count suffices (R123). -/
def State.serveCatch (s : State) (p k : Nat) : List Nat → State
  | [] => s
  | t :: l => match s.serveOne p k t with
    | some s1 => s1.serveCatch p k l
    | none => s

/-! ### Running one step -/

/-- A refused step: WIN_REFUSED where the window check refuses it (R421). -/
def State.refuseStep (s : State) (c : StepCtx) (code : Nat) : State :=
  let s1 := s.setPhase c.p c.t c.idx (.done code false)
  if isWindowCode code then s1.winRefused c.p else s1

/-- A wait that has met a job that stops is abandoned at once, and its command ends (R123, R231). -/
def State.meetWait (s : State) (p t : Nat) : State := match s.comp.parts[p]?.bind (·.job) with
  | some j => if j.stopping then s.modTgt p t fun x => if x.isWaiting then x.stopNow else x else s
  | none => s

/-- The effect of a step that has passed its checks and its header WAIT. `body` answers none where the step is held by a
bank that opens or by a granule. -/
def State.effect (s : State) (c : StepCtx) (body : State → StepCtx → Option (State × StepPhase)) : State :=
  match body s c with
  | some (s1, ph) => (s1.setPhase c.p c.t c.idx ph).meetWait c.p c.t
  | none => s.setPhase c.p c.t c.idx .started

/-- One step of a target (R102): its checks, its header WAIT, its start, its effect. The checks read the activation region
as the step's start leaves it. Log entry 87. -/
def State.runStep (s : State) (p t : Nat) (pick : List Byte → Bool) (check : State → StepCtx → Nat)
    (body : State → StepCtx → Option (State × StepPhase)) : State :=
  match s.stepAt p t pick with
  | none => s
  | some c =>
    if c.tgt.phase = .started then s.effect c body
    else if c.tgt.phase = .ready then (s.startStep c).effect c body
    else
      let s1 := s.openCommand c
      let code := worse (headerCheck c.part c.b) (check (s1.startStep c) c)
      if code ≠ 0 then s1.refuseStep c code
      else if hWait c.b then
        match s1.tryTake c.p c.t (catchKey c.p (hCblk c.b) (hWaitIx c.b)) 1 with
        | some s2 => (s2.startStep c).effect c body
        | none => (s1.setPhase c.p c.t c.idx .waitHead).meetWait c.p c.t
      else (s1.startStep c).effect c body

/-! ### Memory errors that a step meets (R139, R151, R161) -/

/-- The addresses of the poisoned words that the extents touch. -/
def Pad.poisonWords (p : Pad) (weights : Nat) (xs : List Ext) : List Nat :=
  ((p.poison.filter fun g => xs.any fun e => e.meets ⟨g * 8, 8⟩).map fun g =>
    if g * 8 < weights then g / 4 * 32 else g * 8).foldr (fun a l => if l.contains a then l else a :: l) []

/-- Scratchpad errors of a step's reads on one physical core: corrected ones counted, uncorrected ones logged; in the
weight-resident region an uncorrected error sets the tag to 0 and poisons the word. Whether any was uncorrected.
Log entry 34. -/
def State.coreErrors (s : State) (w i core ce : Nat) (ues : List Nat) (reads : List Ext) : State × Bool :=
  let pad := match s.comp.cores[core]? with
    | some c => c.padOf i
    | none => .reset 0
  let met := ues.filter fun a => (reads.any fun e => e.meets ⟨a, 1⟩) && !poisoned pad.poison 8 a 1
  let ue := met ++ pad.poisonWords w reads
  let s1 := s.spCorrected core ce
  let hurt : Nat → CoreSt → CoreSt := fun a c => c.setPadOf i { (c.padOf i).mark w a 1 with tag := 0 }
  let s2 := ue.foldl (fun s a =>
    let s' := s.spUncorrected core a (b2n (decide (a < w))) false
    if a < w then { s' with comp := { s'.comp with cores := lmod s'.comp.cores core (hurt a) } } else s') s1
  (if ue.isEmpty then s2 else { s2 with fresh := s2.fresh + 1 }, !ue.isEmpty)

/-- Scratchpad errors of a step's reads (R139, R161): on the core, in a pair on each of the two. Log entries 34, 35. -/
def State.padErrors (s : State) (c : StepCtx) (env : StepEnv) (reads : List Ext) : State × Bool :=
  (s.coresOf c.p c.t).foldl (fun a n =>
    let (ce, ue) := if n = c.core then (env.spCe, env.spUe) else (env.upperCe, env.upperUe)
    let (s1, bad) := a.1.coreErrors (s.weights c.core) c.t n ce ue reads
    (s1, a.2 || bad)) (s, false)

/-- DRAM errors of reads of device addresses: corrected ones counted, uncorrected ones logged and their block poisoned;
poison met again counts. Whether any was uncorrected. Log entry 34. -/
def State.dramErrors (s : State) (ce : List (Fin 4)) (ue : List Nat) (reads : List Ext) : State × Bool :=
  let met := ue.filter fun a => (reads.any fun e => e.meets ⟨a, 1⟩) && !s.dram.poison.contains (a / 32)
  let again := (s.dram.poison.filter fun g => reads.any fun e => e.meets ⟨g * 32, 32⟩).map (· * 32)
  let s1 := ce.foldl (fun s t => s.dramCorrected t.val) s
  let s2 := met.foldl (fun s a =>
    { s with dram := { s.dram with poison := s.dram.poison ++ (if s.dram.poison.contains (a / 32) then [] else [a / 32]) } }) s1
  let s3 := (met ++ again).foldl (fun s a => s.dramUncorrected (s.towerOf a) a) s2
  (if (met ++ again).isEmpty then s3 else { s3 with fresh := s3.fresh + 1 }, !(met ++ again).isEmpty)

/-- The job carries the uncorrected-error flag (R139, R158). Log entry 34. -/
def State.markUe (s : State) (p : Nat) (ue : Bool) : State :=
  if ue then s.modJob p fun j => { j with ue := true } else s

/-! ### The registers of the target's unit (R126, R185) -/

/-- The key of a register of core n. -/
def coreKey (n o : Nat) : Nat := 0x1000000 + 0x100000 * n + o
/-- The key of a register of narrow-channel engine e. -/
def nceKey (e o : Nat) : Nat := 0xA00000 + 0x100 * e + o



/-- Event bits of a step's target: CMD_DONE 0, REFUSED 1, ARITH 2, CATCH_TMO 3, PAIR_MISMATCH 4. -/
def State.unitEvent (s : State) (p t bits : Nat) : State :=
  if bits = 0 then s
  else if 16 ≤ t then s.raise (nceKey (t - 16) 4) (bits % 16)
  else (s.coresOf p t).foldl (fun s n => s.raise (coreKey n 0xC) bits) s

/-- A counter of each physical core of a target, where PERF_EN is set (R126). Log entry 37. -/
def State.coreCount (s : State) (p t o n : Nat) : State :=
  (s.coresOf p t).foldl (fun s k => if tbit (s.rv (coreKey k 8)) 0 then s.bump (coreKey k o) n else s) s

/-- A command completes: CMD_DONE and its count (R103). -/
def State.commandDone (s : State) (p t : Nat) : State :=
  let s1 := s.unitEvent p t 1
  if 16 ≤ t then s1 else s1.coreCount p t 0x38 1

/-! ### Stops (R231) -/

/-- The running job of a partition stops: delivery ends, waits are abandoned (R231). -/
def State.stopJob (s : State) (p : Nat) : State :=
  s.modJob p Job.stop

/-- A code raised by a step or by the job itself; a stopping code stops the job. -/
def State.raiseCode (s : State) (p : Nat) (r : Raised) : State :=
  if r.status = 0 then s
  else
    let s1 := s.modJob p fun j => { j with raised := j.raised ++ [r] }
    if isStopping r.status || jobOnly r.status then s1.stopJob p else s1

/-! ### Between steps -/

/-- The STEP_COUNT of a job. -/
def Job.count (j : Job) : Nat := leAt j.desc 4 4

/-- Delivery goes back to a step that is delivered again (R224, R234). -/
def State.pullBack (s : State) (p i : Nat) : State := s.modJob p fun j => { j with dispatch := min j.dispatch i }

/-- Step i of a job counts as delivered (R224): it has been read, and its target's resume step lies beyond it. -/
def Job.sent (j : Job) (i : Nat) : Bool := match j.owners[i]? with
  | some t => (match j.targets.find? fun x => x.id == t with
    | some x => decide (i < x.resume)
    | none => false)
  | none => false

/-- The next step that the dispatcher reads: the first from where delivery stands that does not count as delivered. -/
def Job.nextStep (j : Job) : Nat :=
  j.dispatch + (((List.range (j.owners.length - j.dispatch)).filter fun k => !j.sent (j.dispatch + k)).head?).getD
    (j.owners.length - j.dispatch)

/-- Every step that the chain holds for a target has been delivered to it (R98), which shows once the dispatcher has read the whole
chain: a suspension before that cuts a command whose last step of the chain has run. Log entry 87. -/
def Job.allSent (j : Job) (t : Nat) : Bool :=
  decide (j.count ≤ j.owners.length) && (j.owners.zipIdx.all fun o => o.1 != t || j.sent o.2)

/-- Every step of the chain has been delivered. -/
def Job.chainSent (j : Job) : Bool := decide (j.count ≤ j.nextStep)

/-- One action of a target between steps, and whether there was one: the rest of a stopped target's steps dropped, a
command ended by the chain's end or cut, a skipped step dropped, a step refused before it runs (R98, R99, R102, R136,
R226, R231, R234). The 4,097th step of a command, which 0x0625 ends before it runs, is reported as a step refused: REFUSED
of CORE_EVENT, and CORE_LAST_STATUS with its opcode (DEDUCED, log entry 94). -/
def State.settleOne (s : State) (p t : Nat) : State × Bool :=
  match s.part p, s.comp.parts[p]?.bind (·.job), s.tgt p t with
  | some e, some j, some x =>
    if x.phase ≠ .fresh then (s, false)
    else if !x.cmdOpen && (j.stopping || j.suspending) && !(x.stopped && x.steps.isEmpty) then
      let s1 := match x.steps.head? with
        | some (i, _) => (s.modTgt p t fun x => { x with resume := i }).pullBack p i
        | none => s
      (s1.modTgt p t fun x => { x with steps := [], stopped := true, skip := 0 }, true)
    else
      match x.steps with
      | [] =>
        if x.cmdOpen && (j.stopping || j.allSent t) then
          ((s.modTgt p t fun x => { x with cmdOpen := false, skip := 0 }).commandDone p t, true)
        else if x.cmdOpen && j.suspending then
          ((s.modTgt p t fun x => { x with cmdOpen := false, skip := 0, resume := x.cmdStart, stopped := true }).pullBack p
            x.cmdStart, true)
        else (s, false)
      | (i, b) :: rest =>
        if !x.cmdOpen && s.held then (s, false)
        else if x.cmdOpen && decide (4096 ≤ x.cmdCount) then
          (s.modTgt p t fun x => { x with phase := .done 0x0625 false }, true)
        else if 0 < x.skip then
          let s1 := s.modTgt p t fun x =>
            { x with steps := rest, cmdCount := x.cmdCount + 1, skip := if hLast b then 0 else x.skip - 1,
                     cmdOpen := !hLast b }
          (if hLast b then s1.commandDone p t else s1, true)
        else
          let code := headerCheck e b
          if code = 0x0620 ∨ code = 0x0623 ∨ (code = 0x0622 ∧ (undefinedOp b ∨ hEngine b ≠ (hOp b == 0x18))) then
            let open' : TargetSt → TargetSt := fun x =>
              if x.cmdOpen then { x with phase := .done code false }
              else { x with phase := .done code false, cmdOpen := true, cmdStart := i, cmdCount := 0, skip := 0 }
            ((if x.cmdOpen then s else s.coreBoundary p t).modTgt p t open', true)
          else (s, false)
  | _, _, _ => (s, false)

/-- The actions of a target between steps, in turn. -/
def State.settleTgt : Nat → State → Nat → Nat → State
  | 0, s, _, _ => s
  | n + 1, s, p, t =>
    match s.settleOne p t with
    | (s1, true) => State.settleTgt n s1 p t
    | (_, false) => s

/-- Every target of a partition settled. Log entry 87. -/
def State.settle (s : State) (p : Nat) : State :=
  (List.range 18).foldl (fun s t =>
    match s.tgt p t with
    | some x => State.settleTgt (x.steps.length + 3) s p t
    | none => s) s

/-! ### The end of a step -/

/-- What the end of a step does to its target: the step leaves, and the command ends with LAST or a stopping code. -/
def TargetSt.endStep (x : TargetSt) (stop last : Bool) : TargetSt :=
  let ends := stop || last
  { x with steps := x.steps.drop 1, phase := .fresh, cmdCount := x.cmdCount + 1, cmdOpen := !ends,
           skip := if ends then 0 else x.skip, wrote := false, ueMet := false }

/-- The pair's mismatch (R396, R402): PAIR_MISMATCH in both cores, MISMATCH of the island, and both run their test key. Log
entry 35. -/
def State.pairMismatch (s : State) (p t : Nat) : State :=
  match s.hostOf p t with
  | some h =>
    let s1 := (s.unitEvent p t 16).raise 0x200020 0x20
    { s1 with safe := { s1.safe with
      identifying := if s1.safe.identifying.contains (h / 2) then s1.safe.identifying else s1.safe.identifying ++ [h / 2] } }
  | none => s

/-- The last step completed, in the unit's register (R126, R185). -/
def State.lastStatus (s : State) (p t status op : Nat) : State :=
  let v := status * 2 ^ 16 + op
  if 16 ≤ t then (s.setReg (nceKey (t - 16) 0xC) v).bump (nceKey (t - 16) 0x18) 1
  else (s.coresOf p t).foldl (fun s n => s.setReg (coreKey n 0x14) v) s

/-- A step of the attention chapter ends at its serving engine (R217): the last status, its events and its count; a step
that never came to an engine (R102) counts there too where there is one. Log entry 37. -/
def State.engineEnd (s : State) (p t op st : Nat) : State :=
  if decide (16 ≤ t) || decide (op < 0x20) || decide (0x23 < op) then s
  else match s.part p, s.hostOf p t with
    | some e, some h => match s.engineOf e h with
      | some q =>
        ((s.setReg (attnKey q 0xC) (st * 2 ^ 16 + op)).bump (attnKey q 0x18) 1).raise (attnKey q 4)
          (1 + flagBit 1 (isRefusal st) + flagBit 2 (st / 256 == 2))
      | none => s
    | _, _ => s

/-- The end of the step at the head of a target (R97, R103, R125). `cyc` are the cycles that the unit has counted since
its last step: in progress, DPU, vector. ARITH of CORE_EVENT is set where the code that the step reports is of class 0x02,
not where a higher code outranks one (DEDUCED, log entry 94). The job's last write completes here where the step or its POST
has written anything (R229). Log entry 87. -/
def State.stepEnd (s : State) (p t : Nat) (mismatch : Bool) (cyc : Nat × Nat × Nat) : State :=
  match s.part p, s.tgt p t with
  | some e, some x =>
    match x.phase, x.steps.head? with
    | .done st0 wrote, some (idx, b) =>
      let mis := (mismatch && e.hinged && decide (t < 16)) || st0 == 0x0403
      let st := if mis then worse st0 0x0403 else st0
      let post := hPost b && !isStopping st
      let (s1, sat) := if post then s.postCatch (catchKey p (hCblk b) (hPostIx b)) 1 else (s, false)
      let st := if sat then worse st 0x0342 else st
      let stop := isStopping st
      let bits := flagBit 1 (isRefusal st) + flagBit 2 (st / 256 == 2) + flagBit 3 (st == 0x0341)
      let s2 := ((s1.lastStatus p t st (hOp b)).unitEvent p t bits).engineEnd p t (hOp b) st
      let s3 := if 16 ≤ t then s2.bump (nceKey (t - 16) 0x10) cyc.1
        else ((s2.coreCount p t 0x20 cyc.1).coreCount p t 0x28 cyc.2.1).coreCount p t 0x30 cyc.2.2
      let s4 := s3.modTgt p t fun x => x.endStep stop (hLast b)
      let s5 := if wrote || post then s4.modJob p fun j => { j with lastWrite := s4.now } else s4
      let s6 := if stop || hLast b then s5.commandDone p t else s5
      let s7 := if mis then s6.pairMismatch p t else s6
      (s7.raiseCode p ⟨st, t, idx⟩).settle p
    | _, _ => s
  | _, _ => s

end Sys2Proof.Machine
end

