-- ==== Sys2Proof/Machine/Catches.lean ====
section
/-!
DEFINITION. The commands of the catches (R121 to R123) and the end of a step (R97).
-/
namespace Sys2Proof.Machine

/-- A CATCH step of one OP. -/
def isCatch (op : Nat) (b : List Byte) : Bool := hOp b == 0x05 && leAt b 8 1 == op

/-- The checks of a CATCH step (R122). -/
def catchCheck (_s : State) (c : StepCtx) : Nat :=
  codeIf (decide (63 < leAt c.b 9 1) || (leAt c.b 8 1 == 1 && leAt c.b 0x0A 2 == 0) ||
    !((sliceAt c.b 0x10 48).all fun x => x == 0#8)) 0x0622

/-- The catch that a CATCH step names. -/
def StepCtx.catch' (c : StepCtx) : Nat := catchKey c.p (hCblk c.b) (leAt c.b 9 1)

/-- A write that leaves a hinged pair is withheld where the pair's copies differ (R125). Log entry 35. -/
def withheld (mismatch : Bool) (f : State → StepCtx → Option (State × StepPhase)) (s : State) (c : StepCtx) :
    Option (State × StepPhase) :=
  if mismatch && c.part.hinged then some (s, .done 0x0403 false) else f s c

/-- The effect of POST (R122). -/
def catchPostBody (s : State) (c : StepCtx) : Option (State × StepPhase) :=
  let (s1, sat) := s.postCatch c.catch' (leAt c.b 0x0A 2)
  some (s1, .done (codeIf sat 0x0342))

/-- The effect of SET (R122). -/
def catchSetBody (s : State) (c : StepCtx) : Option (State × StepPhase) :=
  some (s.setCatch c.catch' (leAt c.b 0x0A 2), .done 0)

/-- The effect of RESET_BLOCK (R122). -/
def resetBlockBody (s : State) (c : StepCtx) : Option (State × StepPhase) :=
  let blk := 8 * c.p + hCblk c.b
  some ({ s with comp := { s.comp with catches := s.comp.catches.filter fun x => x.1 / 64 != blk } }, .done 0)

/-- The effect of WAIT (R122, R123): the counts are taken at once, or the step waits. -/
def catchWaitBody (s : State) (c : StepCtx) : Option (State × StepPhase) :=
  let v := leAt c.b 0x0A 2
  match s.tryTake c.p c.t c.catch' v with
  | some s1 => some (s1, .done 0 false)
  | none => some (s, .catchWait v)

/-- Every target of the job stands at a command boundary or in a catch wait: no further post can come (R123, R188). -/
def Job.noMorePosts (j : Job) (p : Nat) : Bool := j.targets.all fun x => !x.cmdOpen || (x.waits p).isSome

/-- A wait abandoned at a slice expiry or a Ward hold (R53, R123, R234): its command runs again from its first step. -/
def State.abandonWait (s : State) (p t : Nat) : State :=
  match s.comp.parts[p]?.bind (·.job), s.tgt p t with
  | some j, some x =>
    if (x.waits p).isSome && (j.suspending || s.held) && j.noMorePosts p then
      (s.modTgt p t fun x =>
        { x with steps := [], phase := .fresh, cmdOpen := false, skip := 0, resume := x.cmdStart,
                 stopped := j.suspending }).pullBack p x.cmdStart
    else s
  | _, _ => s

/-- What a step's commands may change: the compute units, the memories, the jobs, the units' registers. -/
def commitStep (s t : State) : State :=
  { s with comp := t.comp, dram := t.dram, kv := t.kv, safe := t.safe.carry s.safe, pwr := t.pwr, ing := t.ing,
           sec := { s.sec with ivCount := t.sec.ivCount, ivSession := t.sec.ivSession, seed := t.sec.seed,
                                 drawn := t.sec.drawn }, out := t.out, fresh := t.fresh,
           regs := { s.regs with global := t.regs.global, core := t.regs.core, nce := t.regs.nce, pci := t.regs.pci, sec := t.regs.sec,
                                 pwr := t.regs.pwr, safe := t.regs.safe, attn := t.regs.attn, queue := t.regs.queue } }

/-- CATCH POST (R122). -/
def execCatchPost (part : PartIx) (target : TargetIx) (mismatch : Bool) (s : State) : Answer :=
  .next (commitStep s (s.runStep part target (isCatch 0) catchCheck (withheld mismatch catchPostBody)))

/-- CATCH WAIT (R122, R123). -/
def execCatchWait (part : PartIx) (target : TargetIx) (s : State) : Answer :=
  .next (commitStep s (s.runStep part target (isCatch 1) catchCheck catchWaitBody))

/-- CATCH SET (R122). -/
def execCatchSet (part : PartIx) (target : TargetIx) (mismatch : Bool) (s : State) : Answer :=
  .next (commitStep s (s.runStep part target (isCatch 2) catchCheck (withheld mismatch catchSetBody)))

/-- CATCH RESET_BLOCK (R122). -/
def execResetBlock (part : PartIx) (target : TargetIx) (mismatch : Bool) (s : State) : Answer :=
  .next (commitStep s (s.runStep part target (isCatch 3) catchCheck (withheld mismatch resetBlockBody)))

/-- The waiters of a catch are served after a post (R123). -/
def execCatchServe (block index : Fin 64) (s : State) : Answer :=
  let p := block.val / 8
  let k := block.val * 64 + index.val
  .next (commitStep s (s.serveCatch p k (s.waiters p k)))

/-- A catch wait times out (R123): the step ends with 0x0341 and no count is taken. -/
def execCatchWaitTimeout (part : PartIx) (target : TargetIx) (s : State) : Answer :=
  .next (commitStep s (s.modTgt part target fun x =>
    if (x.waits part).isSome then { x with phase := .done 0x0341 false } else x))

/-- A catch wait is abandoned (R123). -/
def execCatchWaitAbandon (part : PartIx) (target : TargetIx) (s : State) : Answer :=
  .next (commitStep s (s.abandonWait part target))

/-- A step ends (R97, R103, R125). Log entry 37. -/
def execStepEnd (part : PartIx) (target : TargetIx) (mismatch : Bool) (active dpu vec : Nat) (s : State) : Answer :=
  .next (commitStep s (s.stepEnd part target mismatch (active, dpu, vec)))

end Sys2Proof.Machine
end

