-- ==== Sys2Proof/Machine/Jobs.lean ====
section
/-!
DEFINITION. Queues, doorbells, jobs, their scheduling, completion and suspension, the mapping of logical cores and
parking (R219 to R247).
-/
namespace Sys2Proof.Machine

/-! ### Queues (R219 to R221, R246) -/

/-- The run-time state of a queue. -/
def State.queue (s : State) (q : Nat) : QueueSt := (alGet s.comp.queues q).getD .empty

/-- A queue changed. -/
def State.modQueue (s : State) (q : Nat) (f : QueueSt → QueueSt) : State :=
  { s with comp := { s.comp with queues := alPut .empty s.comp.queues q (f (s.queue q)) } }

/-- QUEUE_CFG.EN in force. -/
def State.qEn (s : State) (q : Nat) : Bool := tbit (s.rv (queueKey q 4)) 31
/-- LOG2_SIZE in force. -/
def State.qLog (s : State) (q : Nat) : Nat := field (s.rv (queueKey q 4)) 24 4
/-- PRIO in force. -/
def State.qPrio (s : State) (q : Nat) : Nat := field (s.rv (queueKey q 4)) 12 3
/-- VECTOR in force. -/
def State.qVector (s : State) (q : Nat) : Nat := field (s.rv (queueKey q 4)) 0 11
/-- The base of the job ring (o = 8) or of the completion ring (o = 16). -/
def State.qBase (s : State) (q o : Nat) : Nat := s.rv (queueKey q o) + 2 ^ 32 * s.rv (queueKey q (o + 4))

/-- A place in a ring: partition DRAM or a host window (R219). Log entry 5. -/
def ringPlace (loc a : Nat) : Place := if loc = 0 then .dram a else .host (a / 2 ^ 48 % 256) (a % 2 ^ 48)

/-- Error bits of QUEUE_ERR: 0 BAD_DOORBELL, 1 RING_READ, 2 CPL_WRITE. -/
def State.queueErr (s : State) (q bit : Nat) : State := s.raise (queueKey q 0x24) (2 ^ bit)

/-- The key of a register of a partition's queue block (R247). -/
def qpKey (p o : Nat) : Nat := 0x701000 + 0x40 * p + o



/-- A doorbell write (R221). -/
def State.doorbell (s : State) (port off size value : Nat) : State :=
  let q := off / 8
  match s.bindOf q with
  | none => s.busError port 2 5 off
  | some b =>
    if b.port ≠ port then s.busError port 2 5 off
    else if size ≠ 8 ∨ off % 8 ≠ 0 ∨ 2 ^ s.qLog q ≤ value ∨ 65536 ≤ value ∨ (s.queue q).resetPend = true then s.queueErr q 0
    else s.modQueue q fun x => { x with tail := value }

/-! ### Batches (R227, R272, R273) -/

/-- The oldest complete batch of a ring: its buffer and its source timestamp. -/
def RingSt.oldest (r : RingSt) : Option (Nat × Nat) :=
  let l := r.bufs.zipIdx.filterMap fun x => match x.1 with
    | .complete sq ts => some (sq, x.2, ts)
    | _ => none
  (l.foldl (fun (a : Option (Nat × Nat × Nat)) y => match a with
    | some z => if y.1 < z.1 then some y else some z
    | none => some y) none).map fun z => (z.2.1, z.2.2)

/-- A ring of a partition changed. -/
def State.modRing (s : State) (p : Nat) (f : RingSt → RingSt) : State :=
  { s with ing := { s.ing with rings := lmod s.ing.rings p f } }

/-- A buffer of a ring set. -/
def State.setBuf (s : State) (p b : Nat) (x : BufSt) : State := s.modRing p fun r => { r with bufs := r.bufs.set b x }

/-- The claim of a job released (R273). -/
def State.releaseBatch (s : State) (p : Nat) (j : Job) : State := match j.batch with
  | some b => s.modRing p fun r => match r.bufs[b]? with
    | some (.claimed _) => { r with bufs := r.bufs.set b .free }
    | _ => r
  | none => s

/-! ### Descriptors (R222, R223) -/

/-- KIND, FLAGS, STEP_COUNT, CHAIN_ADDR and JOB_TMO of a descriptor are valid (R223). -/
def descValid (d : List Byte) : Bool :=
  let flags := leAt d 1 1
  let a := leAt d 8 8
  let n := leAt d 4 4
  leAt d 0 1 == 1 && decide (flags < 8) && leAt d 2 2 == 0 && decide (1 ≤ n) && decide (n ≤ 1048576) && a % 64 == 0 &&
  decide (a < if tbit flags 1 then 2 ^ 56 else 2 ^ 48) && decide (leAt d 0x24 4 ≤ 3600000) &&
  ((sliceAt d 0x28 24).all fun x => x == 0#8)

/-- The place of a job's chain. -/
def chainPlace (d : List Byte) : Place := ringPlace (b2n (tbit (leAt d 1 1) 1)) (leAt d 8 8)

/-- The checks of R223 in order: zero where the job may run. -/
def State.descCheck (s : State) (p : Nat) (d : List Byte) : Nat :=
  if !descValid d then 0x0631 else s.placeCheck p (chainPlace d) (64 * leAt d 4 4) true

/-- The DRAM bytes of a place hold poison. Log entry 77. -/
def State.placePoisoned (s : State) (p : Nat) (x : Place) (len : Nat) : Bool := match x, s.dramOf p with
  | .dram o, some (base, _) => poisoned s.dram.poison 32 (base + o) len
  | _, _ => false

/-- An uncorrected error is met in the DRAM bytes of a place (R139). -/
def State.placeErr (s : State) (p : Nat) (x : Place) (len : Nat) (r : HostReply) : Bool := match x, s.dramOf p with
  | .dram o, some (base, _) => r.dramUe.any fun a => Ext.meets ⟨base + o, len⟩ ⟨a, 1⟩
  | _, _ => false

/-- The partition's DRAM has been lost with a tower, and no re-map has completed since (R150). -/
def State.dramLost (s : State) (p : Nat) : Bool := (s.comp.parts.getD p .empty).dramLost

/-- A read by the device of a place: the bytes, or the status that the read fails with (R26, R139, R150, R157, R421).
Log entry 77. -/
def State.fetchPlace (s : State) (p : Nat) (x : Place) (len : Nat) (r : HostReply) : List Byte × Nat :=
  let code := s.placeCheck p x len true
  if code ≠ 0 then ([], code)
  else match x with
    | .host _ _ => if r.fail then ([], 0x0312) else (sliceAt r.data 0 len, 0)
    | _ => if s.dramLost p then ([], 0x0313)
      else if s.placePoisoned p x len || s.placeErr p x len r then ([], 0x0311) else (s.placeRead p x len [], 0)

/-- What the read of a place does beside its bytes: a refusal by the window check sets WIN_REFUSED (R421), a read of the
DRAM is counted, with the errors that it meets (R139, R159, R161). Log entry 77. -/
def State.fetched (s : State) (p : Nat) (x : Place) (len : Nat) (r : HostReply) : State :=
  let code := s.placeCheck p x len true
  if code ≠ 0 then (if isWindowCode code then s.winRefused p else s)
  else match x, s.dramOf p with
    | .dram o, some (base, _) => ((s.countRead p o len).dramErrors r.dramCe r.dramUe [⟨base + o, len⟩]).1
    | _, _ => s

/-! ### Ready queues (R227, R233) -/

/-- The descriptor at the head of a queue where the block knows it: read already, or in a ring in the DRAM. Log entry 95. -/
def State.headDesc (s : State) (p q : Nat) (b : BindEntry) : Option (List Byte) := match (s.queue q).read with
  | some d => some d
  | none =>
    let x := (ringPlace b.ringLoc (s.qBase q 8)).plus (64 * (s.queue q).head)
    match x with
    | .dram o => if s.inDram p o 64 && !s.placePoisoned p x 64 then some (s.readDram p o 64) else none
    | _ => none

/-- The queue waits for a batch (R227): its next job claims one, would start otherwise, and none is complete. -/
def State.headWaits (s : State) (p q : Nat) : Bool := match s.bindOf q, s.part p with
  | some b, some e => (s.comp.parts.getD p .empty).granted && (s.queue q).susp.isNone &&
      (s.queue q).head != (s.queue q).tail && s.hostInService e &&
      (s.ing.rings.getD p .reset).oldest.isNone && (s.headDesc p q b).any fun d => tbit (leAt d 1 1) 2 && s.descCheck p d == 0
  | _, _ => false

/-- The queue is ready (R233, R239): enabled, holding a job, not waiting for a batch, its port's link up. -/
def State.queueReady (s : State) (p q : Nat) : Bool := match s.bindOf q with
  | some b =>
    let x := s.queue q
    b.part == p && s.qEn q && (x.susp.isSome || x.head != x.tail) && !s.headWaits p q && s.linkUp b.port
  | none => false

/-- The ready queues of a partition in ascending order. -/
def State.readyQueues (s : State) (p : Nat) : List Nat := (s.comp.queues.map (·.1)).filter fun q => s.queueReady p q

/-- The queue that the scheduler takes (R233). -/
def State.nextQueue (s : State) (p : Nat) : Option Nat :=
  let l := s.readyQueues p
  let top := (l.map s.qPrio).foldl max 0
  let best := l.filter fun q => s.qPrio q == top
  let last := (s.comp.parts.getD p .empty).lastServed
  match best.find? fun q => decide (last < q) with
  | some q => some q
  | none => best.head?

/-! ### The mapping of logical cores (R241) -/

/-- The homes of a partition's logical cores (R241). -/
def homesOf (e : PartEntry) : List Nat :=
  if e.hinged then ((List.range 8).filter fun k => tbit e.coreMask (2 * k)).map (2 * ·) else bitsOf 16 e.coreMask

/-- A host is in service (R241). -/
def State.hostUp (s : State) (e : PartEntry) (h : Nat) : Bool := !s.unitOos h && (!e.hinged || !s.unitOos (h + 1))

/-- The host that holds the fewest logical cores, the lowest number on a tie. -/
def fewest (hosts : List Nat) (placed : List (Option Nat)) : Option Nat :=
  hosts.foldl (fun (a : Option Nat) h => match a with
    | none => some h
    | some b => if (placed.filter (· == some h)).length < (placed.filter (· == some b)).length then some h else some b) none

/-- The mapping of R241, from the set of hosts in service alone. Log entry 43. -/
def State.mapping (s : State) (e : PartEntry) : List (Option Nat) :=
  let homes := homesOf e
  let hosts := homes.filter (s.hostUp e)
  let first : List (Option Nat) := homes.map fun h => if hosts.contains h then some h else none
  (List.range homes.length).foldl (fun m i => match m.getD i none with
    | some _ => m
    | none => m.set i (fewest hosts m)) first

/-- Some logical core is displaced: mapped to a host that is not its home (R240, R241). Log entry 43. -/
def State.displaced (s : State) (p : Nat) : Bool := match s.part p, s.comp.parts[p]? with
  | some e, some q => (q.map.zip (homesOf e)).any fun x => x.1.isSome && x.1 != some x.2
  | _, _ => false

/-- Jobs of the partition carry DEGRADED (R228, R240): a logical core is displaced, an engine of the partition is out of
service, or a re-map has completed since the last Ward switch. Log entry 43. -/
def State.degraded (s : State) (p : Nat) : Bool := match s.part p, s.comp.parts[p]? with
  | some e, some q => s.displaced p || q.remapped || (bitsOf 4 e.attnMask).any fun g => s.unitOos (16 + g)
  | _, _ => false

/-- The logical cores mapped to a host, ascending. -/
def lcoresAt (m : List (Option Nat)) (h : Nat) : List Nat := (List.range m.length).filter fun i => m.getD i none == some h

/-! ### Completion (R227 to R229, R377) -/

/-- The job source timestamp, packed (R227). -/
def Job.srcTs (j : Job) : Nat :=
  let d := leAt j.desc 0x18 8
  match j.batchTs with
  | none => d
  | some b => if b = 0 then d else if d = 0 then b else if tdiffPacked (unpackTs d) (unpackTs b) ≤ 0 then d else b

/-- The full instant of a packed one, taken nearest to the present (R229, R338). -/
def State.fullTs (s : State) (v : Nat) : Nat := ((s.now : Int) - tdiffPacked s.now (unpackTs v)).toNat % nsWrap

/-- AGE of a record (R229). -/
def ageField (srcTs ts : Nat) : Nat :=
  if srcTs = 0 then 0xFFFFFFFF
  else
    let d := tdiffPacked ts (unpackTs srcTs)
    if d < 0 then 0 else min d.toNat 0xFFFFFFFE

/-- The raised code that ranks highest (R232): ties go to the lower target, then the lower step. -/
def topRaised (l : List Raised) : Option Raised :=
  l.foldl (fun (a : Option Raised) r => match a with
    | none => some r
    | some x =>
      let kx := jobRank x.status x.source
      let kr := jobRank r.status r.source
      if kr < kx || (kr == kx && (decide (r.source < x.source) || (r.source == x.source && decide (r.step < x.step))))
      then some r else some x) none

/-- The completion record (R228). -/
def Job.record (j : Job) (phase : Bool) : List Byte :=
  let r := (topRaised j.raised).getD ⟨0, 31, 0xFFFFFFFF⟩
  let flags := flagBit 0 phase + flagBit 1 j.ue + flagBit 2 j.unverified + flagBit 3 j.degraded + flagBit 4 j.modelEnergy +
    flagBit 5 j.preempted
  natLe 2 r.status ++ natLe 1 flags ++ natLe 1 r.source ++ natLe 4 (if r.source = 31 then 0xFFFFFFFF else r.step) ++
  natLe 8 (packTs j.lastWrite) ++ natLe 4 (ageField j.srcTs j.lastWrite) ++ natLe 4 (leAt j.desc 0x20 4) ++
  natLe 8 (if j.ran then j.energy / 1000 else 0)

/-- HEAD advances; PHASE inverts on a wrap to 0 (R220, R229). -/
def QueueSt.advance (x : QueueSt) (log : Nat) : QueueSt :=
  let h := (x.head + 1) % 2 ^ log
  { x with head := h, phase := if h = 0 then !x.phase else x.phase, susp := none, read := none }

/-- The record of a job is written, or discarded with CPL_WRITE (R229, R239, R421); a written one may be a delivered
result (R377). -/
def State.writeRecord (s : State) (p q : Nat) (b : BindEntry) (j : Job) : State :=
  let x := s.queue q
  let rcd := j.record x.phase
  let place := (ringPlace b.ringLoc (s.qBase q 0x10)).plus (32 * x.head)
  let code := s.placeCheck p place 32 false
  if code ≠ 0 then
    let s1 := s.queueErr q 2
    if isWindowCode code then s1.winRefused p else s1
  else
    let s1 := s.placeWrite p place rcd
    let st := leAt rcd 0 2
    if st / 256 = 0 ∧ j.ue = false ∧ leAt rcd 0x10 4 ≠ 0xFFFFFFFF then s1.deliver (.queue q) (s1.fullTs j.srcTs) else s1

/-- A job ends (R229): its record, its interrupt, its claim, the queue's HEAD. -/
def State.endJob (s : State) (p q : Nat) (j : Job) : State :=
  let s1 := s.releaseBatch p j
  match s1.bindOf q with
  | none => s1.modQueue q fun _ => .empty
  | some b =>
    if (s1.queue q).resetPend then s1.modQueue q fun _ => .empty
    else
      let s2 := s1.writeRecord p q b j
      let s3 := if tbit (leAt j.desc 1 1) 0 then s2.sendVector b.port (s2.qVector q) else s2
      (s3.modQueue q fun x => x.advance (s3.qLog q)).bump (qpKey p 0x10) 1

/-! ### Starting and delivering (R223, R224, R226, R233) -/

/-- A job at its start: its queue, descriptor, number, whether it runs degraded and whether the model counts its energy (R443). -/
def Job.start (q : Nat) (d : List Byte) (degraded model : Bool) (now serial : Nat) : Job :=
  ⟨q, d, 0, [], false, false, false, [], false, false, degraded, model, false, 0, none, none, [], now, serial, false⟩

/-- The partition's run-time state changed. -/
def State.modPart (s : State) (p : Nat) (f : PartSt → PartSt) : State :=
  { s with comp := { s.comp with parts := lmod s.comp.parts p f } }

/-- The descriptor at the head of a queue and the status that its read fails with, and the state that has read it: it is
read once (R220). Log entry 42. -/
def State.readHead (s : State) (p q : Nat) (b : BindEntry) (desc : HostReply) : List Byte × Nat × State :=
  match (s.queue q).read with
  | some d => (d, 0, s)
  | none =>
    let place := (ringPlace b.ringLoc (s.qBase q 8)).plus (64 * (s.queue q).head)
    let (d, code) := s.fetchPlace p place 64 desc
    let s1 := s.fetched p place 64 desc
    if code = 0 then (d, 0, s1)
    else
      let (tag, s2) := s1.draw
      (List.replicate 0x20 0#8 ++ natLe 4 tag ++ List.replicate 28 0#8, code, s2.queueErr q 1)

/-- A job that starts or resumes raises demand on every host and every attention engine of its partition at once (R428). -/
def State.wakeHosts (s : State) (e : PartEntry) : State :=
  (bitsOf 4 e.attnMask).foldl (fun s q => s.demand (9 + q)) ((bitsOf 16 e.coreMask).foldl (fun s n => s.demand (13 + n)) s)

/-- A job runs in a partition (R233, R428). -/
def State.runJob (s : State) (p : Nat) (e : PartEntry) (j : Job) : State :=
  (s.modPart p fun x => { x with job := some j }).wakeHosts e

/-- The job at the head of a queue starts, or ends at once with the code of a check (R223, R244, R245); a descriptor read with an
uncorrected error marks it (R158). Log entry 42. -/
def State.startHead (s : State) (p q : Nat) (e : PartEntry) (b : BindEntry) (desc : HostReply) : State :=
  let (d, code, s1) := s.readHead p q b desc
  let s2 := s1.modPart p fun x => { x with lastServed := q }
  let s2 := { s2 with comp := { s2.comp with nextJob := s2.comp.nextJob + 1 } }
  let j := { Job.start q d (s.degraded p) (s.modelled p) s.now s.comp.nextJob with ue := code == 0x0311 }
  let ends : State → Nat → State := fun s st => s.endJob p q { j with raised := [⟨st, 31, 0xFFFFFFFF⟩] }
  if !(s.comp.parts.getD p .empty).granted then ends s2 0x0314
  else if code ≠ 0 then ends s2 code
  else if !s.hostInService e then ends s2 0x0402
  else
    let chk := s.descCheck p d
    if chk ≠ 0 then ends (if isWindowCode chk then s2.winRefused p else s2) chk
    else if tbit (leAt d 1 1) 2 then
      match (s.ing.rings.getD p .reset).oldest with
      | none => s1.modQueue q fun x => { x with read := some d }
      | some (k, ts) =>
        (s2.setBuf p k (.claimed ts)).runJob p e { j with batch := some k, batchTs := some ts }
    else s2.runJob p e j

/-- A suspended job resumes (R234, R240). -/
def Job.resumed (j : Job) (degraded : Bool) : Job :=
  { j with suspending := false, degraded := j.degraded || degraded,
           targets := j.targets.map fun x => { x with stopped := false } }

/-- The scheduler acts on a free partition (R233): a suspended job resumes, or completes where the partition has lost its
quota or its hosts (R244, R245). -/
def State.schedule (s : State) (p : Nat) (desc : HostReply) : State :=
  match s.part p, s.comp.parts[p]?, s.nextQueue p with
  | some e, some x, some q =>
    if x.job.isSome || x.remapDue || s.held || !s.boot.ready then s
    else match s.bindOf q with
      | none => s
      | some b => match (s.queue q).susp with
        | some j =>
          let s1 := (s.modQueue q fun y => { y with susp := none }).modPart p fun x => { x with lastServed := q }
          let code := if !x.granted then 0x0314 else if !s.hostInService e then 0x0402 else 0
          if code ≠ 0 then s1.endJob p q { j with raised := j.raised ++ [⟨code, 31, 0xFFFFFFFF⟩] }
          else (s1.runJob p e (j.resumed (s.degraded p))).settle p
        | none => s.startHead p q e b desc
  | _, _, _ => s

/-- One step delivered to its target (R224). -/
def Job.deliver (j : Job) (i : Nat) (b : List Byte) : Job :=
  let t := targetOf b
  let j1 := { j with dispatch := i + 1, owners := if i < j.owners.length then j.owners.set i t else j.owners ++ [t] }
  match j.targets.find? fun x => x.id == t with
  | none => { j1 with targets := j.targets ++ [⟨t, [(i, b)], .fresh, false, 0, 0, 0, i + 1, 0xFFFFFFFF, false, false, false⟩] }
  | some _ => { j1 with targets := j.targets.map fun y =>
      if y.id = t then { y with steps := y.steps ++ [(i, b)], resume := max y.resume (i + 1) } else y }

/-- The dispatcher reads the next step and delivers it (R224, R226). Log entry 42. -/
def State.dispatchStep (s : State) (p : Nat) (r : HostReply) : State :=
  match s.comp.parts[p]?.bind (·.job) with
  | none => s
  | some j =>
    if j.halted || j.stopping || j.suspending || j.chainSent then s
    else
      let i := j.nextStep
      let place := (chainPlace j.desc).plus (64 * i)
      let (b, code) := s.fetchPlace p place 64 r
      let s1 := s.fetched p place 64 r
      if code ≠ 0 then
        ((s1.markUe p (code == 0x0311)).modJob p fun j => j.stopWith ⟨code, 31, 0xFFFFFFFF⟩).settle p
      else if hSeq b ≠ i % 2 ^ 24 then (s1.raiseCode p ⟨0x0630, 31, 0xFFFFFFFF⟩).settle p
      else if (j.targets.find? fun x => x.id == targetOf b).any fun x => decide (256 ≤ x.steps.length) then s
      else (s1.modJob p fun j => j.deliver i b).settle p

/-! ### The end of a job, a slice, a suspension (R231, R234, R236, R237) -/

/-- A target stands at a command boundary with nothing left to run. -/
def TargetSt.idle (x : TargetSt) : Bool := x.steps.isEmpty && !x.cmdOpen && x.phase == .fresh

/-- Every target of a job has finished or stopped (R229, R231). -/
def Job.over (j : Job) : Bool := j.targets.all TargetSt.idle && (j.stopping || j.chainSent)

/-- JOB_COMPLETE (R229): a target that stands between the steps of a command which no further step reaches has ended it
first (R231). -/
def State.completeJob (s : State) (p : Nat) : State :=
  let t := s.settle p
  match t.comp.parts[p]?.bind (·.job) with
  | some j => if j.over then (t.modPart p fun x => { x with job := none }).endJob p j.queue j else s
  | none => s

/-- The slice of a running job expires (R234). -/
def State.sliceEnds (s : State) (p : Nat) : State :=
  match s.comp.parts[p]?.bind (·.job) with
  | some j =>
    let rival := (s.readyQueues p).any fun q => q != j.queue && decide (s.qPrio j.queue ≤ s.qPrio q)
    if rival && !j.stopping && !s.held then (s.modJob p fun j => { j with suspending := true }).settle p else s
  | none => s

/-- A suspended job has reached its boundaries (R234). -/
def State.suspended (s : State) (p : Nat) : State :=
  match s.comp.parts[p]?.bind (·.job) with
  | some j =>
    if j.suspending && !j.stopping && (j.targets.all TargetSt.idle) && !j.chainSent then
      ((s.modPart p fun x => { x with job := none }).modQueue j.queue fun y =>
        { y with susp := some { j with preempted := true } }).bump (qpKey p 0x18) 1
    else s
  | none => s

/-- JOB_TMO is reached (R236). -/
def State.jobTimeout (s : State) (p : Nat) : State :=
  match s.comp.parts[p]?.bind (·.job) with
  | some j => if leAt j.desc 0x24 4 = 0 then s else (s.raiseCode p ⟨0x0632, 31, 0xFFFFFFFF⟩).settle p
  | none => s

/-- RESET of a queue (R237). -/
def State.resetQueue (s : State) (q : Nat) : State :=
  match s.bindOf q with
  | none => s
  | some b =>
    let running := (s.comp.parts[b.part]?.bind (·.job)).any fun j => j.queue == q
    if running then ((s.modQueue q fun x => { x with resetPend := true }).stopJob b.part).settle b.part
    else
      let s1 := match (s.queue q).susp with
        | some j => s.releaseBatch b.part j
        | none => s
      s1.modQueue q fun _ => .empty

/-! ### Re-mapping and parking (R240 to R245) -/

/-- The MiB of DRAM available to partitions (R36, R244). -/
def State.dramMiB (s : State) : Nat := s.towersIn.length * 24576 - 2048

/-- The partitions granted, in the order of R244: SAFETY first, then ascending INDEX, each while it fits; and what is
left. Log entry 43. -/
def grantList (l : List PartEntry) (avail : Nat) : List Nat × Nat :=
  let order := l.filter PartEntry.isSafety ++ (List.range 8).flatMap fun p => l.filter fun e => e.index == p && !e.isSafety
  order.foldl (fun a e => if e.quota ≤ a.2 then (a.1 ++ [e.index], a.2 - e.quota) else a) ([], avail)

/-- Whether a partition is granted its DRAM, and the device address where it begins (R148, R244). -/
def State.grantOf (s : State) (i : Image) (p : Nat) : Bool × Nat :=
  let g := (grantList i.parts s.dramMiB).1
  let below := (i.parts.filter fun e => decide (e.index < p) && g.contains e.index).map (·.quota)
  (g.contains p, below.sum * 2 ^ 20)

/-- The MiB of the decoded-sample cache (R244, R275). -/
def State.cacheMiB (s : State) : Nat := match s.ward.image with
  | some i => match i.depot with
    | some (gib, _) => min (gib * 1024) (grantList i.parts s.dramMiB).2
    | none => 0
  | none => 0

/-- A core under a new mapping: park images are lost, and a core whose set of logical cores changes loses its
weight-resident region and its tag (R131, R135, R242); one whose set is unchanged goes on with the scratchpad that it
holds. -/
def CoreSt.remap (c : CoreSt) (mine : List Nat) (changed : Bool) (act epoch : Nat) : CoreSt :=
  let pad := if changed then
      { c.pad with fills := (List.range 64).map fun b => if b < act then .free epoch else c.pad.fills.getD b .zero,
                   cells := c.pad.cells.filter fun x => decide (act ≤ x.1 / bankBytes), tag := 0 }
    else c.pad
  let first := if changed then mine.head? else (c.loaded.filter fun i => mine.contains i).or mine.head?
  { pad := pad, loaded := first, parks := (mine.filter fun i => some i != first).map fun i => (i, Pad.reset (epoch + 1 + i)) }

/-- The cores of a partition after the mapping `m`, before `old`. -/
def State.remapCores (s : State) (e : PartEntry) (old m : List (Option Nat)) : State :=
  let f : CoreSt × Nat → CoreSt := fun x =>
    if tbit e.coreMask x.2 then
      let h := if e.hinged then x.2 / 2 * 2 else x.2
      x.1.remap (lcoresAt m h) (lcoresAt m h != lcoresAt old h) (s.actBank x.2) (s.fresh + 17 * x.2)
    else x.1
  { s with comp := { s.comp with cores := s.comp.cores.zipIdx.map f }, fresh := s.fresh + 272 }

/-- The re-map of a partition once its job has stopped (R240, R241, R244); its completion is where cause 0x0412 is detected
(R381). Log entry 44. -/
def State.remap (s : State) (p : Nat) : State :=
  match s.ward.image, s.part p, s.comp.parts[p]? with
  | some i, some e, some x =>
    if !x.remapDue || x.job.isSome then s
    else
      let m := s.mapping e
      let (ok, base) := s.grantOf i p
      let s1 := (s.remapCores e x.map m).modPart p fun y =>
        { y with map := m, base := base, granted := ok, remapDue := false, remapped := true, dramLost := false }
      let s2 := s1.modRing p fun r => { r with stopped := !ok }
      let noHost := m.all Option.isNone && !(x.map.all Option.isNone)
      let bits := 1 + flagBit 1 (x.granted && !ok) + flagBit 2 noHost
      let s3 := (s2.setReg (qpKey p 0xC) ((s2.rv (qpKey p 0xC) + 1) % 2 ^ 32)).raise (qpKey p 0x20) bits
      if noHost && e.isSafety && s.drive then s3.detect 2 0xFF 2 else s3
  | _, _, _ => s

/-- A logical core has a step that waits for its host. -/
def State.parkReady (s : State) (p i : Nat) : Bool := match s.tgt p i with
  | some x => !x.steps.isEmpty && (x.waits p).isNone
  | none => false

/-- A core with the scratchpad that it holds saved and the park image of a logical core restored (R242). -/
def CoreSt.switch (c : CoreSt) (i : Nat) : CoreSt := match alGet c.parks i with
  | some pad =>
    let rest := match c.loaded with
      | some j => alSet (alErase c.parks i) j c.pad
      | none => alErase c.parks i
    { c with pad := pad, loaded := some i, parks := rest }
  | none => c

/-- A host, in a HINGED partition both cores of the pair, switches from one logical core to another (R242): the running one
stands at a command boundary or waits, and the incoming one is the lowest ready. -/
def State.parkSwitch (s : State) (h i : Nat) : State :=
  match s.partOfCore h, s.comp.cores[h]? with
  | some p, some c =>
    let mine := lcoresAt (s.comp.parts.getD p .empty).map h
    let mayLeave := match c.loaded.bind fun j => s.tgt p j with
      | some x => !x.cmdOpen || (x.waits p).isSome
      | none => true
    let ready := mine.filter fun k => some k != c.loaded && s.parkReady p k
    if mayLeave && ready.head? == some i then
      { s with comp := { s.comp with
        cores := (s.coresOf p i).foldl (fun l n => lmod l n fun c => c.switch i) s.comp.cores } }
    else s
  | _, _ => s

/-! ### Commands -/

/-- What the commands of jobs may change. -/
def commitJob (s t : State) : State :=
  { s with comp := t.comp, dram := t.dram, kv := t.kv, ing := t.ing, pwr := t.pwr, safe := t.safe.carry s.safe, out := t.out,
           fresh := t.fresh,
           regs := { s.regs with attn := t.regs.attn, global := t.regs.global, queue := t.regs.queue, core := t.regs.core, nce := t.regs.nce, pci := t.regs.pci,
                                 sec := t.regs.sec, pwr := t.regs.pwr, safe := t.regs.safe } }

/-- A write to BAR2 (R221). -/
def execDoorbell (port : Port) (off size : Nat) (value : BitVec 64) (s : State) : Answer :=
  s.onPort port fun s => commitJob s (s.doorbell port off size value.toNat)

/-- The scheduler starts or resumes a job (R233). -/
def execJobStart (part : PartIx) (desc : HostReply) (s : State) : Answer := .next (commitJob s (s.schedule part desc))

/-- The dispatcher delivers a step (R224). -/
def execStepDelivery (part : PartIx) (step : HostReply) (s : State) : Answer := .next (commitJob s (s.dispatchStep part step))

/-- A slice expires (R234). -/
def execSliceExpiry (part : PartIx) (s : State) : Answer := .next (commitJob s (s.sliceEnds part))

/-- A job has been suspended (R234). -/
def execJobSuspended (part : PartIx) (s : State) : Answer := .next (commitJob s (s.suspended part))

/-- JOB_TMO is reached (R236). -/
def execJobTimeout (part : PartIx) (s : State) : Answer := .next (commitJob s (s.jobTimeout part))

/-- A job completes (R229). -/
def execJobComplete (part : PartIx) (s : State) : Answer := .next (commitJob s (s.completeJob part))

/-- The queue that a port's QUEUE_SEL selects (R246). -/
def State.selected (s : State) (port : Nat) : Nat := s.rv (portKey port 0x700000)

/-- RESET written to QUEUE_CTL of the selected queue (R237, R246). -/
def execQueueReset (port : Port) (s : State) : Answer :=
  s.gate port 0x700020 ((s.bindOf (s.selected port)).any fun b => b.port == port.val) fun s =>
    commitJob s (s.resetQueue (s.selected port))

/-- A re-map completes (R241). -/
def execRemap (part : PartIx) (s : State) : Answer := .next (commitJob s (s.remap part))

/-- A host switches logical cores (R242). -/
def execParkSwitch (core : CoreIx) (lcore : Fin 16) (s : State) : Answer := .next (commitJob s (s.parkSwitch core lcore))

end Sys2Proof.Machine
end

