-- ==== Sys2Proof/Machine/Fp.lean ====
section
/-!
DEFINITION. FP32 and INT32 operations of the vector unit (R83, R84, R110), on 32-bit codes held as numbers.
-/
namespace Sys2Proof.Machine

/-- The canonical FP32 NaN (R64). -/
def fNaN : Nat := 0x7FC00000
/-- Plus infinity. -/
def fInf : Nat := 0x7F800000
/-- The FP32 one. -/
def fOne : Nat := 0x3F800000

/-- The classes of an FP32 code: a NaN, an infinity, or sign, magnitude and exponent of a finite value. -/
inductive Fv where
  | nan
  | inf (neg : Bool)
  | fin (neg : Bool) (m : Nat) (e : Int)
  deriving DecidableEq, Repr

/-- Decoding of an FP32 code, the sign of zero kept (R63, R83). -/
def fdec (c : Nat) : Fv :=
  let s := tbit c 31
  let e := field c 23 8
  let m := field c 0 23
  if e = 255 then (if m = 0 then .inf s else .nan)
  else if e = 0 then .fin s m (-149)
  else .fin s (2 ^ 23 + m) ((e : Int) - 150)

/-- The sign bit of a code. -/
def fsign (neg : Bool) : Nat := if neg then 0x80000000 else 0

/-- The exact value (neg, m × 2^e) rounded to FP32, to nearest with ties to even (R83): an overflow gives infinity, a
zero keeps the sign given. -/
def fround (neg : Bool) (m : Nat) (e : Int) : Nat :=
  if m = 0 then fsign neg else
  let f := fmtD 9
  let x := f.near m e
  let n := x.rne
  let c := (x.se - f.qe).toNat * 2 ^ 23 + n
  fsign neg + (if fInf ≤ c then fInf else c)

/-- Rounding of an exact dyadic value; a zero is +0. -/
def froundDy (d : Dy) : Nat := fround (decide (d.m < 0)) d.m.natAbs d.e

/-- The exact value of a finite code. -/
def Fv.dy : Fv → Dy
  | .fin s m e => ⟨if s then -(m : Int) else m, e⟩
  | _ => ⟨0, 0⟩

/-- FP32 negation, NaN made canonical. -/
def fneg (a : Nat) : Nat :=
  match fdec a with
  | .nan => fNaN
  | _ => a ^^^ 0x80000000

/-- FP32 magnitude, NaN made canonical. -/
def fabs (a : Nat) : Nat :=
  match fdec a with
  | .nan => fNaN
  | _ => a % 2 ^ 31

/-- FP32 addition (R83). -/
def fadd (a b : Nat) : Nat :=
  match fdec a, fdec b with
  | .nan, _ => fNaN
  | _, .nan => fNaN
  | .inf s, .inf t => if s = t then fsign s + fInf else fNaN
  | .inf s, _ => fsign s + fInf
  | _, .inf t => fsign t + fInf
  | .fin s m e, .fin t n g =>
    let r := Dy.add (Fv.fin s m e).dy (Fv.fin t n g).dy
    if r.m = 0 then fsign (s && t) else froundDy r

/-- FP32 subtraction. -/
def fsub (a b : Nat) : Nat := fadd a (fneg b)

/-- FP32 multiplication. -/
def fmul (a b : Nat) : Nat :=
  match fdec a, fdec b with
  | .nan, _ => fNaN
  | _, .nan => fNaN
  | .inf s, .inf t => fsign (s != t) + fInf
  | .inf s, .fin t n _ => if n = 0 then fNaN else fsign (s != t) + fInf
  | .fin s m _, .inf t => if m = 0 then fNaN else fsign (s != t) + fInf
  | .fin s m e, .fin t n g => fround (s != t) (m * n) (e + g)

/-- Total order of non-NaN codes with −0 below +0 (R84). -/
def fkey (a : Nat) : Int := if tbit a 31 then -((a % 2 ^ 31 : Nat) : Int) - 1 else (a % 2 ^ 31 : Nat)

/-- A NaN code. -/
def fIsNaN (a : Nat) : Bool :=
  match fdec a with
  | .nan => true
  | _ => false

/-- MAX of R110: NaN if either is NaN. -/
def fmax (a b : Nat) : Nat := if fIsNaN a || fIsNaN b then fNaN else if fkey a < fkey b then b else a

/-- MIN of R110. -/
def fmin (a b : Nat) : Nat := if fIsNaN a || fIsNaN b then fNaN else if fkey b < fkey a then b else a

/-- ldexp: v × 2^n rounded once (R113). -/
def fldexp (a : Nat) (n : Int) : Nat :=
  match fdec a with
  | .nan => fNaN
  | .inf s => fsign s + fInf
  | .fin s m e => fround s m (e + n)

/-- An integer rounded to FP32 (ITOF of R110). -/
def fofInt (z : Int) : Nat := froundDy ⟨z, 0⟩

/-- Rounding to the nearest integer, ties to even, of a finite value. -/
def rneInt (d : Dy) : Int :=
  if 0 ≤ d.e then d.floor
  else
    let k := (-d.e).toNat
    let q := d.m / ((2 ^ k : Nat) : Int)
    let r := 2 * (d.m % ((2 ^ k : Nat) : Int))
    if ((2 ^ k : Nat) : Int) < r then q + 1
    else if r = ((2 ^ k : Nat) : Int) ∧ q % 2 = 1 then q + 1
    else q

/-- FTOI of R110: ties to even, saturating, NaN gives 0. -/
def ftoi (a : Nat) : Nat :=
  match fdec a with
  | .nan => 0
  | .inf s => if s then 0x80000000 else 0x7FFFFFFF
  | v =>
    let z := rneInt v.dy
    if (2147483647 : Int) < z then 0x7FFFFFFF else if z < -2147483648 then 0x80000000 else unsgn 32 z

/-- INT32 addition, modulo 2^32. -/
def iadd (a b : Nat) : Nat := (a + b) % 2 ^ 32
/-- INT32 subtraction, modulo 2^32. -/
def isub (a b : Nat) : Nat := (a + 2 ^ 32 - b % 2 ^ 32) % 2 ^ 32
/-- Low 32 bits of the product. -/
def imul (a b : Nat) : Nat := a * b % 2 ^ 32
/-- Arithmetic shift right by B[4:0]. -/
def isra (a b : Nat) : Nat := unsgn 32 (sgn 32 a / ((2 ^ (b % 32) : Nat) : Int))

/-- One level of the pairwise tree (R84). -/
def treeLevel (op : Nat → Nat → Nat) : List Nat → List Nat
  | a :: b :: t => op a b :: treeLevel op t
  | l => l

/-- The pairwise tree over 2^k inputs. -/
def treeFold (op : Nat → Nat → Nat) (d : Nat) : Nat → List Nat → Nat
  | 0, l => l.headD d
  | k + 1, l => treeFold op d k (treeLevel op l)

/-- The reduction of R84: padded with the identity to the next power of two, then pairwise. -/
def treeReduce (op : Nat → Nat → Nat) (ident : Nat) (xs : List Nat) : Nat :=
  let k := log2Ceil 32 xs.length
  treeFold op ident k (xs ++ List.replicate (2 ^ k - xs.length) ident)

/-- Minus infinity, the identity of a maximum (R84). -/
def fNegInf : Nat := 0xFF800000

/-- Any element format converted exactly to FP32 under a scale, rounded once where it does not fit (LD of R110,
R63, R65): NaN scale or element gives NaN, an infinity stays one, −0 keeps its sign. -/
def toF32 (fc : Nat) (x : Nat) (c : Nat) : Nat :=
  let f := fmtD fc
  if x = 255 then fNaN else
  match f.decode c with
  | .nonFinite =>
    if f.hasInf && field c 0 f.p == 0 then fsign (tbit c (f.width - 1)) + fInf else fNaN
  | .num n => fround (if f.isInt then decide (n < 0) else tbit c (f.width - 1)) n.natAbs (f.qe + ((x : Int) - 127))

end Sys2Proof.Machine
end

