-- ==== Sys2Proof/Machine/Tensor.lean ====
section
/-!
DEFINITION. The image pipe's front half and the tensor stage (R255 to R257, R277): from pixels to the bytes of a slot.
-/
namespace Sys2Proof.Machine

/-! ### The front half (R255) -/

/-- What the front half of a pipe is set to: the pattern of CFA, the black levels, the white balance, the tone table. -/
structure PipeParam where
  cfa : Nat
  bl : List Nat
  wb : List Nat
  tone : List Nat
  deriving DecidableEq, Repr

/-- The bit depth of a RAW data type (R252); none for YUV422 and RGB888. -/
def rawBits (dt : Nat) : Option Nat :=
  match dt with
  | 0x2A => some 8
  | 0x2B => some 10
  | 0x2C => some 12
  | 0x2D => some 14
  | 0x2E => some 16
  | 0x2F => some 20
  | _ => none

/-- The data types that a port can select (R252). -/
def knownDt (dt : Nat) : Bool := (rawBits dt).isSome || dt == 0x1E || dt == 0x24

/-- The components that a line of a data type carries for a width (R252). -/
def lineComps (dt width : Nat) : Nat := if dt = 0x1E then 2 * width else if dt = 0x24 then 3 * width else width

/-- The bytes of a line's payload. -/
def lineOctets (dt comps : Nat) : Nat := cdiv (comps * (rawBits dt).getD 8) 8

/-- cfa(x, y) (R255). -/
def cfaIx (x y : Nat) : Nat := 2 * (y % 2) + x % 2

/-- The colour that a pixel samples: 0 R, 1 G, 2 B (R255). -/
def cfaColour (cfa x y : Nat) : Nat :=
  let tab := match cfa with
    | 0 => [0, 1, 1, 2]
    | 1 => [1, 0, 2, 1]
    | 2 => [1, 2, 0, 1]
    | _ => [2, 1, 1, 0]
  tab.getD (cfaIx x y) 0

/-- A coordinate one step away, reflected at the edges (R255). -/
def reflect (w : Nat) (x : Nat) (d : Int) : Nat :=
  let y : Int := (x : Int) + d
  if y < 0 then 1 else if (w : Int) ≤ y then w - 2 else y.toNat

/-- The eight neighbours of a pixel. -/
def neighbours (w h x y : Nat) : List (Nat × Nat) :=
  ([(-1, -1), (0, -1), (1, -1), (-1, 0), (1, 0), (-1, 1), (0, 1), (1, 1)] : List (Int × Int)).map fun d =>
    (reflect w x d.1, reflect h y d.2)

/-- Gain and tone of a linear value (R255). -/
def PipeParam.tone' (q : PipeParam) (v c : Nat) : Nat :=
  let g := min ((v * q.wb.getD c 0 + 2048) / 4096) (2 ^ 20 - 1)
  let i := g / 1024
  let f := g % 1024
  let a : Int := q.tone.getD i 0
  let b : Int := q.tone.getD (i + 1) 0
  (a + ((b - a) * f + 512) / 1024).toNat

/-- A RAW frame made linear and colour-complete (R255). -/
def PipeParam.raw (q : PipeParam) (bits w h : Nat) (lines : List (List Nat)) : Pixels :=
  let mono := q.cfa == 4
  let p : Nat → Nat → Nat := fun x y =>
    (lines.getD y []).getD x 0 * 2 ^ (20 - bits) - q.bl.getD (if mono then 0 else cfaIx x y) 0
  let chan : Nat → Nat → Nat → Nat := fun x y c =>
    if mono || cfaColour q.cfa x y == c then p x y
    else
      let ns := (neighbours w h x y).filter fun n => cfaColour q.cfa n.1 n.2 == c
      ((ns.map fun n => p n.1 n.2).sum + ns.length / 2) / ns.length
  let nc := if mono then 1 else 3
  ⟨w, h, nc, (List.range h).flatMap fun y => (List.range w).flatMap fun x =>
    (List.range nc).map fun c => q.tone' (chan x y c) c⟩

/-- A frame of YUV422 or RGB888: the front half is bypassed (R255). -/
def bypass (dt w h : Nat) (lines : List (List Nat)) : Pixels :=
  ⟨w, h, 3, (List.range h).flatMap fun y =>
    let l := lines.getD y []
    (List.range w).flatMap fun x =>
      if dt = 0x1E then
        let o := x / 2 * 4
        [l.getD (o + x % 2) 0 * 256, l.getD (o + 2) 0 * 256, l.getD (o + 3) 0 * 256]
      else [l.getD (3 * x) 0 * 256, l.getD (3 * x + 1) 0 * 256, l.getD (3 * x + 2) 0 * 256]⟩

/-- The pixels of a complete frame. -/
def PipeParam.frame (q : PipeParam) (dt w h : Nat) (lines : List (List Nat)) : Pixels :=
  match rawBits dt with
  | some bits => q.raw bits w h lines
  | none => bypass dt w h lines

/-- The channels that the front half produces for a data type. -/
def PipeParam.channels (q : PipeParam) (dt : Nat) : Nat := if (rawBits dt).isSome && q.cfa == 4 then 1 else 3

/-- The pipe's pattern fits the frame: a Bayer pattern needs an even size (R255). -/
def PipeParam.ok (q : PipeParam) (dt w h : Nat) : Bool :=
  (rawBits dt).isNone || q.cfa == 4 || (decide (q.cfa < 4) && w % 2 == 0 && h % 2 == 0)

/-! ### The tensor stage (R256, R257) -/

/-- A tensor-stage parameter set (R256, R280). -/
structure TsParam where
  fmt : Nat
  oc : Nat
  packed : Bool
  exp : Nat
  cx : Nat
  cy : Nat
  cw : Nat
  ch : Nat
  dx : Nat
  dy : Nat
  dw : Nat
  dh : Nat
  ow : Nat
  oh : Nat
  flip : Bool
  m : List Int
  ctr : List Nat
  cofs : List Int
  gain : List Nat
  offset : List Nat
  pad : List Nat
  deriving DecidableEq, Repr

/-- The parameter set of a tensor stage, from its register words by offset (R280). -/
def TsParam.ofRegs (r : Nat → Nat) : TsParam :=
  let hi := fun o => r o / 2 ^ 16
  let lo := fun o => r o % 2 ^ 16
  let v := fun o n => (List.range n).map fun i => r (o + 4 * i)
  { fmt := field (r 0) 0 4, oc := field (r 0) 8 2, packed := tbit (r 0) 16, exp := field (r 0) 24 8,
    cx := lo 4, cy := hi 4, cw := lo 8, ch := hi 8, dx := lo 0xC, dy := hi 0xC, dw := lo 0x10, dh := hi 0x10,
    ow := lo 0x14, oh := hi 0x14, flip := tbit (r 0x18) 0, m := (v 0x20 9).map (sgn 16), ctr := v 0x44 3,
    cofs := (v 0x50 3).map (sgn 32), gain := v 0x5C 3, offset := v 0x68 3, pad := v 0x74 3 }

/-- The parameter set in force at a base (R280). -/
def State.tsAt (s : State) (k : Nat) : TsParam := .ofRegs fun o => s.rv (k + o)

/-- The words of the parameter set in force at a base. -/
def State.stageWords (s : State) (k : Nat) : List Nat := (List.range 32).map fun i => s.rv (k + 4 * i)

/-- The ratio of two sizes lies from 1/8 to 8. -/
def ratioOk (n d : Nat) : Bool := decide (0 < n) && decide (0 < d) && decide (n ≤ 8 * d) && decide (d ≤ 8 * n)

/-- The conditions of R256 on the format and the destination. -/
def TsParam.outOk (p : TsParam) : Bool :=
  (p.oc == 1 || p.oc == 3) && (fmtOf p.fmt).isSome && p.exp != 255 && ratioOk p.dw p.cw && ratioOk p.dh p.ch &&
  decide (p.dx + p.dw ≤ p.ow) && decide (p.dy + p.dh ≤ p.oh)

/-- The crop lies inside a source of w × h. -/
def TsParam.cropOk (p : TsParam) (w h : Nat) : Bool := decide (p.cx + p.cw ≤ w) && decide (p.cy + p.ch ≤ h)

/-- The row pitch of the slot tensor (R164, R257). -/
def TsParam.pitch (p : TsParam) : Nat :=
  let w := (fmtD p.fmt).width
  if p.packed then pitchOf w (p.ow * p.oc) else p.ow * pitchOf w p.oc

/-- The slot size (R257). -/
def TsParam.size (p : TsParam) : Nat := p.oh * p.pitch

/-- The depot augmentation of a request (R277): jitter gains and offsets, seed and amplitude of the noise. -/
structure Augment where
  jg : List Nat
  jo : List Nat
  seed : Nat
  amp : Nat
  deriving DecidableEq, Repr

/-- Step 7 on output element `i` of channel `o` (R277). -/
def Augment.apply (a : Augment) (t o i : Nat) : Nat :=
  let u := fadd (fmul t (a.jg.getD o 0)) (a.jo.getD o 0)
  let n := froundDy ⟨(stochDraw a.seed 0 i : Int) - 2 ^ 23, -23⟩
  fadd u (fmul a.amp n)

/-- Step 1 of R256: the colour value of a pixel. -/
def TsParam.colour (p : TsParam) (px : Pixels) (o x y : Nat) : Nat :=
  let sum : Int := ((List.range px.nc).map fun c =>
    p.m.getD (3 * o + c) 0 * ((px.data.getD ((y * px.w + x) * px.nc + c) 0 : Int) - (p.ctr.getD c 0 : Int))).sum
  let v := (sum + 8192) / 16384 + p.cofs.getD o 0
  if v < 0 then 0 else min v.toNat 65535

/-- pos of R256. -/
def tsPos (x nOut nIn : Nat) : Nat × Nat :=
  let u : Int := ((2 * x + 1) * nIn * 2 ^ 15 / nOut : Nat) - 2 ^ 15
  let u' := if u < 0 then 0 else min u.toNat ((nIn - 1) * 2 ^ 16)
  (u' / 2 ^ 16, u' / 2 ^ 8 % 256)

/-- Steps 2 to 4: the value at a place of the destination rectangle. -/
def TsParam.resized (p : TsParam) (px : Pixels) (o x y : Nat) : Nat :=
  let (i, f) := tsPos (if p.flip then p.dw - 1 - x else x) p.dw p.cw
  let (j, g) := tsPos y p.dh p.ch
  let i1 := min (i + 1) (p.cw - 1)
  let j1 := min (j + 1) (p.ch - 1)
  let at' : Nat → Nat → Nat := fun a b => p.colour px o (p.cx + a) (p.cy + b)
  let top := at' i j * (256 - f) + at' i1 j * f
  let bot := at' i j1 * (256 - f) + at' i1 j1 * f
  (top * (256 - g) + bot * g + 2 ^ 15) / 2 ^ 16

/-- An FP32 value packed to OUT_FMT with the scale OUT_EXP (step 8), and whether it saturates. -/
def packF32 (fmt exp t : Nat) : Nat × Bool :=
  let f := fmtD fmt
  match (fmtD 9).decode t with
  | .nonFinite => (f.nanCode, false)
  | .num n => f.convert .nearest ((⟨n, (fmtD 9).qe⟩ : Dy).shift (127 - (exp : Int)))

/-- Steps 5 to 8: one element of the output, and whether it saturates. A padding pixel takes PAD in OUT_FMT. -/
def TsParam.elem (p : TsParam) (px : Pixels) (aug : Option Augment) (o x y : Nat) : Nat × Bool :=
  if p.dx ≤ x ∧ x < p.dx + p.dw ∧ p.dy ≤ y ∧ y < p.dy + p.dh then
    let v := p.resized px o (x - p.dx) (y - p.dy)
    let t := fadd (fmul (fofInt v) (p.gain.getD o 0)) (p.offset.getD o 0)
    let t' := match aug with
      | some a => a.apply t o ((y * p.ow + x) * p.oc + o)
      | none => t
    packF32 p.fmt p.exp t'
  else ((packF32 p.fmt p.exp (p.pad.getD o 0)).1, false)

/-- The slot tensor of an image (R256, R257): its bytes, and how many elements saturated. -/
def TsParam.tensor (p : TsParam) (px : Pixels) (aug : Option Augment) : List Byte × Nat :=
  let rows := (List.range p.oh).map fun y => (List.range p.ow).map fun x =>
    (List.range p.oc).map fun o => p.elem px aug o x y
  let w := (fmtD p.fmt).width
  let bytes := rows.flatMap fun r =>
    if p.packed then packRows w [(r.flatMap id).map (·.1)] else packRows w (r.map fun px => px.map (·.1))
  (bytes, ((rows.flatMap id).flatMap id).countP (·.2))

/-! ### Pictures (R258, R259, R262, R275) -/

/-- Twice the bytes per pixel of a picture (R259, R275). -/
def Picture.bytes2 (p : Picture) : Nat :=
  let wide := if p.bits = 8 then 1 else 2
  match p.chroma with
  | 0 => 2 * wide
  | 1 => 3 * wide
  | _ => 6

/-- The units of 64 KiB that an entry occupies (R275). -/
def Picture.units (p : Picture) : Nat := cdiv (128 + p.w * p.h * p.bytes2) 131072

/-- A picture as the tensor stage takes it (R262): values shifted to 16 bits, chroma repeated. -/
def Picture.pixels (p : Picture) : Pixels :=
  let sh := 2 ^ (16 - p.bits)
  let cw := cdiv p.w 2
  let plane := cw * cdiv p.h 2
  let at' : Nat → Nat := fun i => p.data.getD i 0 * sh
  match p.chroma with
  | 0 => ⟨p.w, p.h, 1, (List.range (p.w * p.h)).map at'⟩
  | 1 => ⟨p.w, p.h, 3, (List.range (p.w * p.h)).flatMap fun i =>
      let c := i / p.w / 2 * cw + i % p.w / 2
      [at' i, at' (p.w * p.h + c), at' (p.w * p.h + plane + c)]⟩
  | _ => ⟨p.w, p.h, 3, (List.range (3 * p.w * p.h)).map at'⟩

/-- A raw picture from its bytes (R258): RAW_FMT 0 Y8, 1 Y16, 2 I420, 3 RGB888. -/
def rawPicture (fmt w h : Nat) (b : List Byte) : Picture :=
  let n := w * h
  let v8 : Nat → List Nat := fun k => (List.range k).map fun i => (byteAt b i).toNat
  match fmt with
  | 0 => ⟨w, h, 0, 8, v8 n⟩
  | 1 => ⟨w, h, 0, 16, (List.range n).map fun i => leAt b (2 * i) 2⟩
  | 2 => ⟨w, h, 1, 8, v8 (n + 2 * (cdiv w 2 * cdiv h 2))⟩
  | _ => ⟨w, h, 2, 8, v8 (3 * n)⟩

end Sys2Proof.Machine
end

