-- ==== Sys2Proof/Machine/Rings.lean ====
section
/-!
DEFINITION. Alignment streams, windows and batch rings (R249, R266 to R274): samples, buffers, the close of a window, the
batch record.
-/
namespace Sys2Proof.Machine

/-- The key of a camera port's register (R280). -/
def camKey (n o : Nat) : Nat := 0x800000 + 0x1000 * n + o
/-- The key of an image pipe's register. -/
def pipeKey (n o : Nat) : Nat := 0x810000 + 0x2000 * n + o
/-- The key of a scatter engine's register. -/
def scatKey (e o : Nat) : Nat := 0x840000 + 0x1000 * e + o
/-- The key of an alignment stream's register. -/
def asKey (st o : Nat) : Nat := 0x850000 + 0x100 * st + o
/-- The key of a batch ring's register. -/
def ringKey (p o : Nat) : Nat := 0x860000 + 0x100 * p + o
/-- The key of a depot register of a ring. -/
def depKey (p o : Nat) : Nat := 0x870000 + 0x100 * p + o
/-- The key of a decoder stream's register (R281). -/
def vdecKey (st o : Nat) : Nat := 0x900000 + 0x1000 * st + o

/-- BASE of a batch ring (R270). -/
def State.ringBase (s : State) (p : Nat) : Nat := (s.rv (ringKey p 4) + 2 ^ 32 * s.rv (ringKey p 8)) / 4096 * 4096

/-- STRIDE of a batch ring (R270). -/
def State.ringStride (s : State) (p : Nat) : Nat := s.rv (ringKey p 0xC)

/-- A ring of a partition. -/
def State.ring (s : State) (p : Nat) : RingSt := s.ing.rings.getD p .reset

/-- ING_RING_CFG.EN. -/
def State.ringEn (s : State) (p : Nat) : Bool := tbit (s.rv (ringKey p 0)) 31
/-- SOURCE is the depot assembler, in a depot image (R276, R280). -/
def State.ringDepot (s : State) (p : Nat) : Bool := tbit (s.rv (ringKey p 0)) 30 && s.depot

/-- The alignment streams routed to a ring, ascending. -/
def State.streamsOf (s : State) (p : Nat) : List Nat := (List.range 64).filter fun st => s.ringOf st == some p

/-- An alignment stream changed. -/
def State.modStream (s : State) (st : Nat) (f : StreamSt → StreamSt) : State :=
  { s with ing := { s.ing with streams := lmod s.ing.streams st f } }

/-- SLOT_OFF of a stream. -/
def State.slotOff (s : State) (st : Nat) : Nat := s.rv (asKey st 4)

/-- The source of a stream (R39): its kind and index. -/
def State.sourceOf (s : State) (st : Nat) : Option (Nat × Nat) :=
  s.ward.image.bind fun i => (i.routes.find? fun r => r.dstType == 5 && r.dstIndex == st).map fun r => (r.srcType, r.srcIndex)

/-- MAX_POINTS of a scatter engine, held within its range (R263). Log entry 51. -/
def State.maxPoints (s : State) (e : Nat) : Nat := max 1 (min (s.rv (scatKey e 0x20)) 262144)

/-- The output format of a scatter engine. -/
def State.scatFmt (s : State) (e : Nat) : Nat := field (s.rv (scatKey e 0)) 8 4

/-- The slot size of a stream (R257, R263). -/
def State.slotSize (s : State) (st : Nat) : Nat := match s.sourceOf st with
  | some (2, n) => (s.tsAt (pipeKey n 0x100)).size
  | some (3, n) => (s.tsAt (vdecKey n 0x100)).size
  | some (4, e) => s.maxPoints e * pitchOf (fmtD (s.scatFmt e)).width 8
  | _ => 0

/-! ### Slot placement (R270) -/

/-- A slot stands rightly within a buffer. -/
def slotFits (stride off size : Nat) : Bool := off % 32 == 0 && decide (4096 ≤ off) && decide (off + size ≤ stride)

/-- The slots of a depot ring: SLOT0 and SLOT_STRIDE for each request of a batch (R276). -/
def State.depotSlots (s : State) (p : Nat) : List Nat :=
  (List.range (field (s.rv (depKey p 8)) 0 7)).map fun i => s.rv (depKey p 0x14) + i * s.rv (depKey p 0x18)

/-- The buffers of a ring lie in its partition's DRAM space below the KV pool (R270). -/
def State.ringInDram (s : State) (p : Nat) : Bool := match s.part p with
  | some e =>
    let n := field (s.rv (ringKey p 0)) 0 6 + 1
    decide (s.ringBase p + n * s.ringStride p ≤ (e.quota - e.kvPool) * 2 ^ 20)
  | none => false

/-- A ring's placement fault (R270). Log entry 49. -/
def State.ringFault (s : State) (p : Nat) : Bool :=
  let stride := s.ringStride p
  let slots := if s.ringDepot p then
      (s.depotSlots p).map fun o => (o, (s.tsAt (depKey p 0x80)).size)
    else (s.streamsOf p).map fun st => (s.slotOff st, s.slotSize st)
  stride % 4096 != 0 || !(s.ringInDram p) || !(slots.all fun x => slotFits stride x.1 x.2)

/-- CFG_ERR of every ring as its registers now give it (R270). -/
def State.refreshRings (s : State) : State :=
  (List.range 8).foldl (fun s p => if s.ringEn p then s.modRing p fun r => { r with cfgErr := s.ringFault p } else s) s

/-! ### The window plan (R266) -/

/-- REF of a ring, in ns. -/
def State.ringRef (s : State) (p : Nat) : Nat :=
  s.rv (ringKey p 0x10) + 1000000000 * (s.rv (ringKey p 0x14) + 2 ^ 32 * (s.rv (ringKey p 0x18) % 2 ^ 16))

/-- PERIOD of a ring in ns. -/
def State.ringPeriod (s : State) (p : Nat) : Nat := s.rv (ringKey p 0x1C)

/-- R_k. -/
def State.winRef (s : State) (p k : Nat) : Nat := (s.ringRef p + k * s.ringPeriod p) % nsWrap

/-- The close of window k. -/
def State.winClose (s : State) (p k : Nat) : Nat := (s.winRef p k + s.rv (ringKey p 0x20)) % nsWrap

/-- OFS_s of a stream. -/
def State.streamOfs (s : State) (st : Nat) : Int := sgn 32 (s.rv (asKey st 0))

/-- The window of ring p that a timestamp of a stream belongs to; none before R_0 + OFS (R266). -/
def State.winOf (s : State) (p st ts : Nat) : Option Nat :=
  let d := tdiff ts (((s.ringRef p : Int) + s.streamOfs st) % (nsWrap : Int)).toNat
  if d < 0 then none else some (d.toNat / s.ringPeriod p)

/-- The first window that opens after the present instant (R54, R274). Log entry 49. -/
def State.firstWindow (s : State) (p : Nat) : Nat :=
  let d := tdiff s.now (s.ringRef p)
  if d < 0 ∨ s.ringPeriod p = 0 then 0 else d.toNat / s.ringPeriod p + 1

/-- The ring runs windows: enabled, its domain on (R25), filled from alignment windows, its plan given. Log entry 49. -/
def State.ringWindows (s : State) (p : Nat) : Bool :=
  s.ringEn p && s.domOn 8 && !tbit (s.rv (ringKey p 0)) 30 && s.ringPeriod p != 0

/-- The ring can take samples: it runs windows and has no placement fault (R270). -/
def State.ringRuns (s : State) (p : Nat) : Bool := s.ringWindows p && !(s.ring p).cfgErr

/-! ### Buffers (R269, R273) -/

/-- An event of a ring: 0 BATCH, 1 LOW, 2 OVERRUN (R280). -/
def State.ringEvent (s : State) (p bit : Nat) : State := s.raise (ringKey p 0x28) (2 ^ bit)

/-- The indices of the free buffers. -/
def RingSt.frees (r : RingSt) : List Nat := (List.range r.bufs.length).filter fun i => r.bufs[i]? == some .free

/-- LOW, where the number of free buffers falls to LOW_WATER or below (R273). -/
def State.lowCheck (s : State) (p before : Nat) : State :=
  let n := (s.ring p).frees.length
  if n < before ∧ n ≤ field (s.rv (ringKey p 0)) 8 6 then s.ringEvent p 1 else s

/-- A buffer is needed (R269): one of the free ones (which one is open: log entry 2), else the oldest complete batch that
no job has claimed, with OVERWRITES; else none, with SKIPS. Log entry 49. -/
def State.takeBuf (s : State) (p : Nat) : Option Nat × State :=
  let l := (s.ring p).frees
  match l with
  | _ :: _ =>
    let (d, s1) := s.draw
    let b := l.getD (d % l.length) 0
    (some b, (s1.setBuf p b .filling).lowCheck p l.length)
  | [] =>
    match (s.ring p).oldest with
    | some (b, _) => (some b, ((s.setBuf p b .filling).bump (ringKey p 0x38) 1).ringEvent p 2)
    | none => (none, (s.bump (ringKey p 0x40) 1).ringEvent p 2)

/-- A ring takes its configuration up: buffers to its number, a window whose buffer is no longer one of them leaves, and where it
becomes enabled a fresh start (R54, R276); claims of jobs stand. Log entry 49. -/
def State.ringApply (s : State) (p : Nat) (wasEn : Bool) : State :=
  let n := field (s.rv (ringKey p 0)) 0 6 + 1
  let keep : List BufSt → List BufSt := fun l => (List.range n).map fun i => l.getD i .free
  let fresh : List BufSt → List BufSt := fun l => (keep l).map fun b => match b with
    | .claimed t => .claimed t
    | _ => .free
  if !s.ringEn p then s.modRing p fun r => { r with wins := [], waiting := [], cfgErr := false }
  else
    let s1 := if wasEn then
        (s.modRing p fun r => { r with bufs := keep r.bufs, wins := r.wins.filter fun w => w.buf.all fun b => decide (b < n) }).lowCheck
          p (s.ring p).frees.length
      else s.modRing p fun r => { r with bufs := fresh r.bufs, wins := [], waiting := [], nextWin := s.firstWindow p,
                                         batchNo := 0, reqNo := 0 }
    s1.modRing p fun r => { r with cfgErr := s1.ringFault p }

/-- The registers of a ring, its depot registers and the streams routed to it: one boundary (R250, R368). -/
def State.ringGroup (s : State) (p : Nat) (c : Capture) : Bool :=
  groupOf c.key == 5 && (instOf c.key == 64 + p || (s.streamsOf p).contains (instOf c.key))

/-- A ring is about to take a buffer: it and its streams apply their captures (R250, R368). Log entry 18. -/
def State.ringBoundary (s : State) (p : Nat) : State :=
  s.applyReady 8 (s.ringGroup p) fun t => (t.ringApply p (s.ringEn p)).refreshRings

/-- A window takes its buffer, or is skipped (R269). -/
def State.openWindow (s : State) (p k : Nat) : State :=
  let (b, s1) := s.takeBuf p
  s1.modRing p fun r => { r with wins := r.wins ++ [⟨k, b, b.isNone, [], false, [], 0⟩] }

/-! ### Samples (R249, R266 to R269) -/

/-- SURPLUS (R266, R267). Log entry 47. -/
def State.surplus (s : State) (st : Nat) : State := s.bump (asKey st 0x30) 1

/-- The window k of a ring that is open. -/
def RingSt.openWin (r : RingSt) (k : Nat) : Option WindowSt := r.wins.find? fun w => w.k == k && !w.closed

/-- A sample added to an open window k of ring p; a further one of its stream, and one of a skipped window, is SURPLUS. -/
def State.addSample (s : State) (p k : Nat) (x : SampleSt) : State :=
  match (s.ring p).openWin k with
  | some w =>
    if w.skipped || (w.samples.any fun y => y.stream == x.stream) then s.surplus x.stream
    else s.modRing p fun r => { r with wins := r.wins.map fun y =>
      if y.k = k ∧ y.closed = false then { y with samples := y.samples ++ [x] } else y }
  | none => s

/-- A sample placed in window k of ring p, which is open or opens now (R267, R269). -/
def State.putSample (s : State) (p k : Nat) (x : SampleSt) : State :=
  if k < (s.ring p).nextWin then s.bump (asKey x.stream 0x20) 1
  else (if ((s.ring p).openWin k).isSome then s else s.openWindow p k).addSample p k x

/-- A sample placed in window k of ring p (R267, R269). Where the window needs a buffer, the ring's captures apply first and
the sample goes by the plan then in force (R250). Log entry 18. -/
def State.placeSample (s : State) (p k : Nat) (x : SampleSt) : State :=
  let r := s.ring p
  if k < r.nextWin || (r.openWin k).isSome then s.putSample p k x
  else if 4 ≤ (r.wins.filter fun w => !w.closed).length then s.modRing p fun r => { r with waiting := r.waiting ++ [x] }
  else
    let s1 := s.ringBoundary p
    if !s1.ringRuns p then s1
    else match s1.winOf p x.stream x.ts with
      | none => s1.surplus x.stream
      | some k' => s1.putSample p k' x

/-- A sample starts (R249): it takes a sequence number of its stream and its window. A source without a route produces
nothing. -/
def State.startSample (s : State) (st ts id status : Nat) (data : SampleData) (closed : Bool) : State :=
  match s.ringOf st with
  | none => s
  | some p =>
    let seq := (s.ing.streams.getD st ⟨0, 0, false⟩).nextSeq
    let s1 := s.modStream st fun x => { x with nextSeq := (x.nextSeq + 1) % 2 ^ 32, cut := false }
    if !s1.ringRuns p then s1
    else if (s1.ring p).stopped then s1.surplus st
    else match s1.winOf p st ts with
      | none => s1.surplus st
      | some k => s1.placeSample p k ⟨st, seq, ts, id, status, data, closed, false, 0⟩

/-- The sample of a stream that its source still sends. -/
def State.sending (s : State) (st : Nat) : Option SampleSt :=
  (s.ringOf st).bind fun p =>
    let r := s.ring p
    (((r.wins.filter fun w => !w.closed).flatMap (·.samples)) ++ r.waiting).find? fun x => x.stream == st && !x.closed

/-- The samples of a ring's open windows and those that wait changed. -/
def RingSt.modSamples (r : RingSt) (f : SampleSt → SampleSt) : RingSt :=
  { r with wins := r.wins.map fun w => if w.closed then w else { w with samples := w.samples.map f }
           waiting := r.waiting.map f }

/-- The sample that the source of a stream still sends changed. -/
def State.modSending (s : State) (st : Nat) (f : SampleSt → SampleSt) : State := match s.ringOf st with
  | some p => s.modRing p fun r => r.modSamples fun x => if x.stream = st ∧ x.closed = false then f x else x
  | none => s

/-- The source ends its sample: a status raised before stands (R254), else this one; the data as the slot takes it. -/
def State.closeSample (s : State) (st status : Nat) (data : SampleData) : State :=
  s.modSending st fun x => { x with closed := true, status := if x.status = 0 then status else x.status, data := data }

/-- A status with which a sample is admitted (R267). -/
def admissible (status : Nat) : Bool := status == 0 || status == 0x0012

/-- A window is open, and the present instant is at or before its close (R267). -/
def State.winLive (s : State) (p : Nat) (w : WindowSt) : Bool := !w.closed && decide (tdiff s.now (s.winClose p w.k) ≤ 0)

/-- The last slot byte of the oldest closed sample of a stream is written (R267), at or before the close of its window: its
bytes stand in its slot, and it has completed. What comes after that instant is cut off; under a placement fault nothing is
written (R270, R422). Log entry 50. -/
def State.sampleComplete (s : State) (st : Nat) : State :=
  match s.ringOf st with
  | none => s
  | some p =>
    let due : SampleSt → Bool := fun x => x.stream == st && x.closed && !x.complete
    if (s.ring p).cfgErr then s else match (s.ring p).wins.find? fun w => s.winLive p w && w.samples.any due with
    | none => s
    | some w =>
      match w.samples.find? due with
      | none => s
      | some x =>
        let (bytes, n) := match x.data with
          | .rows b n => (b, n)
          | .lines _ => ([], 0)
        let s1 := match w.buf with
          | some b => if admissible x.status then s.writeDram p (s.ringBase p + b * s.ringStride p + s.slotOff st) bytes else s
          | none => s
        s1.modRing p fun r => { r with wins := r.wins.map fun y =>
          if y.k = w.k ∧ y.closed = false then
            { y with samples := y.samples.map fun z => if z.seq = x.seq ∧ z.stream = st then { z with complete := true, rows := n } else z }
          else y }

/-! ### The close of a window (R267, R268, R271) -/

/-- The outcome of a slot at the close: its status and whether it is VALID (R268). -/
def slotOutcome : Option SampleSt → Nat × Bool
  | none => (0x0105, false)
  | some x =>
    if x.closed && !admissible x.status then (x.status, false)
    else if x.closed && x.complete then (x.status, true)
    else (0x0106, false)

/-- The 32-byte entry of a slot (R271). -/
def slotEntry (slot status seq ts id weight count : Nat) (valid : Bool) : List Byte :=
  natLe 1 slot ++ natLe 1 (b2n valid) ++ natLe 2 status ++ natLe 4 seq ++ natLe 8 ts ++ natLe 8 id ++ natLe 4 weight ++
    natLe 4 count

/-- The header of a batch record (R271). -/
def batchHeader (seq refTs closeTs srcTs admitted routed n profile : Nat) : List Byte :=
  natLe 8 seq ++ natLe 8 refTs ++ natLe 8 closeTs ++ natLe 8 srcTs ++ natLe 8 admitted ++ natLe 8 routed ++ natLe 1 n ++
    natLe 1 profile ++ List.replicate 14 0#8

/-- The sample of a stream in a window. -/
def WindowSt.of (w : WindowSt) (st : Nat) : Option SampleSt := w.samples.find? fun x => x.stream == st

/-- The entry of a stream in the batch record of a window. -/
def WindowSt.entry (w : WindowSt) (st : Nat) : List Byte :=
  let o := slotOutcome (w.of st)
  match w.of st with
  | some x => slotEntry st o.1 x.seq (packTs x.ts) x.id (if o.2 then fOne else 0) (if o.2 then x.rows else 0) o.2
  | none => slotEntry st o.1 0 0 0 0 0 false

/-- SRC_TS of a window (R271): the earliest timestamp among the admitted samples, packed; 0 where none is. -/
def WindowSt.srcOf (w : WindowSt) (sts : List Nat) : Nat :=
  let l := sts.filterMap fun st => if (slotOutcome (w.of st)).2 then (w.of st).map (·.ts) else none
  match l with
  | [] => 0
  | t :: r => packTs (earliest r t)

/-- The counter of a slot's outcome (R280): ADMITTED, MISSING, LATE for one cut off, CORRUPT. Log entry 47. -/
def outcomeCounter (o : Nat × Bool) : Nat :=
  if o.2 then 0x10 else if o.1 = 0x0105 then 0x18 else if o.1 = 0x0106 then 0x20 else 0x28

/-- A stream at the close of its window: its counter, its last slot status, zeros in a slot that is not admitted, the cut of
a sample that its source still sends. Log entry 50. -/
def State.closeSlot (s : State) (p : Nat) (w : WindowSt) (buf st : Nat) : State :=
  let o := slotOutcome (w.of st)
  let still := match w.of st with
    | some x => !x.closed
    | none => false
  let s1 := (s.bump (asKey st (outcomeCounter o)) 1).modStream st fun x => { x with last := o.1, cut := x.cut || still }
  if o.2 then s1
  else s1.writeDram p (s.ringBase p + buf * s.ringStride p + s.slotOff st) (List.replicate (s.slotSize st) 0)

/-- Samples that waited for a fifth window are placed (R269). -/
def State.placeWaiting (s : State) (p : Nat) : State :=
  let l := (s.ring p).waiting
  let s1 := s.modRing p fun r => { r with waiting := [] }
  l.foldl (fun (s : State) (x : SampleSt) => match s.winOf p x.stream x.ts with
    | some k => s.placeSample p k x
    | none => s) s1

/-- The window leaves the ring; a buffer that it had taken is free again. Log entry 49. -/
def State.dropWindow (s : State) (p k : Nat) : State :=
  let held : List Nat := ((s.ring p).wins.filter fun w => w.k == k && !w.closed).filterMap (·.buf)
  s.modRing p fun r =>
    { r with wins := r.wins.filter fun w => !(w.k == k && !w.closed), nextWin := k + 1
             bufs := held.foldl (fun l b => l.set b .free) r.bufs }

/-- Window k closes with its buffer: its record is made, its slots are settled. -/
def State.closeBuf (s : State) (p k buf : Nat) (w : WindowSt) : State :=
  let sts := s.streamsOf p
  let ref := s.winRef p k
  let adm := maskOf (sts.filter fun st => (slotOutcome (w.of st)).2)
  let src := w.srcOf sts
  let rcd := batchHeader k (packTs ref) (packTs (s.winClose p k)) src adm (maskOf sts) sts.length 1 ++ sts.flatMap w.entry
  let s1 := sts.foldl (fun (s : State) (st : Nat) => s.closeSlot p w buf st) s
  s1.modRing p fun r => { r with
    wins := r.wins.map fun y => if y.k = k ∧ y.closed = false then { y with closed := true, record := rcd, srcTs := src } else y
    nextWin := k + 1 }

/-- The next window of a ring closes at R_k + CLOSE (R267 to R269, R274). Log entry 6. -/
def State.windowClose (s : State) (p : Nat) : State :=
  let r := s.ring p
  let k := r.nextWin
  if !s.ringWindows p || decide (tdiff s.now (s.winClose p k) < 0) then s
  else if r.cfgErr then s.dropWindow p k
  else if r.stopped then ((s.bump (ringKey p 0x40) 1).ringEvent p 2).dropWindow p k
  else
    let b := if (r.openWin k).isSome then s else s.ringBoundary p
    let s1 := if (r.openWin k).isSome || !b.ringRuns p then b else b.openWindow p k
    match (s1.ring p).openWin k with
    | none => s1
    | some w => match w.buf with
      | none => (s1.dropWindow p k).placeWaiting p
      | some b => (s1.closeBuf p k b w).placeWaiting p

/-- The SAMPLE_IDs that a depot batch under construction reads (R281). -/
def WindowSt.reads (w : WindowSt) : List Nat :=
  if w.closed then (List.range (leAt w.record 0x30 1)).map fun i => leAt w.record (64 + 32 * i + 16) 8
  else (List.range (w.record.length / 64)).map fun i => leAt w.record (64 * i + 8) 8

/-- The SAMPLE_IDs that the batches under construction read. -/
def State.building (s : State) : List Nat := (s.ing.rings.flatMap (·.wins)).flatMap WindowSt.reads

/-- The batch of the oldest closed window is complete (R269, R271, R377): its record is written, it can be claimed. Nothing is
emitted while a placement fault stands (R270). Log entry 50. -/
def State.batchComplete (s : State) (p : Nat) : State :=
  if (s.ring p).cfgErr then s else match (s.ring p).wins.find? (·.closed) with
  | none => s
  | some w => match w.buf with
    | none => s
    | some b =>
      let s1 := (s.writeDram p (s.ringBase p + b * s.ringStride p) w.record).modRing p fun r =>
        { r with wins := r.wins.filter fun y => !(y.k == w.k && y.closed), bufs := r.bufs.set b (.complete w.k w.srcTs) }
      let s2 := (s1.bump (ringKey p 0x30) 1).ringEvent p 0
      let busy := s2.building
      let s3 := { s2 with ing := { s2.ing with cache := s2.ing.cache.filter fun c => !c.2.doomed || busy.contains c.1 } }
      if w.srcTs = 0 then s3 else s3.deliver (.ring p) (s3.fullTs w.srcTs)

/-! ### Commands -/

/-- What the commands of the ingest blocks may change. -/
def commitIng (s t : State) : State :=
  { s with ing := t.ing, dram := t.dram, kv := t.kv, comp := t.comp, safe := t.safe.carry s.safe, out := t.out, fresh := t.fresh,
           regs := { s.regs with global := t.regs.global, ing := t.regs.ing, vdec := t.regs.vdec, attn := t.regs.attn,
                                 pci := t.regs.pci, sec := t.regs.sec, safe := t.regs.safe, pwr := t.regs.pwr } }

/-- A sample's last slot byte is written (R267). -/
def execSampleComplete (stream : Fin 64) (s : State) : Answer := .next (commitIng s (s.sampleComplete stream))

/-- A window closes (R267). -/
def execWindowClose (ring : PartIx) (s : State) : Answer := .next (commitIng s (s.windowClose ring))

/-- A batch is complete (R271). -/
def execBatchComplete (ring : PartIx) (s : State) : Answer := .next (commitIng s (s.batchComplete ring))

end Sys2Proof.Machine
end

