-- ==== Sys2Proof/Machine/Sec.lean ====
section
/-!
DEFINITION. Identity, signatures and trust: the mailbox, firmware and enrolment, attestation, measurements, sealing
(R403 to R425).
-/
namespace Sys2Proof.Machine

/-! ### Sealing (R404, R415 to R420) -/

/-- The IV of the next block sealed (R416). Log entry 70. -/
def State.sealIv (s : State) : List Byte := natLe 4 s.sec.ivCount ++ natLe 8 s.sec.ivSession.value

/-- The counter after a block is sealed; a new session value when it wraps (R416). -/
def State.sealNext (s : State) : State :=
  if s.sec.ivCount + 1 < 2 ^ 32 then { s with sec := { s.sec with ivCount := s.sec.ivCount + 1 } }
  else
    let (n, s1) := s.random
    { s1 with sec := { s1.sec with ivCount := 0, ivSession := n } }

/-- A block sealed: its ciphertext, its seal record, the state after (R416, R418). -/
def State.sealBlock (s : State) (key : Nat) (aad pt : List Byte) : List Byte × List Byte × State :=
  let iv := s.sealIv
  let (ct, tag) := gcmSeal key iv aad pt
  (ct, iv ++ natLe 4 0 ++ tag, s.sealNext)

/-- A sealed block opened, where its tag fits (R416, R420). -/
def openBlock (key : Nat) (aad ct rcd : List Byte) : Option (List Byte) :=
  gcmOpen key (sliceAt rcd 0 12) aad ct (sliceAt rcd 16 16)

/-- Additional authenticated data of kind 1 (R416). -/
def aadDma (p obj block : Nat) : List Byte := [1#8, BitVec.ofNat 8 p, 0#8, 0#8] ++ natLe 4 obj ++ natLe 8 block

/-- Additional authenticated data of kind 2 (R416). -/
def aadSwap (p ctx lane page block gen : Nat) : List Byte :=
  [2#8, BitVec.ofNat 8 p] ++ natLe 2 ctx ++ natLe 2 lane ++ natLe 2 page ++ natLe 2 (page / 2 ^ 16) ++ natLe 1 block ++
    natLe 3 gen ++ natLe 2 0

/-! ### Staging -/

/-- The instant up to which ranges cover the staging from a position on. -/
def coverFrom (ranges : List (Nat × Nat)) : Nat → Nat → Nat
  | 0, pos => pos
  | n + 1, pos =>
    match ranges.find? fun r => decide (r.1 ≤ pos) && decide (pos < r.1 + r.2) with
    | some r => coverFrom ranges n (r.1 + r.2)
    | none => pos

/-- Every word up to the total is covered (R52). -/
def fullyCovered (ranges : List (Nat × Nat)) (total : Nat) : Bool := decide (total ≤ coverFrom ranges ranges.length 0)

/-- A chunk is within bounds (R52). Log entry 68. -/
def chunkOk (off len total : Nat) : Bool :=
  off % 4 == 0 && len % 4 == 0 && decide (4 ≤ len) && decide (len ≤ 65536) && decide (off + len ≤ total)

/-! ### Registers of the block -/

/-- The key of a register of the block. -/
def secKey (o : Nat) : Nat := 0x300000 + o

/-- An event in one port's SEC_EVENT (R424). Log entry 88. -/
def State.secEvent (s : State) (port bit : Nat) : State := s.raise (portKey port (secKey 4)) (2 ^ bit)

/-- A counter is read in an authenticated transaction: its value reported, or CTR_FAIL (R410, R411). Log entry 20. -/
def State.readCounter (s : State) (c : Nat) (ok : Bool) : State :=
  let s0 := s.transact c (s.sec.counters.getD c 0) false
  let s1 := { s0 with sec := { s0.sec with ctrFail := !ok } }
  if ok then
    ({ s1 with sec := { s1.sec with unknown := s1.sec.unknown.filter (· != c) } }).setReg (secKey (0x20 + 4 * c))
      (s.sec.counters.getD c 0)
  else s1.secEvent s.master 4

/-- The counters of the flash after an advance of one; none ever decreases (R411). -/
def SecSt.advanced (k : SecSt) (c v : Nat) : List Nat := lmod k.counters c fun x => max x (v % 2 ^ 32)

/-- A counter is written and its new value read back; a write whose response fails leaves it at its old or its new value, unknown
until a read succeeds (R410, R411). Log entry 20. -/
def State.writeCounter (s : State) (c v : Nat) (ok : Bool) : State :=
  let s0 := s.transact c v true
  if ok then ({ s0 with sec := { s0.sec with counters := s0.sec.advanced c v } }).readCounter c true
  else
    let (d, s1) := s0.draw
    { s1 with sec := { s1.sec with counters := if d % 2 = 1 then s1.sec.advanced c v else s1.sec.counters
                                   unknown := c :: s1.sec.unknown.filter (· != c) } }

/-! ### The engine, one operation at a time (R411, R412) -/

/-- Little-endian bytes of consecutive registers. -/
def State.regBytes (s : State) (k n : Nat) : List Byte := (List.range n).flatMap fun i => natLe 4 (s.rv (k + 4 * i))

/-- The KEY field of a slot: X then Y, little-endian (R409). -/
def keyField (k : Nat × Nat) : List Byte := natLe 32 k.1 ++ natLe 32 k.2

/-- The fields of a report at its capture instant (R412, R413), without the signature; a counter that is unknown reports a free
value (R411, log entry 2). -/
def State.report (s : State) (port : Nat) : List Byte :=
  let ts := tsWords s.now
  let img := s.ward.image
  natLe 4 0x54415A41 ++ natLe 2 1 ++ natLe 2 704 ++ natLe 8 deviceSerial ++
  [BitVec.ofNat 8 port, BitVec.ofNat 8 (match img with | some i => i.profile | none => 0), BitVec.ofNat 8 s.safe.state,
    BitVec.ofNat 8 (match s.time.mode with | .free => 0 | .tracking => 1 | .holdover => 2)] ++
  natLe 4 (ts.getD 0 0) ++ natLe 4 (ts.getD 1 0) ++ natLe 2 (ts.getD 2 0) ++ natLe 2 0 ++
  s.regBytes (portKey port (secKey 0x100)) 8 ++
  sliceAt s.sec.fwDigest 0 32 ++ natLe 4 s.sec.fwVersion ++ natLe 4 s.sec.fwSecver ++ List.replicate 24 0#8 ++
  (s.sec.counters.zipIdx.flatMap fun x =>
    natLe 4 (if s.sec.unknown.contains x.2 then Config.freeNat (s.fresh + x.2) else x.1)) ++
  (match img with | some i => i.digest | none => List.replicate 32 0#8) ++
  (match img with | some i => i.imageId | none => List.replicate 16 0#8) ++
  natLe 4 (match img with | some i => i.version | none => 0) ++
  natLe 4 (match img with | some i => i.secver | none => 0) ++ natLe 4 (s.rv 0x100024) ++
  natLe 4 (match img with | some i => i.signer | none => 0) ++
  (s.sec.slots.flatMap fun k => match k with | some k => sm3 (keyField k) | none => List.replicate 32 0#8) ++
  s.regBytes (secKey 0x400) 64 ++ s.regBytes (secKey 0x500) 8 ++
  natLe 4 (maskOf ((List.range 22).filter s.unitOos) ||| maskOf (s.safe.towersOos.map (· + 24))) ++
  natLe 4 (maskOf ((List.range 22).filter s.unitLapsed)) ++ List.replicate 8 0#8

/-- The operation at the head starts: a report is captured then (R412). -/
def State.engineStart (s : State) : State :=
  match s.sec.engine with
  | .attest port [] :: t =>
    { s with sec := { s.sec with engine := .attest port (s.report port) :: t }, fresh := s.fresh + 4 }
  | _ => s

/-- An operation arrives at the engine (R411). -/
def State.engineAdd (s : State) (o : SecOp) : State :=
  ({ s with sec := { s.sec with engine := s.sec.engine ++ [o] } }).engineStart

/-- The operation at the head is over. -/
def State.enginePop (s : State) : State := ({ s with sec := { s.sec with engine := s.sec.engine.drop 1 } }).engineStart

/-- GO in SEC_ATT_CMD (R412). -/
def State.attGo (s : State) (port : Nat) (value : Nat) : State :=
  let k := portKey port (secKey 0x124)
  if value % 2 = 0 then s
  else if tbit (s.rv k) 0 || s.sec.puf != 1 || !s.sec.fwRunning then s.setReg k (putField (s.rv k) 16 16 0x0520)
  else (s.setReg k 1).engineAdd (.attest port [])

/-- The report of the head operation is signed under the identity key and appears (R406, R412, R413); the random numbers of the
signature are free values (log entry 2). -/
def State.attDone (s : State) : State :=
  match s.sec.engine with
  | .attest port rep :: _ =>
    let sig := identitySign rep ((List.range 8).map fun i => Config.freeNat (s.fresh + i))
    let full := rep ++ natLe 32 sig.1 ++ natLe 32 sig.2
    let s3 := ({ s with fresh := s.fresh + 8 }).setRegs (portKey port (secKey 0x30000)) ((List.range 176).map fun i => leAt full (4 * i) 4)
    ((s3.setReg (portKey port (secKey 0x124)) 2).secEvent port 0).enginePop
  | _ => s

/-- GO in SEC_MEAS_CMD (R414). -/
def State.measure' (s : State) (port p : Nat) : State :=
  let old := s.regBytes (secKey (0x400 + 0x20 * p)) 8
  let d := sm3 (old ++ s.regBytes (portKey port (secKey 0x300)) 8)
  (s.setRegs (secKey (0x400 + 0x20 * p)) ((List.range 8).map fun i => leAt d (4 * i) 4)).setReg (secKey (0x500 + 4 * p))
    ((s.rv (secKey (0x500 + 4 * p)) + 1) % 2 ^ 32)

/-! ### The mailbox (R425) -/

/-- The mailbox changed. -/
def State.modMb (s : State) (f : MailboxSt → MailboxSt) : State := { s with sec := { s.sec with mb := f s.sec.mb } }

/-- A mailbox command ends with a status and MB_DONE (R425). Log entries 68, 88. -/
def State.mbEnd (s : State) (status : Nat) : State := (s.modMb fun m => { m with status := status }).secEvent s.master 1

/-- BEGIN of the mailbox; the command ends as it is accepted (R425). Log entry 68. -/
def State.mbBegin (s : State) : State :=
  let total := s.rv (secKey 0x204)
  if s.sec.mb.state = 2 then s.mbEnd 0x0520
  else if total % 8 = 0 ∧ 8 ≤ total ∧ total ≤ 4194304 then
    (s.modMb fun m => { m with state := 1, total := total, staging := .zero, covered := [], busyCopy := false }).mbEnd 0
  else (s.modMb fun m => { m with state := 0, staging := .zero, covered := [], busyCopy := false }).mbEnd 0x0605

/-- CHUNK of the mailbox. Log entry 68. -/
def State.mbChunk (s : State) : State :=
  let off := s.rv (secKey 0x208)
  let len := s.rv (secKey 0x20C)
  if s.sec.mb.state ≠ 1 ∨ s.sec.mb.busyCopy then s.mbEnd 0x0520
  else if chunkOk off len s.sec.mb.total then s.modMb fun m => { m with busyCopy := true, chunk := (off, len) }
  else s.mbEnd 0x0602

/-- A chunk's copy ends (R52). Log entry 21. -/
def MailboxSt.copyDone (m : MailboxSt) : MailboxSt :=
  if m.busyCopy then
    { m with busyCopy := false, staging := m.staging.writeBytes m.chunk.1 (m.aperture.readBytes 0 m.chunk.2),
             covered := m.covered ++ [m.chunk] }
  else m

/-- A chunk's copy ends, and with it the CHUNK command (R425). Log entries 21, 68. -/
def State.mbCopyDone (s : State) : State := if s.sec.mb.busyCopy then (s.modMb MailboxSt.copyDone).mbEnd 0 else s

/-- ABORT of the mailbox. -/
def State.mbAbort (s : State) : State :=
  if s.sec.mb.state ≠ 1 then s.mbEnd 0x0520
  else (s.modMb fun m => { m with state := 0, staging := .zero, covered := [], busyCopy := false }).mbEnd 0

/-- The staging is complete with a length. -/
def MailboxSt.ready (m : MailboxSt) (len : Nat) : Bool := m.state == 1 && m.total == len && fullyCovered m.covered m.total

/-- The staged bytes. -/
def MailboxSt.bytes (m : MailboxSt) : List Byte := m.staging.readBytes 0 m.total

/-- ENROL (R409, R425). -/
def State.mbEnrol (s : State) : State :=
  let s0 := s.mbCopyDone
  if s.sec.mb.state = 2 then s.mbEnd 0x0520
  else if s0.sec.mb.ready 160 then (s0.modMb fun m => { m with state := 2 }).engineAdd (.enrol s.master)
  else (s0.modMb fun m => { m with state := 0 }).mbEnd 0x0520

/-- The fields of an enrolment record (R409). -/
def enrolFields (b : List Byte) (counter : Nat) : Bool :=
  let op := leAt b 4 1
  let dev := leAt b 0x10 8
  leAt b 0 4 == 0x4E455A41 && (op == 1 || op == 2) && decide (1 ≤ leAt b 5 1) && decide (leAt b 5 1 ≤ 4) &&
  decide (leAt b 6 1 ≤ 4) && leAt b 7 1 == 0 && leAt b 8 4 == (counter + 1) % 2 ^ 32 && leAt b 0x0C 4 == 0 &&
  (dev == 0 || dev == deviceSerial) && leAt b 0x18 8 == 0 && (op == 1 || leAt b 0x20 64 == 0)

/-- The key that AUTH names, where it is enrolled (R409). -/
def SecSt.authKey (c : SecSt) (auth : Nat) : Option (Nat × Nat) :=
  if auth = 0 then (if c.slots.all Option.isNone then some Config.imageKey else none)
  else (c.slots[auth - 1]?).join

/-- A signature r, s in little-endian at an offset, over the bytes before it (R406). -/
def sigOk (b : List Byte) (o : Nat) (key : Nat × Nat) : Bool := sm2Verify key (b.take o) (leAt b o 32) (leAt b (o + 32) 32)

/-- The checks of an enrolment record in their order: zero where it passes (R409). -/
def SecSt.enrolCheck (c : SecSt) (b : List Byte) (counterOk : Bool) : Nat :=
  if !enrolFields b (c.counters.getD 3 0) then 0x0521
  else match c.authKey (leAt b 6 1) with
    | none => 0x0502
    | some key => if !sigOk b 0x60 key then 0x0501 else if !counterOk then 0x0504 else 0

/-- What an enrolment record leaves in its slot: the key, or nothing where it revokes (R409). -/
def enrolKey (b : List Byte) : Option (Nat × Nat) := if leAt b 4 1 = 1 then some (leAt b 0x20 32, leAt b 0x40 32) else none

/-- ENROL ends with a status on the bytes staged (R409): zero changes the key slot and advances the counter.
Log entry 69. -/
def State.enrolEnd (s : State) (b : List Byte) (st : Nat) (counterOk writeOk : Bool) : State :=
  let s1 := if st = 0 ∨ st = 0x0504 then s.readCounter 3 counterOk else s
  let s2 := if st = 0 then
      ({ s1 with sec := { s1.sec with slots := s1.sec.slots.set (leAt b 5 1 - 1) (enrolKey b) } }).writeCounter 3 (leAt b 8 4) writeOk
    else s1
  ((s2.modMb fun m => { m with state := 0 }).mbEnd st).enginePop

/-- ENROL completes (R409), where the root key has been recovered (R403). -/
def State.enrolDone (s : State) (counterOk writeOk : Bool) : State :=
  match s.sec.engine with
  | .enrol _ :: _ =>
    if s.sec.puf = 1 then s.enrolEnd s.sec.mb.bytes (s.sec.enrolCheck s.sec.mb.bytes counterOk) counterOk writeOk else s
  | _ => s

/-- The fields of a firmware package (R407, R408). -/
def fwFields (b : List Byte) : Bool :=
  let n := leAt b 8 4
  leAt b 0 4 == 0x57465A41 && leAt b 4 2 == 1 && leAt b 6 2 == 64 && n == b.length && n % 8 == 0 && decide (1024 ≤ n) &&
  decide (n ≤ 4194304) && leAt b 0x0C 4 == 0x5016 && ((sliceAt b 0x18 40).all fun x => x == 0#8)

/-- The checks of a firmware package in their order: zero where it passes (R408). -/
def SecSt.fwCheck (c : SecSt) (b : List Byte) (counterOk : Bool) : Nat :=
  if !fwFields b then 0x0522
  else if !sigOk b (b.length - 64) Config.firmwareKey then 0x0501
  else if !counterOk then 0x0504
  else if leAt b 0x14 4 < c.counters.getD 0 0 then 0x0503 else 0

/-- FW_UPDATE (R408, R425). -/
def State.mbFwUpdate (s : State) : State :=
  let s0 := s.mbCopyDone
  let len := leNat (s0.sec.mb.staging.readBytes 8 4)
  if s.sec.mb.state = 2 then s.mbEnd 0x0520
  else if s0.sec.mb.ready len then s0.modMb fun m => { m with state := 2 }
  else (s0.modMb fun m => { m with state := 0 }).mbEnd 0x0520

/-- An enrolment is what makes the mailbox busy. -/
def SecSt.enrolling (c : SecSt) : Bool := c.engine.any fun o => match o with | .enrol _ => true | _ => false

/-- A status before which FW_UPDATE has come to the check that reads counter 0 (R408). -/
def readsCounter (st : Nat) : Bool := st == 0 || st == 0x0503 || st == 0x0504

/-- FW_UPDATE ends with a status on the bytes staged (R408): a package that passes goes to the bank that is not running,
which is then preferred. A read of counter 0 that stood in the engine's queue is over. Log entry 69. -/
def State.fwEnd (s : State) (b : List Byte) (st : Nat) (counterOk : Bool) : State :=
  let s1 := if readsCounter st then s.readCounter 0 counterOk else s
  let other := 1 - s.sec.bank
  let s2 := if st = 0 then { s1 with sec := { s1.sec with banks := s1.sec.banks.set other (some b), preferred := other } }
    else s1
  let s3 := (s2.modMb fun m => { m with state := 0 }).mbEnd st
  if s.sec.engine.head? = some .firmware then s3.enginePop else s3

/-- FW_UPDATE completes (R408), where the root key has been recovered (R403). Its read of counter 0 is an operation of the engine
(R411): it arrives when the checks before it have passed, and where others came earlier the completion waits until it is the
oldest. Log entry 69. -/
def State.fwDone (s : State) (counterOk : Bool) : State :=
  let st := s.sec.fwCheck s.sec.mb.bytes counterOk
  if s.sec.mb.state ≠ 2 ∨ s.sec.enrolling ∨ s.sec.puf ≠ 1 then s
  else if !readsCounter st || s.sec.engine.isEmpty || s.sec.engine.head? == some .firmware then
    s.fwEnd s.sec.mb.bytes st counterOk
  else if s.sec.engine.contains .firmware then s else s.engineAdd .firmware

/-- What the commands of the security engine may change. -/
def commitSec (s t : State) : State :=
  { s with sec := t.sec, out := t.out, fresh := t.fresh, regs := { s.regs with sec := t.regs.sec, pci := t.regs.pci } }

/-- GO in the port's own SEC_ATT_CMD (R412). -/
def execAttestationGo (port : Port) (value : Word) (s : State) : Answer :=
  s.gate port 0x300120 true fun s => commitSec s (s.attGo port value.toNat)

/-- A report is ready (R412). -/
def execAttestationDone (s : State) : Answer := s.clocked fun s => commitSec s s.attDone

/-- BEGIN written to SEC_MB_CMD (R425). -/
def execMbBegin (port : Port) (s : State) : Answer :=
  s.gate port 0x300200 (s.isMaster port) fun s => commitSec s s.mbBegin

/-- CHUNK written to SEC_MB_CMD (R425). -/
def execMbChunk (port : Port) (s : State) : Answer :=
  s.gate port 0x300200 (s.isMaster port) fun s => commitSec s s.mbChunk

/-- The copy of a mailbox chunk ends (R52, R425). -/
def execMbChunkCopyDone (s : State) : Answer := s.clocked fun s => commitSec s s.mbCopyDone

/-- ABORT written to SEC_MB_CMD (R425). -/
def execMbAbort (port : Port) (s : State) : Answer :=
  s.gate port 0x300200 (s.isMaster port) fun s => commitSec s s.mbAbort

/-- ENROL written to SEC_MB_CMD (R409). -/
def execEnrol (port : Port) (s : State) : Answer :=
  s.gate port 0x300200 (s.isMaster port) fun s => commitSec s s.mbEnrol

/-- ENROL completes (R409). -/
def execEnrolComplete (counter : CounterReply) (s : State) : Answer :=
  s.clocked fun s => commitSec s (s.enrolDone counter.readOk counter.writeOk)

/-- FW_UPDATE written to SEC_MB_CMD (R408). -/
def execFwUpdate (port : Port) (s : State) : Answer :=
  s.gate port 0x300200 (s.isMaster port) fun s => commitSec s s.mbFwUpdate

/-- FW_UPDATE completes (R408). -/
def execFwUpdateComplete (counterOk : Bool) (s : State) : Answer := s.clocked fun s => commitSec s (s.fwDone counterOk)

/-- GO in SEC_MEAS_CMD: only from a port with a queue bound to the partition named (R414, R424). -/
def execMeasurementGo (port : Port) (value : Word) (s : State) : Answer :=
  s.gate port 0x300320 (s.bound (field value.toNat 0 3) port) fun s =>
    commitSec s (if tbit value.toNat 31 then s.measure' port (field value.toNat 0 3) else s)

end Sys2Proof.Machine
end

