-- ==== Sys2Proof/Machine/Copies.lean ====
section
/-!
DEFINITION. SP_FILL, SP_COPY, DMA, BANK and TAG steps, the banks' own events and the scrubber (R127 to R158, R272, R415 to
R421, R484).
-/
namespace Sys2Proof.Machine

/-! ### Places of a step -/

/-- The places of the rows of a transfer, in the order of R146. -/
def rowsOf (lo rows pitch planes planePitch : Nat) : List Nat :=
  (List.range planes).flatMap fun z => (List.range rows).map fun r => lo + z * planePitch + r * pitch


/-- Where the batch alias begins (R272). -/
def aliasBase : Nat := 0x1800000000

/-- The offset in the partition's DRAM space of an extent that a step of a job names, through the batch alias where it
lies there (R145, R272); none where 0x0301 refuses it. -/
def State.dramMap (s : State) (p : Nat) (j : Job) (off len : Nat) : Option Nat :=
  if aliasBase ≤ off ∧ off < 2 * 2 ^ 36 then
    match j.batch with
    | some b =>
      let x := off - aliasBase
      let o := s.ringBase p + b * s.ringStride p + x
      if x + len ≤ s.ringStride p ∧ s.inDram p o len = true then some o else none
    | none => none
  else if s.inDram p off len then some off else none

/-- How far an access to consecutive scratchpad bytes goes before a bank refuses it, and the code (R155, R156). -/
def Pad.reach (p : Pad) (a len : Nat) : Nat × Nat :=
  match (Ext.banks ⟨a, len⟩).find? fun b => bankCode (p.banks.getD b .on) != 0 with
  | some b => (b * bankBytes - a, bankCode (p.banks.getD b .on))
  | none => (len, 0)

/-- The extents of a scratchpad whose data is poisoned: marked already, or found now (R139). -/
def Pad.badExts (p : Pad) (weights : Nat) (ue : List Nat) : List Ext :=
  p.poison.map (fun g => ⟨g * 8, 8⟩) ++ ue.map fun a => if a < weights then ⟨a / 32 * 32, 32⟩ else ⟨a / 8 * 8, 8⟩

/-- The extents of the DRAM whose data is poisoned (R139, R151). -/
def DramSt.badExts (d : DramSt) (ue : List Nat) : List Ext :=
  d.poison.map (fun g => ⟨g * 32, 32⟩) ++ ue.map fun a => ⟨a / 32 * 32, 32⟩

/-- What a step reads of a scratchpad: the words that its code cannot correct read as undefined bytes (log entry 2). -/
def Pad.garble (p : Pad) (bad : List Ext) (epoch : Nat) : Pad :=
  bad.foldl (fun q e => q.putBytes e.lo ((List.range e.len).map fun i => Config.freeByte epoch (e.lo + i))) p

/-- What a step reads of the DRAM: blocks that are uncorrectable read as undefined bytes (log entry 2). -/
def Mem.garble (m : Mem) (bad : List Ext) (epoch : Nat) : Mem :=
  bad.foldl (fun m e => m.writeBytes e.lo ((List.range e.len).map fun i => Config.freeByte epoch (e.lo + i))) m

/-- The scratchpad of a step's core as the step reads it (R139). -/
def State.padRead (s : State) (c : StepCtx) (env : StepEnv) : Pad :=
  let p := s.padOf c.p c.t
  p.garble (p.badExts (s.weights c.core) env.spUe) s.fresh

/-- The DRAM as a step reads it (R139, R151). -/
def State.dramRead (s : State) (env : StepEnv) : Mem := s.dram.mem.garble (s.dram.badExts env.dramUe) s.fresh

/-- The parts of bad extents that lie in a row, as offsets in the row. -/
def badIn (bad : List Ext) (a len : Nat) : List Ext :=
  (bad.filter fun e => e.meets ⟨a, len⟩).map fun e =>
    let lo := max e.lo a
    ⟨lo - a, min (e.lo + e.len) (a + len) - lo⟩

/-- Bytes copied into a scratchpad with their poison. -/
def Pad.copyIn (p : Pad) (weights a : Nat) (bs : List Byte) (bad : List Ext) : Pad :=
  let q := p.write weights a bs
  bad.foldl (fun q e => if e.lo < bs.length then q.mark weights (a + e.lo) (min e.len (bs.length - e.lo)) else q) q

/-- Poison marks set on the blocks that bad parts of a row at a device address touch (R151). -/
def DramSt.mark (d : DramSt) (a n : Nat) (bad : List Ext) : DramSt :=
  bad.foldl (fun d e =>
    if e.lo < n then
      let lo := (a + e.lo) / 32
      let hi := cdiv (a + e.lo + min e.len (n - e.lo)) 32
      { d with poison := d.poison ++ ((List.range (hi - lo)).map (lo + ·)).filter fun g => !d.poison.contains g }
    else d) d

/-! ### SP_FILL (R141) -/

/-- The checks of SP_FILL. -/
def fillCheck (_s : State) (c : StepCtx) : Nat :=
  let a := leAt c.b 8 4
  let n := leAt c.b 0x0C 4
  firstCode
    [codeIf (a % 32 != 0 || n % 32 != 0 || decide (n < 32) || decide (padBytes < n) || decide (2 < leAt c.b 0x10 1) ||
      !zeroRange c.b 0x11 3 || !zeroRange c.b 0x18 40) 0x0622,
     codeIf (decide (padBytes < a + n)) 0x0621]

/-- The effect of SP_FILL: bytes up to the first refused access. Log entry 33. -/
def fillBody (s : State) (c : StepCtx) : Option (State × StepPhase) :=
  let a := leAt c.b 8 4
  let n := leAt c.b 0x0C 4
  let w := 2 ^ leAt c.b 0x10 1
  let pad := s.padOf c.p c.t
  if s.padHeld c.p c.t [⟨a, n⟩] then none
  else
    let (m, code) := pad.reach a n
    let bs := (List.range m).map fun i => BitVec.ofNat 8 (leAt c.b 0x14 4 / 256 ^ (i % w))
    some (s.modPadOf c.p c.t fun x => x.write (s.weights c.core) a bs, .done code (m != 0))

/-! ### SP_COPY (R142) -/

/-- The extents of SP_COPY's source and destination. -/
def copyExts (b : List Byte) : Ext × Ext :=
  (extOf (leAt b 8 4) (leAt b 0x10 4) (leAt b 0x14 2) (leAt b 0x16 2) 1 0,
   extOf (leAt b 0x0C 4) (leAt b 0x10 4) (leAt b 0x14 2) (leAt b 0x18 4) 1 0)

/-- The checks of SP_COPY. -/
def copyCheck (_s : State) (c : StepCtx) : Nat :=
  let n := leAt c.b 0x10 4
  let rows := leAt c.b 0x14 2
  let dp := leAt c.b 0x18 4
  let (x, y) := copyExts c.b
  firstCode
    [codeIf (leAt c.b 8 4 % 32 != 0 || leAt c.b 0x0C 4 % 32 != 0 || n % 32 != 0 || decide (n < 32) ||
      decide (padBytes < n) || rows == 0 || leAt c.b 0x16 2 % 32 != 0 || dp % 32 != 0 ||
      (decide (1 < rows) && decide (dp < n)) || !zeroRange c.b 0x1C 36) 0x0622,
     codeIf (decide (padBytes < x.lo + x.len) || decide (padBytes < y.lo + y.len)) 0x0621,
     codeIf (x.meets y) 0x0624]

/-- Rows copied from a scratchpad as it is read, up to the first refused access; the code, and the bytes written.
Log entry 33. -/
def Pad.copyRows (src : Pad) (weights n : Nat) (bad : List Ext) : List (Nat × Nat) → Pad → Pad × Nat × Nat
  | [], p => (p, 0, 0)
  | (a, d) :: l, p =>
    let (ra, ca) := p.reach a n
    let (rd, cd) := p.reach d n
    let m := min ra rd
    let code := if ra < rd then ca else if rd < ra then cd else firstCode [ca, cd]
    let q := p.copyIn weights d (src.bytes a m) (badIn bad a m)
    if code ≠ 0 then (q, code, m)
    else
      let (q', code', m') := Pad.copyRows src weights n bad l q
      (q', code', m + m')

/-- The effect of SP_COPY. -/
def copyBody (env : StepEnv) (s : State) (c : StepCtx) : Option (State × StepPhase) :=
  let n := leAt c.b 0x10 4
  let rows := leAt c.b 0x14 2
  let (x, y) := copyExts c.b
  let pad := s.padOf c.p c.t
  if s.padHeld c.p c.t [x, y] then none
  else
    let w := s.weights c.core
    let src := rowsOf (leAt c.b 8 4) rows (leAt c.b 0x16 2) 1 0
    let dst := rowsOf (leAt c.b 0x0C 4) rows (leAt c.b 0x18 4) 1 0
    let bad := pad.badExts w env.spUe
    let from' := s.padRead c env
    let (s1, ue) := s.padErrors c env (src.map fun a => ⟨a, n⟩)
    let (code, m) := (from'.copyRows w n bad (src.zip dst) (s1.padOf c.p c.t)).2
    let s2 := s1.modPadOf c.p c.t fun p => (from'.copyRows w n bad (src.zip dst) p).1
    some (s2.markUe c.p ue, .done (worse code (codeIf ue 0x0310)) (m != 0))

/-! ### DMA (R143 to R147) -/

/-- SRC_SPACE and DST_SPACE. -/
def dmaSpace (b : List Byte) (dst : Bool) : Nat := leAt b (if dst then 0x19 else 0x18) 1
/-- The address of one end. -/
def dmaAddr (b : List Byte) (dst : Bool) : Nat := leAt b (if dst then 0x10 else 8) 8
/-- The row pitch of one end. -/
def dmaPitch (b : List Byte) (dst : Bool) : Nat := leAt b (if dst then 0x28 else 0x24) 4
/-- The plane pitch of one end. -/
def dmaPlanePitch (b : List Byte) (dst : Bool) : Nat := leAt b (if dst then 0x30 else 0x2C) 4
/-- ROW_BYTES. -/
def dmaRow (b : List Byte) : Nat := leAt b 0x1C 4
/-- SEALED. -/
def dmaSealed (b : List Byte) : Bool := tbit (leAt b 0x1B 1) 0
/-- DST_LCORE. -/
def dmaLcore (b : List Byte) : Nat := leAt b 0x1A 1

/-- The offset of one end in its space. -/
def dmaOff (b : List Byte) (dst : Bool) : Nat := dmaAddr b dst % 2 ^ 48

/-- The extent of one end. -/
def dmaExt (b : List Byte) (dst : Bool) : Ext :=
  extOf (dmaOff b dst) (dmaRow b) (leAt b 0x20 2) (dmaPitch b dst) (leAt b 0x22 2) (dmaPlanePitch b dst)

/-- The rows of one end, from an offset. -/
def dmaRows (b : List Byte) (dst : Bool) (lo : Nat) : List Nat :=
  rowsOf lo (leAt b 0x20 2) (dmaPitch b dst) (leAt b 0x22 2) (dmaPlanePitch b dst)

/-- An address has the form of its space (R143). -/
def dmaForm (space a : Nat) : Bool := a % 32 == 0 && match space with
  | 1 => decide (a < 2 ^ 48)
  | 2 => decide (a < 2 ^ 56)
  | _ => decide (a < 2 ^ 25)

/-- The end that lies in a host window. -/
def dmaHostEnd (b : List Byte) : Bool := dmaSpace b true == 2

/-- The field checks of a DMA step (R145). -/
def dmaFields (b : List Byte) (self : Nat) : Bool :=
  let ss := dmaSpace b false
  let ds := dmaSpace b true
  let n := dmaRow b
  let rows := leAt b 0x20 2
  let planes := leAt b 0x22 2
  let dp := dmaPitch b true
  let dpp := dmaPlanePitch b true
  let host := dmaHostEnd b
  !(ss == 0 && ds == 0) && !(ss == 2 && ds == 2) && decide (ss < 3) && decide (ds < 4) &&
  dmaForm ss (dmaAddr b false) && dmaForm ds (dmaAddr b true) && decide (leAt b 0x1B 1 < 2) &&
  n % 32 == 0 && decide (32 ≤ n) && decide (n ≤ padBytes) && rows != 0 && planes != 0 &&
  dmaPitch b false % 32 == 0 && dp % 32 == 0 && dmaPlanePitch b false % 32 == 0 && dpp % 32 == 0 &&
  !(decide (1 < rows) && decide (dp < n)) &&
  !(decide (1 < planes) && decide (dpp < if rows = 1 then n else dp * rows)) &&
  decide (n * rows * planes ≤ 2 ^ 32) && (if ds = 3 then dmaLcore b != self else dmaLcore b == 0) &&
  (if dmaSealed b then
    (ss == 2 || ds == 2) && dmaOff b host % 4096 == 0 && n % 4096 == 0 && dmaPitch b host % 4096 == 0 &&
      dmaPlanePitch b host % 4096 == 0
  else leAt b 0x34 4 == 0) && zeroRange b 0x38 8

/-- The scratchpad extent of one end lies beyond 32 MiB. -/
def dmaBeyond (b : List Byte) (dst : Bool) : Bool :=
  let e := dmaExt b dst
  (dmaSpace b dst == 0 || dmaSpace b dst == 3) && decide (padBytes < e.lo + e.len)

/-- The DRAM place of one end, mapped (R272); none where that end is not in DRAM or is refused. -/
def State.dmaDram (s : State) (c : StepCtx) (dst : Bool) : Option Nat :=
  let e := dmaExt c.b dst
  if dmaSpace c.b dst = 1 then s.dramMap c.p c.job e.lo e.len else none

/-- The window check of every row of the host end, in the order of the rows (R145, R421). -/
def State.dmaWindow (s : State) (c : StepCtx) : Nat :=
  if dmaSpace c.b false = 2 ∨ dmaSpace c.b true = 2 then
    let h := dmaHostEnd c.b
    let w := dmaAddr c.b h / 2 ^ 48 % 256
    firstCode ((dmaRows c.b h (dmaOff c.b h)).map fun o => s.windowCheck c.p w o (dmaRow c.b) (!h) (dmaSealed c.b))
  else 0

/-- A DMA step accesses a DRAM space of which a tower is lost, before the re-map (R150). -/
def State.dmaLost (s : State) (c : StepCtx) : Bool :=
  (s.comp.parts.getD c.p .empty).dramLost && (dmaSpace c.b false == 1 || dmaSpace c.b true == 1)

/-- The checks of a DMA step (R102, R145, R150, R421). -/
def dmaCheck (s : State) (c : StepCtx) : Nat :=
  let dram := fun d => dmaSpace c.b d == 1
  firstCode
    [codeIf (dmaSpace c.b true == 3 && decide (lcoreCount c.part ≤ dmaLcore c.b)) 0x0623,
     codeIf (!dmaFields c.b c.t) 0x0622,
     codeIf (dmaBeyond c.b false || dmaBeyond c.b true) 0x0621,
     codeIf ((dram false && (s.dmaDram c false).isNone) || (dram true && (s.dmaDram c true).isNone)) 0x0301,
     s.dmaWindow c,
     codeIf (match s.dmaDram c false, s.dmaDram c true with
       | some x, some y => Ext.meets ⟨x, (dmaExt c.b false).len⟩ ⟨y, (dmaExt c.b true).len⟩
       | _, _ => false) 0x0624,
     codeIf (s.dmaLost c) 0x0313]

/-- What one row's read gives: its bytes, fewer where the read ends early; its poisoned parts; the code that ends it. -/
structure RowRead where
  data : List Byte
  bad : List Ext
  code : Nat
  deriving DecidableEq, Repr

/-- The blocks of a sealed row opened in order, up to the first that fails (R146, R420). `bs` holds ciphertext and record
of each block in turn. -/
def openRow (key p obj : Nat) : Nat → Nat → List Byte → List Byte × Nat
  | 0, _, _ => ([], 0)
  | n + 1, k, bs =>
    match openBlock key (aadDma p obj k) (sliceAt bs 0 4096) (sliceAt bs 4096 32) with
    | some pt =>
      let (rest, code) := openRow key p obj n (k + 1) (bs.drop 4128)
      (pt ++ rest, code)
    | none => ([], 0x0514)

/-- The parts of an extent of device addresses that lie in the lines of one tower (R149). -/
def State.partsIn (s : State) (t : Nat) (e : Ext) : List Ext :=
  if e.len = 0 then [] else
    (((List.range ((e.lo + e.len - 1) / 2048 + 1 - e.lo / 2048)).map (e.lo / 2048 + ·)).filter fun l =>
      s.towerOf (2048 * l) == t).map fun l =>
        ⟨max e.lo (2048 * l), min (e.lo + e.len) (2048 * l + 2048) - max e.lo (2048 * l)⟩

/-- What a DMA step reads from: its own scratchpad and the DRAM as they are read, the poisoned parts of its source, and,
for the rows in flight as a tower leaves service, that tower (R150). -/
structure DmaFrom where
  pad : Pad
  mem : Mem
  bad : List Ext
  lost : Option Nat
  deriving DecidableEq, Repr

/-- The read of row i at an offset of the source. -/
def State.dmaRead (s : State) (c : StepCtx) (env : StepEnv) (x : DmaFrom) (i a : Nat) : RowRead :=
  let n := dmaRow c.b
  match dmaSpace c.b false with
  | 0 =>
    let (m, code) := x.pad.reach a n
    ⟨x.pad.bytes a m, badIn x.bad a m, code⟩
  | 1 =>
    let at' := ((s.dramOf c.p).map (·.1)).getD 0 + a
    let gone := match x.lost with
      | some t => (s.partsIn t ⟨at', n⟩).map fun e => ⟨e.lo - at', e.len⟩
      | none => []
    ⟨x.mem.readBytes at' n, badIn x.bad a n ++ gone, 0⟩
  | _ =>
    let unit := if dmaSealed c.b then n / 4096 * 4128 else n
    let got := env.host.drop (i * unit)
    if env.hostFail && decide (got.length < unit) then
      if dmaSealed c.b then
        let (d, code) := openRow (s.objKey c.p) c.p (leAt c.b 0x34 4) (got.length / 4128) (a / 4096) got
        ⟨d, [], if code ≠ 0 then code else 0x0312⟩
      else ⟨got, [], 0x0312⟩
    else if dmaSealed c.b then
      let (d, code) := openRow (s.objKey c.p) c.p (leAt c.b 0x34 4) (n / 4096) (a / 4096) (sliceAt got 0 unit)
      ⟨d, [], code⟩
    else ⟨sliceAt got 0 n, [], 0⟩

/-- The blocks of a row sealed and sent in order: ciphertext, then seal record (R146, R418, R420). -/
def State.sealRow (s : State) (p w obj o : Nat) : Nat → List Byte → State
  | 0, _ => s
  | n + 1, bs =>
    let k := o / 4096
    let (ct, rcd, s1) := s.sealBlock (s.objKey p) (aadDma p obj k) (sliceAt bs 0 4096)
    let s2 := (s1.hostWrite p w o ct).hostWrite p w (s.winSize p w - 32 * (k + 1)) rcd
    State.sealRow s2 p w obj (o + 4096) n (bs.drop 4096)

/-- The write of a row at an offset of the destination, the code that refuses its end, and whether anything is written. -/
def State.dmaWrite (s : State) (c : StepCtx) (d : Nat) (r : RowRead) : State × Nat × Bool :=
  let any := !r.data.isEmpty
  let into := fun (i : Nat) =>
    let w := s.weights ((s.hostOf c.p i).getD 0)
    let (m, code) := (s.padOf c.p i).reach d r.data.length
    (s.modPadOf c.p i fun x => x.copyIn w d (r.data.take m) r.bad, code, decide (0 < m) && any)
  match dmaSpace c.b true with
  | 0 => into c.t
  | 1 =>
    let s1 := s.writeDram c.p d r.data
    match s.dramOf c.p with
    | some (base, _) => ({ s1 with dram := s1.dram.mark (base + d) r.data.length r.bad }, 0, any)
    | none => (s1, 0, false)
  | 3 => into (dmaLcore c.b)
  | _ =>
    let w := dmaAddr c.b true / 2 ^ 48 % 256
    if dmaSealed c.b then (s.sealRow c.p w (leAt c.b 0x34 4) d (r.data.length / 4096) r.data, 0, any)
    else (s.hostWrite c.p w d r.data, 0, any)

/-- The rows of a DMA step in order, up to the first that ends it (R146, R156): its code, and whether anything is written.
Log entry 33. -/
def dmaGo (c : StepCtx) (env : StepEnv) (x : DmaFrom) : Nat → List (Nat × Nat) → State → State × Nat × Bool
  | _, [], s => (s, 0, false)
  | i, (a, d) :: l, s =>
    let r := s.dmaRead c env x i a
    let s1 := if dmaSpace c.b false = 1 then s.countRead c.p a (dmaRow c.b) else s
    let (s2, code, any) := if x.lost.isSome && dmaSpace c.b true == 1 then (s1, 0, false) else s1.dmaWrite c d r
    let code := if code ≠ 0 then code else r.code
    if code = 0x0514 then (s2.authFail c.p, code, any)
    else if code ≠ 0 then (s2, code, any)
    else
      let (s3, code, more) := dmaGo c env x (i + 1) l s2
      (s3, code, any || more)

/-- The scratchpad extents of a DMA step, by logical core. -/
def dmaPads (c : StepCtx) : List (Nat × Ext) :=
  (if dmaSpace c.b false = 0 then [(c.t, dmaExt c.b false)] else []) ++
  (if dmaSpace c.b true = 0 then [(c.t, dmaExt c.b true)] else []) ++
  (if dmaSpace c.b true = 3 then [(dmaLcore c.b, dmaExt c.b true)] else [])

/-- A push waits for the end of a granule of the core that it reaches (R392). -/
def State.pushHeld (s : State) (c : StepCtx) : Bool :=
  dmaSpace c.b true == 3 && (s.coresOf c.p (dmaLcore c.b)).any fun n => (s.safe.units[n]?).any (·.running)

/-- The effect of a DMA step, refused where the DRAM has been lost since its checks. Where a tower leaves service meanwhile, the
rows done before are not affected, those in flight read poison from its lines and lose their writes to the DRAM, and the others
are refused (R150). Log entry 34. -/
def dmaBody (env : StepEnv) (s : State) (c : StepCtx) : Option (State × StepPhase) :=
  if s.dmaLost c then some (s, .done 0x0313 false)
  else if s.pushHeld c || (dmaPads c).any fun x => s.padHeld c.p x.1 [x.2] then none
  else if env.mismatch && c.part.hinged && dmaSpace c.b true != 0 then some (s, .done 0x0403 false)
  else
    let lo := fun d => if dmaSpace c.b d = 1 then (s.dmaDram c d).getD 0 else dmaOff c.b d
    let src := dmaRows c.b false (lo false)
    let rows := src.zip (dmaRows c.b true (lo true))
    let n := dmaRow c.b
    let ofDram := dmaSpace c.b false == 1
    let tower := if ofDram || dmaSpace c.b true == 1 then env.tower.map (·.val) else none
    let done := if tower.isSome then env.towerRow else rows.length
    let flight := (rows.drop done).take env.towerRows
    let base := ((s.dramOf c.p).map (·.1)).getD 0
    let pad := s.padOf c.p c.t
    let bad := match dmaSpace c.b false with
      | 0 => pad.badExts (s.weights c.core) env.spUe
      | 1 => (s.dram.badExts env.dramUe).map fun e => ⟨e.lo - base, e.len - (base - e.lo)⟩
      | _ => []
    let (s1, ueSp) := if dmaSpace c.b false = 0 then s.padErrors c env (src.map fun a => ⟨a, n⟩) else (s, false)
    let (s2, ueDram) := if ofDram then
        s1.dramErrors env.dramCe env.dramUe ((src.take done).map fun a => ⟨base + a, n⟩) else (s1, false)
    let x : DmaFrom := ⟨s.padRead c env, s.dramRead env, bad, none⟩
    let (s3, code, any) := dmaGo c env x 0 (rows.take done) s2
    let (s4, code, any) := match tower with
      | none => (s3, code, any)
      | some t =>
        let (s4, late, more) := if code = 0 then dmaGo c env { x with lost := some t } done flight s3 else (s3, 0, false)
        let hit := ofDram && flight.any fun r => !(s.partsIn t ⟨base + r.1, n⟩).isEmpty
        let ends := code == 0 && (hit || decide (done + env.towerRows < rows.length))
        (s4.loseTower t (some 0x0422), worse (worse code late) (codeIf ends 0x0313), any || more)
    some (s4.markUe c.p (ueSp || ueDram), .done (worse (worse code (codeIf ueDram 0x0311)) (codeIf ueSp 0x0310)) any)

/-! ### BANK (R154, R155) -/

/-- The checks of a BANK step. -/
def bankCheck (s : State) (c : StepCtx) : Nat :=
  codeIf (!zeroRange c.b 9 7 || !zeroRange c.b 0x18 40 || leAt c.b 0x10 8 % 2 ^ s.actBank c.core != 0) 0x0622

/-- The banks that a BANK step selects. -/
def bankSel (b : List Byte) : List Nat := bitsOf 64 (leAt b 0x10 8)

/-- The state of a bank after CLOSE. -/
def BankSt.close : BankSt → BankSt
  | .on => .closing
  | .opening => .closing
  | x => x

/-- The state of a bank after OPEN. -/
def BankSt.open' : BankSt → BankSt
  | .off => .opening
  | .closing => .on
  | x => x

/-- Banks of a scratchpad changed. -/
def Pad.modBanks (p : Pad) (l : List Nat) (f : BankSt → BankSt) : Pad :=
  { p with banks := l.foldl (fun bs b => lmod bs b f) p.banks }

/-- Every selected bank has reached the state that a BANK step asks for. -/
def bankOver (p : Pad) (b : List Byte) : Bool :=
  (bankSel b).all fun i => p.banks.getD i .on == (if leAt b 8 1 = 0 then .off else .on)

/-- A bank's contents lost (power down), or filled with zeros (power up). -/
def Pad.refill (p : Pad) (b : Nat) (f : Fill) : Pad :=
  { p with fills := p.fills.set b f, cells := p.cells.filter fun c => c.1 / bankBytes != b,
           poison := p.poison.filter fun g => g * 8 / bankBytes != b }

/-- Every selected bank of a logical core, in a pair of both cores, has reached the state asked for. -/
def State.banksOver (s : State) (p t : Nat) (b : List Byte) : Bool := (s.padsOf p t).all fun x => bankOver x b

/-- The effect of BANK CLOSE: a bank that opens is filled first. -/
def bankCloseBody (s : State) (c : StepCtx) : Option (State × StepPhase) :=
  let f : Pad → Pad := fun p =>
    let q := ((bankSel c.b).filter fun b => p.banks.getD b .on == .opening).foldl (fun q b => q.refill b .zero) p
    q.modBanks (bankSel c.b) BankSt.close
  let s1 := s.modPadOf c.p c.t f
  some (s1, if s1.banksOver c.p c.t c.b then .done 0 false else .bankWait)

/-- The effect of BANK OPEN. -/
def bankOpenBody (s : State) (c : StepCtx) : Option (State × StepPhase) :=
  let s1 := s.modPadOf c.p c.t fun p => p.modBanks (bankSel c.b) BankSt.open'
  some (s1, if s1.banksOver c.p c.t c.b then .done 0 false else .bankWait)

/-- BANK steps that wait complete where every selected bank is there (R154). -/
def State.bankDone (s : State) (core : Nat) : State :=
  match s.partOfCore core with
  | some p =>
    (List.range 16).foldl (fun s i =>
      if (s.coresOf p i).contains core then
        match s.tgt p i with
        | some x => match x.steps.head? with
          | some (idx, b) =>
            if x.phase = .bankWait ∧ s.banksOver p i b = true then s.setPhase p i idx (.done 0 false) else s
          | none => s
        | none => s
      else s) s
  | none => s

/-- A bank reaches OFF, once its tracker is empty (R155). -/
def State.bankOff (s : State) (core b : Nat) : State :=
  match s.comp.cores[core]? with
  | some c =>
    if c.pad.banks.getD b .on = .closing then
      (s.modPad core fun p e => (p.refill b (.free e)).modBanks [b] fun _ => .off).bankDone core
    else s
  | none => s

/-- A bank that opens is filled and ON (R155). -/
def State.bankOn (s : State) (core b : Nat) : State :=
  match s.comp.cores[core]? with
  | some c =>
    if c.pad.banks.getD b .on = .opening then
      (s.modPad core fun p _ => (p.refill b .zero).modBanks [b] fun _ => .on).bankDone core
    else s
  | none => s

/-! ### TAG (R135, R136) -/

/-- The checks of a TAG step. -/
def tagCheckFields (_s : State) (c : StepCtx) : Nat :=
  let skip := leAt c.b 9 1
  codeIf ((if leAt c.b 8 1 = 0 then skip == 0 else skip != 0) || leAt c.b 0x0C 4 == 0 || !zeroRange c.b 0x0A 2 ||
    !zeroRange c.b 0x10 48) 0x0622

/-- CHECK: on a match the next SKIP steps are skipped; the pair comparator compares the decisions of a pair's two cores. -/
def tagCheckBody (s : State) (c : StepCtx) : Option (State × StepPhase) :=
  let hits := (s.padsOf c.p c.t).map fun x => x.tag == leAt c.b 0x0C 4
  if hits.contains true && hits.contains false then some (s, .done 0x0403 false)
  else some (if hits.contains true then s.modTgt c.p c.t fun x => { x with skip := leAt c.b 9 1 } else s, .done 0 false)

/-- SET. -/
def tagSetBody (s : State) (c : StepCtx) : Option (State × StepPhase) :=
  some (s.modPadOf c.p c.t fun p => { p with tag := leAt c.b 0x0C 4 }, .done 0)



/-! ### Commands -/

/-- SP_FILL (R141). -/
def execSpFill (part : PartIx) (target : TargetIx) (_env : StepEnv) (s : State) : Answer :=
  .next (commitStep s (s.runStep part target (fun b => hOp b == 0x30) fillCheck fillBody))

/-- SP_COPY (R142). -/
def execSpCopy (part : PartIx) (target : TargetIx) (env : StepEnv) (s : State) : Answer :=
  .next (commitStep s (s.runStep part target (fun b => hOp b == 0x31) copyCheck (copyBody env)))

/-- DMA (R143 to R147). -/
def execDma (part : PartIx) (target : TargetIx) (env : StepEnv) (s : State) : Answer :=
  .next (commitStep s (s.runStep part target (fun b => hOp b == 0x32) dmaCheck (dmaBody env)))

/-- BANK CLOSE (R154, R155). -/
def execBankClose (part : PartIx) (target : TargetIx) (s : State) : Answer :=
  .next (commitStep s (s.runStep part target (fun b => hOp b == 0x33 && leAt b 8 1 == 0) bankCheck bankCloseBody))

/-- BANK OPEN (R154, R155). -/
def execBankOpen (part : PartIx) (target : TargetIx) (s : State) : Answer :=
  .next (commitStep s (s.runStep part target (fun b => hOp b == 0x33 && leAt b 8 1 == 1) bankCheck bankOpenBody))

/-- A bank that closes is OFF (R155). -/
def execBankOff (core : CoreIx) (bank : Fin 64) (s : State) : Answer := .next (commitStep s (s.bankOff core bank))

/-- A bank that opens is ON (R155). -/
def execBankOn (core : CoreIx) (bank : Fin 64) (s : State) : Answer := .next (commitStep s (s.bankOn core bank))

/-- TAG CHECK (R136). -/
def execTagCheck (part : PartIx) (target : TargetIx) (s : State) : Answer :=
  .next (commitStep s (s.runStep part target (fun b => hOp b == 0x34 && leAt b 8 1 == 0) tagCheckFields tagCheckBody))

/-- TAG SET (R136). -/
def execTagSet (part : PartIx) (target : TargetIx) (s : State) : Answer :=
  .next (commitStep s (s.runStep part target (fun b => hOp b == 0x34 && leAt b 8 1 == 1) tagCheckFields tagSetBody))

/-- The scrubber reads a word (R138, R139). -/
def execScrub (core : CoreIx) (word : Nat) (result : ScrubResult) (s : State) : Answer :=
  .next (commitStep s (s.scrub core word result))

end Sys2Proof.Machine
end

