-- ==== Sys2Proof/Machine/Trans.lean ====
section
/-!
DEFINITION. The transcendental functions (R113 to R117) and the 64-point transform (R119), as the sequences of FP32
operations that the spec gives, over its tables.
-/
namespace Sys2Proof.Machine

/-- Table of rn(2^(i / 64)) (R113, R119). -/
def tabT : List Nat :=
  [0x3F800000, 0x3F8164D2, 0x3F82CD87, 0x3F843A29, 0x3F85AAC3, 0x3F871F62, 0x3F88980F, 0x3F8A14D5,
   0x3F8B95C2, 0x3F8D1ADF, 0x3F8EA43A, 0x3F9031DC, 0x3F91C3D3, 0x3F935A2B, 0x3F94F4F0, 0x3F96942D] ++
  [0x3F9837F0, 0x3F99E046, 0x3F9B8D3A, 0x3F9D3EDA, 0x3F9EF532, 0x3FA0B051, 0x3FA27043, 0x3FA43516,
   0x3FA5FED7, 0x3FA7CD94, 0x3FA9A15B, 0x3FAB7A3A, 0x3FAD583F, 0x3FAF3B79, 0x3FB123F6, 0x3FB311C4] ++
  [0x3FB504F3, 0x3FB6FD92, 0x3FB8FBAF, 0x3FBAFF5B, 0x3FBD08A4, 0x3FBF179A, 0x3FC12C4D, 0x3FC346CD,
   0x3FC5672A, 0x3FC78D75, 0x3FC9B9BE, 0x3FCBEC15, 0x3FCE248C, 0x3FD06334, 0x3FD2A81E, 0x3FD4F35B] ++
  [0x3FD744FD, 0x3FD99D16, 0x3FDBFBB8, 0x3FDE60F5, 0x3FE0CCDF, 0x3FE33F89, 0x3FE5B907, 0x3FE8396A,
   0x3FEAC0C7, 0x3FED4F30, 0x3FEFE4BA, 0x3FF28177, 0x3FF5257D, 0x3FF7D0DF, 0x3FFA83B3, 0x3FFD3E0C]

/-- Table of rn(1 / c_j) (R113, R119). -/
def tabU : List Nat :=
  [0x3F7F00FF, 0x3F7D08E5, 0x3F7B1885, 0x3F792FB2, 0x3F774E40, 0x3F757404, 0x3F73A0D5, 0x3F71D48C,
   0x3F700F01, 0x3F6E500F, 0x3F6C9791, 0x3F6AE564, 0x3F693965, 0x3F679373, 0x3F65F36D, 0x3F645933] ++
  [0x3F62C4A7, 0x3F6135AA, 0x3F5FAC1F, 0x3F5E27EB, 0x3F5CA8F1, 0x3F5B2F17, 0x3F59BA42, 0x3F584A5A,
   0x3F56DF44, 0x3F5578E9, 0x3F541733, 0x3F52BA08, 0x3F516154, 0x3F500D01, 0x3F4EBCF9, 0x3F4D7127] ++
  [0x3F4C2978, 0x3F4AE5D8, 0x3F49A634, 0x3F486A79, 0x3F473294, 0x3F45FE74, 0x3F44CE08, 0x3F43A13E,
   0x3F427806, 0x3F415250, 0x3F40300C, 0x3F3F112B, 0x3F3DF59D, 0x3F3CDD53, 0x3F3BC841, 0x3F3AB656] ++
  [0x3F39A786, 0x3F389BC3, 0x3F379301, 0x3F368D31, 0x3F358A48, 0x3F348A3A, 0x3F338CFA, 0x3F32927C,
   0x3F319AB6, 0x3F30A59B, 0x3F2FB322, 0x3F2EC33E, 0x3F2DD5E6, 0x3F2CEB10, 0x3F2C02B0, 0x3F2B1CBE] ++
  [0x3F2A392F, 0x3F2957FB, 0x3F287917, 0x3F279C7B, 0x3F26C21E, 0x3F25E9F7, 0x3F2513FD, 0x3F244029,
   0x3F236E72, 0x3F229ECF, 0x3F21D13A, 0x3F2105A9, 0x3F203C17, 0x3F1F747A, 0x3F1EAECD, 0x3F1DEB07] ++
  [0x3F1D2922, 0x3F1C6917, 0x3F1BAADF, 0x3F1AEE73, 0x3F1A33CD, 0x3F197AE7, 0x3F18C3BB, 0x3F180E41,
   0x3F175A75, 0x3F16A850, 0x3F15F7CC, 0x3F1548E5, 0x3F149B93, 0x3F13EFD2, 0x3F13459C, 0x3F129CEC] ++
  [0x3F11F5BD, 0x3F115009, 0x3F10ABCC, 0x3F100901, 0x3F0F67A2, 0x3F0EC7AB, 0x3F0E2918, 0x3F0D8BE3,
   0x3F0CF009, 0x3F0C5584, 0x3F0BBC51, 0x3F0B246B, 0x3F0A8DCD, 0x3F09F874, 0x3F09645C, 0x3F08D181] ++
  [0x3F083FDE, 0x3F07AF70, 0x3F072033, 0x3F069223, 0x3F06053C, 0x3F05797C, 0x3F04EEDD, 0x3F04655E,
   0x3F03DCF9, 0x3F0355AD, 0x3F02CF75, 0x3F024A4E, 0x3F01C636, 0x3F014328, 0x3F00C122, 0x3F004020]

/-- Table of rn(ln c_j) (R113, R119). -/
def tabV : List Nat :=
  [0x3B7F8055, 0x3C3EE23B, 0x3C9E7522, 0x3CDCFE01, 0x3D0D86CC, 0x3D2C52DD, 0x3D4AE418, 0x3D693B5C,
   0x3D83ACC2, 0x3D929FB1, 0x3DA176E6, 0x3DB032C5, 0x3DBED3B3, 0x3DCD5A12, 0x3DDBC641, 0x3DEA189F] ++
  [0x3DF85186, 0x3E0338A9, 0x3E0A3C2C, 0x3E113379, 0x3E181EB9, 0x3E1EFE16, 0x3E25D1B8, 0x3E2C99C7,
   0x3E33566A, 0x3E3A07C8, 0x3E40AE05, 0x3E474947, 0x3E4DD9B1, 0x3E545F68, 0x3E5ADA8D, 0x3E614B43] ++
  [0x3E67B1AA, 0x3E6E0DE5, 0x3E746013, 0x3E7AA853, 0x3E807362, 0x3E838DC3, 0x3E86A35B, 0x3E89B438,
   0x3E8CC069, 0x3E8FC7FD, 0x3E92CB01, 0x3E95C982, 0x3E98C38E, 0x3E9BB933, 0x3E9EAA7D, 0x3EA19779] ++
  [0x3EA48034, 0x3EA764BA, 0x3EAA4516, 0x3EAD2156, 0x3EAFF984, 0x3EB2CDAC, 0x3EB59DD9, 0x3EB86A17,
   0x3EBB3271, 0x3EBDF6F0, 0x3EC0B7A1, 0x3EC3748D, 0x3EC62DBE, 0x3EC8E33F, 0x3ECB951A, 0x3ECE4358] ++
  [0x3ED0EE03, 0x3ED39525, 0x3ED638C6, 0x3ED8D8F0, 0x3EDB75AD, 0x3EDE0F04, 0x3EE0A500, 0x3EE337A7,
   0x3EE5C704, 0x3EE8531D, 0x3EEADBFD, 0x3EED61AA, 0x3EEFE42D, 0x3EF2638D, 0x3EF4DFD3, 0x3EF75906] ++
  [0x3EF9CF2E, 0x3EFC4252, 0x3EFEB279, 0x3F008FD6, 0x3F01C4F7, 0x3F02F8A6, 0x3F042AE4, 0x3F055BB6,
   0x3F068B1E, 0x3F07B921, 0x3F08E5C1, 0x3F0A1101, 0x3F0B3AE5, 0x3F0C6370, 0x3F0D8AA6, 0x3F0EB088] ++
  [0x3F0FD51A, 0x3F10F860, 0x3F121A5B, 0x3F133B10, 0x3F145A80, 0x3F1578B0, 0x3F1695A0, 0x3F17B155,
   0x3F18CBD0, 0x3F19E516, 0x3F1AFD27, 0x3F1C1408, 0x3F1D29BA, 0x3F1E3E40, 0x3F1F519D, 0x3F2063D2] ++
  [0x3F2174E3, 0x3F2284D3, 0x3F2393A2, 0x3F24A154, 0x3F25ADEB, 0x3F26B96A, 0x3F27C3D2, 0x3F28CD26,
   0x3F29D568, 0x3F2ADC9B, 0x3F2BE2C0, 0x3F2CE7D9, 0x3F2DEBEA, 0x3F2EEEF3, 0x3F2FF0F7, 0x3F30F1F8]

/-- Table of rn(1 / sqrt(c_j (1 + p))) (R113, R119). -/
def tabQ : List Nat :=
  [0x3F7F8060, 0x3F7E8358, 0x3F7D893A, 0x3F7C91F7, 0x3F7B9D83, 0x3F7AABCF, 0x3F79BCCF, 0x3F78D075,
   0x3F77E6B5, 0x3F76FF83, 0x3F761AD3, 0x3F75389A, 0x3F7458CD, 0x3F737B60, 0x3F72A048, 0x3F71C77C] ++
  [0x3F70F0F1, 0x3F701C9D, 0x3F6F4A77, 0x3F6E7A74, 0x3F6DAC8D, 0x3F6CE0B7, 0x3F6C16EA, 0x3F6B4F1E,
   0x3F6A8949, 0x3F69C565, 0x3F690368, 0x3F68434A, 0x3F678505, 0x3F66C891, 0x3F660DE5, 0x3F6554FC] ++
  [0x3F649DCE, 0x3F63E854, 0x3F633488, 0x3F628263, 0x3F61D1DE, 0x3F6122F3, 0x3F60759C, 0x3F5FC9D4,
   0x3F5F1F93, 0x3F5E76D5, 0x3F5DCF93, 0x3F5D29C8, 0x3F5C856F, 0x3F5BE282, 0x3F5B40FD, 0x3F5AA0D9] ++
  [0x3F5A0212, 0x3F5964A3, 0x3F58C887, 0x3F582DBA, 0x3F579436, 0x3F56FBF8, 0x3F5664FA, 0x3F55CF39,
   0x3F553AB0, 0x3F54A75A, 0x3F541535, 0x3F53843B, 0x3F52F469, 0x3F5265BB, 0x3F51D82D, 0x3F514BBB] ++
  [0x3F50C062, 0x3F50361D, 0x3F4FACEA, 0x3F4F24C5, 0x3F4E9DAA, 0x3F4E1796, 0x3F4D9285, 0x3F4D0E76,
   0x3F4C8B63, 0x3F4C094B, 0x3F4B8829, 0x3F4B07FC, 0x3F4A88BF, 0x3F4A0A71, 0x3F498D0D, 0x3F491092] ++
  [0x3F4894FD, 0x3F481A4A, 0x3F47A078, 0x3F472783, 0x3F46AF68, 0x3F463826, 0x3F45C1BA, 0x3F454C21,
   0x3F44D759, 0x3F44635F, 0x3F43F031, 0x3F437DCD, 0x3F430C31, 0x3F429B59, 0x3F422B45, 0x3F41BBF1] ++
  [0x3F414D5C, 0x3F40DF84, 0x3F407266, 0x3F400600, 0x3F3F9A51, 0x3F3F2F56, 0x3F3EC50E, 0x3F3E5B76,
   0x3F3DF28C, 0x3F3D8A4F, 0x3F3D22BE, 0x3F3CBBD5, 0x3F3C5593, 0x3F3BEFF7, 0x3F3B8AFF, 0x3F3B26A9] ++
  [0x3F3AC2F3, 0x3F3A5FDC, 0x3F39FD62, 0x3F399B84, 0x3F393A3F, 0x3F38D993, 0x3F38797D, 0x3F3819FD,
   0x3F37BB10, 0x3F375CB5, 0x3F36FEEC, 0x3F36A1B1, 0x3F364505, 0x3F35E8E5, 0x3F358D50, 0x3F353245] ++
  [0x3F34AAB4, 0x3F33F7C9, 0x3F3346ED, 0x3F329816, 0x3F31EB3B, 0x3F314052, 0x3F309752, 0x3F2FF032,
   0x3F2F4AE9, 0x3F2EA76E, 0x3F2E05BA, 0x3F2D65C3, 0x3F2CC782, 0x3F2C2AF0, 0x3F2B9004, 0x3F2AF6B7] ++
  [0x3F2A5F03, 0x3F29C8E0, 0x3F293446, 0x3F28A131, 0x3F280F98, 0x3F277F76, 0x3F26F0C4, 0x3F26637D,
   0x3F25D79A, 0x3F254D15, 0x3F24C3EA, 0x3F243C11, 0x3F23B587, 0x3F233045, 0x3F22AC46, 0x3F222985] ++
  [0x3F21A7FE, 0x3F2127AC, 0x3F20A889, 0x3F202A91, 0x3F1FADC0, 0x3F1F3210, 0x3F1EB77F, 0x3F1E3E06,
   0x3F1DC5A3, 0x3F1D4E52, 0x3F1CD80D, 0x3F1C62D1, 0x3F1BEE9B, 0x3F1B7B67, 0x3F1B0930, 0x3F1A97F3] ++
  [0x3F1A27AE, 0x3F19B85B, 0x3F1949F8, 0x3F18DC82, 0x3F186FF5, 0x3F18044E, 0x3F17998A, 0x3F172FA5,
   0x3F16C69E, 0x3F165E70, 0x3F15F718, 0x3F159095, 0x3F152AE3, 0x3F14C5FF, 0x3F1461E7, 0x3F13FE97] ++
  [0x3F139C0E, 0x3F133A49, 0x3F12D945, 0x3F127900, 0x3F121978, 0x3F11BAA9, 0x3F115C92, 0x3F10FF30,
   0x3F10A281, 0x3F104684, 0x3F0FEB35, 0x3F0F9092, 0x3F0F369A, 0x3F0EDD4A, 0x3F0E84A0, 0x3F0E2C9B] ++
  [0x3F0DD538, 0x3F0D7E75, 0x3F0D2851, 0x3F0CD2C9, 0x3F0C7DDC, 0x3F0C2988, 0x3F0BD5CB, 0x3F0B82A4,
   0x3F0B3010, 0x3F0ADE0E, 0x3F0A8C9D, 0x3F0A3BBA, 0x3F09EB64, 0x3F099B9A, 0x3F094C59, 0x3F08FDA1] ++
  [0x3F08AF6F, 0x3F0861C3, 0x3F08149B, 0x3F07C7F5, 0x3F077BD0, 0x3F07302A, 0x3F06E503, 0x3F069A58,
   0x3F065029, 0x3F060674, 0x3F05BD38, 0x3F057474, 0x3F052C25, 0x3F04E44C, 0x3F049CE7, 0x3F0455F4] ++
  [0x3F040F72, 0x3F03C961, 0x3F0383BF, 0x3F033E8B, 0x3F02F9C3, 0x3F02B568, 0x3F027176, 0x3F022DEF,
   0x3F01EAD0, 0x3F01A818, 0x3F0165C6, 0x3F0123DA, 0x3F00E253, 0x3F00A12E, 0x3F00606D, 0x3F00200C]

/-- Table of rn(cos(2 pi k / 64)) (R113, R119). -/
def tabCos : List Nat :=
  [0x3F800000, 0x3F7EC46D, 0x3F7B14BE, 0x3F74FA0B, 0x3F6C835E, 0x3F61C598, 0x3F54DB31, 0x3F45E403,
   0x3F3504F3, 0x3F226799, 0x3F0E39DA, 0x3EF15AEA, 0x3EC3EF15, 0x3E94A031, 0x3E47C5C2, 0x3DC8BD36] ++
  [0x00000000, 0xBDC8BD36, 0xBE47C5C2, 0xBE94A031, 0xBEC3EF15, 0xBEF15AEA, 0xBF0E39DA, 0xBF226799,
   0xBF3504F3, 0xBF45E403, 0xBF54DB31, 0xBF61C598, 0xBF6C835E, 0xBF74FA0B, 0xBF7B14BE, 0xBF7EC46D] ++
  [0xBF800000, 0xBF7EC46D, 0xBF7B14BE, 0xBF74FA0B, 0xBF6C835E, 0xBF61C598, 0xBF54DB31, 0xBF45E403,
   0xBF3504F3, 0xBF226799, 0xBF0E39DA, 0xBEF15AEA, 0xBEC3EF15, 0xBE94A031, 0xBE47C5C2, 0xBDC8BD36] ++
  [0x00000000, 0x3DC8BD36, 0x3E47C5C2, 0x3E94A031, 0x3EC3EF15, 0x3EF15AEA, 0x3F0E39DA, 0x3F226799,
   0x3F3504F3, 0x3F45E403, 0x3F54DB31, 0x3F61C598, 0x3F6C835E, 0x3F74FA0B, 0x3F7B14BE, 0x3F7EC46D]

/-- Table of rn(sin(2 pi k / 64)) (R113, R119). -/
def tabSin : List Nat :=
  [0x00000000, 0x3DC8BD36, 0x3E47C5C2, 0x3E94A031, 0x3EC3EF15, 0x3EF15AEA, 0x3F0E39DA, 0x3F226799,
   0x3F3504F3, 0x3F45E403, 0x3F54DB31, 0x3F61C598, 0x3F6C835E, 0x3F74FA0B, 0x3F7B14BE, 0x3F7EC46D] ++
  [0x3F800000, 0x3F7EC46D, 0x3F7B14BE, 0x3F74FA0B, 0x3F6C835E, 0x3F61C598, 0x3F54DB31, 0x3F45E403,
   0x3F3504F3, 0x3F226799, 0x3F0E39DA, 0x3EF15AEA, 0x3EC3EF15, 0x3E94A031, 0x3E47C5C2, 0x3DC8BD36] ++
  [0x00000000, 0xBDC8BD36, 0xBE47C5C2, 0xBE94A031, 0xBEC3EF15, 0xBEF15AEA, 0xBF0E39DA, 0xBF226799,
   0xBF3504F3, 0xBF45E403, 0xBF54DB31, 0xBF61C598, 0xBF6C835E, 0xBF74FA0B, 0xBF7B14BE, 0xBF7EC46D] ++
  [0xBF800000, 0xBF7EC46D, 0xBF7B14BE, 0xBF74FA0B, 0xBF6C835E, 0xBF61C598, 0xBF54DB31, 0xBF45E403,
   0xBF3504F3, 0xBF226799, 0xBF0E39DA, 0xBEF15AEA, 0xBEC3EF15, 0xBE94A031, 0xBE47C5C2, 0xBDC8BD36]

/-- K64 = rn(64 / ln 2). -/
def cK64 : Nat := 0x42B8AA3B
/-- C1 = 2,839 × 2^-18. -/
def cC1 : Nat := 0x3C317000
/-- C2 = rn(ln 2 / 64 - C1). -/
def cC2 : Nat := 0x3505FDF4
/-- LN2 = rn(ln 2). -/
def cLN2 : Nat := 0x3F317218
/-- SIXTH = rn(1/6). -/
def cSixth : Nat := 0x3E2AAAAB
/-- THIRD = rn(1/3). -/
def cThird : Nat := 0x3EAAAAAB
/-- G1 = rn(sqrt(2 / pi)). -/
def cG1 : Nat := 0x3F4C422A
/-- G2 = rn(0.044715). -/
def cG2 : Nat := 0x3D372713
/-- One half. -/
def cHalf : Nat := 0x3F000000
/-- Three eighths. -/
def c375 : Nat := 0x3EC00000
/-- Two. -/
def cTwo : Nat := 0x40000000

/-- The decomposition |x| = m × 2^e of a finite non-zero code (R113): m as an FP32 code in [1, 2), e, and the 23-bit
fraction f of m, subnormal inputs included. -/
def fsplit (c : Nat) : Nat × Int × Nat :=
  match fdec c with
  | .fin _ m e =>
    let k := Nat.log2 m
    let f := (m - 2 ^ k) * 2 ^ (23 - k)
    (fOne + f, (k : Int) + e, f)
  | _ => (fOne, 0, 0)

/-- EXP (R114, R115). -/
def fexp (x : Nat) : Nat :=
  match fdec x with
  | .nan => fNaN
  | .inf s => if s then 0 else fInf
  | v =>
    let d := v.dy
    if d.m = 0 then fOne
    else if Dy.le ⟨128, 0⟩ d then fInf
    else if Dy.le d ⟨-104, 0⟩ then 0
    else
      let n := rneInt (fdec (fmul x cK64)).dy
      let m := n / 64
      let i := (n - 64 * m).toNat
      let nf := fofInt n
      let r := fsub x (fmul nf cC1)
      let r := fsub r (fmul nf cC2)
      let p := fmul r cSixth
      let p := fadd cHalf p
      let p := fmul r p
      let p := fadd fOne p
      let p := fmul r p
      let p := fadd fOne p
      fldexp (fmul (tabT.getD i 0) p) m

/-- LOG (R114, R115). -/
def flog (x : Nat) : Nat :=
  match fdec x with
  | .nan => fNaN
  | .inf s => if s then fNaN else fInf
  | .fin s m _ =>
    if m = 0 then fNegInf
    else if s then fNaN
    else
      let (mc, e, f) := fsplit x
      let j := f / 2 ^ 16
      let r := fsub (fmul mc (tabU.getD j 0)) fOne
      let q := fmul r cThird
      let q := fsub cHalf q
      let q := fmul r q
      let q := fsub fOne q
      let q := fmul r q
      fadd (fmul (fofInt e) cLN2) (fadd (tabV.getD j 0) q)

/-- RCP (R114, R116). -/
def frcp (x : Nat) : Nat :=
  match fdec x with
  | .nan => fNaN
  | .inf s => fsign s
  | .fin s m _ =>
    if m = 0 then fsign s + fInf
    else
      let (mc, e, f) := fsplit x
      let t := tabU.getD (f / 2 ^ 16) 0
      let d := fsub fOne (fmul mc t)
      let y := fadd t (fmul t (fadd d (fmul d d)))
      fsign s + fldexp y (-e)

/-- RSQRT (R114, R116). -/
def frsqrt (x : Nat) : Nat :=
  match fdec x with
  | .nan => fNaN
  | .inf s => if s then fNaN else 0
  | .fin s m _ =>
    if m = 0 then fsign s + fInf
    else if s then fNaN
    else
      let (mc, e, f) := fsplit x
      let p := (e % 2).toNat
      let mm := fldexp mc p
      let t := tabQ.getD (p * 128 + f / 2 ^ 16) 0
      let d := fsub fOne (fmul (fmul mm t) t)
      let y := fadd t (fmul t (fmul d (fadd cHalf (fmul c375 d))))
      fldexp y (-((e - (p : Int)) / 2))

/-- TANH (R114, R117). -/
def ftanh (x : Nat) : Nat :=
  match fdec x with
  | .nan => fNaN
  | .inf s => fsign s + fOne
  | .fin s m e =>
    let a := fabs x
    if m = 0 then x
    else if Dy.le ⟨10, 0⟩ ⟨m, e⟩ then fsign s + fOne
    else if Dy.lt ⟨m, e⟩ ⟨1, -12⟩ then x
    else
      let y := fsub fOne (fmul cTwo (frcp (fadd (fexp (fmul cTwo a)) fOne)))
      if s then fneg y else y

/-- SIGMOID (R114, R117). -/
def fsigmoid (x : Nat) : Nat :=
  match fdec x with
  | .nan => fNaN
  | .inf s => if s then 0 else fOne
  | .fin _ m _ => if m = 0 then cHalf else frcp (fadd fOne (fexp (fneg x)))

/-- GELU, tanh form (R114, R117). -/
def fgelu (x : Nat) : Nat :=
  match fdec x with
  | .nan => fNaN
  | .inf s => if s then 0x80000000 else fInf
  | .fin _ m _ =>
    if m = 0 then x
    else
      let u := fmul (fmul x x) x
      let u := fadd x (fmul cG2 u)
      let u := ftanh (fmul cG1 u)
      fmul (fmul cHalf x) (fadd fOne u)

/-! ### The 64-point transform -/

/-- A complex FP32 value. -/
abbrev Cx := Nat × Nat

/-- Complex sum, rounded per part. -/
def cadd (a b : Cx) : Cx := (fadd a.1 b.1, fadd a.2 b.2)
/-- Complex difference, rounded per part. -/
def csub (a b : Cx) : Cx := (fsub a.1 b.1, fsub a.2 b.2)
/-- The complex product of R119. -/
def cmul (x y : Cx) : Cx :=
  (fsub (fmul x.1 y.1) (fmul x.2 y.2), fadd (fmul x.1 y.2) (fmul x.2 y.1))
/-- Multiplication by −i·s: an exact swap and negation. -/
def cmulNegI (fwd : Bool) (a : Cx) : Cx := if fwd then (a.2, fneg a.1) else (fneg a.2, a.1)
/-- The twiddle C[k] − i·s·S[k]. -/
def twiddle (fwd : Bool) (k : Nat) : Cx :=
  (tabCos.getD k 0, if fwd then fneg (tabSin.getD k 0) else tabSin.getD k 0)

/-- The four outputs of one radix-4 butterfly at (stage, j), before they go back to positions q × span. -/
def butterfly (fwd : Bool) (stage j : Nat) (a0 a1 a2 a3 : Cx) : List Cx :=
  let t0 := cadd a0 a2
  let t1 := csub a0 a2
  let t2 := cadd a1 a3
  let t3 := cmulNegI fwd (csub a1 a3)
  let ys := [cadd t0 t2, cadd t1 t3, csub t0 t2, csub t1 t3]
  ys.zipIdx.map fun p => cmul p.1 (twiddle fwd (p.2 * j * 4 ^ stage))

/-- One stage over all 64 positions. -/
def fftStage (fwd : Bool) (stage : Nat) (x : List Cx) : List Cx :=
  let span := 16 / 4 ^ stage
  (List.range 64).map fun pos =>
    let base := pos / (4 * span) * (4 * span)
    let j := pos % span
    let q := (pos - base) / span
    let at' (i : Nat) : Cx := x.getD (base + j + i * span) (0, 0)
    (butterfly fwd stage j (at' 0) (at' 1) (at' 2) (at' 3)).getD q (0, 0)

/-- Reversal of the three base-4 digits of n. -/
def rev4 (n : Nat) : Nat := n % 4 * 16 + n / 4 % 4 * 4 + n / 16

/-- fft64 of R119. -/
def fft64 (fwd : Bool) (x : List Cx) : List Cx :=
  let y := fftStage fwd 2 (fftStage fwd 1 (fftStage fwd 0 x))
  (List.range 64).map fun n => y.getD (rev4 n) (0, 0)

/-- Rows and columns exchanged in a 64 × 64 tile. -/
def transpose64 (t : List (List Cx)) : List (List Cx) :=
  (List.range 64).map fun c => t.map fun row => row.getD c (0, 0)

/-- A tile transformed along its rows, then along its columns (R119), every output scaled by 2^exp (R118). -/
def fft2d (fwd : Bool) (exp : Int) (t : List (List Cx)) : List (List Cx) :=
  let rows := t.map (fft64 fwd)
  let cols := (transpose64 rows).map (fft64 fwd)
  (transpose64 cols).map fun r => r.map fun z => (fldexp z.1 exp, fldexp z.2 exp)

end Sys2Proof.Machine
end

