-- ==== Sys2Proof/Machine/Arrays.lean ====
section
/-!
DEFINITION. The array and the vector unit: MATMUL (R104 to R107, R179), VECTOR (R83, R84, R108 to R111), FFT2D (R118,
R119), and what every array step shares: reductions, read-out, the output tensors.
-/
namespace Sys2Proof.Machine

/-! ### Operands -/

/-- What reads operand bytes: an address and a length. -/
abbrev Reader := Nat → Nat → List Byte

/-- Elements of a row that begins at an address. -/
def Reader.elems (rd : Reader) (w n a : Nat) : List Nat := unpackElems w n (rd a (rowBytes w n))

/-- Row r of a tensor of n elements a row. -/
def Reader.row (rd : Reader) (w n a r : Nat) : List Nat := rd.elems w n (a + r * pitchOf w n)

/-- Row r of a scale tensor of n scales a row; none where there is no tensor (R66). -/
def Reader.scales (rd : Reader) (a n r : Nat) : List Nat :=
  if a = noAddr then [] else (rd (a + r * roundUp n 32) n).map (·.toNat)

/-- The FP32 bias of an output channel. -/
def Reader.bias (rd : Reader) (a n : Nat) : Option Nat := if a = noAddr then none else some (leNat (rd (a + 4 * n) 4))

/-- An address may be absent, else is 32-byte aligned. -/
def optOk (a : Nat) : Bool := a == noAddr || a % 32 == 0

/-- The extent of an operand where it is given. -/
def optExt (a len : Nat) : List Ext := if a = noAddr then [] else [⟨a, len⟩]

/-- The extent of rows of n elements of a format; none where the format is reserved (R80 refuses it later). Log entry 38. -/
def tensorExt (fc a rows n : Nat) : List Ext := match fmtOf fc with
  | some f => [⟨a, rows * pitchOf f.width n⟩]
  | none => []

/-! ### Reductions -/

/-- The accumulator of one output: a row of A, a row of W, their scales, the bias (R68 to R73). -/
def dotAcc (ar : Arith) (a sa w sw : List Nat) (bias : Option Nat) : Acc :=
  let g := 32 * ar.k
  let xs : List MacIn := (a.zip w).zipIdx.map fun x => ⟨x.1.1, x.1.2, sa.getD (x.2 / g) 127, sw.getD (x.2 / g) 127⟩
  let acc := reduceDot ar.aFmt ar.wFmt ar.k ar.accLsb xs
  match bias with
  | some b => acc.bias ar.accLsb b
  | none => acc

/-- One product term, negated or not (R68, R107). -/
def Acc.product (fa fw : Fmt) (l : Int) (neg : Bool) (acc : Acc) (x y : Nat) : Acc :=
  match elemProduct fa fw ⟨x, y, 127, 127⟩ with
  | some p => acc.enter l ⟨if neg then -p else p, fa.qe + fw.qe⟩
  | none => { acc with nf := true }

/-- The two accumulators of a complex output over interleaved parts (R107). -/
def cplxAcc (ca cw : Nat) (l : Int) (a w : List Nat) : Acc × Acc :=
  let fa := fmtD ca
  let fw := fmtD cw
  (List.range (a.length / 2)).foldl (fun (acc : Acc × Acc) i =>
    let x := fun j => a.getD (2 * i + j) 0
    let y := fun j => w.getD (2 * i + j) 0
    ((acc.1.product fa fw l false (x 0) (y 0)).product fa fw l true (x 1) (y 1),
     (acc.2.product fa fw l false (x 0) (y 1)).product fa fw l false (x 1) (y 0))) (Acc.zero, Acc.zero)

/-! ### Output rows (R74, R75, R82, R106, R179) -/

/-- What one output row gives: the codes, the scales, the flags, the argmax record, the conditions. -/
structure OutRow where
  codes : List Nat
  scales : List Nat
  flags : List Bool
  record : List Byte
  cond : Cond
  deriving DecidableEq, Repr

/-- The channel that argmax selects, with its code (R179). -/
def argmaxOf (f : Fmt) (xs : List (Nat × Cond)) : Nat × Nat :=
  let key : Nat × Cond → Option Int := fun x => if x.2.nf then none else match f.decode x.1 with
    | .num n => some n
    | .nonFinite => none
  let better : Option Int → Option Int → Bool := fun a b => match a, b with
    | none, some _ => true
    | some x, some y => decide (y < x)
    | _, none => false
  (xs.zipIdx.foldl (fun (a : Option (Nat × Nat × Option Int)) x => match a with
    | none => some (x.2, x.1.1, key x.1)
    | some b => if better (key x.1) b.2.2 then some (x.2, x.1.1, key x.1) else some b) none).elim (0, 0) fun b => (b.1, b.2.1)

/-- Outputs already converted, with POST_OP applied; `per` parts make one element. -/
def outRowOf (f : Fmt) (post per : Nat) (xs : List (Nat × Cond)) (scales : List Nat) : OutRow :=
  let (ix, v) := argmaxOf f xs
  { codes := xs.map fun x => if post = 1 then f.relu x.1 else x.1
    scales := scales
    flags := (List.range (xs.length / per)).map fun i =>
      (List.range per).any fun j => (xs.getD (i * per + j) (0, Cond.none)).2.any
    record := padTo 32 (natLe 2 ix ++ packElems f.width [v])
    cond := xs.foldl (fun c x => c.or x.2) Cond.none }

/-- The read-out of one output row; `base` is the element index of its first part (R77). -/
def finishRow (ar : Arith) (seed post per base : Nat) (accs : List Acc) : OutRow :=
  let (xs, scales) := readOutRow ar seed base (32 * per) accs
  outRowOf (fmtD ar.outFmt) post per xs scales

/-- The bytes of the output rows: argmax records, or packed rows at their pitch. -/
def outBytes (ar : Arith) (post : Nat) (rows : List OutRow) : List Byte :=
  if post = 2 then rows.flatMap OutRow.record else packRows (fmtD ar.outFmt).width (rows.map OutRow.codes)

/-- The bytes of the output scales. -/
def scaleBytes (rows : List OutRow) : List Byte :=
  rows.flatMap fun r => padTo (roundUp r.scales.length 32) (r.scales.map (BitVec.ofNat 8))

/-- What an array step writes: output, output scales, flag map. -/
def outParts (ar : Arith) (post o os fmap : Nat) (body : List Byte) (rows : List OutRow) : List (Nat × List Byte) :=
  [(o, body)] ++ (if ar.outExp = 0xFF ∧ post ≠ 2 then [(os, scaleBytes rows)] else []) ++
    (if fmap = noAddr then [] else [(fmap, packBits (rows.flatMap OutRow.flags))])

/-- The extents of what an array step writes: M rows of N elements of `per` parts. -/
def outExts (ar : Arith) (post per o os fmap m n : Nat) : List Ext :=
  (if post = 2 then [⟨o, 32 * m⟩] else tensorExt ar.outFmt o m (per * n)) ++
  (if ar.outExp = 0xFF ∧ post ≠ 2 then [⟨os, m * roundUp (cdiv n 32) 32⟩] else []) ++ optExt fmap (cdiv (m * n) 8)

/-- The status of the rows (R82). -/
def rowsStatus (rows : List OutRow) : Nat := (rows.foldl (fun c r => c.or r.cond) Cond.none).status

/-! ### What every compute step of a core shares -/

/-- JOB_SEED (R222). -/
def Job.seed (j : Job) : Nat := leAt j.desc 0x10 8

/-- The image allows stochastic rounding (R78). -/
def State.stochOk (s : State) : Bool := match s.ward.image with
  | some i => match i.depot with
    | some (_, b) => b
    | none => false
  | none => false

/-- The checks of R102 on extents: beyond the scratchpad, an output in the weight-resident region, an overlap that is not
allowed (R106). -/
def padChecks (weights : Nat) (ins outs : List Ext) : List Nat :=
  [codeIf ((ins ++ outs).any fun e => decide (padBytes < e.lo + e.len)) 0x0621,
   codeIf (outs.any fun e => decide (e.lo < weights)) 0x0621,
   codeIf (extsMeet outs ins || selfMeet outs) 0x0624]

/-- The checks of an ARITH word (R78, R80). -/
def State.arithChecks (s : State) (ar : Arith) (sa sw : Bool) : List Nat :=
  [codeIf (ar.invalid sa sw) 0x0204, codeIf (ar.stoch && !s.stochOk) 0x0203]

/-- The extents of pieces that are written. -/
def partExts (parts : List (Nat × List Byte)) : List Ext := parts.map fun x => ⟨x.1, x.2.length⟩

/-- The pieces of a compute step written, in a pair to both scratchpads. -/
def State.writeParts (s : State) (c : StepCtx) (parts : List (Nat × List Byte)) : State :=
  s.modPadOf c.p c.t fun p => parts.foldl (fun p x => p.write (s.weights c.core) x.1 x.2) p

/-- What the first n output rows of a step read, by what each of them reads. -/
def rowReads (needs : Nat → List Ext) (n : Nat) : List Ext := (List.range n).flatMap needs

/-- How many output rows a compute step has written when a bank refuses an access (R156): as many as the operand says, but
none that reads or writes a bank that refuses it. Log entry 33. -/
def Pad.rowsBefore (p : Pad) (needs : Nat → List Ext) (parts : Nat → List (Nat × List Byte)) : Nat → Nat
  | 0 => 0
  | n + 1 =>
    if p.refused (rowReads needs (n + 1) ++ partExts (parts (n + 1))) = 0 then n + 1 else p.rowsBefore needs parts n

/-- A compute step of a core ends: its reads meet errors, its writes are made (R139). `needs i` is what output row i reads,
`parts n` what the first n of `rows` output rows write. Where a bank refuses one of its accesses the rows written before stand,
with the errors that they met (R156); it waits where a bank opens (R155). Log entry 33. -/
def State.computeStep (s : State) (c : StepCtx) (env : StepEnv) (reads : List Ext) (needs : Nat → List Ext)
    (status rows : Nat) (parts : Nat → List (Nat × List Byte)) : Option (State × StepPhase) :=
  let pad := s.padOf c.p c.t
  let exts := reads ++ partExts (parts rows)
  if s.padHeld c.p c.t exts then none
  else
    let code := pad.refused exts
    if code ≠ 0 then
      let n := pad.rowsBefore needs parts (min env.rowsDone rows)
      if n = 0 then some (s, .done code false)
      else
        let (s1, ue) := s.padErrors c env (rowReads needs n)
        some ((s1.writeParts c (parts n)).markUe c.p ue, .done (worse code (codeIf ue 0x0310)))
    else
      let (s1, ue) := s.padErrors c env reads
      some ((s1.writeParts c (parts rows)).markUe c.p ue, .done (worse status (codeIf ue 0x0310)))

/-! ### MATMUL (R104 to R107) -/

/-- The body of a MATMUL step. -/
structure MmBody where
  ar : Arith
  a : Nat
  w : Nat
  o : Nat
  sa : Nat
  sw : Nat
  bias : Nat
  os : Nat
  fmap : Nat
  m : Nat
  n : Nat
  k : Nat
  mode : Nat
  post : Nat
  deriving DecidableEq, Repr

/-- The fields of a MATMUL step. -/
def mmBody (b : List Byte) : MmBody :=
  ⟨.ofNat (leAt b 8 8), leAt b 0x10 4, leAt b 0x14 4, leAt b 0x18 4, leAt b 0x1C 4, leAt b 0x20 4, leAt b 0x24 4,
   leAt b 0x28 4, leAt b 0x2C 4, leAt b 0x30 2, leAt b 0x32 2, leAt b 0x34 4, leAt b 0x38 1, leAt b 0x39 1⟩

/-- CPLX. -/
def MmBody.cplx (x : MmBody) : Bool := tbit x.mode 4
/-- Parts of an element. -/
def MmBody.per (x : MmBody) : Nat := if x.cplx then 2 else 1
/-- Scales of a row of A or W. -/
def MmBody.groups (x : MmBody) : Nat := cdiv x.k (32 * x.ar.k)

/-- The field checks of MATMUL (R104, R107, R179). -/
def MmBody.fields (x : MmBody) (b : List Byte) : Bool :=
  x.a % 32 == 0 && x.w % 32 == 0 && x.o % 32 == 0 && optOk x.sa && optOk x.sw && optOk x.bias && optOk x.fmap &&
  (x.ar.outExp != 0xFF || (x.post != 2 && x.os % 32 == 0)) && x.m != 0 && x.n != 0 && x.k != 0 &&
  decide (x.k ≤ 1048576) && decide (x.mode % 8 ≤ 5) && x.mode / 32 == 0 && !tbit x.mode 3 && decide (x.post ≤ 2) &&
  zeroRange b 0x3A 6 &&
  (!x.cplx || (isFp16 x.ar.aFmt && isFp16 x.ar.wFmt && x.sa == noAddr && x.sw == noAddr && x.post != 2))

/-- The extents that MATMUL reads. -/
def MmBody.ins (x : MmBody) : List Ext :=
  tensorExt x.ar.aFmt x.a x.m (x.per * x.k) ++ tensorExt x.ar.wFmt x.w x.n (x.per * x.k) ++
  optExt x.sa (x.m * roundUp x.groups 32) ++ optExt x.sw (x.n * roundUp x.groups 32) ++ optExt x.bias (4 * x.n)

/-- The extents that MATMUL writes. -/
def MmBody.outs (x : MmBody) : List Ext := outExts x.ar x.post x.per x.o x.os x.fmap x.m x.n

/-- The checks of MATMUL in the order of R102. -/
def mmCheck (s : State) (c : StepCtx) : Nat :=
  let x := mmBody c.b
  firstCode ([codeIf (!x.fields c.b) 0x0622] ++ padChecks (s.weights c.core) x.ins x.outs ++
    s.arithChecks x.ar (x.sa != noAddr) (x.sw != noAddr))

/-- Output row r of a MATMUL. -/
def MmBody.outRow (x : MmBody) (rd : Reader) (seed r : Nat) : OutRow :=
  let wa := (fmtD x.ar.aFmt).width
  let ww := (fmtD x.ar.wFmt).width
  let a := rd.row wa (x.per * x.k) x.a r
  let accs := (List.range x.n).flatMap fun j =>
    let w := rd.row ww (x.per * x.k) x.w j
    if x.cplx then
      let (re, im) := cplxAcc x.ar.aFmt x.ar.wFmt x.ar.accLsb a w
      [match rd.bias x.bias j with | some v => re.bias x.ar.accLsb v | none => re, im]
    else [dotAcc x.ar a (rd.scales x.sa x.groups r) w (rd.scales x.sw x.groups j) (rd.bias x.bias j)]
  finishRow x.ar seed x.post x.per (r * x.n * x.per) accs

/-- The output rows of a MATMUL. -/
def MmBody.rows (x : MmBody) (rd : Reader) (seed : Nat) : List OutRow := (List.range x.m).map (x.outRow rd seed)

/-- What output row r of a MATMUL reads: a row of A with its scales, all of W, the bias. -/
def MmBody.needs (x : MmBody) (r : Nat) : List Ext :=
  let w := (fmtD x.ar.aFmt).width
  ⟨x.a + r * pitchOf w (x.per * x.k), rowBytes w (x.per * x.k)⟩ ::
    (optExt (if x.sa = noAddr then noAddr else x.sa + r * roundUp x.groups 32) x.groups ++
      tensorExt x.ar.wFmt x.w x.n (x.per * x.k) ++ optExt x.sw (x.n * roundUp x.groups 32) ++ optExt x.bias (4 * x.n))

/-- The effect of MATMUL. -/
def mmEffect (env : StepEnv) (s : State) (c : StepCtx) : Option (State × StepPhase) :=
  let x := mmBody c.b
  let rows := x.rows (s.padRead c env).bytes c.job.seed
  s.computeStep c env x.ins x.needs (rowsStatus rows) x.m fun n =>
    outParts x.ar x.post x.o x.os x.fmap (outBytes x.ar x.post (rows.take n)) (rows.take n)

/-! ### VECTOR (R108 to R111) -/

/-- A stream of a vector program. -/
structure VecStream where
  addr : Nat
  scale : Nat
  fmt : Nat
  out : Bool
  stoch : Bool
  bcast : Bool
  exp : Nat
  tensorId : Nat
  deriving DecidableEq, Repr

/-- An operation of a vector program. -/
structure VecOp where
  opc : Nat
  d : Nat
  a : Nat
  b : Nat
  imm : Nat
  deriving DecidableEq, Repr

/-- A vector program. -/
structure VecProg where
  rows : Nat
  len : Nat
  nStreams : Nat
  nOps : Nat
  streams : List VecStream
  ops : List VecOp
  deriving DecidableEq, Repr

/-- The bytes of a program whose header these 16 bytes are. -/
def vecBytes (h : List Byte) : Nat := 16 + 16 * leAt h 6 1 + 8 * leAt h 8 2

/-- A program from its bytes. -/
def vecProg (b : List Byte) : VecProg :=
  let ns := leAt b 6 1
  let no := leAt b 8 2
  ⟨leAt b 0 4, leAt b 4 2, ns, no,
   (List.range ns).map fun i =>
     let o := 16 + 16 * i
     ⟨leAt b o 4, leAt b (o + 4) 4, leAt b (o + 8) 1, tbit (leAt b (o + 9) 1) 0, tbit (leAt b (o + 9) 1) 1,
      tbit (leAt b (o + 9) 1) 2, leAt b (o + 0x0A) 1, leAt b (o + 0x0C) 4⟩,
   (List.range no).map fun i =>
     let o := 16 + 16 * ns + 8 * i
     ⟨leAt b o 1, leAt b (o + 1) 1, leAt b (o + 2) 1, leAt b (o + 3) 1, leAt b (o + 4) 4⟩⟩

/-- The kind of an operand byte. -/
def vKind (x : Nat) : Nat := x / 64
/-- The index of an operand byte. -/
def vIx (x : Nat) : Nat := x % 16

/-- An operand of an elementwise operation is a line, a scalar register or IMM, in range (R109). -/
def vSource (x : Nat) : Bool := match vKind x with
  | 0 => decide (vIx x < 8)
  | 1 => true
  | 2 => true
  | _ => false

/-- Operations with two sources. -/
def vBinary (o : Nat) : Bool := [0x10, 0x11, 0x12, 0x13, 0x14, 0x17, 0x40, 0x41, 0x42, 0x43].contains o
/-- Operations with one source. -/
def vUnary (o : Nat) : Bool := [0x15, 0x16, 0x20, 0x21, 0x22, 0x23, 0x24, 0x25, 0x26, 0x44, 0x45].contains o
/-- Reductions. -/
def vReduce (o : Nat) : Bool := [0x30, 0x31, 0x32].contains o

/-- An operation is valid in a program (R109, R110). -/
def VecProg.opOk (v : VecProg) (o : VecOp) : Bool :=
  let stream : Nat → Bool → Bool := fun x out => vKind x == 3 && (match v.streams[vIx x]? with
    | some t => t.out == out
    | none => false)
  let line : Nat → Bool := fun x => vKind x == 0 && decide (vIx x < 8)
  let spare : Nat → Bool := fun x => x / 16 % 4 == 0
  let dest := (vKind o.d == 0 && decide (vIx o.d < 8)) || vKind o.d == 1
  let noLine : Nat → Bool := fun x => vKind o.d != 1 || vKind x != 0
  spare o.d && spare o.a && spare o.b &&
  (if o.opc = 0x01 then line o.d && stream o.a false
  else if o.opc = 0x02 then stream o.d true && line o.a
  else if vReduce o.opc then vKind o.d == 1 && line o.a
  else if vBinary o.opc then dest && vSource o.a && vSource o.b && noLine o.a && noLine o.b
  else vUnary o.opc && dest && vSource o.a && noLine o.a)

/-- Scale groups of a row. -/
def VecProg.groups (v : VecProg) : Nat := cdiv v.len 32

/-- The rows that a stream has: one where row 0 serves all. -/
def VecProg.streamRows (v : VecProg) (t : VecStream) : Nat := if t.bcast && !t.out then 1 else v.rows

/-- A stream entry is valid (R108). Log entry 38. -/
def streamOk (b : List Byte) (i : Nat) (t : VecStream) : Bool :=
  let o := 16 + 16 * i
  t.addr % 32 == 0 && optOk t.scale && (fmtOf t.fmt).isSome && decide (leAt b (o + 9) 1 < 8) && leAt b (o + 0x0B) 1 == 0 &&
  (t.out || !t.stoch) && !(t.out && t.bcast) && !(t.out && t.exp == 0xFF && t.scale == noAddr)

/-- The field checks of a program's header. -/
def VecProg.headOk (v : VecProg) (b : List Byte) : Bool :=
  decide (1 ≤ v.rows) && decide (v.rows ≤ 1048576) && decide (1 ≤ v.len) && decide (v.len ≤ 8192) &&
  decide (1 ≤ v.nStreams) && decide (v.nStreams ≤ 8) && decide (1 ≤ v.nOps) && decide (v.nOps ≤ 256) &&
  leAt b 7 1 == 0 && zeroRange b 0x0A 6

/-- The field checks of a program's stream entries and operations, of those that lie in its first n bytes. -/
def VecProg.fields (v : VecProg) (b : List Byte) (n : Nat) : Bool :=
  (v.streams.zipIdx.all fun x => decide (n < 32 + 16 * x.2) || streamOk b x.2 x.1) &&
  v.ops.zipIdx.all fun x => decide (n < 24 + 16 * v.nStreams + 8 * x.2) || v.opOk x.1

/-- The extents of a stream. -/
def VecProg.streamExts (v : VecProg) (t : VecStream) : List Ext :=
  ⟨t.addr, v.streamRows t * pitchOf (fmtD t.fmt).width v.len⟩ ::
    (if t.out && t.exp != 0xFF then [] else optExt t.scale (v.streamRows t * roundUp v.groups 32))

/-- The program of a VECTOR step. -/
def vecOf (rd : Reader) (b : List Byte) : List Byte :=
  let a := leAt b 8 4
  rd a (vecBytes (rd a 16))

/-- The checks of a VECTOR step. The program is read to be checked: a bank that refuses that read ends the step. Where the
program would run beyond the scratchpad, the fields that lie inside are checked before that (R102). -/
def vecCheck (s : State) (c : StepCtx) : Nat :=
  let a := leAt c.b 8 4
  let pad := s.padOf c.p c.t
  let b := vecOf pad.bytes c.b
  let v := vecProg b
  let outs := (v.streams.filter (·.out)).flatMap v.streamExts
  let n := min b.length (padBytes - a)
  if a % 32 ≠ 0 ∨ zeroRange c.b 0x0C 52 = false then 0x0622
  else if padBytes < a + 16 then 0x0621
  else if pad.refused [⟨a, 16⟩] ≠ 0 then pad.refused [⟨a, 16⟩]
  else if v.headOk b = false then 0x0622
  else if pad.refused [⟨a, n⟩] ≠ 0 then pad.refused [⟨a, n⟩]
  else if v.fields b n = false then 0x0622
  else if padBytes < a + b.length then 0x0621
  else firstCode
    [codeIf ((v.streams.flatMap v.streamExts).any fun e => decide (padBytes < e.lo + e.len)) 0x0621,
     codeIf (outs.any fun e => decide (e.lo < s.weights c.core)) 0x0621,
     codeIf ((v.streams.any fun t => t.out && t.stoch) && !s.stochOk) 0x0203]

/-- A line: its words without a type (R110), whether it was loaded as INT32, which RSUM asks (R110), and whether ST
converts its words as INT32: a line loaded as INT32, or written last by an operation whose results are INT32 (DEDUCED, log
entry 93). Log entry 93. -/
structure VecLine where
  words : List Nat
  loadedInt : Bool
  isInt : Bool
  deriving DecidableEq, Repr

/-- A line of no words. -/
def VecLine.none : VecLine := ⟨[], false, false⟩

/-- The vector unit while a program runs: the scratchpad as it stands, the stores made in order, lines, scalars,
conditions, the code of the access that a bank has refused, what it has loaded. -/
structure VecSt where
  pad : Pad
  stores : List (Nat × List Byte)
  lines : List VecLine
  scalars : List Nat
  cond : Cond
  code : Nat
  loads : List Ext
  deriving DecidableEq, Repr

/-- The result of an elementwise operation (R83, R110, R113 to R117). -/
def vecFn (opc a b : Nat) : Nat :=
  match opc with
  | 0x10 => fadd a b
  | 0x11 => fsub a b
  | 0x12 => fmul a b
  | 0x13 => fmax a b
  | 0x14 => fmin a b
  | 0x15 => fabs a
  | 0x16 => fneg a
  | 0x17 => fldexp a (max (-300) (min 300 (sgn 32 b)))
  | 0x20 => fexp a
  | 0x21 => flog a
  | 0x22 => frcp a
  | 0x23 => frsqrt a
  | 0x24 => ftanh a
  | 0x25 => fsigmoid a
  | 0x26 => fgelu a
  | 0x40 => iadd a b
  | 0x41 => isub a b
  | 0x42 => imul a b
  | 0x43 => isra a b
  | 0x44 => fofInt (sgn 32 a)
  | _ => ftoi a

/-- The results of the operation are INT32 words, and ST converts a line of them as INT32 (DEDUCED, log entry 93). -/
def vecInt (opc : Nat) : Bool := [0x40, 0x41, 0x42, 0x43, 0x45].contains opc

/-- A source of an elementwise operation at element i. -/
def VecSt.source (x : VecSt) (imm o i : Nat) : Nat := match vKind o with
  | 0 => (x.lines.getD (vIx o) .none).words.getD i 0
  | 1 => x.scalars.getD (vIx o) 0
  | _ => imm

/-- LD: a row of a stream, converted (R110). -/
def VecProg.load (v : VecProg) (x : VecSt) (t : VecStream) (row : Nat) : VecLine :=
  let f := fmtD t.fmt
  let r := if t.bcast then 0 else row
  let es := Reader.row x.pad.bytes f.width v.len t.addr r
  if f.isInt && t.scale == noAddr then ⟨es.map fun e => unsgn 32 (sgn f.width e), true, true⟩
  else
    let sc := Reader.scales x.pad.bytes t.scale v.groups r
    ⟨es.zipIdx.map fun e => toF32 t.fmt (sc.getD (e.2 / 32) 127) e.1, false, false⟩

/-- The exact value of a word of a line; none where it is not finite. -/
def lineValue (isInt : Bool) (w : Nat) : Option Dy :=
  if isInt then some ⟨sgn 32 w, 0⟩
  else match (fmtD 9).decode w with
    | .num n => some ⟨n, (fmtD 9).qe⟩
    | .nonFinite => none

/-- A value converted to a stream's format under scale X (R74, R83). Log entry 38. -/
def Fmt.store (f : Fmt) (x : Nat) (r : RoundMode) : Option Dy → Nat × Cond
  | none => (f.nanCode, ⟨false, false, true⟩)
  | some v =>
    let c := f.convert r (v.shift (127 - (x : Int)))
    (c.1, ⟨c.2, false, false⟩)

/-- ST: a line converted to a row of a stream (R75, R83, R111): codes, scales, conditions. A word that keeps its format
is stored as it is. Log entries 38, 93. -/
def VecProg.storeRow (v : VecProg) (seed : Nat) (t : VecStream) (row : Nat) (l : VecLine) : List (Nat × Cond) × List Nat :=
  let f := fmtD t.fmt
  let ws := l.words.take v.len
  let vs := ws.map (lineValue l.isInt)
  let mode : Nat → RoundMode := fun i => if t.stoch then .stochastic (stochDraw seed t.tensorId (row * v.len + i)) else .nearest
  if t.exp = 0xFF then
    let gs := chunksOf 32 vs.length vs
    let xs := gs.map fun g => groupScale f (g.foldl (fun m y => match y with
      | some d => if m.lt d.abs then d.abs else m
      | none => m) ⟨0, 0⟩)
    (vs.zipIdx.map fun y => f.store (xs.getD (y.2 / 32) 127) (mode y.2) y.1, xs)
  else if t.exp = 127 ∧ t.fmt = (if l.isInt then 10 else 9) then (ws.map fun w => (w, Cond.none), [])
  else (vs.zipIdx.map fun y => f.store t.exp (mode y.2) y.1, [])

/-- The extents of a row of a stream: elements, and scales where it has them. -/
def VecProg.rowExts (v : VecProg) (t : VecStream) (row : Nat) : List Ext :=
  let r := if t.bcast && !t.out then 0 else row
  let pitch := pitchOf (fmtD t.fmt).width v.len
  ⟨t.addr + r * pitch, pitch⟩ ::
    (if t.out && t.exp != 0xFF then [] else optExt (t.scale + r * roundUp v.groups 32) (roundUp v.groups 32))

/-- What ST of a row writes, with its conditions. -/
def VecProg.stored (v : VecProg) (seed : Nat) (t : VecStream) (row : Nat) (l : VecLine) : List (Nat × List Byte) × Cond :=
  let f := fmtD t.fmt
  let (ys, xs) := v.storeRow seed t row l
  let body := padTo (pitchOf f.width v.len) (packElems f.width (ys.map (·.1)))
  let sc := if t.exp = 0xFF then
      [(t.scale + row * roundUp v.groups 32, padTo (roundUp v.groups 32) (xs.map (BitVec.ofNat 8)))] else []
  ((t.addr + row * pitchOf f.width v.len, body) :: sc, ys.foldl (fun c y => c.or y.2) Cond.none)

/-- One operation of a program on a row. -/
def VecProg.op (v : VecProg) (seed row : Nat) (x : VecSt) (o : VecOp) : VecSt :=
  let setLine : VecLine → VecSt := fun l => { x with lines := x.lines.set (vIx o.d) l }
  let setScalar : Nat → VecSt := fun w => { x with scalars := x.scalars.set (vIx o.d) w }
  let stream : Nat → VecStream := fun i => v.streams.getD (vIx i) ⟨0, 0, 0, false, false, false, 0, 0⟩
  if o.opc = 0x01 then
    { setLine (v.load x (stream o.a) row) with loads := x.loads ++ v.rowExts (stream o.a) row }
  else if o.opc = 0x02 then
    let (st, cond) := v.stored seed (stream o.d) row (x.lines.getD (vIx o.a) .none)
    { x with pad := st.foldl (fun p y => p.putBytes y.1 y.2) x.pad, stores := x.stores ++ st, cond := x.cond.or cond }
  else if vReduce o.opc then
    let l := x.lines.getD (vIx o.a) .none
    let ws := l.words.take v.len
    setScalar (if o.opc = 0x30 then (if l.loadedInt then treeReduce iadd 0 ws else treeReduce fadd 0 ws)
      else if o.opc = 0x31 then treeReduce fmax fNegInf ws else treeReduce fmin fInf ws)
  else if vKind o.d = 1 then setScalar (vecFn o.opc (x.source o.imm o.a 0) (x.source o.imm o.b 0))
  else setLine ⟨(List.range v.len).map fun i => vecFn o.opc (x.source o.imm o.a i) (x.source o.imm o.b i), false,
    vecInt o.opc⟩

/-- One operation of a program on a row, where no bank refuses an access of it or has refused one before (R156). -/
def VecProg.exec (v : VecProg) (seed row : Nat) (x : VecSt) (o : VecOp) : VecSt :=
  let exts := match o.opc with
    | 0x01 => (v.streams[vIx o.a]?).elim [] fun t => v.rowExts t row
    | 0x02 => (v.streams[vIx o.d]?).elim [] fun t => v.rowExts t row
    | _ => []
  let code := x.pad.refused exts
  if x.code ≠ 0 then x
  else if code ≠ 0 then { x with code := code }
  else v.op seed row x o

/-- A whole program, rows in ascending order (R111). Lines and scalars that nothing has set hold undefined words (log
entry 2). Log entry 39. -/
def VecProg.run (v : VecProg) (seed epoch : Nat) (pad : Pad) : VecSt :=
  let word : Nat → Nat := fun i => leNat ((List.range 4).map fun j => Config.freeByte epoch (4 * i + j))
  let x0 : VecSt := ⟨pad, [], (List.range 8).map fun l => ⟨(List.range v.len).map fun i => word (8192 * l + i), false, false⟩,
    (List.range 16).map fun r => word (65536 + r), Cond.none, 0, []⟩
  (List.range v.rows).foldl (fun x row => v.ops.foldl (v.exec seed row) x) x0

/-- The extents that a program reads: itself and the streams that it loads. -/
def VecProg.reads (v : VecProg) (a n : Nat) : List Ext :=
  ⟨a, n⟩ :: (v.ops.filter fun o => o.opc == 0x01).flatMap fun o =>
    (v.streams[vIx o.a]?).elim [] v.streamExts

/-- The effect of a VECTOR step; the stores made before a bank refuses an access stand, with the errors that the loads before met
(R111, R139, R156). -/
def vecEffect (env : StepEnv) (s : State) (c : StepCtx) : Option (State × StepPhase) :=
  let pad := s.padRead c env
  let b := vecOf pad.bytes c.b
  let v := vecProg b
  let x := v.run c.job.seed (s.fresh + 1) pad
  let s1 : State := { s with fresh := s.fresh + 2 }
  if x.code ≠ 0 ∧ s.padHeld c.p c.t (v.streams.flatMap v.streamExts) = false then
    let (s2, ue) := s1.padErrors c env (⟨leAt c.b 8 4, b.length⟩ :: x.loads)
    some ((s2.writeParts c x.stores).markUe c.p ue, .done (worse x.code (codeIf ue 0x0310)) !x.stores.isEmpty)
  else
    let reads := v.reads (leAt c.b 8 4) b.length
    s1.computeStep c env reads (fun _ => reads) x.cond.status v.rows fun _ => x.stores

/-! ### FFT2D (R118, R119) -/

/-- The complex FP32 elements of a 64 × 64 tile. -/
def tileOf (bs : List Byte) : List (List Cx) :=
  (List.range 64).map fun r => (List.range 64).map fun k => (leAt bs (8 * (64 * r + k)) 4, leAt bs (8 * (64 * r + k) + 4) 4)

/-- The bytes of a tile. -/
def tileBytes (t : List (List Cx)) : List Byte := t.flatMap fun r => r.flatMap fun z => natLe 4 z.1 ++ natLe 4 z.2

/-- The checks of FFT2D. -/
def fftCheck (s : State) (c : StepCtx) : Nat :=
  let i := leAt c.b 8 4
  let o := leAt c.b 0x0C 4
  let t := leAt c.b 0x10 2
  let e := sgn 8 (leAt c.b 0x13 1)
  let x : Ext := ⟨i, 32768 * t⟩
  let y : Ext := ⟨o, 32768 * t⟩
  firstCode
    [codeIf (i % 32 != 0 || o % 32 != 0 || t == 0 || decide (1024 < t) || decide (1 < leAt c.b 0x12 1) ||
      decide (e < -24) || decide (24 < e) || !zeroRange c.b 0x14 44) 0x0622,
     codeIf (decide (padBytes < x.lo + x.len) || decide (padBytes < y.lo + y.len) || decide (o < s.weights c.core)) 0x0621,
     codeIf (i != o && x.meets y) 0x0624]

/-- The effect of FFT2D. -/
def fftEffect (env : StepEnv) (s : State) (c : StepCtx) : Option (State × StepPhase) :=
  let i := leAt c.b 8 4
  let o := leAt c.b 0x0C 4
  let t := leAt c.b 0x10 2
  let pad := s.padRead c env
  let body := (List.range t).flatMap fun k =>
    tileBytes (fft2d (leAt c.b 0x12 1 == 0) (sgn 8 (leAt c.b 0x13 1)) (tileOf (pad.bytes (i + 32768 * k) 32768)))
  s.computeStep c env [⟨i, 32768 * t⟩] (fun k => [⟨i + 32768 * k, 32768⟩]) 0 t fun n => [(o, body.take (32768 * n))]

/-! ### Commands -/

/-- MATMUL (R104). -/
def execMatmul (part : PartIx) (target : TargetIx) (env : StepEnv) (s : State) : Answer :=
  .next (commitStep s (s.runStep part target (fun b => hOp b == 0x01) mmCheck (mmEffect env)))

/-- VECTOR (R108). -/
def execVector (part : PartIx) (target : TargetIx) (env : StepEnv) (s : State) : Answer :=
  .next (commitStep s (s.runStep part target (fun b => hOp b == 0x03) vecCheck (vecEffect env)))

/-- FFT2D (R118). -/
def execFft2d (part : PartIx) (target : TargetIx) (env : StepEnv) (s : State) : Answer :=
  .next (commitStep s (s.runStep part target (fun b => hOp b == 0x04) fftCheck (fftEffect env)))

end Sys2Proof.Machine
end

