-- ==== Sys2Proof/Machine/Convs.lean ====
section
/-!
DEFINITION. Sliding-window steps (R162 to R185): CONV, FCONV, POOL, NCE_CONV, and the granules of the narrow-channel
engines.
-/
namespace Sys2Proof.Machine

/-! ### The body and GEOM (R163 to R166) -/

/-- The body of a sliding-window step. -/
structure SwBody where
  ar : Arith
  a : Nat
  w : Nat
  o : Nat
  sa : Nat
  sw : Nat
  bias : Nat
  os : Nat
  fmap : Nat
  inH : Nat
  inW : Nat
  cIn : Nat
  cOut : Nat
  geom : Nat
  deriving DecidableEq, Repr

/-- The fields of a sliding-window step. -/
def swBody (b : List Byte) : SwBody :=
  ⟨.ofNat (leAt b 8 8), leAt b 0x10 4, leAt b 0x14 4, leAt b 0x18 4, leAt b 0x1C 4, leAt b 0x20 4, leAt b 0x24 4,
   leAt b 0x28 4, leAt b 0x2C 4, leAt b 0x30 2, leAt b 0x32 2, leAt b 0x34 2, leAt b 0x36 2, leAt b 0x38 8⟩

/-- Filter height. -/
def SwBody.fh (x : SwBody) : Nat := field x.geom 0 5 + 1
/-- Filter width. -/
def SwBody.fw (x : SwBody) : Nat := field x.geom 5 5 + 1
/-- Vertical stride. -/
def SwBody.sh (x : SwBody) : Nat := field x.geom 10 4 + 1
/-- Horizontal stride. -/
def SwBody.swd (x : SwBody) : Nat := field x.geom 14 4 + 1
/-- Vertical dilation. -/
def SwBody.dh (x : SwBody) : Nat := field x.geom 18 3 + 1
/-- Horizontal dilation. -/
def SwBody.dw (x : SwBody) : Nat := field x.geom 21 3 + 1
/-- Top padding. -/
def SwBody.pt (x : SwBody) : Nat := field x.geom 24 6
/-- Bottom padding. -/
def SwBody.pb (x : SwBody) : Nat := field x.geom 30 6
/-- Left padding. -/
def SwBody.pl (x : SwBody) : Nat := field x.geom 36 6
/-- Right padding. -/
def SwBody.pr (x : SwBody) : Nat := field x.geom 42 6
/-- MODE. -/
def SwBody.mode (x : SwBody) : Nat := field x.geom 48 3
/-- POST_OP. -/
def SwBody.post (x : SwBody) : Nat := field x.geom 51 2
/-- DEPTHWISE. -/
def SwBody.depthwise (x : SwBody) : Bool := tbit x.geom 53
/-- Bit 54: AVG or PACKED_IN. -/
def SwBody.bit54 (x : SwBody) : Bool := tbit x.geom 54
/-- Bit 55: COUNT_PAD or PACKED_OUT. -/
def SwBody.bit55 (x : SwBody) : Bool := tbit x.geom 55
/-- Effective filter height (R163). -/
def SwBody.eh (x : SwBody) : Nat := x.dh * (x.fh - 1) + 1
/-- Effective filter width. -/
def SwBody.ew (x : SwBody) : Nat := x.dw * (x.fw - 1) + 1

/-- The output size of one dimension (R167). -/
def outSize (i p e st : Nat) : Nat := if i + p < e then 0 else (i + p - e) / st + 1

/-- O_H. -/
def SwBody.oh (x : SwBody) : Nat := outSize x.inH (x.pt + x.pb) x.eh x.sh
/-- O_W. -/
def SwBody.ow (x : SwBody) : Nat := outSize x.inW (x.pl + x.pr) x.ew x.swd
/-- A zero-size output (R167). -/
def SwBody.empty (x : SwBody) : Bool := x.oh == 0 || x.ow == 0
/-- Output pixels. -/
def SwBody.pixels (x : SwBody) : Nat := if x.empty then 0 else x.oh * x.ow
/-- C_g (R172). -/
def SwBody.cg (x : SwBody) : Nat := if x.depthwise then 1 else x.cIn
/-- The reduction length. -/
def SwBody.kk (x : SwBody) : Nat := x.fh * x.fw * x.cg
/-- Scales of a pixel (R164). -/
def SwBody.pixScales (x : SwBody) : Nat := cdiv x.cIn (32 * x.ar.k)

/-- The input position that an output position reads through a tap, where it lies inside (R167). -/
def inPos (o st p t d size : Nat) : Option Nat :=
  let v := o * st + t * d
  if p ≤ v ∧ v < p + size then some (v - p) else none

/-- Row of the input, where it lies inside. -/
def SwBody.rowAt (x : SwBody) (oy ky : Nat) : Option Nat := inPos oy x.sh x.pt ky x.dh x.inH
/-- Column of the input, where it lies inside. -/
def SwBody.colAt (x : SwBody) (ox kx : Nat) : Option Nat := inPos ox x.swd x.pl kx x.dw x.inW

/-- The rows that some output reaches (R168), ascending. -/
def SwBody.rowsReached (x : SwBody) : List Nat :=
  (List.range x.inH).filter fun y => (List.range x.oh).any fun oy => (List.range x.fh).any fun ky => x.rowAt oy ky == some y
/-- The columns that some output reaches (R168), ascending. -/
def SwBody.colsReached (x : SwBody) : List Nat :=
  (List.range x.inW).filter fun c => (List.range x.ow).any fun ox => (List.range x.fw).any fun kx => x.colAt ox kx == some c

/-- The taps of the filter in row-major order. -/
def SwBody.taps (x : SwBody) : List (Nat × Nat) :=
  (List.range x.fh).flatMap fun ky => (List.range x.fw).map fun kx => (ky, kx)

/-- The input pixel of an output position and a tap, where it lies inside. -/
def SwBody.pixAt (x : SwBody) (oy ox : Nat) (t : Nat × Nat) : Option (Nat × Nat) := match x.rowAt oy t.1, x.colAt ox t.2 with
  | some y, some c => some (y, c)
  | _, _ => none

/-- The output positions in row-major order. -/
def SwBody.outs (x : SwBody) : List (Nat × Nat) :=
  (List.range x.oh).flatMap fun oy => (List.range x.ow).map fun ox => (oy, ox)

/-! ### Field checks (R163, R165, R166, R172, R179) -/

/-- The field checks that every sliding-window step has; `lim` is the largest filter size. -/
def SwBody.common (x : SwBody) (lim : Nat) : Bool :=
  optOk x.fmap && (x.ar.outExp != 0xFF || (x.post != 2 && x.os % 32 == 0)) && x.inH != 0 && x.inW != 0 && x.cIn != 0 &&
  x.cOut != 0 && decide (x.fh ≤ lim) && decide (x.fw ≤ lim) && x.post != 3 && decide (x.mode ≤ 5) &&
  (!x.depthwise || x.cOut % x.cIn == 0)

/-- Scales fill whole groups of a tap's channels (R172). -/
def SwBody.scalesFit (x : SwBody) : Bool := (x.sa == noAddr && x.sw == noAddr) || x.cg % (32 * x.ar.k) == 0

/-- The field checks of CONV. -/
def SwBody.convFields (x : SwBody) : Bool :=
  x.common 11 && x.a % 32 == 0 && x.w % 32 == 0 && x.o % 32 == 0 && optOk x.sa && optOk x.sw && optOk x.bias &&
  x.geom / 2 ^ 54 == 0 && x.scalesFit

/-- The field checks of FCONV (R177). R172's condition on a step that gives SA_ADDR is taken for CONV and NCE_CONV alone. Log
entry 36. -/
def SwBody.fconvFields (x : SwBody) : Bool :=
  x.common 31 && x.a % 32 == 0 && x.w % 32 == 0 && x.o % 32 == 0 && optOk x.sa && x.sw % 32 == 0 && optOk x.bias &&
  isFp16 x.ar.wFmt && decide (x.eh ≤ 31) && decide (x.ew ≤ 31)

/-- The field checks of POOL (R178). -/
def SwBody.poolFields (x : SwBody) : Bool :=
  x.common 31 && x.a % 32 == 0 && x.o % 32 == 0 && optOk x.sa && x.w == 0 && x.sw == 0 && x.bias == 0 &&
  x.geom / 2 ^ 56 == 0 && !x.depthwise && x.post == 0 && x.mode == 0 && x.cOut == x.cIn && x.ar.wFmt == x.ar.aFmt

/-- The field checks of NCE_CONV (R180, R181), on addresses in bytes. -/
def SwBody.nceFields (x : SwBody) : Bool :=
  x.common 11 && x.a != noAddr && x.w != noAddr && x.o != noAddr && x.scalesFit && x.geom / 2 ^ 56 == 0 &&
  !(decide (16 < x.cIn) && decide (16 < x.cOut)) && x.mode == 0 && !(x.bit54 && x.sa != noAddr) &&
  !(x.bit55 && (x.ar.outExp == 0xFF || x.post == 2)) && (x.ar.outExp != 0xFF || x.os != noAddr)

/-! ### Layouts -/

/-- Where the operands of a sliding-window step lie: the reader, the row pitch of the input where it is packed, byte
addresses. -/
structure SwMap where
  x : SwBody
  rd : Reader
  packed : Bool

/-- The address of an input pixel, and the bytes of the row that begins there (R105, R164, R181). -/
def SwBody.pixAddr (x : SwBody) (packed : Bool) (y c : Nat) : Nat :=
  let w := (fmtD x.ar.aFmt).width
  if packed then x.a + y * pitchOf w (x.inW * x.cIn) else x.a + (y * x.inW + c) * pitchOf w x.cIn

/-- The channel elements of an input pixel. -/
def SwMap.pixel (m : SwMap) (y c : Nat) : List Nat :=
  let w := (fmtD m.x.ar.aFmt).width
  if m.packed then ((m.rd.elems w (m.x.inW * m.x.cIn) (m.x.pixAddr true y c)).drop (c * m.x.cIn)).take m.x.cIn
  else m.rd.elems w m.x.cIn (m.x.pixAddr false y c)

/-- The scales of an input pixel. -/
def SwMap.pixelScales (m : SwMap) (y c : Nat) : List Nat := m.rd.scales m.x.sa m.x.pixScales (y * m.x.inW + c)

/-- The gathered row of an output channel, with its scales (R169): a padding pixel gives zeros under the unit scale. -/
def SwMap.gather (m : SwMap) (oy ox co : Nat) : List Nat × List Nat :=
  let x := m.x
  let n := x.cg / (32 * x.ar.k)
  let one : Option (Nat × Nat) → List Nat × List Nat := fun
    | some (y, c) =>
      let p := m.pixel y c
      (if x.depthwise then [p.getD (co * x.cIn / x.cOut) 0] else p,
       if x.sa = noAddr then [] else m.pixelScales y c)
    | none => (List.replicate x.cg 0, if x.sa = noAddr then [] else List.replicate n 127)
  let parts := x.taps.map fun t => one (x.pixAt oy ox t)
  (parts.flatMap (·.1), parts.flatMap (·.2))

/-- The output row of a pixel of CONV or NCE_CONV (R169, R170, R182). -/
def SwMap.convRow (m : SwMap) (seed : Nat) (o : Nat × Nat) : OutRow :=
  let x := m.x
  let w := (fmtD x.ar.wFmt).width
  let shared := m.gather o.1 o.2 0
  let accs := (List.range x.cOut).map fun co =>
    let g := if x.depthwise then m.gather o.1 o.2 co else shared
    dotAcc x.ar g.1 g.2 (m.rd.row w x.kk x.w co) (m.rd.scales x.sw (cdiv x.kk (32 * x.ar.k)) co) (m.rd.bias x.bias co)
  finishRow x.ar seed x.post 1 ((o.1 * x.ow + o.2) * x.cOut) accs

/-- The input extents for range and overlap checks. -/
def SwBody.inExts (x : SwBody) (packed : Bool) : List Ext :=
  (if packed then tensorExt x.ar.aFmt x.a x.inH (x.inW * x.cIn) else tensorExt x.ar.aFmt x.a (x.inH * x.inW) x.cIn) ++
  optExt x.sa (x.inH * x.inW * roundUp x.pixScales 32)

/-- The extents of weights, weight scales and bias of CONV and NCE_CONV. -/
def SwBody.wExts (x : SwBody) : List Ext :=
  tensorExt x.ar.wFmt x.w x.cOut x.kk ++ optExt x.sw (x.cOut * roundUp (cdiv x.kk (32 * x.ar.k)) 32) ++
  optExt x.bias (4 * x.cOut)

/-- The extents of the outputs; none of them where the output has size zero. -/
def SwBody.outE (x : SwBody) : List Ext :=
  if x.empty then [] else outExts x.ar x.post 1 x.o x.os x.fmap x.pixels x.cOut

/-- The bytes that some columns of a packed row hold, as extents in the row; a byte that two pixels share is in one. -/
def packedBytes (bits : Nat) : Nat → List Nat → List Ext
  | _, [] => []
  | done, c :: l =>
    let lo := max done (c * bits / 8)
    let hi := cdiv ((c + 1) * bits) 8
    (if lo < hi then [⟨lo, hi - lo⟩] else []) ++ packedBytes bits (max done hi) l

/-- The extents of an unpacked input pixel and of its scales. -/
def SwBody.pixExts (x : SwBody) (y c : Nat) : List Ext :=
  ⟨x.pixAddr false y c, rowBytes (fmtD x.ar.aFmt).width x.cIn⟩ ::
    optExt (if x.sa = noAddr then noAddr else x.sa + (y * x.inW + c) * roundUp x.pixScales 32) x.pixScales

/-- What the window of output pixel i of CONV or POOL reads (R169, R178). -/
def SwBody.windowExts (x : SwBody) (i : Nat) : List Ext :=
  (x.taps.filterMap (x.pixAt (i / x.ow) (i % x.ow))).flatMap fun p => x.pixExts p.1 p.2

/-- The extents of the pixels reached, with their scales (R168), each byte once (R184): pixels and their scales without the
padding of their rows, where weights, weight scales and outputs count at their pitch. Log entry 36. -/
def SwBody.pixReads (x : SwBody) (packed : Bool) : List Ext :=
  let w := (fmtD x.ar.aFmt).width
  let cols := x.colsReached
  let runs := if packed then packedBytes (x.cIn * w) 0 cols else []
  x.rowsReached.flatMap fun y =>
    (if packed then runs.map fun e => (⟨x.pixAddr true y 0 + e.lo, e.len⟩ : Ext)
     else cols.map fun c => (⟨x.pixAddr false y c, rowBytes w x.cIn⟩ : Ext)) ++
    cols.flatMap fun c =>
      optExt (if x.sa = noAddr then noAddr else x.sa + (y * x.inW + c) * roundUp x.pixScales 32) x.pixScales

/-! ### CONV -/

/-- The checks of CONV in the order of R102. -/
def convCheck (s : State) (c : StepCtx) : Nat :=
  let x := swBody c.b
  firstCode ([codeIf (!x.convFields) 0x0622] ++ padChecks (s.weights c.core) (x.inExts false ++ x.wExts) x.outE ++
    s.arithChecks x.ar (x.sa != noAddr) (x.sw != noAddr))

/-- The output rows of CONV or NCE_CONV. -/
def SwMap.convRows (m : SwMap) (seed : Nat) : List OutRow := m.x.outs.map (m.convRow seed)

/-- The effect of CONV. -/
def convEffect (env : StepEnv) (s : State) (c : StepCtx) : Option (State × StepPhase) :=
  let x := swBody c.b
  if x.empty then some (s, .done 0x0011 false)
  else
    let rows := (SwMap.mk x (s.padRead c env).bytes false).convRows c.job.seed
    let needs : Nat → List Ext := fun i => x.windowExts i ++ x.wExts
    s.computeStep c env (x.pixReads false ++ x.wExts) needs (rowsStatus rows) rows.length fun n =>
      outParts x.ar x.post x.o x.os x.fmap (outBytes x.ar x.post (rows.take n)) (rows.take n)

/-! ### Exact values converted once (R178, R175 step 5) -/

/-- An output before its one conversion: its exact value, out of window, non-finite, conditions raised before. -/
structure ExactOut where
  v : Dy
  oow : Bool
  nf : Bool
  prior : Cond
  deriving DecidableEq, Repr

/-- The conversion of one exact output under a scale (R74). -/
def ExactOut.convert (y : ExactOut) (f : Fmt) (x : Nat) (r : RoundMode) : Nat × Cond :=
  let c : Nat × Cond :=
    if y.nf then (f.nanCode, ⟨false, y.oow, true⟩)
    else if y.oow then (f.limit (decide (y.v.m < 0)), ⟨false, true, false⟩)
    else
      let z := f.convert r (y.v.shift (127 - (x : Int)))
      (z.1, ⟨z.2, false, false⟩)
  (c.1, c.2.or y.prior)

/-- A row of exact outputs converted (R74, R75). -/
def exactRow (ar : Arith) (seed post base : Nat) (ys : List ExactOut) : OutRow :=
  let f := fmtD ar.outFmt
  let mode : Nat → RoundMode := fun i => if ar.stoch then .stochastic (stochDraw seed ar.tensorId (base + i)) else .nearest
  let scales := if ar.outExp = 0xFF then
      (chunksOf 32 ys.length ys).map fun g => groupScale f (g.foldl (fun m y =>
        if y.nf || y.oow then m else if m.lt y.v.abs then y.v.abs else m) ⟨0, 0⟩)
    else []
  let x : Nat → Nat := fun i => if ar.outExp = 0xFF then scales.getD (i / 32) 127 else ar.outExp
  outRowOf f post 1 (ys.zipIdx.map fun y => y.1.convert f (x y.2) (mode y.2)) scales

/-! ### POOL (R178) -/

/-- Digits kept below the accumulator's unit in a quotient; with the sticky bit below them every comparison and rounding
of R74 to R77 comes out as for the exact quotient. -/
def quotDigits : Nat := 600

/-- A × 2^L / n, with a sticky bit. -/
def quotient (a l : Int) (n : Nat) : Dy :=
  let m := a.natAbs * 2 ^ quotDigits
  let q : Int := 2 * (m / n) + b2n (m % n != 0)
  ⟨if a < 0 then -q else q, l - quotDigits - 1⟩

/-- The value of an element under a scale; none where it is not finite. -/
def elemValue (fc x c : Nat) : Option Dy :=
  if x = 255 then none
  else match (fmtD fc).decode c with
    | .num n => some ⟨n, (fmtD fc).qe + ((x : Int) - 127)⟩
    | .nonFinite => none

/-- One output of POOL from its in-image values. -/
def poolOut (avg : Bool) (n : Nat) (l : Int) (vs : List (Option Dy)) : ExactOut :=
  if vs.any Option.isNone then ⟨⟨0, 0⟩, false, true, Cond.none⟩
  else
    let ds := vs.filterMap id
    if ds = [] ∨ n = 0 then ⟨⟨0, 0⟩, false, false, Cond.none⟩
    else if avg then
      let acc := ds.foldl (fun a d => Acc.enter l a d) Acc.zero
      ⟨if acc.oow then ⟨acc.a, l⟩ else quotient acc.a l n, acc.oow, false, Cond.none⟩
    else ⟨ds.foldl (fun m d => if m.lt d then d else m) (ds.headD ⟨0, 0⟩), false, false, Cond.none⟩

/-- The output row of a pixel of POOL. -/
def SwMap.poolRow (m : SwMap) (seed : Nat) (o : Nat × Nat) : OutRow :=
  let x := m.x
  let pix := (x.taps.filterMap (x.pixAt o.1 o.2)).map fun p => (m.pixel p.1 p.2, m.pixelScales p.1 p.2)
  let n := if x.bit55 then x.fh * x.fw else pix.length
  exactRow x.ar seed 0 ((o.1 * x.ow + o.2) * x.cOut) ((List.range x.cOut).map fun ch =>
    poolOut x.bit54 n x.ar.accLsb (pix.map fun p => elemValue x.ar.aFmt (p.2.getD (ch / (32 * x.ar.k)) 127) (p.1.getD ch 0)))

/-- The checks of POOL. -/
def poolCheck (s : State) (c : StepCtx) : Nat :=
  let x := swBody c.b
  firstCode ([codeIf (!x.poolFields) 0x0622] ++ padChecks (s.weights c.core) (x.inExts false) x.outE ++
    s.arithChecks x.ar (x.sa != noAddr) false)

/-- The effect of POOL. -/
def poolEffect (env : StepEnv) (s : State) (c : StepCtx) : Option (State × StepPhase) :=
  let x := swBody c.b
  if x.empty then some (s, .done 0x0011 false)
  else
    let m : SwMap := ⟨x, (s.padRead c env).bytes, false⟩
    let rows := x.outs.map (m.poolRow c.job.seed)
    s.computeStep c env (x.pixReads false) x.windowExts (rowsStatus rows) rows.length fun n =>
      outParts x.ar 0 x.o x.os x.fmap (outBytes x.ar 0 (rows.take n)) (rows.take n)

/-! ### FCONV (R174 to R177) -/

/-- The valid width of a dimension (R174). -/
def validWidth (e : Nat) : Nat := 65 - e

/-- FWD_EXP. -/
def SwBody.fwdExp (x : SwBody) : Int := sgn 5 (field x.geom 54 5)
/-- INV_EXP. -/
def SwBody.invExp (x : SwBody) : Int := sgn 5 (field x.geom 59 5)

/-- A tile of FP32 values with a zero imaginary part: input channel ci of the tile at (ty, tx) (R175 step 1). -/
def SwMap.tile (m : SwMap) (rows cols : List Nat) (ty tx ci : Nat) : List (List Cx) :=
  let x := m.x
  (List.range 64).map fun r => (List.range 64).map fun c =>
    let y := ty * validWidth x.eh + r
    let z := tx * validWidth x.ew + c
    if x.pt ≤ y ∧ x.pl ≤ z ∧ rows.contains (y - x.pt) ∧ cols.contains (z - x.pl) then
      let e := (m.pixel (y - x.pt) (z - x.pl)).getD ci 0
      (toF32 x.ar.aFmt ((m.pixelScales (y - x.pt) (z - x.pl)).getD (ci / (32 * x.ar.k)) 127) e, 0)
    else (0, 0)

/-- An FP32 value is NaN or infinite. -/
def fNonFinite (a : Nat) : Bool := field a 23 8 == 255

/-- Some value of a tile is not finite. -/
def tileBad (t : List (List Cx)) : Bool := t.any fun r => r.any fun z => fNonFinite z.1 || fNonFinite z.2

/-- An FP32 value converted to a format at the unit scale (R175 step 2), and whether it saturates. -/
def f32To (f : Fmt) (w : Nat) : Nat × Bool :=
  match lineValue false w with
  | some v => f.convert .nearest v
  | none => (f.nanCode, false)

/-- The spectrum of an input channel in W_FMT: the parts of each bin, whether a value is not finite, whether one
saturates (R175 steps 1 and 2, R176). -/
structure Spectrum where
  bins : List (List Nat)
  bad : Bool
  sat : Bool
  deriving DecidableEq, Repr

/-- The spectrum of a tile. -/
def SwBody.spectrum (x : SwBody) (t : List (List Cx)) : Spectrum :=
  let y := fft2d true x.fwdExp t
  let f := fmtD x.ar.wFmt
  let z := y.flatMap fun r => r.map fun v => (f32To f v.1, f32To f v.2)
  ⟨z.map fun v => [v.1.1, v.2.1], tileBad t || tileBad y, z.any fun v => v.1.2 || v.2.2⟩

/-- What a tile gives for an output channel: the real parts of y, and the conditions of the tile (R175, R176). -/
structure TileOut where
  y : List (List Cx)
  nf : Bool
  cond : Cond
  deriving DecidableEq, Repr

/-- Steps 3 and 4 for a tile and an output channel from the spectra of its input channels. -/
def SwMap.tileOut (m : SwMap) (specs : List Spectrum) (co : Nat) : TileOut :=
  let x := m.x
  let f := fmtD x.ar.wFmt
  let mine := if x.depthwise then (specs[co * x.cIn / x.cOut]?).toList else specs
  let h : Nat → List (List Nat) := fun j =>
    let bs := m.rd (x.w + 16384 * (co * x.cg + j)) 16384
    (List.range 4096).map fun i => [leAt bs (4 * i) 2, leAt bs (4 * i + 2) 2]
  let hs := (List.range x.cg).map h
  let hBad := hs.any fun l => l.any fun p => p.any fun e => f.decode e == .nonFinite
  let bins := (List.range 4096).map fun i =>
    let (re, im) := cplxAcc x.ar.wFmt x.ar.wFmt x.ar.accLsb (mine.flatMap fun sp => sp.bins.getD i [])
      (hs.flatMap fun l => l.getD i [])
    (readOut (fmtD 9) 127 .nearest x.ar.accLsb re, readOut (fmtD 9) 127 .nearest x.ar.accLsb im)
  let yF := (List.range 64).map fun r => (List.range 64).map fun c =>
    let z := bins.getD (64 * r + c) ((0, Cond.none), (0, Cond.none))
    (z.1.1, z.2.1)
  let y := fft2d false x.invExp yF
  let sat := mine.any (·.sat)
  let cond : Cond := bins.foldl (fun (c : Cond) z => (c.or z.1.2).or z.2.2) ⟨sat, false, false⟩
  ⟨y, hBad || mine.any (·.bad) || tileBad yF || tileBad y, { cond with nf := false }⟩

/-- The tile of an output position, and the position in it. -/
def SwBody.tileOf' (x : SwBody) (o : Nat × Nat) : (Nat × Nat) × (Nat × Nat) :=
  let gy := o.1 * x.sh
  let gx := o.2 * x.swd
  let vh := validWidth x.eh
  let vw := validWidth x.ew
  ((gy / vh, gx / vw), (gy % vh, gx % vw))

/-- The tiles computed: those that contain a grid position of an output (R174). -/
def SwBody.tiles (x : SwBody) : List (Nat × Nat) :=
  (x.outs.map fun o => (x.tileOf' o).1).foldl (fun l t => if l.contains t then l else l ++ [t]) []

/-- The output rows of FCONV. -/
def SwMap.fconvRows (m : SwMap) (seed : Nat) : List OutRow :=
  let x := m.x
  let rows := x.rowsReached
  let cols := x.colsReached
  let outs := x.tiles.map fun t =>
    let specs := (List.range x.cIn).map fun ci => x.spectrum (m.tile rows cols t.1 t.2 ci)
    (t, (List.range x.cOut).map (m.tileOut specs))
  x.outs.map fun o =>
    let (t, p) := x.tileOf' o
    let tos := ((outs.find? fun z => z.1 == t).map (·.2)).getD []
    exactRow x.ar seed x.post ((o.1 * x.ow + o.2) * x.cOut) ((List.range x.cOut).map fun co =>
      match tos[co]? with
      | none => ⟨⟨0, 0⟩, false, true, Cond.none⟩
      | some z =>
        let v := lineValue false ((z.y.getD p.1 []).getD p.2 (0, 0)).1
        let b := (m.rd.bias x.bias co).map (lineValue false)
        match v, b with
        | some d, none => ⟨d, false, z.nf, z.cond⟩
        | some d, some (some e) => ⟨d.add e, false, z.nf, z.cond⟩
        | _, _ => ⟨⟨0, 0⟩, false, true, z.cond⟩)

/-- What the tile of output pixel i of FCONV reads of the input: the pixels reached that lie in it (R175). -/
def SwBody.tileExts (x : SwBody) (i : Nat) : List Ext :=
  let t := (x.tileOf' (i / x.ow, i % x.ow)).1
  let lies : Nat → Nat → Nat → Nat → Bool := fun e pad k a =>
    decide (k * validWidth e ≤ a + pad) && decide (a + pad < k * validWidth e + 64)
  (x.rowsReached.filter (lies x.eh x.pt t.1)).flatMap fun y =>
    (x.colsReached.filter (lies x.ew x.pl t.2)).flatMap fun c => x.pixExts y c

/-- The extents of spectra and bias. -/
def SwBody.spectraExts (x : SwBody) : List Ext := [⟨x.w, 16384 * x.cOut * x.cg⟩] ++ optExt x.bias (4 * x.cOut)

/-- The work area (R177). -/
def SwBody.work (x : SwBody) : Ext := ⟨x.sw, 32768 * (x.cIn + 2)⟩

/-- The checks of FCONV; a work area outside the activation region or over another operand gives 0x0624 (R166). -/
def fconvCheck (s : State) (c : StepCtx) : Nat :=
  let x := swBody c.b
  let ins := x.inExts false ++ x.spectraExts
  firstCode ([codeIf (!x.fconvFields) 0x0622, codeIf (decide (padBytes < x.work.lo + x.work.len)) 0x0621] ++
    padChecks (s.weights c.core) ins x.outE ++
    [codeIf (decide (x.work.lo < s.weights c.core) || extsMeet [x.work] (ins ++ x.outE)) 0x0624] ++
    s.arithChecks x.ar (x.sa != noAddr) false)

/-- The effect of FCONV: the work area is undefined after it (R177, log entry 2). -/
def fconvEffect (env : StepEnv) (s : State) (c : StepCtx) : Option (State × StepPhase) :=
  let x := swBody c.b
  if x.empty then some (s, .done 0x0011 false)
  else
    let rows := (SwMap.mk x (s.padRead c env).bytes false).fconvRows c.job.seed
    let work := (List.range x.work.len).map fun i => Config.freeByte (s.fresh + 1) (x.work.lo + i)
    let needs : Nat → List Ext := fun i => x.tileExts i ++ x.spectraExts
    ({ s with fresh := s.fresh + 2 }).computeStep c env (x.pixReads false ++ x.spectraExts) needs (rowsStatus rows) rows.length
      fun n => (x.sw, work) :: outParts x.ar x.post x.o x.os x.fmap (outBytes x.ar x.post (rows.take n)) (rows.take n)

/-! ### NCE_CONV (R180 to R184) -/

/-- The engine of a target. -/
def StepCtx.engine (c : StepCtx) : Nat := c.t - 16

/-- A body with its addresses in bytes. -/
def SwBody.inBytes (x : SwBody) : SwBody :=
  let f : Nat → Nat := fun a => if a = noAddr then noAddr else 32 * a
  { x with a := f x.a, w := f x.w, o := f x.o, sa := f x.sa, sw := f x.sw, bias := f x.bias, os := f x.os, fmap := f x.fmap }

/-- The output extents of NCE_CONV. -/
def SwBody.nceOuts (x : SwBody) : List Ext :=
  if x.empty then []
  else if x.bit55 then tensorExt x.ar.outFmt x.o x.oh (x.ow * x.cOut) ++ optExt x.fmap (cdiv (x.pixels * x.cOut) 8)
  else x.outE

/-- The places in the partition's DRAM of extents that a step names; none where one is refused (R180, R272). -/
def State.mapExts (s : State) (p : Nat) (j : Job) (l : List Ext) : Option (List Ext) :=
  l.foldr (fun e a => match a, s.dramMap p j e.lo e.len with
    | some t, some o => some (⟨o, e.len⟩ :: t)
    | _, _ => none) (some [])

/-- The checks of NCE_CONV in the order of R102 and R189. -/
def nceCheck (s : State) (c : StepCtx) : Nat :=
  let x := (swBody c.b).inBytes
  firstCode ([codeIf (!x.nceFields) 0x0622,
    codeIf (s.mapExts c.p c.job (x.inExts x.bit54 ++ x.wExts ++ x.nceOuts)).isNone 0x0301,
    codeIf (c.part.nceShare == 0) 0x0626] ++ s.arithChecks x.ar (x.sa != noAddr) (x.sw != noAddr) ++
    [codeIf (s.comp.parts.getD c.p .empty).dramLost 0x0313])

/-- A reader of the partition's DRAM as a step sees it. -/
def State.dramReader (s : State) (c : StepCtx) (env : StepEnv) : Reader :=
  let m := s.dramRead env
  let base := ((s.dramOf c.p).map (·.1)).getD 0
  fun a n => match s.dramMap c.p c.job a n with
    | some o => m.readBytes (base + o) n
    | none => List.replicate n 0

/-- The effect of NCE_CONV: a residue error leaves the outputs undefined, and so do outputs that overlap what the step reads or
one another, for which the engines have no rule (log entry 2); the status is then that of the operands as they were before the
step. Log entries 34, 36. -/
def nceEffect (env : StepEnv) (s : State) (c : StepCtx) : Option (State × StepPhase) :=
  let x := (swBody c.b).inBytes
  if s.unitOos (20 + c.engine) then some (s, .done 0x0404 false)
  else if x.empty then some (s, .done 0x0011 false)
  else if (s.comp.parts.getD c.p .empty).dramLost then some (s, .done 0x0313 false)
  else match env.tower with
    | some t => some (s.loseTower t (some 0x0422), .done 0x0313 (env.rowsDone != 0))
    | none =>
      let rows := (SwMap.mk x (s.dramReader c env) x.bit54).convRows c.job.seed
      let w := (fmtD x.ar.outFmt).width
      let body := if x.bit55 then
          packRows w ((chunksOf x.ow rows.length rows).map fun l => l.flatMap OutRow.codes)
        else outBytes x.ar x.post rows
      let parts := outParts x.ar x.post x.o x.os x.fmap body rows
      let reads := (s.mapExts c.p c.job (x.pixReads x.bit54 ++ x.wExts)).getD []
      let outs := (s.mapExts c.p c.job (partExts parts)).getD []
      let loose := env.residue || extsMeet outs reads || selfMeet outs
      let parts := if loose then parts.map fun y =>
          (y.1, (List.range y.2.length).map fun i => Config.freeByte (s.fresh + 1) (y.1 + i)) else parts
      let base := ((s.dramOf c.p).map (·.1)).getD 0
      let devs : List Ext := reads.map fun (e : Ext) => ⟨base + e.lo, e.len⟩
      let (s1, ue) := ({ s with fresh := s.fresh + 2 } : State).dramErrors env.dramCe env.dramUe devs
      let s2 := reads.foldl (fun s e => s.countRead c.p e.lo e.len) s1
      let s3 := parts.foldl (fun s y => match s.dramMap c.p c.job y.1 y.2.length with
        | some o => s.writeDram c.p o y.2
        | none => s) s2
      let bytes := (reads.map (·.len)).sum + (parts.map fun y => y.2.length).sum
      let s4 := (s3.markUe c.p ue).bump (nceKey c.engine 0x20) bytes
      let s5 := if env.residue then s4.residueFailed (20 + c.engine) else s4
      some (s5, .done (if env.residue then 0x0404 else worse (rowsStatus rows) (codeIf ue 0x0311)))

/-! ### Granules (R183) -/

/-- A granule of an engine begins: its number, and the partition that it goes to (R183). Log entry 36. -/
def State.granule (s : State) (e : Nat) : State :=
  let g := (s.comp.nceGranule.getD e 0 + 1) % 16
  ({ s with comp := { s.comp with nceGranule := s.comp.nceGranule.set e g } } : State).takeGranule e (s.granuleTo e g)

/-! ### Commands -/

/-- CONV (R169). -/
def execConv (part : PartIx) (target : TargetIx) (env : StepEnv) (s : State) : Answer :=
  .next (commitStep s (s.runStep part target (fun b => hOp b == 0x10) convCheck (convEffect env)))

/-- FCONV (R175). -/
def execFconv (part : PartIx) (target : TargetIx) (env : StepEnv) (s : State) : Answer :=
  .next (commitStep s (s.runStep part target (fun b => hOp b == 0x11) fconvCheck (fconvEffect env)))

/-- POOL (R178). -/
def execPool (part : PartIx) (target : TargetIx) (env : StepEnv) (s : State) : Answer :=
  .next (commitStep s (s.runStep part target (fun b => hOp b == 0x12) poolCheck (poolEffect env)))

/-- NCE_CONV (R180, R182). -/
def execNceConv (part : PartIx) (target : TargetIx) (env : StepEnv) (s : State) : Answer :=
  .next (commitStep s (s.runStep part target (fun b => hOp b == 0x18) nceCheck (nceEffect env)))

/-- A granule of 62.5 µs of an engine begins (R183). -/
def execNceGranule (engine : Fin 2) (s : State) : Answer := .next (commitStep s (s.granule engine))

end Sys2Proof.Machine
end

