-- ==== Sys2Proof/Machine/Kv.lean ====
section
/-!
DEFINITION. The key-value cache (R191 to R201, R208 to R214): page slots, page tables, staging, allocation, victims, swap,
and the KV_APPEND, KV_MAP and KV_CTX steps.
-/
namespace Sys2Proof.Machine

/-! ### Engines, contexts, slots -/

/-- The engine can take a step now: its domain is on and no granule runs on it. Log entry 41. -/
def State.engineFree (s : State) (q : Nat) : Bool :=
  s.domOn (9 + q) && match s.safe.units[16 + q]? with
    | some u => !u.running
    | none => false

/-- The context that a step of this chapter names (R196, R198, R201, R202). -/
def ctxField (b : List Byte) : Nat := match hOp b with
  | 0x20 => leAt b 0x20 2
  | 0x21 => leAt b 0x18 2
  | 0x22 => leAt b 8 2
  | _ => leAt b 0x0A 2

/-- A context's records; none where it is FREE. -/
def State.ctx (s : State) (p c : Nat) : Option CtxSt := s.kv.pools[p]?.bind fun q => alGet q.ctxs c

/-- The contexts of a partition that are not FREE. -/
def State.ctxs (s : State) (p : Nat) : List (Nat × CtxSt) := (s.kv.pools[p]?.map (·.ctxs)).getD []

/-- The offset of a partition's KV pool in its DRAM space (R148). -/
def PartEntry.poolBase (e : PartEntry) : Nat := (e.quota - e.kvPool) * 2 ^ 20

/-- The pages of a context with their lane and number, ascending. -/
def CtxSt.pageList (c : CtxSt) : List (Nat × Nat × PageAt) :=
  c.lanes.zipIdx.flatMap fun l => l.1.pages.map fun p => (l.2, p.1, p.2)

/-- The page slots that a context uses or holds. -/
def CtxSt.slotsUsed (c : CtxSt) : List Nat :=
  (c.pageList.filterMap fun p => match p.2.2 with
    | .resident n => some n
    | _ => none) ++ c.heldSlots

/-- The swap slots that a context uses. -/
def CtxSt.swapUsed (c : CtxSt) : List Nat := c.pageList.filterMap fun p => match p.2.2 with
  | .swapped n _ => some n
  | _ => none

/-- The swapped pages of a context, ascending. -/
def CtxSt.swappedPages (c : CtxSt) : List (Nat × Nat × Nat × Nat) := c.pageList.filterMap fun p => match p.2.2 with
  | .swapped n g => some (p.1, p.2.1, n, g)
  | _ => none

/-- The resident pages of a context, ascending. -/
def CtxSt.residentPages (c : CtxSt) : List (Nat × Nat × Nat) := c.pageList.filterMap fun p => match p.2.2 with
  | .resident n => some (p.1, p.2.1, n)
  | _ => none

/-- The staged pages of a context, ascending. -/
def CtxSt.stagedPages (c : CtxSt) : List (Nat × Nat × Nat × Nat) := c.pageList.filterMap fun p => match p.2.2 with
  | .staged e k => some (p.1, p.2.1, e, k)
  | _ => none

/-- The free page slots of a partition's pool, ascending (R192, R209). -/
def State.freeSlots (s : State) (p : Nat) (e : PartEntry) : List Nat :=
  let used := (s.ctxs p).flatMap fun x => x.2.slotsUsed
  (List.range (e.kvPool * 16)).filter fun n => !used.contains n

/-- The number of free page slots (ATTN_POOL_FREE). -/
def State.freeCount (s : State) (p : Nat) (e : PartEntry) : Nat :=
  e.kvPool * 16 - ((s.ctxs p).map fun x => x.2.slotsUsed.length).sum

/-- The number of swap slots (ATTN_SWAP_SLOTS). -/
def State.swapSlots (s : State) (p : Nat) : Nat := if tbit (s.rv (poolKey p 0)) 31 then s.rv (poolKey p 0xC) else 0

/-- The lowest free swap slot. Log entry 40. -/
def State.freeSwap (s : State) (p : Nat) : Option Nat :=
  let used := (s.ctxs p).flatMap fun x => x.2.swapUsed
  (List.range (min (s.swapSlots p) (used.length + 1))).find? fun n => !used.contains n

/-- The targets whose steps wait for page slots of a partition, in order of request (R212). -/
def State.slotQueue (s : State) (p : Nat) : List Nat :=
  ((s.kv.pools[p]?.map (·.queue)).getD []).filter fun t => s.isAsking p t

/-- The queue for page slots changed. -/
def State.setSlotQueue (s : State) (p : Nat) (l : List Nat) : State :=
  { s with kv := { s.kv with pools := lmod s.kv.pools p fun q => { q with queue := l } } }

/-- The first request for page slots is taken up again. -/
def State.wakeHead (s : State) (p : Nat) : State := match s.slotQueue p with
  | t :: _ => s.modTgt p t fun x => match x.phase with
    | .swapWait _ => { x with phase := .started }
    | _ => x
  | [] => s

/-- The free page slots of a pool have changed: LOW is raised when they fall below the threshold (R218), and the first
request that waits is looked at again (R212). -/
def State.poolLow (s : State) (p : Nat) : State := match s.part p with
  | some e =>
    let low := decide (s.freeCount p e < s.rv (poolKey p 0x10))
    let was := (s.kv.pools[p]?.map (·.wasLow)).getD false
    let s1 := { s with kv := { s.kv with pools := lmod s.kv.pools p fun q => { q with wasLow := low } } }
    let s2 := if low && !was then s1.raise (poolKey p 0x2C) 1 else s1
    s2.wakeHead p
  | none => s

/-! ### Page tables (R194, R195) -/

/-- The entry of a page in the table. -/
def PageAt.entry : Option PageAt → Nat
  | none => 0
  | some (.resident n) => 2 ^ 62 + n
  | some (.swapped n g) => 2 * 2 ^ 62 + g % 2 ^ 24 * 2 ^ 32 + n
  | some (.staged e k) => 3 * 2 ^ 62 + e * 2 ^ 8 + k

/-- The offset of the entry of lane l and page g. -/
def CtxSt.entryAt (c : CtxSt) (l g : Nat) : Nat := c.ptAddr + 8 * (l * (c.maxPos / 64) + g)

/-- The page of a lane. -/
def CtxSt.page (c : CtxSt) (l g : Nat) : Option PageAt := c.lanes[l]?.bind fun x => alGet x.pages g

/-- A lane of a context changed. -/
def CtxSt.modLane (c : CtxSt) (l : Nat) (f : LaneSt → LaneSt) : CtxSt := { c with lanes := lmod c.lanes l f }

/-- A page set in the records and in the table. -/
def State.setPage (s : State) (p c l g : Nat) (x : Option PageAt) : State :=
  match s.ctx p c with
  | some k =>
    let f : LaneSt → LaneSt := fun y => match x with
      | some z => { y with pages := alSet y.pages g z }
      | none => { y with pages := alErase y.pages g }
    (s.modCtx p c fun k => k.modLane l f).writeDram p (k.entryAt l g) (natLe 8 (PageAt.entry x))
  | none => s

/-- STATE, SLOT and GEN of the table's entry agree with the context's records (R195); its reserved bits do not count. -/
def State.entryOk (s : State) (mem : Mem) (p c l g : Nat) : Bool := match s.ctx p c, s.dramOf p with
  | some k, some (base, _) =>
    putField (leNat (mem.readBytes (base + k.entryAt l g) 8)) 56 6 0 == PageAt.entry (k.page l g)
  | _, _ => false

/-- A target's step has met uncorrected errors (R139). -/
def State.meetUe (s : State) (p : Nat) (t : Option Nat) (ue : Bool) : State := match t with
  | some t => if ue then (s.modTgt p t fun x => { x with ueMet := true }).modJob p fun j => { j with ue := true } else s
  | none => s

/-- A table's entry is read for the step of a target and checked (R195): the state after the read, counted and with the errors
that it meets logged (R139, R159, R161, R217), and whether the entry agrees. -/
def State.useEntry (s : State) (env : StepEnv) (p : Nat) (t : Option Nat) (c l g : Nat) : State × Bool :=
  match s.ctx p c, s.dramOf p with
  | some k, some (base, _) =>
    let (s1, ue) := (s.countRead p (k.entryAt l g) 8).dramErrors [] env.dramUe [⟨base + k.entryAt l g, 8⟩]
    (s1.meetUe p t ue, s.entryOk (s.dramRead env) p c l g)
  | _, _ => (s, false)

/-! ### Outcomes of the parts of a step -/

/-- A part of a step goes on, ends the step with a code, or waits for pages of a context to move. -/
inductive KvOut where
  | go (s : State)
  | ends (s : State) (code : Nat)
  | waits (s : State) (ctx : Nat)

/-- The next part after one that went on. -/
def KvOut.next (k : KvOut) (f : State → KvOut) : KvOut := match k with
  | .go s => f s
  | x => x

/-! ### Allocation and victims (R209, R210, R212) -/

/-- A context has a step in progress at an engine: one that waits there, or is to be taken up. -/
def State.ctxBusy (s : State) (p c : Nat) : Bool := match s.comp.parts[p]?.bind (·.job) with
  | some j => j.targets.any fun x => s.isAsking p x.id && match x.steps.head? with
    | some (_, b) => ctxField b == c
    | none => false
  | none => false

/-- The order of two candidates: priority, then last use, then descending number (R209). -/
def victimBefore (a b : Nat × CtxSt) : Bool :=
  decide (a.2.prio < b.2.prio) || (a.2.prio == b.2.prio &&
    (decide (a.2.lastUse < b.2.lastUse) || (a.2.lastUse == b.2.lastUse && decide (b.1 < a.1))))

/-- The victim that is taken next for a request of a context. -/
def State.victim (s : State) (p c prio : Nat) : Option Nat :=
  let l := (s.ctxs p).filter fun x => x.2.state == .open' && !x.2.residentPages.isEmpty && !x.2.pin && x.1 != c &&
    !s.ctxBusy p x.1 && decide (x.2.prio ≤ prio)
  (l.foldl (fun (a : Option (Nat × CtxSt)) x => match a with
    | none => some x
    | some y => if victimBefore x y then some x else some y) none).map (·.1)

/-- The context that swaps out now. -/
def State.leaving (s : State) (p : Nat) : Option Nat :=
  ((s.ctxs p).find? fun x => x.2.state == .swappingOut && !x.2.residentPages.isEmpty).map (·.1)

/-- The context whose pages come back now; no second one begins before it has all of them (R212). -/
def State.returning (s : State) (p : Nat) : Option Nat :=
  ((s.ctxs p).find? fun x => x.2.state == .swappingIn && !x.2.heldSlots.isEmpty).map (·.1)

/-- The engine that serves the core of a target. -/
def State.engineAt (s : State) (p t : Nat) (e : PartEntry) : Nat := ((s.hostOf p t).bind fun h => s.engineOf e h).getD 0

/-- A request for n page slots of a target's step on behalf of context c (R209, R212): it waits behind earlier requests and
behind pages that come back; as the first it takes the slots where they are free, else waits for the victim that leaves, or
takes the next one, which its engine pre-empts. Log entry 40. -/
def State.needSlots (s : State) (p t c n : Nat) (e : PartEntry) : KvOut :=
  let q := s.slotQueue p
  let out : State → State := fun s => s.setSlotQueue p (q.filter fun u => u != t)
  let s0 := if q.contains t then s else s.setSlotQueue p (q ++ [t])
  if (q.filter fun u => u != t).any fun u => q.idxOf u < q.idxOf t then .waits s0 c
  else if (s.returning p).isSome then .waits s0 ((s.returning p).getD c)
  else if n ≤ s.freeCount p e then .go (out s)
  else match s.leaving p with
    | some v => .waits s0 v
    | none =>
      let prio := ((s.ctx p c).map (·.prio)).getD 0
      match s.victim p c prio with
      | none => .ends ((out s).wakeHead p) 0x0330
      | some v =>
        let pre : CtxSt → CtxSt := fun x =>
          { x with gen := (x.gen + 1) % 2 ^ 24, state := .swappingOut, mover := s.engineAt p t e }
        let s1 := (s0.modCtx p v pre).raise (poolKey p 0x2C) 2
        if (s1.freeSwap p).isNone then
          .ends (((out s1).modCtx p v fun x => { x with state := .open' }).wakeHead p) 0x0331
        else .waits s1 v

/-- A page takes the lowest free page slot (R209). -/
def State.takeSlot (s : State) (p t c : Nat) (e : PartEntry) (f : State → Nat → State) : KvOut :=
  (s.needSlots p t c 1 e).next fun s1 => match (s1.freeSlots p e).head? with
    | some n => .go ((f s1 n).poolLow p)
    | none => .ends s1 0x0330

/-! ### Rows of a page (R192, R198) -/

/-- The width of a format code. -/
def fmtW (f : Nat) : Nat := (fmtD f).width
/-- The pitch P of a format's rows. -/
def rowPitch (d f : Nat) : Nat := 32 * cdiv (d * fmtW f) 256

/-- The places in a page of row i: key, key scales, value, value scales, each with its length (R192). -/
def CtxSt.rowPlaces (c : CtxSt) (i : Nat) : List (Nat × Nat) :=
  let n := c.d / 32
  let half : Nat → Nat → List (Nat × Nat) := fun o f =>
    [(o + i * rowPitch c.d f, rowPitch c.d f), (o + 64 * rowPitch c.d f + i * n, if mayScale f then n else 0)]
  half 0 c.kFmt ++ half 0x8000 c.vFmt

/-- An engine changed. -/
def State.modEngine (s : State) (q : Nat) (f : EngineSt → EngineSt) : State :=
  { s with kv := { s.kv with engines := lmod s.kv.engines q f } }

/-- The offset of a page slot in the partition's DRAM space. -/
def PartEntry.slotAt (e : PartEntry) (n : Nat) : Nat := e.poolBase + n * 0x10000

/-- A row's bytes at its places. -/
def rowWrites (places : List (Nat × Nat)) (row : List (List Byte)) : List (Nat × List Byte) :=
  (places.zip row).filterMap fun x => if x.1.2 = 0 then none else some (x.1.1, x.2.take x.1.2)

/-- A row written into a page slot. -/
def State.putRow (s : State) (p : Nat) (e : PartEntry) (slot : Nat) (ws : List (Nat × List Byte)) : State :=
  ws.foldl (fun s w => s.writeDram p (e.slotAt slot + w.1) w.2) s

/-- A row written into a staging slot: what it covers loses its poison. -/
def EngineSt.putRow (x : EngineSt) (k i : Nat) (ws : List (Nat × List Byte)) : EngineSt :=
  { x with staging := ws.foldl (fun m w => m.writeBytes (0x10000 * k + w.1) w.2) x.staging,
           poison := x.poison.filter fun g => !(ws.any fun w =>
             decide (0x10000 * k + w.1 ≤ g.1) && decide (g.1 + g.2 ≤ 0x10000 * k + w.1 + w.2.length)),
           slots := lmod x.slots k fun y => y.map fun z => { z with rows := z.rows ||| 2 ^ i } }

/-- A staging slot free again. -/
def EngineSt.freeAt (x : EngineSt) (j : Nat) : EngineSt :=
  { x with slots := x.slots.set j none, poison := x.poison.filter fun g => g.1 / 0x10000 != j }

/-- The poisoned extents of a staging slot, as offsets in it (R139). -/
def EngineSt.badAt (x : EngineSt) (j : Nat) : List Ext :=
  (x.poison.filter fun g => g.1 / 0x10000 == j).map fun g => ⟨g.1 % 0x10000, g.2⟩

/-- What a row of a page reads as, at its places: from its slot or from staging. -/
def State.rowBytes' (s : State) (mem : Mem) (p : Nat) (e : PartEntry) (k : CtxSt) (l pos : Nat) : List (List Byte) :=
  let base := ((s.dramOf p).map (·.1)).getD 0
  (k.rowPlaces (pos % 64)).map fun x => match k.page l (pos / 64) with
    | some (.resident n) => mem.readBytes (base + e.slotAt n + x.1) x.2
    | some (.staged q j) => ((s.kv.engines[q]?).map fun g => g.staging.readBytes (0x10000 * j + x.1) x.2).getD []
    | _ => List.replicate x.2 0

/-! ### Staging (R199, R200) -/

/-- A staged page copied to a page slot: the rows present with their poison, the rest undefined (R139, R192, R200). -/
def State.flushTo (s : State) (p c l g q j : Nat) (e : PartEntry) (slot : Nat) : State :=
  match s.ctx p c, (s.kv.engines[q]?).bind fun x => x.slots[j]?.join with
  | some k, some z =>
    let base := ((s.dramOf p).map (·.1)).getD 0
    let s1 := { s with dram := { s.dram with mem := s.dram.mem.undef (base + e.slotAt slot) 0x10000 s.fresh },
                       fresh := s.fresh + 1 }
    let s2 := (bitsOf 64 z.rows).foldl (fun s1 i =>
      s1.putRow p e slot (rowWrites (k.rowPlaces i) (s.rowBytes' s.dram.mem p e k l (64 * g + i)))) s1
    let bad := ((s.kv.engines[q]?).map fun x => x.badAt j).getD []
    let s3 := { s2 with dram := s2.dram.mark (base + e.slotAt slot) 0x10000 bad }
    (s3.modEngine q fun x => x.freeAt j).setPage p c l g (some (.resident slot))
  | _, _ => s

/-- A staged page flushed (R200): the entry is checked, a slot is allocated for its context, the copy is made. -/
def State.flush (s : State) (env : StepEnv) (p t c l g : Nat) (e : PartEntry) : KvOut :=
  match (s.ctx p c).bind fun k => k.page l g with
  | some (.staged q j) => match s.useEntry env p (some t) c l g with
    | (s1, false) => .ends (s1.loseCtx p c) 0x0332
    | (s1, true) => s1.takeSlot p t c e fun s n => s.flushTo p c l g q j e n
  | _ => .go s

/-- The staged page of an engine whose first row arrived earliest. -/
def EngineSt.oldest (x : EngineSt) : Option StageSlot :=
  (x.slots.filterMap id).foldl (fun (a : Option StageSlot) z => match a with
    | none => some z
    | some y => if z.order < y.order then some z else some y) none

/-- The lowest free staging slot of an engine. -/
def EngineSt.freeSlot (x : EngineSt) : Option Nat := (List.range 8).find? fun j => (x.slots.getD j none).isNone

/-- The entries of the tables as they stand after writes of this step: what a check reads now. -/
def State.memNow (s : State) (env : StepEnv) : Mem := s.dramRead env

/-- A page takes a staging slot of an engine, after a flush where all are taken (R199, R200). -/
def State.stage (s : State) (env : StepEnv) (p t c l g q : Nat) (e : PartEntry) : KvOut :=
  let make : State → KvOut := fun s => match (s.kv.engines[q]?).bind EngineSt.freeSlot with
    | some j =>
      let z : StageSlot := ⟨p, c, l, g, s.kv.order, 0⟩
      let s1 := s.modEngine q fun x =>
        { x with slots := x.slots.set j (some z), staging := x.staging.undef (0x10000 * j) 0x10000 s.fresh }
      .go (({ s1 with fresh := s1.fresh + 1, kv := { s1.kv with order := s1.kv.order + 1 } } : State).setPage p c l g
        (some (.staged q j)))
    | none => .ends s 0x0330
  match s.kv.engines[q]? with
  | some x => match x.freeSlot, x.oldest with
    | none, some z => (s.flush env z.part t z.ctx z.lane z.page e).next make
    | _, _ => make s
  | none => .ends s 0x0330

/-! ### Swap-in of a step's own context (R211) -/

/-- A step on a context that is not wholly there waits until it is (R211): one that swaps out, one that is swapped, and
one that a failed swap-out has left OPEN with part of its pages swapped. The first step to come asks for the slots.
Log entry 40. -/
def State.bringIn (s : State) (p t c : Nat) (e : PartEntry) : KvOut :=
  match s.ctx p c with
  | none => .ends s 0x0332
  | some k =>
    let n := k.swappedPages.length
    let ask : KvOut :=
      if n = 0 then .go (s.modCtx p c fun x => { x with state := .open', heldSlots := [], asker := none })
      else
        let s1 := s.modCtx p c fun x => { x with state := .swappingIn, asker := some t }
        match s1.needSlots p t c n e with
        | .go s2 =>
          let hold : CtxSt → CtxSt := fun x =>
            { x with heldSlots := (s2.freeSlots p e).take n, mover := s2.engineAt p t e }
          .waits ((s2.modCtx p c hold).poolLow p) c
        | .ends s2 code => .ends ((s2.modCtx p c CtxSt.backOut).releaseSwap p c) code
        | w => w
    match k.state with
    | .lost => .ends s 0x0332
    | .swappingOut => .waits s c
    | .open' => if n = 0 then .go s else ask
    | .swappingIn =>
      if k.heldSlots ≠ [] ∨ (k.asker ≠ some t ∧ (k.asker.any fun u => s.isAsking p u) = true) then .waits s c else ask
    | _ => ask

/-! ### Releasing pages (R197, R208) -/

/-- One page of a context released. -/
def State.dropPage (s : State) (p c l g : Nat) : State :=
  let s1 := match (s.ctx p c).bind fun k => k.page l g with
    | some (.staged q j) => s.modEngine q fun x => x.freeAt j
    | _ => s
  s1.setPage p c l g none

/-- The pages of a context that hold no position. -/
def CtxSt.emptyPages (k : CtxSt) : List (Nat × Nat) :=
  (k.pageList.filter fun x => match k.lanes[x.1]? with
    | some l => decide (l.fill + l.tent ≤ 64 * x.2.1)
    | none => false).map fun x => (x.1, x.2.1)

/-- Entries used by a step: the state after, whether all agree (R195). -/
def State.useEntries (s : State) (env : StepEnv) (p t c : Nat) (l : List (Nat × Nat)) : State × Bool :=
  l.foldl (fun (a : State × Bool) g =>
    ((a.1.useEntry env p (some t) c g.1 g.2).1, a.2 && (a.1.useEntry env p (some t) c g.1 g.2).2)) (s, true)

/-- Pages of a context released, the entry of each checked first (R195). -/
def State.dropPages (env : StepEnv) (p t c : Nat) : State → List (Nat × Nat) → KvOut
  | s, [] => .go s
  | s, (l, g) :: r => match s.useEntry env p (some t) c l g with
    | (s1, false) => .ends (s1.loseCtx p c) 0x0332
    | (s1, true) => State.dropPages env p t c (s1.dropPage p c l g) r

/-- The pages of a context that hold no position, released. -/
def State.dropEmpty (s : State) (env : StepEnv) (p t c : Nat) : KvOut := match s.ctx p c with
  | some k => (s.dropPages env p t c k.emptyPages).next fun s1 => .go (s1.poolLow p)
  | none => .go s

/-- A context CLOSEd: its slots are free; its table's entries are not read (R197). -/
def State.closeCtx (s : State) (p c : Nat) : State :=
  let s1 := match s.ctx p c with
    | some k => k.stagedPages.foldl (fun (s : State) (x : Nat × Nat × Nat × Nat) =>
      s.modEngine x.2.2.1 fun y => y.freeAt x.2.2.2) s
    | none => s
  let s2 := { s1 with kv := { s1.kv with pools := lmod s1.kv.pools p fun q => { q with ctxs := alErase q.ctxs c } } }
  s2.poolLow p

/-! ### What every step of this chapter shares -/

/-- 0x0627, then the context number and its state: 0x0629 (R216). `fresh` asks for a FREE context. -/
def State.ctxChecks (s : State) (c : StepCtx) (fresh : Bool) : List Nat :=
  let k := ctxField c.b
  [codeIf (s.engineOf c.part c.core).isNone 0x0627,
   codeIf (decide (c.part.maxCtx ≤ k) || ((s.ctx c.p k).isNone != fresh)) 0x0629]

/-- The time of last use moves on (R209). -/
def State.touchCtx (s : State) (p c : Nat) : State :=
  let s1 := s.modCtx p c fun x => { x with lastUse := s.kv.order }
  { s1 with kv := { s1.kv with order := s1.kv.order + 1 } }

/-- The targets whose steps stand at an engine, in order of arrival (R191). -/
def State.engineLine (s : State) (p q : Nat) : List Nat :=
  ((s.kv.engines[q]?.map (·.line)).getD []).filter fun t => s.isAsking p t

/-- A step arrives at an engine, or has left it. -/
def State.setLine (s : State) (q : Nat) (l : List Nat) : State := s.modEngine q fun x => { x with line := l }

/-- The bytes written to DRAM (R159). -/
def State.dramWritten (s : State) : Nat := ((List.range 4).map fun t => s.ctr (0x480040 + 8 * t)).sum

/-- A part of a step has written to DRAM or to a staging buffer (R229). Log entry 94. -/
def State.kvWrote (t s : State) : Bool :=
  t.dramWritten != s.dramWritten || t.kv.engines.map (·.staging) != s.kv.engines.map (·.staging)

/-- Corrected errors met by a part of a step that has read DRAM (R161). -/
def State.corrected (t s : State) (env : StepEnv) : State :=
  if ((List.range 4).map fun i => t.ctr (0x480020 + 8 * i)) = ((List.range 4).map fun i => s.ctr (0x480020 + 8 * i)) then t
  else env.dramCe.foldl (fun s t => s.dramCorrected t.val) t

/-- A step on a context (R191, R211): it takes its place at the engine, which executes one step at a time in order of
arrival, and only where its domain is on and no granule runs; the context is brought in where the step needs it; then
the step's own part. A lapsed engine marks the job (R395). What the step has written and met stands in its target while it
waits. -/
def State.kvStep (s : State) (env : StepEnv) (c : StepCtx) (swapIn : Bool) (f : State → KvOut) : Option (State × StepPhase) :=
  let k := ctxField c.b
  match s.engineOf c.part c.core with
  | none => some (s, .done 0x0627 false)
  | some q =>
    let line := s.engineLine c.p q
    let s0 := s.setLine q (if line.contains c.t then line else line ++ [c.t])
    let left : State → State := fun s => s.setLine q (line.filter fun u => u != c.t)
    if !s.engineFree q || (line.head?.any fun u => u != c.t) then some (s0, .started)
    else if env.mismatch && c.part.hinged then some (left s, .done 0x0403 false)
    else match env.tower with
      | some t => some ((left s).loseTower t (some 0x0422), .done 0x0313)
      | none =>
        let s1 := s0.markLapsed c.p (s.unitLapsed (16 + q))
        let r := if swapIn then (s1.bringIn c.p c.t k c.part).next f else f s1
        let ends : State → Nat → State × StepPhase := fun s2 code =>
          let ue := (s2.tgt c.p c.t).any (·.ueMet)
          ((left s2).corrected s env, .done (worse code (codeIf ue 0x0311)) (c.tgt.wrote || s2.kvWrote s))
        match r with
        | .go s2 => some (ends s2 0)
        | .ends s2 code => some (ends s2 code)
        | .waits s2 v =>
          some ((s2.modTgt c.p c.t fun x => { x with wrote := x.wrote || s2.kvWrote s }).corrected s env, .swapWait v)

/-! ### KV_CTX (R196, R197, R208) -/

/-- A KV_CTX step of one OP. -/
def isCtxOp (op : Nat) (b : List Byte) : Bool := hOp b == 0x23 && leAt b 8 1 == op

/-- Fields that an operation does not use are zero (R196). -/
def ctxZero (b : List Byte) : Bool :=
  let op := leAt b 8 1
  let z : Nat → Nat → Bool := fun o n => leAt b o n == 0
  (op == 0 || op == 5 || z 9 1) && (op == 0 || (z 0x0C 2 && z 0x0E 2 && z 0x10 1 && z 0x11 1 && z 0x12 1 && z 0x14 4 && z 0x18 8)) &&
  (op == 3 || (z 0x13 1 && z 0x24 8)) && (op == 2 || z 0x20 4) && zeroRange b 0x2C 20

/-- A format that keys and values may have (R193). -/
def kvFmt (f : Nat) : Bool := decide (f ≤ 8) && f != 2

/-- The field checks of OPEN. -/
def openFields (b : List Byte) : Bool :=
  let d := leAt b 0x0E 2
  let m := leAt b 0x14 4
  decide (1 ≤ leAt b 0x0C 2) && decide (leAt b 0x0C 2 ≤ 4096) && d % 32 == 0 && decide (32 ≤ d) && decide (d ≤ 256) &&
  kvFmt (leAt b 0x10 1) && kvFmt (leAt b 0x11 1) && decide (leAt b 0x12 1 < 2) && m % 64 == 0 && decide (64 ≤ m) &&
  decide (m ≤ 262144) && leAt b 0x18 8 % 32 == 0

/-- The bytes of a context's page table. -/
def tableBytes (b : List Byte) : Nat := 8 * leAt b 0x0C 2 * (leAt b 0x14 4 / 64)

/-- The checks of OPEN. -/
def ctxOpenCheck (s : State) (c : StepCtx) : Nat :=
  let a := leAt c.b 0x18 8
  firstCode ([codeIf (!ctxZero c.b || !openFields c.b) 0x0622,
    codeIf (decide (c.part.poolBase < a + tableBytes c.b) || !s.inDram c.p a (tableBytes c.b)) 0x0301] ++ s.ctxChecks c true ++
    [codeIf (s.comp.parts.getD c.p .empty).dramLost 0x0313])

/-- OPEN. -/
def ctxOpenBody (env : StepEnv) (s : State) (c : StepCtx) : Option (State × StepPhase) :=
  let b := c.b
  let k : CtxSt := ⟨.open', leAt b 9 1, tbit (leAt b 0x12 1) 0, leAt b 0x0E 2, leAt b 0x10 1, leAt b 0x11 1, leAt b 0x14 4,
    leAt b 0x18 8, 0, s.kv.order, List.replicate (leAt b 0x0C 2) ⟨0, 0, []⟩, [], none, 0⟩
  s.kvStep env c false fun s =>
    let s1 := { s with kv := { s.kv with order := s.kv.order + 1,
                                         pools := lmod s.kv.pools c.p fun q => { q with ctxs := alSet q.ctxs (ctxField b) k } } }
    .go (s1.writeDram c.p (leAt b 0x18 8) (List.replicate (tableBytes b) 0))

/-- The checks of the other operations: FREE contexts, and LOST ones but for CLOSE, are refused (R197). -/
def ctxOpCheck (s : State) (c : StepCtx) : Nat :=
  let lost := match s.ctx c.p (ctxField c.b) with
    | some k => k.state == .lost
    | none => false
  firstCode ([codeIf (!ctxZero c.b || decide (8 < leAt c.b 0x13 1)) 0x0622] ++ s.ctxChecks c false ++
    [codeIf (lost && leAt c.b 8 1 != 1) 0x0629])

/-- CLOSE: waits while a swap is in progress. -/
def ctxCloseBody (env : StepEnv) (s : State) (c : StepCtx) : Option (State × StepPhase) :=
  s.kvStep env c false fun s => match s.ctx c.p (ctxField c.b) with
    | some k =>
      if k.state = .swappingOut ∨ k.state = .swappingIn then .waits s (ctxField c.b) else .go (s.closeCtx c.p (ctxField c.b))
    | none => .go s

/-- The checks of TRUNCATE: a LEN above the FILL of a lane is a breach of the operation's conditions. Log entry 40. -/
def ctxTruncateCheck (s : State) (c : StepCtx) : Nat :=
  firstCode [ctxOpCheck s c, codeIf (match s.ctx c.p (ctxField c.b) with
    | some k => k.lanes.any fun l => decide (l.fill < leAt c.b 0x20 4)
    | none => false) 0x0629]

/-- The rows of a staged page that hold positions of its lane. -/
def State.trimStaged (s : State) (p c : Nat) : State := match s.ctx p c with
  | some k => k.stagedPages.foldl (fun s x =>
    let n := match k.lanes[x.1]? with
      | some l => l.fill - 64 * x.2.1
      | none => 0
    s.modEngine x.2.2.1 fun y => { y with slots := lmod y.slots x.2.2.2 fun z => z.map fun z =>
      { z with rows := if 64 ≤ n then z.rows else z.rows % 2 ^ n } }) s
  | none => s

/-- TRUNCATE. -/
def ctxTruncateBody (env : StepEnv) (s : State) (c : StepCtx) : Option (State × StepPhase) :=
  let k := ctxField c.b
  let cut : CtxSt → CtxSt := fun x => { x with lanes := x.lanes.map fun l => { l with fill := leAt c.b 0x20 4, tent := 0 } }
  s.kvStep env c true fun s => ((s.modCtx c.p k cut).trimStaged c.p k).dropEmpty env c.p c.t k

/-- The node indices of PATH. -/
def pathOf (b : List Byte) : List Nat := (List.range (leAt b 0x13 1)).map fun i => leAt b (0x24 + i) 1

/-- The entries rise strictly. -/
def risesStrictly : List Nat → Bool
  | a :: b :: t => decide (a < b) && risesStrictly (b :: t)
  | _ => true

/-- The checks of ACCEPT (R208). -/
def ctxAcceptCheck (s : State) (c : StepCtx) : Nat :=
  firstCode [ctxOpCheck s c, codeIf (match s.ctx c.p (ctxField c.b) with
    | some k =>
      let t := (k.lanes.head?.map (·.tent)).getD 0
      !risesStrictly (pathOf c.b) || ((pathOf c.b).any fun n => decide (t ≤ n)) || k.lanes.any fun l => l.tent != t
    | none => false) 0x0628]

/-- The read of a row of a page counted, where it lies in a page slot (R159, R217). -/
def State.countRow (s : State) (p c l pos : Nat) (e : PartEntry) : State := match s.ctx p c with
  | some k => match k.page l (pos / 64) with
    | some (.resident n) => (k.rowPlaces (pos % 64)).foldl (fun s x => s.countRead p (e.slotAt n + x.1) x.2) s
    | _ => s
  | none => s

/-- The device extents of a row of a page, where it lies in a page slot. -/
def State.rowExts (s : State) (p : Nat) (e : PartEntry) (k : CtxSt) (l pos : Nat) : List Ext :=
  let base := ((s.dramOf p).map (·.1)).getD 0
  match k.page l (pos / 64) with
  | some (.resident n) => ((k.rowPlaces (pos % 64)).filter fun x => x.2 != 0).map fun x => ⟨base + e.slotAt n + x.1, x.2⟩
  | _ => []

/-- The poisoned parts of a row of a page, at each of its places (R139). -/
def State.rowPoison (s : State) (env : StepEnv) (p : Nat) (e : PartEntry) (k : CtxSt) (l pos : Nat) : List (List Ext) :=
  let base := ((s.dramOf p).map (·.1)).getD 0
  (k.rowPlaces (pos % 64)).map fun x => match k.page l (pos / 64) with
    | some (.resident n) => badIn (s.dram.badExts env.dramUe) (base + e.slotAt n + x.1) x.2
    | some (.staged q j) => badIn (((s.kv.engines[q]?).map fun y => y.badAt j).getD []) x.1 x.2
    | _ => []

/-- A row of a page marked with the poison of what was written there (R139). -/
def State.markRow (s : State) (p c l pos : Nat) (e : PartEntry) (bad : List (List Ext)) : State :=
  match s.ctx p c, s.dramOf p with
  | some k, some (base, _) => match k.page l (pos / 64) with
    | some (.resident n) => ((k.rowPlaces (pos % 64)).zip bad).foldl (fun (s : State) x =>
        { s with dram := s.dram.mark (base + e.slotAt n + x.1.1) x.1.2 x.2 }) s
    | some (.staged q j) =>
      let more := ((k.rowPlaces (pos % 64)).zip bad).flatMap fun x => x.2.map fun g => (0x10000 * j + x.1.1 + g.lo, g.len)
      s.modEngine q fun y => { y with poison := y.poison ++ more }
    | _ => s
  | _, _ => s

/-- One row of a lane moved from one position to another, with its poison. -/
def State.moveRow (s : State) (env : StepEnv) (p c l src dst : Nat) (e : PartEntry) : State :=
  match s.ctx p c with
  | some k =>
    let ws := rowWrites (k.rowPlaces (dst % 64)) (s.rowBytes' (s.memNow env) p e k l src)
    let s1 := s.countRow p c l src e
    let s2 := match k.page l (dst / 64) with
      | some (.resident n) => s1.putRow p e n ws
      | some (.staged q j) => s1.modEngine q fun x => x.putRow j (dst % 64) ws
      | _ => s1
    s2.markRow p c l dst e (s.rowPoison env p e k l src)
  | none => s

/-- ACCEPT (R208); poisoned rows among those moved raise 0x0311 (R139, log entry 41). -/
def ctxAcceptBody (env : StepEnv) (s : State) (c : StepCtx) : Option (State × StepPhase) :=
  let k := ctxField c.b
  s.kvStep env c true fun s => match s.ctx c.p k with
    | some x =>
      let path := pathOf c.b
      let used := x.pageList.filter fun g => (x.lanes[g.1]?).any fun l =>
        decide (l.fill < 64 * g.2.1 + 64) && decide (64 * g.2.1 < l.fill + l.tent)
      let (s, good) := s.useEntries env c.p c.t k (used.map fun g => (g.1, g.2.1))
      if !good then .ends (s.loseCtx c.p k) 0x0332
      else
        let from' := x.lanes.zipIdx.flatMap fun l => path.map fun n => (l.2, l.1.fill + n)
        let staged := from'.any fun a => match x.page a.1 (a.2 / 64) with
          | some (.staged _ _) => (s.rowPoison env c.p c.part x a.1 a.2).any fun b => !b.isEmpty
          | _ => false
        let (s0, ue) := s.dramErrors [] env.dramUe (from'.flatMap fun a => s.rowExts c.p c.part x a.1 a.2)
        let s1 := (x.lanes.zipIdx).foldl (fun s l =>
          (path.zipIdx).foldl (fun s n => s.moveRow env c.p k l.2 (l.1.fill + n.1) (l.1.fill + n.2) c.part) s) s0
        let s2 := s1.modCtx c.p k fun x => { x with lanes := x.lanes.map fun l =>
          { l with fill := l.fill + path.length, tent := 0 } }
        ((s2.trimStaged c.p k).meetUe c.p (some c.t) (ue || staged)).dropEmpty env c.p c.t k
    | none => .ends s 0x0332

/-- FLUSH: every staged page of the context in ascending order. -/
def State.flushAll (s : State) (env : StepEnv) (p t c : Nat) (e : PartEntry) : List (Nat × Nat) → KvOut
  | [] => .go s
  | (l, g) :: r => (s.flush env p t c l g e).next fun s1 => State.flushAll s1 env p t c e r

/-- FLUSH. -/
def ctxFlushBody (env : StepEnv) (s : State) (c : StepCtx) : Option (State × StepPhase) :=
  let k := ctxField c.b
  s.kvStep env c true fun s => match s.ctx c.p k with
    | some x => s.flushAll env c.p c.t k c.part (x.stagedPages.map fun y => (y.1, y.2.1))
    | none => .ends s 0x0332

/-- SET_PRIO. -/
def ctxPrioBody (env : StepEnv) (s : State) (c : StepCtx) : Option (State × StepPhase) :=
  s.kvStep env c true fun s => .go (s.modCtx c.p (ctxField c.b) fun x => { x with prio := leAt c.b 9 1 })

/-- PREFETCH: on an OPEN context it does nothing. -/
def ctxPrefetchBody (env : StepEnv) (s : State) (c : StepCtx) : Option (State × StepPhase) :=
  s.kvStep env c (match s.ctx c.p (ctxField c.b) with
    | some k => k.state != .open'
    | none => true) .go

/-! ### KV_MAP (R201) -/

/-- The checks of KV_MAP. -/
def kvMapCheck (s : State) (c : StepCtx) : Nat :=
  let b := c.b
  let n := leAt b 0x0C 2
  let cnt := leAt b 0x14 4
  firstCode ([codeIf (n == 0 || decide (4096 < n) || cnt == 0 || decide (262144 < cnt) || !zeroRange b 0x0E 2 ||
      !zeroRange b 0x18 40) 0x0622] ++ s.ctxChecks c false ++
    [codeIf (match s.ctx c.p (ctxField b) with
       | some k => decide (k.lanes.length < leAt b 0x0A 2 + n)
       | none => false) 0x0629,
     codeIf (match s.ctx c.p (ctxField b) with
       | some k => decide (k.maxPos < leAt b 0x10 4 + cnt)
       | none => false) 0x0628])

/-- The pages of a range mapped and flushed in order, the entry of each checked first (R195). Log entry 40. -/
def State.mapPages (s : State) (env : StepEnv) (p t c : Nat) (e : PartEntry) : List (Nat × Nat) → KvOut
  | [] => .go s
  | (l, g) :: r =>
    let one : KvOut := match (s.ctx p c).bind fun k => k.page l g with
      | some (.staged _ _) => s.flush env p t c l g e
      | x => match s.useEntry env p (some t) c l g with
        | (s1, false) => .ends (s1.loseCtx p c) 0x0332
        | (s1, true) =>
          if x.isSome then .go s1
          else s1.takeSlot p t c e fun s n =>
            let base := ((s.dramOf p).map (·.1)).getD 0
            ({ s with dram := { s.dram with mem := s.dram.mem.undef (base + e.slotAt n) 0x10000 s.fresh },
                      fresh := s.fresh + 1 } : State).setPage p c l g (some (.resident n))
    one.next fun s1 => State.mapPages s1 env p t c e r

/-- KV_MAP. Log entry 40. -/
def kvMapBody (env : StepEnv) (s : State) (c : StepCtx) : Option (State × StepPhase) :=
  let b := c.b
  let g0 := leAt b 0x10 4 / 64
  let g1 := (leAt b 0x10 4 + leAt b 0x14 4 - 1) / 64
  let pages := (List.range (leAt b 0x0C 2)).flatMap fun l =>
    (List.range (g1 + 1 - g0)).map fun g => (leAt b 0x0A 2 + l, g0 + g)
  s.kvStep env c true fun s =>
    (s.mapPages env c.p c.t (ctxField b) c.part pages).next fun s1 => .go (s1.touchCtx c.p (ctxField b))

/-! ### KV_APPEND (R198 to R200) -/

/-- The operands that KV_APPEND reads, with the head dimension and formats of its context: address, bytes of a row,
pitch; none where there is no operand. -/
def appendOps (b : List Byte) (k : CtxSt) : List (Option (Nat × Nat × Nat)) :=
  let el : Nat → Nat → Option (Nat × Nat × Nat) := fun a f => some (a, rowBytes (fmtW f) k.d, pitchOf (fmtW f) k.d)
  let sc : Nat → Option (Nat × Nat × Nat) := fun a => if a = noAddr then none else some (a, k.d / 32, 32)
  [el (leAt b 8 4) k.kFmt, sc (leAt b 0x10 4), el (leAt b 0x0C 4) k.vFmt, sc (leAt b 0x14 4)]

/-- The rows of a KV_APPEND. -/
def appendRows (b : List Byte) : Nat := leAt b 0x1C 1 * leAt b 0x1D 1

/-- The extents that KV_APPEND reads. -/
def appendExts (b : List Byte) (k : CtxSt) : List Ext := (appendOps b k).filterMap fun o => o.map fun x =>
  ⟨x.1, appendRows b * x.2.2⟩

/-- The checks of KV_APPEND. -/
def kvAppendCheck (s : State) (c : StepCtx) : Nat :=
  let b := c.b
  let np := leAt b 0x1C 1
  let nl := leAt b 0x1D 1
  let tent := tbit (leAt b 0x1E 1) 0
  let k := s.ctx c.p (ctxField b)
  let noScale := match k with
    | some x => (isFp16 x.kFmt && leAt b 0x10 4 != noAddr) || (isFp16 x.vFmt && leAt b 0x14 4 != noAddr)
    | none => false
  let pos := leAt b 0x20 4
  firstCode ([codeIf (leAt b 8 4 % 32 != 0 || leAt b 0x0C 4 % 32 != 0 || !optOk (leAt b 0x10 4) || !optOk (leAt b 0x14 4) ||
      np == 0 || decide (64 < np) || nl == 0 || decide (16 < nl) || decide (1 < leAt b 0x1E 1) || leAt b 0x1F 1 != 0 ||
      !zeroRange b 0x24 28 || noScale) 0x0622,
    codeIf (match k with
      | some x => (appendExts b x).any fun e => decide (padBytes < e.lo + e.len)
      | none => false) 0x0621] ++ s.ctxChecks c false ++
    [codeIf (match k with
       | some x => decide (x.lanes.length < leAt b 0x1A 2 + nl)
       | none => false) 0x0629,
     codeIf (match k with
       | some x => decide (x.maxPos < pos + np) || (List.range nl).any fun i =>
         let l := x.lanes.getD (leAt b 0x1A 2 + i) ⟨0, 0, []⟩
         pos != l.fill + l.tent || (if tent then decide (16 < l.tent + np) else l.tent != 0)
       | none => false) 0x0628])

/-- The bytes of row r of each operand: key, key scales, value, value scales; the unit scale where there is none. -/
def appendRow (pad : Pad) (b : List Byte) (k : CtxSt) (r : Nat) : List (List Byte) :=
  ((appendOps b k).zip [rowPitch k.d k.kFmt, k.d / 32, rowPitch k.d k.vFmt, k.d / 32]).map fun o => match o.1 with
    | some x => padTo o.2 (pad.bytes (x.1 + r * x.2.2) x.2.1)
    | none => List.replicate o.2 127

/-- One row put into its page, which is staged first where it is unmapped; a staged page with all its rows is flushed. -/
def State.appendOne (s : State) (env : StepEnv) (p t c l pos q : Nat) (e : PartEntry) (row : List (List Byte)) : KvOut :=
  let g := pos / 64
  let i := pos % 64
  match s.ctx p c with
  | none => .ends s 0x0332
  | some k =>
    let (s, ok) := s.useEntry env p (some t) c l g
    if !ok then .ends (s.loseCtx p c) 0x0332
    else
      let ws := rowWrites (k.rowPlaces i) row
      let intoStage : State → KvOut := fun s => match (s.ctx p c).bind fun k => k.page l g with
        | some (.staged q' j) =>
          let s1 := s.modEngine q' fun x => x.putRow j i ws
          let full := ((s1.kv.engines[q']?).bind fun x => x.slots[j]?.join).any fun z => popCount 64 z.rows == 64
          if full then s1.flush env p t c l g e else .go s1
        | _ => .ends s 0x0332
      match k.page l g with
      | some (.resident n) => .go (s.putRow p e n ws)
      | some (.staged _ _) => intoStage s
      | some (.swapped _ _) => .ends s 0x0332
      | none => (s.stage env p t c l g q e).next intoStage

/-- The rows of a KV_APPEND in order. -/
def State.appendAll (s : State) (env : StepEnv) (p t c q : Nat) (e : PartEntry) : List (Nat × Nat × List (List Byte)) → KvOut
  | [] => .go s
  | (l, pos, row) :: r => (s.appendOne env p t c l pos q e row).next fun s1 => State.appendAll s1 env p t c q e r

/-- The rows that KV_APPEND has written to page slots and staging slots carry the poison of the rows read (R139). -/
def State.appendPoison (s : State) (c : StepCtx) (k : CtxSt) (bad : List Ext) : State :=
  let b := c.b
  let np := leAt b 0x1C 1
  (List.range (appendRows b)).foldl (fun s r =>
    s.markRow c.p (ctxField b) (leAt b 0x1A 2 + r / np) (leAt b 0x20 4 + r % np) c.part
      ((appendOps b k).map fun o => match o with
        | some x => badIn bad (x.1 + r * x.2.2) x.2.1
        | none => [])) s

/-- KV_APPEND. -/
def kvAppendBody (env : StepEnv) (s : State) (c : StepCtx) : Option (State × StepPhase) :=
  let b := c.b
  let np := leAt b 0x1C 1
  match s.ctx c.p (ctxField b), s.engineOf c.part c.core with
  | some k, some q =>
    let pad := s.padOf c.p c.t
    let exts := appendExts b k
    if s.padHeld c.p c.t exts then none
    else if pad.refused exts ≠ 0 then some (s, .done (pad.refused exts) false)
    else
      let src := s.padRead c env
      let bad := pad.badExts (s.weights c.core) env.spUe
      let rows := (List.range (appendRows b)).map fun r =>
        (leAt b 0x1A 2 + r / np, leAt b 0x20 4 + r % np, appendRow src b k r)
      let tent := tbit (leAt b 0x1E 1) 0
      let more : LaneSt × Nat → LaneSt := fun l =>
        if leAt b 0x1A 2 ≤ l.2 ∧ l.2 < leAt b 0x1A 2 + leAt b 0x1D 1 then
          (if tent then { l.1 with tent := l.1.tent + np } else { l.1 with fill := l.1.fill + np })
        else l.1
      let grow : CtxSt → CtxSt := fun x => { x with lanes := x.lanes.zipIdx.map more }
      let r := s.kvStep env c true fun s =>
        (s.appendAll env c.p c.t (ctxField b) q c.part rows).next fun s1 =>
          .go ((s1.modCtx c.p (ctxField b) grow).touchCtx c.p (ctxField b))
      match r with
      | some (s1, .done st w) =>
        if st = 0 ∨ st = 0x0311 then
          let (s2, ue) := s1.padErrors c env exts
          some (((s2.appendPoison c k bad).markUe c.p ue), .done (worse st (codeIf ue 0x0310)))
        else some (s1, .done st w)
      | x => x
  | _, _ => some (s, .done 0x0332 false)

/-! ### Pages that move (R210, R211) -/

/-- Targets of a partition that wait for pages of a context to move. -/
def State.swapWaiters (s : State) (p c : Nat) : List TargetSt := match s.comp.parts[p]?.bind (·.job) with
  | some j => j.targets.filter fun x => x.phase == .swapWait c
  | none => []

/-- A step of CLOSE, which no failed swap ends (R197). -/
def TargetSt.isClose (x : TargetSt) : Bool := match x.steps with
  | (_, b) :: _ => isCtxOp 1 b
  | [] => false

/-- The step of the target that asked for a swap ends with its code; a CLOSE is taken up again (R197, R210, R211). -/
def State.endAsker (s : State) (p t code : Nat) : State :=
  s.modTgt p t fun x => match x.phase with
    | .swapWait _ => { x with phase := if x.isClose then .started else .done code x.wrote }
    | .started => if x.isClose then x else { x with phase := .done code x.wrote }
    | _ => x

/-- The page slots that the request of a target's step is for: those of a context that comes back, else one. -/
def State.slotNeed (s : State) (p t : Nat) : Nat :=
  match (s.ctxs p).find? fun x => x.2.state == .swappingIn && x.2.heldSlots.isEmpty && x.2.asker == some t with
  | some x => x.2.swappedPages.length
  | none => 1

/-- The DRAM bytes counted (R159). -/
def State.dramTotal (s : State) : Nat :=
  ((List.range 4).map fun t => s.ctr (0x480020 + 8 * t) + s.ctr (0x480040 + 8 * t)).sum

/-- The offset of a swap slot in its window (R218). -/
def State.swapBase (s : State) (p n : Nat) : Nat :=
  s.rv (poolKey p 4) / 4096 * 4096 + 2 ^ 32 * (s.rv (poolKey p 8) % 2 ^ 16) + n * 0x11000

/-- The window of the swap area. -/
def State.swapWin (s : State) (p : Nat) : Nat := s.rv (poolKey p 0) % 256

/-- A page as a swap slot holds it: 16 sealed blocks, their records, zeros (R416, R419). -/
def State.sealPage (s : State) (p c l g gen : Nat) (page : List Byte) : List Byte × State :=
  let (cts, recs, s1) := (List.range 16).foldl (fun (a : List Byte × List Byte × State) b =>
    let (ct, rcd, s2) := a.2.2.sealBlock (a.2.2.swapKey p) (aadSwap p c l g b gen) (sliceAt page (4096 * b) 4096)
    (a.1 ++ ct, a.2.1 ++ rcd, s2)) ([], [], s)
  (cts ++ recs ++ List.replicate 0xE00 0, s1)

/-- A page from what the host returns of its swap slot; none where a block fails (R419, R420). -/
def State.openPage (s : State) (p c l g gen : Nat) (bs : List Byte) : Option (List Byte) :=
  (List.range 16).foldl (fun (a : Option (List Byte)) b => match a with
    | none => none
    | some x => (openBlock (s.swapKey p) (aadSwap p c l g b gen) (sliceAt bs (4096 * b) 4096)
        (sliceAt bs (0x10000 + 32 * b) 32)).map fun y => x ++ y) (some [])

/-- A victim's swap-out cannot go on (R210, R211): it stays OPEN with what it holds; the step whose request it left for
ends, unless enough slots are free and it has resumed already, and the context that the request was for goes back; the steps
that waited for the victim are taken up again. Log entry 40. -/
def State.swapOutFails (s : State) (p v code : Nat) : State :=
  let s1 := (s.modCtx p v fun x => { x with state := .open' })
  let resumed : Bool := (s.part p).any fun e => (s.slotQueue p).head?.any fun t => decide (s.slotNeed p t ≤ s.freeCount p e)
  let s2 := if resumed then s1 else match s.slotQueue p with
    | t :: rest =>
      let back := (s.ctxs p).filter fun (x : Nat × CtxSt) =>
        decide (x.2.state = CtxState.swappingIn) && x.2.heldSlots.isEmpty && x.2.asker == some t
      let s2 := (s1.setSlotQueue p rest).endAsker p t code
      (back.foldl (fun (s : State) (x : Nat × CtxSt) => (s.modCtx p x.1 CtxSt.backOut).releaseSwap p x.1) s2).wakeHead p
    | [] => s1
  s2.releaseSwap p v

/-- One page of the leaving context has been written (R210). -/
def State.swapOutPage (s : State) (p : Nat) (env : StepEnv) : State :=
  match s.part p, s.leaving p with
  | some e, some v => match s.ctx p v with
    | some k => match k.residentPages with
      | (l, g, slot) :: rest =>
        let mem := s.dramRead env
        let base := ((s.dramOf p).map (·.1)).getD 0
        let asks := (s.slotQueue p).head?
        let before := s.dramTotal
        let (s, ok) := s.useEntry env p asks v l g
        if !ok then (s.loseCtx p v).wakeHead p
        else match s.freeSwap p with
          | none => s.swapOutFails p v 0x0331
          | some n =>
            let w := s.swapWin p
            let o := s.swapBase p n
            let code := s.windowCheck p w o 0x11000 false false
            if code ≠ 0 then (s.winRefused p).swapOutFails p v code
            else
              let (s1, ue) := s.dramErrors env.dramCe env.dramUe [⟨base + e.slotAt slot, 0x10000⟩]
              let s1 := s1.meetUe p asks ue
              let (bs, s2) := s1.sealPage p v l g k.gen (mem.readBytes (base + e.slotAt slot) 0x10000)
              let q := k.mover
              let s3 := ((s2.countRead p (e.slotAt slot) 0x10000).hostWrite p w o bs).setPage p v l g (some (.swapped n k.gen))
              let s4 := (s3.bump (attnKey q 0x28) 1).bump (attnKey q 0x20) (s3.dramTotal - before)
              let s5 := if rest.isEmpty then s4.modCtx p v fun x => { x with state := .swapped } else s4
              (s5.poolLow p).releaseSwap p v
      | [] => s
    | none => s
  | _, _ => s

/-- A swap-in fails: the step that asked for it ends with the code, the context is LOST, and the other steps that wait for
it are taken up again (R211, R213, R421); the slots held are free. Log entry 40. -/
def State.swapInFails (s : State) (p c code : Nat) : State :=
  let asker := (s.ctx p c).bind (·.asker)
  let s1 := match asker with
    | some t => s.endAsker p t code
    | none => s
  (s1.loseCtx p c).poolLow p

/-- One page of the returning context has been read and authenticated (R211). -/
def State.swapInPage (s : State) (p : Nat) (env : StepEnv) : State :=
  match s.part p, s.returning p with
  | some e, some c => match s.ctx p c with
    | some k => match k.swappedPages, k.heldSlots with
      | (l, g, n, gen) :: rest, slot :: held =>
        let w := s.swapWin p
        let code := s.windowCheck p w (s.swapBase p n) 0x11000 true false
        let before := s.dramTotal
        let (s, ok) := s.useEntry env p k.asker c l g
        if !ok then s.swapInFails p c 0x0332
        else if code ≠ 0 then (s.winRefused p).swapInFails p c code
        else if env.hostFail then s.swapInFails p c 0x0312
        else match s.openPage p c l g gen env.host with
          | none => (s.authFail p).swapInFails p c 0x0514
          | some page =>
            let q := k.mover
            let s1 := (s.modCtx p c fun x => { x with heldSlots := held }).writeDram p (e.slotAt slot) page
            let s1 := s1.setPage p c l g (some (.resident slot))
            let s2 := (s1.bump (attnKey q 0x30) 1).bump (attnKey q 0x20) (s1.dramTotal - before)
            let s2 := match k.asker with
              | some t => s2.modTgt p t fun x => { x with wrote := true }
              | none => s2
            if rest.isEmpty then (s2.modCtx p c fun x => { x with state := .open', asker := none }).releaseSwap p c else s2
      | _, _ => s
    | none => s
  | _, _ => s

/-! ### The engine's own registers (R217) -/

/-- A step of this chapter run on its target, with what its serving engine counts (R217): the DRAM bytes and the cycles.
Its status and its events come at its end. -/
def State.engineRun (s : State) (p t : Nat) (env : StepEnv) (pick : List Byte → Bool) (check : State → StepCtx → Nat)
    (body : State → StepCtx → Option (State × StepPhase)) : State :=
  let s1 := s.runStep p t pick check body
  match s.part p, s.hostOf p t with
  | some e, some h => match s.engineOf e h with
    | some q =>
      if s1.comp = s.comp then s1
      else (s1.bump (attnKey q 0x20) (s1.dramTotal - s.dramTotal)).bump (attnKey q 0x10) env.busy
    | none => s1
  | _, _ => s1

/-! ### Commands -/

/-- KV_APPEND (R198). -/
def execKvAppend (part : PartIx) (target : TargetIx) (env : StepEnv) (s : State) : Answer :=
  .next (commitStep s (s.engineRun part target env (fun b => hOp b == 0x21) kvAppendCheck (kvAppendBody env)))

/-- KV_MAP (R201). -/
def execKvMap (part : PartIx) (target : TargetIx) (env : StepEnv) (s : State) : Answer :=
  .next (commitStep s (s.engineRun part target env (fun b => hOp b == 0x22) kvMapCheck (kvMapBody env)))

/-- KV_CTX OPEN (R197). -/
def execKvCtxOpen (part : PartIx) (target : TargetIx) (env : StepEnv) (s : State) : Answer :=
  .next (commitStep s (s.engineRun part target env (isCtxOp 0) ctxOpenCheck (ctxOpenBody env)))

/-- KV_CTX CLOSE (R197). -/
def execKvCtxClose (part : PartIx) (target : TargetIx) (env : StepEnv) (s : State) : Answer :=
  .next (commitStep s (s.engineRun part target env (isCtxOp 1) ctxOpCheck (ctxCloseBody env)))

/-- KV_CTX TRUNCATE (R197). -/
def execKvCtxTruncate (part : PartIx) (target : TargetIx) (env : StepEnv) (s : State) : Answer :=
  .next (commitStep s (s.engineRun part target env (isCtxOp 2) ctxTruncateCheck (ctxTruncateBody env)))

/-- KV_CTX ACCEPT (R208). -/
def execKvCtxAccept (part : PartIx) (target : TargetIx) (env : StepEnv) (s : State) : Answer :=
  .next (commitStep s (s.engineRun part target env (isCtxOp 3) ctxAcceptCheck (ctxAcceptBody env)))

/-- KV_CTX FLUSH (R197). -/
def execKvCtxFlush (part : PartIx) (target : TargetIx) (env : StepEnv) (s : State) : Answer :=
  .next (commitStep s (s.engineRun part target env (isCtxOp 4) ctxOpCheck (ctxFlushBody env)))

/-- KV_CTX SET_PRIO (R197). -/
def execKvCtxSetPrio (part : PartIx) (target : TargetIx) (env : StepEnv) (s : State) : Answer :=
  .next (commitStep s (s.engineRun part target env (isCtxOp 5) ctxOpCheck (ctxPrioBody env)))

/-- KV_CTX PREFETCH (R197). -/
def execKvCtxPrefetch (part : PartIx) (target : TargetIx) (env : StepEnv) (s : State) : Answer :=
  .next (commitStep s (s.engineRun part target env (isCtxOp 6) ctxOpCheck (ctxPrefetchBody env)))

/-- A page of a victim has been written to its swap slot (R210). -/
def execSwapOutPageDone (part : PartIx) (env : StepEnv) (s : State) : Answer :=
  .next (commitStep s (s.swapOutPage part env))

/-- A page has come back (R211). -/
def execSwapInPageDone (part : PartIx) (env : StepEnv) (s : State) : Answer :=
  .next (commitStep s (s.swapInPage part env))

/-- A host read of a target's step finds no answer in time (R157): a DMA step ends, a swap-in is lost. -/
def execHostReadTimeout (part : PartIx) (target : TargetIx) (s : State) : Answer :=
  .next (commitStep s (match s.tgt part target with
    | some x => match x.phase with
      | .swapWait c => if s.returning part = some c then s.swapInFails part c 0x0312 else s
      | _ => s.runStep part target (fun b => hOp b == 0x32 && dmaSpace b false == 2) dmaCheck fun s _ =>
          some (s, .done 0x0312 false)
    | none => s))

end Sys2Proof.Machine
end

