-- ==== Sys2Proof/Machine/Attn.lean ====
section
/-!
DEFINITION. The attention step (R202 to R207).
-/
namespace Sys2Proof.Machine

/-- The body of an ATTN step. -/
structure AtBody where
  ar : Arith
  q : Nat
  o : Nat
  sq : Nat
  os : Nat
  lane : Nat
  scale : Nat
  nq : Nat
  qh : Nat
  d : Nat
  qpos : Nat
  mask : Nat
  pFmt : Nat
  pvLsb : Int
  tree : Nat
  fmap : Nat
  deriving DecidableEq, Repr

/-- The fields of an ATTN step. -/
def atBody (b : List Byte) : AtBody :=
  ⟨.ofNat (leAt b 8 8), leAt b 0x10 4, leAt b 0x14 4, leAt b 0x18 4, leAt b 0x1C 4, leAt b 0x22 2, leAt b 0x24 4,
   leAt b 0x28 1, leAt b 0x29 1, leAt b 0x2A 2, leAt b 0x2C 4, leAt b 0x30 1, leAt b 0x31 1, sgn 16 (leAt b 0x32 2),
   leAt b 0x34 4, leAt b 0x38 4⟩

/-- M. -/
def AtBody.m (x : AtBody) : Nat := x.nq * x.qh

/-- The parents of the nodes (R207). -/
def parents (rd : Reader) (x : AtBody) : List Nat := (rd x.tree 16).map (·.toNat)

/-- The nodes that node i sees: itself and its ancestors, at most `n` of them. -/
def ancestors (ps : List Nat) : Nat → Nat → List Nat
  | 0, _ => []
  | n + 1, i => i :: (let p := ps.getD i 0xFF; if p = 0xFF then [] else ancestors ps n p)

/-- A parent array is valid: parents before their nodes, no node more than 8 deep (R207). -/
def treeOk (ps : List Nat) (nq : Nat) : Bool := (List.range nq).all fun i =>
  (ps.getD i 0xFF == 0xFF || decide (ps.getD i 0xFF < i)) && decide ((ancestors ps 9 i).length ≤ 8)

/-- The field checks of ATTN (R202). -/
def AtBody.fields (x : AtBody) (b : List Byte) : Bool :=
  x.ar.k == 1 && x.q % 32 == 0 && x.o % 32 == 0 && optOk x.sq && optOk x.fmap && (x.ar.outExp != 0xFF || x.os % 32 == 0) &&
  decide (1 ≤ x.nq) && decide (x.nq ≤ if x.mask = 1 then 16 else 64) && decide (1 ≤ x.qh) && decide (x.qh ≤ 16) &&
  decide (x.m ≤ 64) && decide (x.mask ≤ 2) && (x.pFmt == 5 || x.pFmt == 7) && decide (-256 ≤ x.pvLsb) &&
  decide (x.pvLsb ≤ 255) && (if x.mask = 1 then x.tree % 32 == 0 else x.tree == noAddr) && zeroRange b 0x3C 4

/-- The extents of Q and its scales, which no output may overlap (R106, R202). -/
def AtBody.ops (x : AtBody) : List Ext :=
  tensorExt x.ar.aFmt x.q x.m x.d ++ optExt x.sq (x.m * roundUp (cdiv x.d 32) 32)

/-- The extent of the parent array (R207). -/
def AtBody.treeExt (x : AtBody) : List Ext := if x.mask = 1 then [⟨x.tree, 16⟩] else []

/-- The extents that ATTN reads in the scratchpad. -/
def AtBody.ins (x : AtBody) : List Ext := x.ops ++ x.treeExt

/-- The extents that ATTN writes. -/
def AtBody.outs (x : AtBody) : List Ext := outExts x.ar 0 1 x.o x.os x.fmap x.m x.d

/-- What query row r reads in the scratchpad: itself with its scales, and the parent array. -/
def AtBody.needs (x : AtBody) (r : Nat) : List Ext :=
  let w := (fmtD x.ar.aFmt).width
  let g := cdiv x.d 32
  ⟨x.q + r * pitchOf w x.d, rowBytes w x.d⟩ ::
    (optExt (if x.sq = noAddr then noAddr else x.sq + r * roundUp g 32) g ++ x.treeExt)

/-- The checks of ATTN (R102, R202, R203, R207, R216). -/
def attnCheck (s : State) (c : StepCtx) : Nat :=
  let x := atBody c.b
  let k := s.ctx c.p (ctxField c.b)
  let lane := k.bind fun k => k.lanes[x.lane]?
  let ps := parents (s.padOf c.p c.t).bytes x
  firstCode ([codeIf (!x.fields c.b) 0x0622,
    codeIf (x.mask == 1 && decide (x.tree + 16 ≤ padBytes) && !treeOk ps x.nq) 0x0622,
    codeIf (x.treeExt.any fun e => decide (padBytes < e.lo + e.len)) 0x0621] ++
    padChecks (s.weights c.core) x.ops x.outs ++ s.ctxChecks c false ++
    [codeIf (match k with
       | some k => decide (k.lanes.length ≤ x.lane) || x.d != k.d || x.ar.wFmt != k.kFmt
       | none => false) 0x0629,
     codeIf (match lane with
       | some l => match x.mask with
         | 0 => decide (l.fill + l.tent < x.qpos + x.nq)
         | 1 => x.qpos != l.fill || l.tent != x.nq
         | _ => x.qpos != 0
       | none => false) 0x0628] ++ s.arithChecks x.ar (x.sq != noAddr) false)

/-- The positions that the query at position i sees, ascending (R203). -/
def AtBody.visible (x : AtBody) (l : LaneSt) (ps : List Nat) (i : Nat) : List Nat := match x.mask with
  | 0 => List.range (min (x.qpos + i + 1) (l.fill + l.tent))
  | 1 => List.range l.fill ++ ((List.range x.nq).filter fun a => (ancestors ps 9 i).contains a).map (l.fill + ·)
  | _ => List.range (l.fill + l.tent)

/-- A key or value row with its scales. -/
structure KvRow where
  elems : List Nat
  scales : List Nat
  deriving DecidableEq, Repr

/-- The key row and the value row of a position from its bytes. -/
def kvRow (k : CtxSt) (bs : List (List Byte)) : KvRow × KvRow :=
  let one : Nat → Nat → KvRow := fun i f =>
    ⟨unpackElems (fmtW f) k.d (bs.getD i []), if mayScale f then (bs.getD (i + 1) []).map (·.toNat) else []⟩
  (one 0 k.kFmt, one 2 k.vFmt)

/-- What a query row carries from page to page (R204, R205). -/
structure AtRow where
  m : Nat
  l : Nat
  o : List Nat
  begun : Bool
  nf : Bool
  cond : Cond
  deriving DecidableEq, Repr

/-- Some FP32 values are not finite. -/
def anyBad (l : List Nat) : Bool := l.any fNonFinite

/-- One page for one query row (R204): `js` are the visible positions of the page with their rows. -/
def AtBody.page (x : AtBody) (k : CtxSt) (qe qs : List Nat) (r : AtRow) (js : List (Nat × KvRow × KvRow)) : AtRow :=
  if js = [] then r
  else
    let dots := js.map fun j => dotAcc x.ar qe qs j.2.1.elems j.2.1.scales none
    let reads := dots.map fun a => readOut (fmtD 9) 127 .nearest x.ar.accLsb a
    let ss := reads.map fun y => fmul y.1 x.scale
    let at' : List Nat → Nat → Nat → Nat := fun vs ident i => match js.findIdx? fun j => j.1 % 64 == i with
      | some n => vs.getD n ident
      | none => ident
    let across : List Nat → Nat → List Nat := fun vs ident => (List.range 64).map (at' vs ident)
    let mn := fmax r.m (treeReduce fmax fNegInf (across ss fNegInf))
    let c := fexp (fsub r.m mn)
    let es := ss.map fun v => fexp (fsub v mn)
    let pf := fmtD x.pFmt
    let pc := es.map fun e => f32To pf e
    let p32 := pc.map fun y => toF32 x.pFmt 127 y.1
    let sum := treeReduce fadd 0 (across p32 0)
    let lc := fmul r.l c
    let l := fadd lc sum
    let pvs := (List.range k.d).map fun d =>
      let acc := ((pc.map (·.1)).zip js).foldl (fun a y =>
        let sc := y.2.2.2.scales.getD (d / 32) 127
        let fv := fmtD k.vFmt
        match elemProduct pf fv ⟨y.1, y.2.2.2.elems.getD d 0, 127, 127⟩ with
        | some n => { a.enter x.pvLsb ⟨n, pf.qe + fv.qe + ((sc : Int) - 127)⟩ with nf := a.nf || sc == 255 }
        | none => { a with nf := true }) Acc.zero
      readOut (fmtD 9) 127 .nearest x.pvLsb acc
    let oc := r.o.map fun v => fmul v c
    let o := (oc.zip pvs).map fun y => fadd y.1 y.2.1
    let diffs := (if r.begun then [fsub r.m mn] else []) ++ ss.map fun v => fsub v mn
    let bad := anyBad (reads.map (·.1)) || anyBad ss || anyBad [mn, c, sum, lc, l] || anyBad diffs || anyBad es || anyBad p32 ||
      anyBad (pvs.map (·.1)) || anyBad oc || anyBad o || fNonFinite x.scale
    let cond := pvs.foldl (fun (z : Cond) y => z.or y.2) (reads.foldl (fun (z : Cond) y => z.or y.2) r.cond)
    { m := mn, l := l, o := o, begun := true, nf := r.nf || bad || cond.nf,
      cond := ⟨cond.sat || pc.any (·.2), cond.oow, false⟩ }

/-- The output of one query row before its one conversion (R204, R205). -/
def AtBody.rowOut (x : AtBody) (k : CtxSt) (qe qs : List Nat) (pages : List (List (Nat × KvRow × KvRow))) : List ExactOut :=
  let r := pages.foldl (x.page k qe qs) ⟨fNegInf, 0, List.replicate x.d 0, false, false, Cond.none⟩
  if !r.begun then List.replicate x.d ⟨⟨0, 0⟩, false, false, Cond.none⟩
  else
    let inv := frcp r.l
    let outs := r.o.map fun v => fmul v inv
    let nf := r.nf || fNonFinite inv || anyBad outs
    outs.map fun v => match lineValue false v with
      | some d => ⟨d, false, nf, r.cond⟩
      | none => ⟨⟨0, 0⟩, false, true, r.cond⟩

/-- The positions that some row sees, by page, ascending (R203). -/
def pagesSeen (vis : List (List Nat)) : List (Nat × List Nat) :=
  let all := (List.range ((vis.map fun v => v.foldl max 0).foldl max 0 + 1)).filter fun j => vis.any fun v => v.contains j
  ((all.map (· / 64)).foldl (fun l g => if l.contains g then l else l ++ [g]) []).map fun g =>
    (g, all.filter fun j => j / 64 == g)

/-- The positions that some row of an ATTN step sees, by page. -/
def AtBody.pages (x : AtBody) (rd : Reader) (l : LaneSt) : List (Nat × List Nat) :=
  pagesSeen ((List.range x.nq).map (x.visible l (parents rd x)))

/-- The output rows of an ATTN step (R203 to R205). -/
def State.attnRows (s : State) (env : StepEnv) (c : StepCtx) (x : AtBody) (k : CtxSt) (l : LaneSt) : List OutRow :=
  let rd : Reader := (s.padRead c env).bytes
  let ps := parents rd x
  let vis := (List.range x.nq).map (x.visible l ps)
  let mem := s.dramRead env
  let rowsOf' := (x.pages rd l).map fun g => g.2.map fun j =>
    let kv := kvRow k (s.rowBytes' mem c.p c.part k x.lane j)
    (j, kv.1, kv.2)
  (List.range x.m).map fun r =>
    let i := r % x.nq
    let mine := rowsOf'.map fun g => g.filter fun j => (vis.getD i []).contains j.1
    exactRow x.ar c.job.seed 0 (r * x.d) (x.rowOut k (rd.row (fmtW x.ar.aFmt) x.d x.q r)
      (rd.scales x.sq (cdiv x.d 32) r) mine)

/-- What an ATTN step writes. -/
def AtBody.parts (x : AtBody) (rows : List OutRow) : List (Nat × List Byte) :=
  outParts x.ar 0 x.o x.os x.fmap (outBytes x.ar 0 rows) rows

/-- The effect of ATTN on its own context, once that is there. Log entry 41. -/
def attnGo (env : StepEnv) (c : StepCtx) (x : AtBody) (k : CtxSt) (l : LaneSt) (s : State) : Option (State × StepPhase) :=
  let cx := ctxField c.b
  let pages := x.pages (s.padRead c env).bytes l
  let (s, good) := s.useEntries env c.p c.t cx (pages.map fun g => (x.lane, g.1))
  let entryUe := (s.tgt c.p c.t).any (·.ueMet)
  if !good then some (s.loseCtx c.p cx, .done 0x0332 false)
  else
    let base := ((s.dramOf c.p).map (·.1)).getD 0
    let reads : List Ext := pages.flatMap fun g => g.2.flatMap (s.rowExts c.p c.part k x.lane)
    let staged := pages.any fun g => match k.page x.lane g.1 with
      | some (.staged _ _) => g.2.any fun j => (s.rowPoison env c.p c.part k x.lane j).any fun b => !b.isEmpty
      | _ => false
    let rows := s.attnRows env c x k l
    let loose : List (Nat × List Byte) → List (Nat × List Byte) := fun parts =>
      if env.residue then parts.map fun y =>
        (y.1, (List.range y.2.length).map fun i => Config.freeByte (s.fresh + 1) (y.1 + i)) else parts
    match ({ s with fresh := s.fresh + 2 } : State).computeStep c env x.ins x.needs (rowsStatus rows) rows.length
        (fun n => loose (x.parts (rows.take n))) with
    | some (s1, .done st wrote) =>
      let (s2, bad) := s1.dramErrors env.dramCe env.dramUe reads
      let ue := bad || staged || entryUe
      let s3 := reads.foldl (fun s (e : Ext) => s.countRead c.p (e.lo - base) e.len) s2
      let s4 := (s3.markUe c.p ue).touchCtx c.p cx
      let s5 := match s4.engineOf c.part c.core with
        | some q => if env.residue then s4.residueFailed (16 + q) else s4
        | none => s4
      some (s5, .done (if env.residue then 0x0404 else worse st (codeIf ue 0x0311)) wrote)
    | r => r

/-- The effect of ATTN. Log entry 41. -/
def attnBody (env : StepEnv) (s : State) (c : StepCtx) : Option (State × StepPhase) :=
  let x := atBody c.b
  if s.padHeld c.p c.t (x.ins ++ x.outs) then none
  else match s.kvStep env c true .go with
  | some (s1, .done st w) =>
    if st ≠ 0 ∧ st ≠ 0x0311 then some (s1, .done st w)
    else match s1.ctx c.p (ctxField c.b) with
      | some k => match k.lanes[x.lane]? with
        | some l => match attnGo env c x k l s1 with
          | some (s2, .done st w') => some (s2, .done st (w || w'))
          | r => r
        | none => some (s1, .done 0x0629 false)
      | none => some (s1, .done 0x0332 false)
  | r => r

/-- ATTN (R202 to R205). -/
def execAttn (part : PartIx) (target : TargetIx) (env : StepEnv) (s : State) : Answer :=
  .next (commitStep s (s.engineRun part target env (fun b => hOp b == 0x20) attnCheck (attnBody env)))

end Sys2Proof.Machine
end

