-- ==== Sys2Proof/Machine/Law.lean ====
section
/-!
DEFINITION. The law program of a control channel (R285 to R290), its inputs (R292), the command frame (R298) and its
trailer (R299), as functions of plain data.
-/
namespace Sys2Proof.Machine

/-- A bank of a channel (R285): step words, signed coefficients, shifts, initial state words, INIT_STATE. -/
structure LawBank where
  steps : List Nat
  coef : List Int
  shift : List Nat
  init : List Nat
  initState : Bool
  deriving DecidableEq, Repr

/-- The flags of a sample (R289). -/
structure LawFlags where
  sat : Bool
  limit : Bool
  vbusLow : Bool
  stale : Bool
  deriving DecidableEq, Repr

/-- No flag. -/
def LawFlags.none : LawFlags := ⟨false, false, false, false⟩

/-- The flags as bits 0 to 3: SAT, LIMIT, VBUS_LOW, STALE. -/
def LawFlags.bits (f : LawFlags) : Nat := flagBit 0 f.sat ||| flagBit 1 f.limit ||| flagBit 2 f.vbusLow ||| flagBit 3 f.stale

/-- The operation of a step word (R286). -/
def stepOp (w : Nat) : Nat := field w 28 4
/-- Its coefficient index. -/
def stepC (w : Nat) : Nat := field w 21 7
/-- Its operand code. -/
def stepSrc (w : Nat) : Nat := field w 15 6
/-- Its destination. -/
def stepDst (w : Nat) : Nat := field w 10 5

/-- The operations that read an operand X (R290). -/
def readsX (op : Nat) : Bool := op == 1 || op == 2 || op == 5 || op == 6 || op == 7 || op == 8

/-- The steps before the first END (R290). -/
def programOf (steps : List Nat) : List Nat := steps.takeWhile fun w => stepOp w != 0

/-- A step that R290 rejects. -/
def badStep (coef : List Int) (w : Nat) : Bool :=
  let op := stepOp w
  let c := stepC w
  decide (9 ≤ op) || (readsX op && decide (0x34 ≤ stepSrc w)) || field w 0 4 != 0 ||
  (op == 8 && decide (8 ≤ stepDst w)) || ((op == 5 || op == 6) && c == 127) ||
  (op == 6 && decide (coef.getD (c + 1) 0 < coef.getD c 0)) || (op == 5 && decide (coef.getD (c + 1) 0 ≤ 0))

/-- Validation of a bank (R290). -/
def LawBank.valid (b : LawBank) : Bool :=
  !((programOf b.steps).any (badStep b.coef)) && b.shift.all fun s => decide (s < 32)

/-- The machine of one sample: accumulator, state words, output words, flags. -/
structure LawSt where
  acc : Int
  s : List Int
  outw : List Int
  flags : LawFlags
  deriving DecidableEq, Repr

/-- Clamping to a signed range of w bits, and whether it changed the value (R288). -/
def satTo (w : Nat) (v : Int) : Int × Bool :=
  let hi : Int := (2 ^ (w - 1) : Nat) - 1
  let lo : Int := -((2 ^ (w - 1) : Nat) : Int)
  if hi < v then (hi, true) else if v < lo then (lo, true) else (v, false)

/-- The accumulator set to sat64 of a value (R288). -/
def LawSt.setAcc (m : LawSt) (v : Int) : LawSt :=
  let r := satTo 64 v
  { m with acc := r.1, flags := { m.flags with sat := m.flags.sat || r.2 } }

/-- Arithmetic right shift (R288). -/
def asr (v : Int) (k : Nat) : Int := v / ((2 ^ k : Nat) : Int)

/-- The operand X of a code (R287). -/
def operandX (ins sp : List Int) (m : LawSt) (code : Nat) : Int :=
  if code < 0x20 then m.s.getD code 0
  else if code < 0x30 then ins.getD (code - 0x20) 0
  else sp.getD (code - 0x30) 0

/-- One step (R288). -/
def lawStep (b : LawBank) (ins sp : List Int) (m : LawSt) (w : Nat) : LawSt :=
  let c := b.coef.getD (stepC w) 0
  let c1 := b.coef.getD (stepC w + 1) 0
  let sh := b.shift.getD (stepC w) 0
  let x := operandX ins sp m (stepSrc w)
  let d := stepDst w
  match stepOp w with
  | 1 => m.setAcc (m.acc + asr (c * x) sh)
  | 2 => m.setAcc (m.acc - asr (c * x) sh)
  | 3 => { m with acc := 0 }
  | 4 =>
    let k := field w 5 5
    let r : Int := if tbit w 4 && k != 0 then (2 ^ (k - 1) : Nat) else 0
    let v := satTo 32 (asr (m.acc + r) k)
    { m with s := m.s.set d v.1, flags := { m.flags with sat := m.flags.sat || v.2 } }
  | 5 =>
    let v := max x c1
    let m' := m.setAcc (Int.tdiv (m.acc * c) v)
    { m' with flags := { m'.flags with vbusLow := m'.flags.vbusLow || decide (x < c1) } }
  | 6 =>
    let v := min (max x c) c1
    { m with s := m.s.set d v, flags := { m.flags with limit := m.flags.limit || decide (v ≠ x) } }
  | 7 => { m with s := m.s.set d x }
  | 8 => { m with outw := m.outw.set d x }
  | _ => m

/-- The program of one sample, from the accumulator at 0 (R285). -/
def runLaw (b : LawBank) (s outw ins sp : List Int) (stale : Bool) : LawSt :=
  (programOf b.steps).foldl (lawStep b ins sp) ⟨0, s, outw, ⟨false, false, false, stale⟩⟩

/-- The operand codes that the program reads (R291). -/
def readCodes (b : LawBank) : List Nat :=
  ((programOf b.steps).filter fun w => readsX (stepOp w)).map stepSrc

/-- The field of an input word from the 40-bit window v (R292). -/
def inputField (fmt v : Nat) : Nat :=
  let w := field fmt 8 6
  let x := v / 2 ^ field fmt 16 3 % 2 ^ w
  let y : Int := if tbit fmt 31 then sgn w x else x
  unsgn 32 (y * ((2 ^ field fmt 0 5 : Nat) : Int))

/-- The window v of a network payload (R292). -/
def inputWindow (fmt byte : Nat) (payload : List Byte) : Nat :=
  let bs := sliceAt payload byte 5
  if tbit fmt 30 then beNat bs else leNat bs

/-- A field written into a frame by an output placement (R298). -/
def placeOut (pos : Nat) (outw : Int) (frame : List Byte) : List Byte :=
  if !tbit pos 31 then frame else
  let n := 2 ^ field pos 22 2
  let v := asr outw (field pos 24 5)
  let v := if tbit pos 29 then (satTo (8 * n) v).1 else v
  let bs := natLe n (unsgn (8 * n) v)
  let bs := if tbit pos 30 then bs.reverse else bs
  bs.zipIdx.foldl (fun f p => f.set (field pos 0 7 + p.2) p.1) frame

/-- The trailer of 4 bytes at its offset (R299). -/
def placeTrailer (ofs seq flags age : Nat) (frame : List Byte) : List Byte :=
  (natLe 1 seq ++ natLe 1 flags ++ natLe 2 age).zipIdx.foldl (fun f p => f.set (ofs + p.2) p.1) frame

/-- CAN FD data lengths (R298). Log entry 3. -/
def canFdLen (n : Nat) : Bool := decide (n ≤ 8) || [12, 16, 20, 24, 32, 48, 64].contains n

/-- The DLC code of a CAN FD data length (ISO 11898-1). Log entry 3. -/
def canDlc (n : Nat) : Nat := if n ≤ 8 then n else 9 + [12, 16, 20, 24, 32, 48, 64].idxOf n

/-- The CAN FD data length that a length is sent with (R321). -/
def canFdUp (n : Nat) : Nat := if n ≤ 8 then n else ([12, 16, 20, 24, 32, 48, 64].find? fun k => decide (n ≤ k)).getD 64

end Sys2Proof.Machine
end

