-- ==== Sys2Proof/Machine/Ctl.lean ====
section
/-!
DEFINITION. The control engine: channels, samples, hinged pairs, the setpoint table, SENT receivers, control filters
(R282 to R310).
-/
namespace Sys2Proof.Machine

/-- The key of a channel's register (R309). -/
def chKey (c o : Nat) : Nat := 0xC10000 + 0x1000 * c + o

/-- A channel's state. -/
def State.chan (s : State) (c : Nat) : ChanSt := s.ctl.chans.getD c .reset

/-- A channel changed. -/
def State.modChan (s : State) (c : Nat) (f : ChanSt → ChanSt) : State :=
  { s with ctl := { s.ctl with chans := lmod s.ctl.chans c f } }

/-- An event of a channel: 0 FLAG, 1 BANK_SWAP, 2 BANK_REJECT, 3 CFG_ERR, 4 WR_ACTIVE, 5 MISMATCH, 6 TAKEOVER, 7 FAILED. -/
def State.chanEvent (s : State) (c bit : Nat) : State := s.raise (chKey c 0xC) (2 ^ bit)

/-- The partner of a hinged channel (R304). -/
def State.partnerOf (s : State) (c : Nat) : Option Nat :=
  (s.chanEntry c).bind fun e => if e.partner < 24 then some e.partner else none

/-- The channels that run together: a pair, or one. -/
def State.members (s : State) (c : Nat) : List Nat := match s.partnerOf c with
  | some p => [min c p, max c p]
  | none => [c]

/-- The channel runs: PD5 is on (R25), RUN in force, and a member of the pair that is not failed (R303, R306). -/
def State.chanRuns (s : State) (c : Nat) : Bool :=
  s.domOn 5 && tbit (s.rv (chKey c 0)) 31 &&
  (s.members c).any fun x => (s.chan x).state == .running || (s.chan x).state == .identifying

/-! ### Inputs (R291, R292, R295) -/

/-- IN_SRC of a word. -/
def State.inSrc (s : State) (c k : Nat) : Nat := s.rv (chKey c (0x40 + 8 * k))
/-- IN_FMT of a word. -/
def State.inFmt (s : State) (c k : Nat) : Nat := s.rv (chKey c (0x44 + 8 * k))
/-- KIND of a word. -/
def State.inKind (s : State) (c k : Nat) : Nat := field (s.inSrc c k) 28 4

/-- The word that stood before an instant: the latest, or the one before it where the latest arrived at that instant (R22,
R291). -/
def stoodAt (now : Nat) (latest before : Option CtlWord) : Option CtlWord := match latest with
  | some w => if w.arrived < now then some w else before
  | none => before

/-- A reception replaces the input words that name its source (R292): `win` gives the 40-bit window of a word from its
format and BYTE. The word that stood before the present instant stays for a sample that starts in it (R291). -/
def State.ctlInput (s : State) (kind port sel ts : Nat) (win : Nat → Nat → Nat) : State :=
  let word : Nat → Nat → Option CtlWord → Option CtlWord := fun c k old =>
    let w := s.inSrc c k
    if field w 28 4 = kind ∧ field w 24 4 = port ∧ (field w 16 8 = sel ∨ kind = 1) then
      some ⟨inputField (s.inFmt c k) (win (s.inFmt c k) (field w 0 16)), ts, s.time.elapsed⟩
    else old
  let upd : ChanSt × Nat → ChanSt := fun x =>
    if s.domOn 5 = true ∧ s.leaderOf x.2 = x.2 ∧ (s.chanEntry x.2).isSome = true then
      { x.1 with ins := (List.range 16).map fun k => word x.2 k (x.1.ins.getD k none),
                 before := (List.range 16).map fun k => stoodAt s.time.elapsed (x.1.ins.getD k none) (x.1.before.getD k none) }
    else x.1
  { s with ctl := { s.ctl with chans := s.ctl.chans.zipIdx.map upd } }

/-- A payload received from a network source (R292). -/
def State.netInput (s : State) (kind port sel ts : Nat) (payload : List Byte) : State :=
  s.ctlInput kind port sel ts fun fmt byte => inputWindow fmt byte payload

/-- The EtherType of a frame, behind at most one VLAN tag, and the offset after it (R295). Log entry 64. -/
def etherType (f : List Byte) : Nat × Nat :=
  let t := beAt f 12 2
  if t = 0x8100 then (beAt f 16 2, 18) else (t, 14)

/-- The UDP header of a frame over IPv4 or IPv6: its destination port and the offset and length of its payload (R263,
R295). -/
def udpOf (f : List Byte) : Option (Nat × Nat × Nat) :=
  let (t, o) := etherType f
  let at' : Nat → Option (Nat × Nat × Nat) := fun u =>
    if u + 8 ≤ f.length then some (beAt f (u + 2) 2, u + 8, min (beAt f (u + 4) 2 - 8) (f.length - (u + 8))) else none
  if t = 0x0800 then
    let b := (byteAt f o).toNat
    if b / 16 = 4 ∧ (byteAt f (o + 9)).toNat = 17 ∧ beAt f (o + 6) 2 % 2 ^ 13 = 0 then at' (o + 4 * (b % 16)) else none
  else if t = 0x86DD then
    if (byteAt f o).toNat / 16 = 6 ∧ (byteAt f (o + 6)).toNat = 17 then at' (o + 40) else none
  else none

/-- A control filter matches a frame (R295): the payload. `q` 0 to 3 Ethernet, 4 to 7 T1S. -/
def State.netfMatch (s : State) (q f : Nat) (fr : List Byte) : Option (List Byte) :=
  let w := s.rv (0xC00C00 + 0x20 * q + 4 * f)
  if !tbit w 31 then none
  else if tbit w 30 then
    match udpOf fr with
    | some (port, o, n) => if port = w % 2 ^ 16 then some ((fr.drop o).take n) else none
    | none => none
  else
    let (t, o) := etherType fr
    if t = w % 2 ^ 16 then some (fr.drop o) else none

/-- The first control filter of a port that a frame matches, with its payload (R329). -/
def State.netfFirst (s : State) (q : Nat) (fr : List Byte) : Option (Nat × List Byte) :=
  (List.range 8).findSome? fun f => (s.netfMatch q f fr).map fun p => (f, p)

/-! ### Banks (R285, R290) -/

/-- A bank of a channel from its registers (R285, R309). -/
def State.bank (s : State) (c b : Nat) : LawBank :=
  let k := fun o => chKey c (0x400 + 0x600 * b + o)
  ⟨(List.range 128).map fun i => s.rv (k (4 * i)),
   (List.range 128).map fun i => sgn 32 (s.rv (k (0x200 + 4 * i))),
   (List.range 128).map fun i => field (s.rv (k (0x400 + 4 * (i / 4)))) (8 * (i % 4)) 8,
   (List.range 32).map fun i => s.rv (k (0x480 + 4 * i)), tbit (s.rv (k 0x500)) 0⟩

/-- SEL in force. -/
def State.activeBank (s : State) (c : Nat) : Nat := s.rv (chKey c 4) % 2

/-- A valid bank becomes active (R285, R302): INIT into the state words where INIT_STATE is set. -/
def State.loadInit (s : State) (c b : Nat) : State :=
  let k := s.bank c b
  if k.initState then s.setRegs (chKey c 0x100) k.init else s

/-- The state words of a channel. -/
def State.stateWords (s : State) (c : Nat) : List Nat := (List.range 32).map fun i => s.rv (chKey c (0x100 + 4 * i))

/-! ### Configuration (R292, R298, R299, R303) -/

/-- An input word's configuration is allowed (R292). Log entry 56. -/
def inputOk (src fmt : Nat) : Bool :=
  let kind := field src 28 4
  let port := field src 24 4
  let sel := field src 16 8
  decide (field fmt 8 6 + field fmt 0 5 ≤ 32) &&
  (kind == 0 || (decide (1 ≤ field fmt 8 6) && decide (kind ≤ 5) &&
    (match kind with
      | 3 => decide (port < 8) && decide (sel < 128)
      | 4 => decide (port < 4) && decide (sel < 8)
      | 5 => decide (port < 4) && decide (sel < 8)
      | _ => true)))

/-- The OUT_BUS of a channel: 1 CAN, 2 T1S, 3 Ethernet, and its index (R43). -/
def State.outBus (s : State) (c : Nat) : Nat × Nat := match s.chanEntry c with
  | some e => (e.outBus / 16, e.outBus % 16)
  | none => (0, 0)

/-- The frame's configuration is allowed (R298, R299). -/
def frameOk (bus ctl cfg id : Nat) (pos : List Nat) : Bool :=
  let len := field cfg 16 8
  let kind := field cfg 8 4
  let header := match bus with
    | 1 =>
      if kind = 3 then decide (1 ≤ len) && decide (len ≤ 64)
      else (kind == 1 || kind == 2) && canFdLen len && (tbit id 31 || field id 11 18 == 0)
    | _ => decide (60 ≤ len) && decide (len ≤ 128)
  header &&
  (pos.all fun w => !tbit w 31 || (field w 22 2 != 3 && decide (field w 0 7 + 2 ^ field w 22 2 ≤ len))) &&
  (!tbit ctl 30 || decide (field ctl 16 8 + 4 ≤ len))

/-- The configuration of a channel in force passes the checks that apply to it (R303). -/
def State.chanCfgOk (s : State) (c : Nat) : Bool :=
  let ctl := s.rv (chKey c 0)
  ((List.range 16).all fun k => inputOk (s.inSrc c k) (s.inFmt c k)) &&
  (!tbit ctl 31 || frameOk (s.outBus c).1 ctl (s.rv (chKey c 0x14)) (s.rv (chKey c 0x18))
    ((List.range 8).map fun k => s.rv (chKey c (0xC0 + 4 * k))))

/-- The members of a channel that are neither FAILED nor identifying a fault take a state. -/
def State.setMembers (s : State) (c : Nat) (st : ChanState) : State :=
  (s.members c).foldl (fun s x => s.modChan x fun y =>
    if y.state = .failed ∨ y.state = .identifying then y else { y with state := st }) s

/-- A channel as RUN takes effect as 1: what was received before that boundary does not count (R291). -/
def ChanSt.started (x : ChanSt) (now : Nat) : ChanSt :=
  { x with ins := x.ins.map fun w => w.filter fun y => decide (now ≤ y.arrived), before := List.replicate 16 none,
           sp := { x.sp with recv := x.sp.recv.map fun w => w.filter fun y => decide (now ≤ y) },
           spBefore := { x.spBefore with recv := List.replicate 4 none } }

/-- A swap to a bank while a fault is identified (R306): its INIT, where it has one, waits for the re-run. -/
def State.deferInit (s : State) (c b : Nat) : State :=
  if (s.bank c b).initState then s.modChan c fun x => { x with initDue := some b } else s

/-- Group 2 applies (R302): the bank captured becomes active, with INIT where its INIT_STATE is set; while a fault is
identified the INIT waits for the sample's re-run (R306). -/
def State.bankApply (s old : State) (c : Nat) : State :=
  if s.activeBank c = old.activeBank c then s
  else (if (s.chan c).state = .identifying then s.deferInit c (s.activeBank c) else s.loadInit c (s.activeBank c)).chanEvent c 1

/-- Group 3 applies at the channel's boundary (R303): `s` holds the new configuration, `old` the one in force. -/
def State.chanApply (s old : State) (c : Nat) : State :=
  if !s.chanCfgOk c then
    let kept : RegBlock := { s.regs.ctl with vals := old.regs.ctl.vals }
    (({ s with regs := { s.regs with ctl := kept } }).modChan c fun x => { x with cfgErr := true }).chanEvent c 3
  else
    let was := tbit (old.rv (chKey c 0)) 31
    let now := tbit (s.rv (chKey c 0)) 31
    let s1 := s.modChan c fun x => { x with cfgErr := false }
    if now && !was then
      if (s1.bank c (s1.activeBank c)).valid then
        (s1.modChan c fun x => x.started s.time.elapsed).setMembers c .running
      else (s1.setReg (chKey c 0) (putField (s1.rv (chKey c 0)) 31 1 0)).chanEvent c 2
    else if was && !now then s1.setMembers c .stopped
    else s1

/-! ### Samples (R282 to R291) -/

/-- The present instant is a tick of the sample grid (R282): the time base has come to a multiple of 5,000 ns with its last
advance. Log entry 6. -/
def State.onGrid (s : State) : Bool := decide (s.time.tb % (5000 * 2 ^ 28) < max s.time.last 1)

/-- Whether the present instant is a boundary of a channel (R282), and its sample number (R283). Log entry 6. -/
def State.boundary (s : State) (c : Nat) : Option Nat :=
  match s.chanEntry c with
  | some e =>
    let n := s.now / 5000
    if s.onGrid = true ∧ s.domOn 5 = true ∧ e.divider ≠ 0 ∧ n % e.divider = s.rv (chKey c 0) % 2 ^ 16 % e.divider then
      some (n / e.divider)
    else none
  | none => none

/-- The captures of a channel apply at its boundary in one action (R302, R303, R367): group 2 where its LATCH_GO lies 2 µs
back, then group 3 under the bank that is then active. Log entry 18. -/
def State.chanBoundary (s : State) (c : Nat) : State :=
  let s1 := s.applyReady 12 (fun x => x.isOf 2 c && decide (x.taken + 2000 ≤ s.time.elapsed)) fun t => t.bankApply s c
  s1.applyReady 12 (fun x => x.isOf 3 c && decide (x.taken < s.time.elapsed)) fun t => t.chanApply s1 c

/-- A channel's previous sample is in progress: its 304 ns have not passed (R283, R284). -/
def State.sampling (s : State) (c : Nat) : Bool := (s.chan c).lastStart.any fun x => decide (s.time.elapsed < x + 304)

/-- The snapshot at a boundary (R291): what stood before this instant; `init` the bank whose INIT waits for this sample. -/
def State.snapshot' (s : State) (c n : Nat) (init : Option Nat) : Snapshot :=
  let x := s.chan c
  let e := if x.sp.written < s.time.elapsed then x.sp else x.spBefore
  ⟨n, (List.range 16).map fun k => stoodAt s.time.elapsed (x.ins.getD k none) (x.before.getD k none),
   (List.range 4).map fun k => (e.recv.getD k none).map fun w => ⟨e.words.getD k 0, e.ts, w⟩,
   (List.range 16).map fun k => s.inKind c k == 0, s.activeBank c, init⟩

/-- A sample of the law from its snapshot (R291): the machine after it, and its source timestamp. -/
def State.evalSample (s : State) (c : Nat) (n : Snapshot) : LawSt × Option Nat :=
  let b := s.bank c n.bank
  let none' : Nat → Bool := fun code => decide (code < 0x30) && n.zero.getD (code - 0x20) false
  let word : Nat → Option CtlWord := fun code =>
    if code < 0x30 then n.ins.getD (code - 0x20) none else n.sps.getD (code - 0x30) none
  let codes := (readCodes b).filter fun code => decide (0x20 ≤ code) && !none' code
  let stale := codes.any fun code => (word code).isNone
  let value : Nat → Int := fun code =>
    if none' code then 0
    else match word code with
      | some w => sgn 32 w.value
      | none => 0
  let ins := (List.range 16).map fun k => value (0x20 + k)
  let sps := (List.range 4).map fun k => value (0x30 + k)
  let st := (s.stateWords c).map (sgn 32)
  let ow := (List.range 8).map fun i => sgn 32 (s.rv (chKey c (0x180 + 4 * i)))
  let ts := match codes.filterMap fun code => (word code).map (·.ts) with
    | [] => none
    | t :: l => if stale then none else some (earliest l t)
  (runLaw b st ow ins sps stale, ts)

/-- What a sample leaves: state words, output words, flags, its source timestamp (R289, R309). Log entry 56. -/
def State.commitSample (s : State) (c : Nat) (m : LawSt) (ts : Option Nat) : State :=
  let s1 := (s.setRegs (chKey c 0x100) (m.s.map (unsgn 32))).setRegs (chKey c 0x180) (m.outw.map (unsgn 32))
  let s2 := (s1.modChan c fun x => { x with flags := m.flags.bits }).setRegs (chKey c 0xE0)
    (match ts with
      | some t => tsWords t
      | none => [0, 0, 0])
  if m.flags.bits = 0 then s2 else (s2.bump (chKey c 0x38) 1).chanEvent c 0

/-! ### Command frames (R298 to R301) -/

/-- The frame build begins 304 ns after the start of the sample and takes 96 to 176 ns (R284, R301); where in that span is
open (log entry 2). Log entry 55. -/
def State.buildInstant (s : State) (start : Nat) : Nat × State :=
  let (d, s1) := s.draw
  (start + 400 + d % 81, s1)

/-- The age monitor of a channel is exceeded, or the frame's own age at build exceeds its limit (R379). -/
def State.ageFlag (s : State) (c build : Nat) (ts : Option Nat) : Bool := (s.chanMon c).any fun n =>
  match alGet s.safe.mons n with
  | some m => m.exceeded || ts.any fun t => decide ((s.monLimit n * 1000 : Nat) < tdiff build t)
  | none => false

/-- The deadbolt's pins have gone low for the safe state (R382): entered, or its entry under way. -/
def State.pinsLow (s : State) : Bool := s.safe.state == 2 || (s.safe.state == 1 && !s.safe.heartbeat)

/-- The bytes of a command frame (R298, R299). -/
def State.frameBytesOf (s : State) (c sample build : Nat) (m : LawSt) (ts : Option Nat) : List Byte :=
  let ctl := s.rv (chKey c 0)
  let len := field (s.rv (chKey c 0x14)) 16 8
  let tmpl := ((List.range 32).flatMap fun i => natLe 4 (s.rv (chKey c (0x200 + 4 * i)))).take len
  let body := (List.range 8).foldl (fun f k => placeOut (s.rv (chKey c (0xC0 + 4 * k))) (m.outw.getD k 0) f) tmpl
  let age := s.ageFlag c build ts
  let valid := !m.flags.stale && !age && !s.pinsLow
  let flags := flagBit 0 valid ||| m.flags.bits * 2 ||| flagBit 5 ((s.members c).any fun x => (s.chan x).solo) ||| flagBit 6 age
  let a := match ts with
    | some t =>
      let d := tdiff build t
      if d < 0 then 0 else min (d.toNat / 10000) 0xFFFF
    | none => 0xFFFF
  if tbit ctl 30 then placeTrailer (field ctl 16 8) (sample % 256) flags a body else body

/-- A command frame handed to its CAN controller (R298, R300, R321); its ESI is the controller's state as it is sent (R311). Log
entries 55, 59. -/
def State.sendCan (s : State) (c can : Nat) (data : List Byte) : State :=
  let cfg := s.rv (chKey c 0x14)
  let id := s.rv (chKey c 0x18)
  let obj := field cfg 0 7
  let kind := field cfg 8 4
  let xl := kind == 3
  let fr : CanFrame :=
    { ide := !xl && tbit id 31, id := if xl || !tbit id 31 then field id 0 11 else field id 0 29, kind := if xl then 2 else 1,
      brs := kind == 2, esi := false, rtr := false, sdt := if xl then field id 16 8 else 0,
      vcid := if xl then field id 24 8 else 0, af := if xl then s.rv (chKey c 0x1C) else 0, sec := false,
      dlc := if xl then 0 else canDlc data.length, data := data }
  match s.can[can]? with
  | none => s
  | some x =>
    let o := (alGet x.objs obj).getD .reset
    let onBus := x.sel == some (.obj obj)
    let o' : CanObjSt := if onBus then { o with engNext := some fr } else { o with pending := true, noRetry := false, engFrame := some fr }
    let waiting := if onBus then o.engNext.isSome else o.pending && o.engFrame.isSome
    let s1 := { s with can := s.can.set can { x with objs := alSet x.objs obj o' } }
    if waiting then s1.bump (chKey c 0x30) 1 else s1

/-- A command frame joins those that wait at a port, in the order in which they were built (R330): it replaces the one of its
channel that still waits (R300). Log entry 55. -/
def putCmd (l : List (Nat × List Byte)) (c : Nat) (data : List Byte) : List (Nat × List Byte) :=
  (l.filter fun x => x.1 != c) ++ [(c, data)]

/-- The command frames that wait at the network port of a channel. -/
def State.waitingCmds (s : State) (c : Nat) : List (Nat × List Byte) := match s.outBus c with
  | (2, i) => (s.t1s.getD i .reset).cmds
  | (3, i) => (s.eth.getD i ⟨false, false, 0, []⟩).cmds
  | _ => []

/-- A command frame handed to its network port (R298, R300): a frame of the channel that it replaces is counted in REPLACED. Log
entry 55. -/
def State.sendNet (s : State) (c : Nat) (data : List Byte) : State :=
  let s1 := match s.outBus c with
    | (2, i) => { s with t1s := lmod s.t1s i fun t => { t with cmds := putCmd t.cmds c data } }
    | (_, i) => { s with eth := lmod s.eth i fun t => { t with cmds := putCmd t.cmds c data } }
  if (s.waitingCmds c).any fun x => x.1 == c then s1.bump (chKey c 0x30) 1 else s1

/-- A command frame leaves the frame assembler (R298): to its bus, and as a delivered result (R377). Log entry 55. -/
def State.sendFrame (s : State) (c : Nat) (data : List Byte) (ts : Option Nat) : State :=
  let s1 := if (s.outBus c).1 = 1 then s.sendCan c (s.outBus c).2 data else s.sendNet c data
  let s2 := s1.bump (chKey c 0x28) 1
  match ts with
  | some t => s2.deliverChan c t
  | none => s2

/-- One sample run to its frame (R284, R298); `send` false only runs it. -/
def State.runOne (s : State) (c start : Nat) (n : Snapshot) (send : Bool) : State :=
  let (m, ts) := s.evalSample c n
  let s1 := s.commitSample c m ts
  if send then
    let (b, s2) := s1.buildInstant start
    s2.sendFrame c (s2.frameBytesOf c n.sample b m ts) ts
  else s1

/-! ### Faults (R305 to R307) -/

/-- A channel becomes FAILED (R306, R307). -/
def State.failChan (s : State) (c : Nat) : State :=
  (s.modChan c fun x => { x with state := .failed, solo := false, unitFailed := true }).chanEvent c 7

/-- A channel becomes FAILED whose pair is not lost: cause 0x0413 where it names a monitor with ESC set (R381). -/
def State.failNamed (s : State) (c : Nat) : State :=
  let s1 := s.failChan c
  if s1.failedEsc c then s1.detect 3 (32 + c) 2 else s1

/-- A pair has no unit left: cause 0x0413 (R306, R381). -/
def State.pairGone (s : State) (c : Nat) : State :=
  ({ s with safe := { s.safe with pairLost := s.safe.pairLost ++ [c] } }).detect 3 (32 + c) 2

/-- A channel withholds nothing any more. -/
def ChanSt.settled (x : ChanSt) : ChanSt := { x with withheld := [], kept := [], initDue := none }

/-- A sample is withheld (R306): its snapshot, and the state words as they stood at its start. -/
def State.withhold (s : State) (c : Nat) (n : Snapshot) : State :=
  s.modChan c fun x => { x with withheld := [n], kept := s.stateWords c, initDue := none }

/-- A pair is lost (R306). Log entry 54. -/
def State.losePair (s : State) (c : Nat) : State :=
  (((s.members c).foldl (fun s x => s.failChan x) s).modChan c ChanSt.settled).pairGone c

/-- The INIT of a bank that waits is loaded. -/
def State.initOf (s : State) (c : Nat) (b : Option Nat) : State := match b with
  | some b => s.loadInit c b
  | none => s

/-- A withheld sample run again, after the INIT that its boundary brought (R306). -/
def State.rerun (s : State) (c : Nat) (n : Snapshot) (send : Bool) : State := (s.initOf c n.init).runOne c s.now n send

/-- The surviving unit takes over (R306): it restores the state words as they stood at the start of the first withheld sample,
re-runs the withheld samples in order and sends the frame of the last; nothing is sent once RUN is 0 (R303). Log entry 54. -/
def State.takeover (s : State) (c failed : Nat) : State :=
  let x := s.chan c
  let l := x.withheld
  let surv := ((s.members c).find? fun x => x != failed).getD c
  let run := tbit (s.rv (chKey c 0)) 31
  let s1 := ((s.failNamed failed).modChan c ChanSt.settled).modChan surv fun x =>
    { x with state := if run then .running else .stopped, solo := true }
  let s2 := s1.setRegs (chKey c 0x100) x.kept
  let s3 := l.zipIdx.foldl (fun (s : State) (y : Snapshot × Nat) => s.rerun c y.1 (run && y.2 + 1 == l.length)) s2
  (s3.initOf c x.initDue).chanEvent c 6

/-- What the outcome of a fault identification does (R306): `a` the leader's unit failed, `b` the follower's. Log entry 54. -/
def State.identified (s : State) (c : Nat) (a b : Bool) : State :=
  let lead := (s.members c).getD 0 c
  let foll := (s.members c).getD 1 c
  if a == b then s.losePair lead
  else s.takeover lead (if a then lead else foll)

/-- Both units of a pair run its samples (R305): neither is FAILED, and none runs solo. -/
def State.bothRun (s : State) (c : Nat) : Bool :=
  (s.members c).length == 2 && (s.members c).all fun x => !(s.chan x).solo && (s.chan x).state != .failed

/-- A sample that starts (R284 to R307): `n` its number; while a fault is identified an INIT that waits is loaded by the re-run.
Log entry 54. -/
def State.runSample (s : State) (c n : Nat) (fault : LawFault) : State :=
  let snap := s.snapshot' c n (s.chan c).initDue
  let s1 := ((s.bump 0xC00010 1).bump (chKey c 0x20) 1).modChan c fun x => { x with lastStart := some s.time.elapsed }
  let start := s.now / 5000 * 5000
  let hinged := s.bothRun c
  if (s.chan c).state == .identifying then
    s1.modChan c fun x => { x with withheld := (x.withheld ++ [snap]).drop ((x.withheld.length + 1) - 8), initDue := none }
  else match fault with
    | .none => s1.runOne c start snap true
    | .error a b =>
      if !(a || b) then s1.runOne c start snap true
      else if hinged then (s1.withhold c snap).identified c a b
      else
        let dead := ((s.members c).find? fun x => (s.chan x).state == .running).getD c
        if (s.members c).length = 2 then (s1.failChan dead).pairGone c else s1.failNamed dead
    | .differ =>
      if hinged then
        ((s.members c).foldl (fun s x => s.modChan x fun y => { y with state := .identifying }) (s1.withhold c snap)).chanEvent c 5
      else s1.runOne c start snap true

/-- A boundary of a channel or a pair (R282 to R307): captures apply, then a sample starts where the channel runs. The pair's
boundary is the leader's; one that falls in the previous sample is none (R283). Log entry 54. -/
def State.sample (s : State) (c : Nat) (fault : LawFault) : State :=
  match s.boundary c with
  | none => s
  | some n =>
    if s.leaderOf c ≠ c ∨ s.sampling c = true then s
    else
      let s1 := s.chanBoundary c
      if s1.chanRuns c then s1.runSample c n fault else s1

/-! ### SETPT (R296, R297) -/

/-- The checks of SETPT. -/
def setptCheck (s : State) (c : StepCtx) : Nat :=
  let a := leAt c.b 8 4
  let ch := leAt c.b 0x0C 1
  let mask := leAt c.b 0x0D 1
  let mine := match s.chanEntry ch with
    | some e => e.part == c.p
    | none => false
  firstCode
    [codeIf (a % 32 != 0 || decide (23 < ch) || mask % 16 == 0 || decide (16 ≤ mask) || !zeroRange c.b 0x0E 50) 0x0622,
     codeIf (decide (padBytes < a + 16)) 0x0621, codeIf (!mine) 0x0640]

/-- The setpoint entry written (R296): the words selected, the timestamp. The entry before stays for a sample that starts in
the present instant (R22, R291). -/
def State.writeEntry (s : State) (ch mask : Nat) (w : List Nat) (ts : Nat) : State :=
  let now := s.time.elapsed
  s.modChan (s.leaderOf ch) fun x =>
    { x with
      spBefore := if x.sp.written < now then x.sp else x.spBefore
      sp := ⟨(List.range 4).map fun k => if tbit mask k then w.getD k 0 else x.sp.words.getD k 0, ts,
             (List.range 4).map fun k => if tbit mask k then some now else x.sp.recv.getD k none, now⟩ }

/-- The effect of SETPT. Log entry 56. Log entry 35. -/
def setptBody (env : StepEnv) (s : State) (c : StepCtx) : Option (State × StepPhase) :=
  let a := leAt c.b 8 4
  let pad := s.padOf c.p c.t
  if s.padHeld c.p c.t [⟨a, 16⟩] then none
  else
    let code := pad.refused [⟨a, 16⟩]
    if env.mismatch && c.part.hinged then some (s, .done 0x0403 false)
    else if code ≠ 0 then some (s, .done code false)
    else
      let bytes := (s.padRead c env).bytes a 16
      let w := (List.range 4).map fun k => leAt bytes (4 * k) 4
      let (s1, ue) := s.padErrors c env [⟨a, 16⟩]
      let src := c.job.srcTs
      let ts := if src = 0 then s1.now else s1.fullTs src
      some ((s1.writeEntry (leAt c.b 0x0C 1) (leAt c.b 0x0D 1) w ts).markUe c.p ue, .done (codeIf ue 0x0310))

/-! ### SENT (R293, R294) -/

/-- The SENT CRC-4 of nibbles (R293, log entry 3): polynomial x^4 + x^3 + x^2 + 1, seed 5. -/
def sentCrc (legacy : Bool) (nibbles : List Nat) : Nat :=
  let tab : List Nat := [0, 13, 7, 10, 14, 3, 9, 4, 1, 12, 6, 11, 15, 2, 8, 5]
  let c := nibbles.foldl (fun c n => n % 16 ^^^ tab.getD c 0) 5
  if legacy then c else tab.getD c 0

/-- The 6-bit CRC of an enhanced serial message (log entry 3): polynomial x^6 + x^4 + x^3 + 1, seed 21. -/
def sentCrc6 (bits : List Nat) : Nat :=
  (bits ++ List.replicate 6 0).foldl (fun c b =>
    let d := c * 2 + b % 2
    if 64 ≤ d then (d % 64) ^^^ 0x19 else d) 21

/-- Bits, the first most significant. -/
def bitsNat (l : List Nat) : Nat := l.foldl (fun a b => 2 * a + b % 2) 0

/-- A slow-channel message in the status bits received, oldest first: its identifier, its data, its CRC fits (R293).
Log entries 3, 57. -/
def slowMessage (l : List (Nat × Nat)) : Option (Nat × Nat × Bool) :=
  let b3 := l.map (·.1)
  let b2 := l.map (·.2)
  let e3 := b3.drop (l.length - 18)
  let e2 := b2.drop (l.length - 18)
  let s3 := b3.drop (l.length - 16)
  let s2 := b2.drop (l.length - 16)
  if 18 ≤ l.length ∧ e3.take 6 = [1, 1, 1, 1, 1, 1] ∧ e3.getD 6 1 = 0 ∧ e3.getD 12 1 = 0 ∧ e3.getD 17 1 = 0 then
    let seq := ((List.range 12).flatMap fun i => [e2.getD (6 + i) 0, e3.getD (6 + i) 0])
    let ok := sentCrc6 seq == bitsNat (e2.take 6)
    let data12 := bitsNat (e2.drop 6)
    let hi := bitsNat ((e3.drop 8).take 4)
    let lo := bitsNat ((e3.drop 13).take 4)
    if e3.getD 7 0 = 0 then some (hi * 16 + lo, data12, ok) else some (hi, lo * 4096 + data12, ok)
  else if 16 ≤ l.length ∧ s3 = 1 :: List.replicate 15 0 then
    let id := bitsNat (s2.take 4)
    let d := bitsNat ((s2.drop 4).take 8)
    some (id, d, sentCrc false [id, d / 16, d % 16] == bitsNat (s2.drop 12))
  else none

/-- The nibbles of a SENT frame from its pulses in ns: calibration, status, data, CRC; none where a pulse is out of range
(R294). Log entry 57. -/
def sentNibbles (pulses : List Nat) : Option (List Nat) :=
  let cal := pulses.headD 0
  if cal = 0 then none
  else
    let ticks := pulses.tail.map fun p => (p * 112 + cal) / (2 * cal)
    if ticks.all fun t => decide (12 ≤ t) && decide (t ≤ 27) then some (ticks.map (· - 12)) else none

/-- A SENT port's calibration pulse is accepted (R294). -/
def sentCalOk (tick : Nat) (last : Option Nat) (cal : Nat) : Bool :=
  let nom := 560 * tick
  let near (a b k : Nat) : Bool := decide ((max a b - min a b) * k ≤ b)
  near cal nom 4 && (match last with
    | some p => near cal p 64
    | none => true)

/-- A SENT frame received by a port with its configuration in force (R292 to R294). Log entry 57. -/
def State.sentFrame (s : State) (p : Nat) (pulses : List Nat) : State :=
  let cfg := s.rv (0xC00800 + 0x20 * p)
  let n := field cfg 24 3
  let tick := cfg % 2 ^ 16
  match s.ctl.sents[p]? with
  | none => s
  | some x =>
    if !(tbit cfg 31 && decide (1 ≤ n) && decide (n ≤ 6) && decide (300 ≤ tick) && decide (tick ≤ 9000)) then s
    else
      let cal := pulses.headD 0
      let put : State → SentSt → State := fun s y => { s with ctl := { s.ctl with sents := s.ctl.sents.set p y } }
      let bad := (put s { x with lastCal := some cal, slow := [] }).bump (0xC00810 + 0x20 * p) 1
      if !sentCalOk tick x.lastCal cal ∨ pulses.length ≠ n + 3 then bad
      else match sentNibbles pulses with
        | none => bad
        | some l =>
          let data := (l.drop 1).take n
          if sentCrc (tbit cfg 29) data ≠ l.getD (n + 1) 16 then bad
          else
            let v := data.foldl (fun a d => 16 * a + d) 0
            let s1 := ((put s { x with lastCal := some cal }).bump (0xC00808 + 0x20 * p) 1).ctlInput 1 p 0 s.now fun _ _ => v
            if !tbit cfg 28 then s1
            else
              let st := l.headD 0
              let slow := (x.slow ++ [(st / 8 % 2, st / 4 % 2)]).drop (x.slow.length + 1 - 18)
              match slowMessage slow with
              | some (id, d, ok) =>
                let s2 := put s1 ⟨some cal, []⟩
                if ok then s2.ctlInput 2 p id s.now fun _ _ => d else s2
              | none => put s1 ⟨some cal, slow⟩

/-- A SENT frame ends with its CRC nibble: captures of the port apply to it (R308); PD5 is on (R25). Log entry 57. -/
def State.sentIn (s : State) (p : Nat) (pulses : List Nat) : State :=
  if s.domOn 5 then (s.applyReady 12 (fun c => c.isOf 3 (24 + p)) id).sentFrame p pulses else s

/-- Captures of the control filters of a network port apply at a frame received (R308). -/
def State.netfBoundary (s : State) (q : Nat) : State :=
  s.applyReady 12 (fun c => groupOf c.key == 3 && decide (40 + 8 * q ≤ instOf c.key) && decide (instOf c.key < 48 + 8 * q)) id

/-! ### Commands -/

/-- What the commands of the control engine may change. -/
def commitCtl (s t : State) : State :=
  { s with ctl := t.ctl, can := t.can, t1s := t.t1s, eth := t.eth, safe := t.safe.carry s.safe, out := t.out, fresh := t.fresh,
           regs := { s.regs with ctl := t.regs.ctl, safe := t.regs.safe, pci := t.regs.pci, global := t.regs.global } }

/-- What a SETPT step may change: the setpoint table and what every step may change. -/
def commitSetpt (s t : State) : State := { commitStep s t with ctl := t.ctl }

/-- A SETPT step (R296, R297). -/
def execSetpt (part : PartIx) (target : TargetIx) (env : StepEnv) (s : State) : Answer :=
  .next (commitSetpt s (s.runStep part target (fun b => hOp b == 0x40) setptCheck (setptBody env)))

/-- A sample boundary of a channel (R284, R302, R303). -/
def execSample (ch : ChanIx) (fault : LawFault) (s : State) : Answer := .next (commitCtl s (s.sample ch fault))

/-- The identification of a pair's fault ends (R306). -/
def execFaultIdentificationDone (ch : ChanIx) (leaderFails followerFails : Bool) (s : State) : Answer :=
  .next (commitCtl s (if (s.chan (s.leaderOf ch)).state = .identifying then
    s.identified (s.leaderOf ch) leaderFails followerFails else s))

/-- A SENT frame ends; its pulses in ns up to the CRC nibble (R293). -/
def execSentFrame (port : Fin 16) (pulses : List Nat) (s : State) : Answer := .next (commitCtl s (s.sentIn port pulses))

end Sys2Proof.Machine
end

