-- ==== Sys2Proof/Machine/Can.lean ====
section
/-!
DEFINITION. The CAN controllers (R311 to R327): message objects, locks, selection, sending, errors, INIT, reference
messages, wake-up.
-/
namespace Sys2Proof.Machine

/-- The key of a controller's register (R327). -/
def canKey (n o : Nat) : Nat := 0xD00000 + 0x20000 * n + o
/-- The key of a message object's register. -/
def canObjKey (n i o : Nat) : Nat := 0xD10000 + 0x20000 * n + 0x80 * i + o

/-- A controller. -/
def State.canOf (s : State) (n : Nat) : CanSt := s.can.getD n .reset
/-- A controller changed. -/
def State.modCan (s : State) (n : Nat) (f : CanSt → CanSt) : State := { s with can := lmod s.can n f }
/-- A message object of a controller. -/
def CanSt.obj (c : CanSt) (i : Nat) : CanObjSt := (alGet c.objs i).getD .reset
/-- A message object changed. -/
def CanSt.modObj (c : CanSt) (i : Nat) (f : CanObjSt → CanObjSt) : CanSt := { c with objs := alSet c.objs i (f (c.obj i)) }
/-- A message object of the state. -/
def State.canObj (s : State) (n i : Nat) : CanObjSt := (s.canOf n).obj i
/-- A message object of the state changed. -/
def State.modCanObj (s : State) (n i : Nat) (f : CanObjSt → CanObjSt) : State := s.modCan n fun c => c.modObj i f

/-- An event of a controller, by its bit in CAN_EVENT (R327). -/
def State.canEvent (s : State) (n bit : Nat) : State := s.raise (canKey n 0x24) (2 ^ bit)

/-- CAN_CTL in force. -/
def State.canCtl (s : State) (n : Nat) : Nat := s.rv (canKey n 0)
/-- LISTEN. -/
def State.canListen (s : State) (n : Nat) : Bool := tbit (s.canCtl n) 26
/-- A frame format is enabled (R312): 0 classic, 1 FD, 2 XL. -/
def State.canFmt (s : State) (n k : Nat) : Bool := match k with
  | 0 => true
  | 1 => tbit (s.canCtl n) 31
  | 2 => tbit (s.canCtl n) 30
  | _ => false
/-- REF_EN. -/
def State.canRef (s : State) (n : Nat) : Bool := tbit (s.rv (canKey n 0x30)) 31
/-- The controller takes part in the traffic of its bus: PD4 is on (R25), and it is error active or error passive. -/
def State.canRuns (s : State) (n : Nat) : Bool := s.domOn 4 && ((s.canOf n).state == 2 || (s.canOf n).state == 3)

/-- A start-of-frame stamp (R324): the time-base value plus CAN_TS_ADJ. Log entry 62. -/
def State.canStamp (s : State) (n : Nat) (sof : Stamp) : Nat :=
  (((sof.ns : Int) + sgn 32 (s.rv (canKey n 0x1C))) % (nsWrap : Int)).toNat

/-! ### Message objects (R317 to R321) -/

/-- An object is engine-owned (R321): a running channel names it as its transmit object. Log entry 17. -/
def State.engineOwned (s : State) (n i : Nat) : Bool :=
  (List.range 24).any fun c =>
    s.leaderOf c == c && s.chanRuns c && s.outBus c == (1, n) && field (s.rv (chKey c 0x14)) 0 7 == i

/-- CAN_OBJ_CFG in force. -/
def State.objCfg (s : State) (n i : Nat) : Nat := s.rv (canObjKey n i 0)
/-- DIR: a send object. -/
def State.objSends (s : State) (n i : Nat) : Bool := tbit (s.objCfg n i) 30
/-- FMT. -/
def State.objFmt (s : State) (n i : Nat) : Nat := field (s.objCfg n i) 28 2
/-- The continuation objects of an object (R317): SPAN_M1 of a CAN XL object. -/
def State.objSpan (s : State) (n i : Nat) : Nat :=
  let c := s.objCfg n i
  if (if tbit c 30 then s.objFmt n i == 2 else tbit c 26) then field c 20 3 else 0
/-- One more than the last object that is not disabled (R325). -/
def State.objLimit (s : State) (n : Nat) : Nat := if s.canRef n then 64 else 128

/-- The configuration in force enables an object: EN, a format that exists, no continuation object beyond the last.
Log entry 61. -/
def State.objEnabled (s : State) (n i : Nat) : Bool :=
  tbit (s.objCfg n i) 31 && !(s.objSends n i && s.objFmt n i == 3) && decide (i + s.objSpan n i < s.objLimit n) &&
  !s.engineOwned n i

/-- The enabled objects of a controller that are not continuation objects, ascending (R317). -/
def State.objHeads (s : State) (n : Nat) : List Nat :=
  ((List.range 128).foldl (fun (a : List Nat × Nat) i =>
    if i < a.2 then a else if s.objEnabled n i then (a.1 ++ [i], i + 1 + s.objSpan n i) else a) ([], 0)).1

/-- The object that governs an object's words: the CAN XL object that it continues, or itself. -/
def State.objGoverns (s : State) (n i : Nat) : Nat :=
  ((s.objHeads n).find? fun h => decide (h ≤ i) && decide (i ≤ h + s.objSpan n h)).getD i

/-- The identifier word of a frame: bit 31 IDE (R318). -/
def canWord (f : CanFrame) : Nat := if f.ide then 2 ^ 31 + f.id % 2 ^ 29 else f.id % 2 ^ 11

/-- A receive object meets the three conditions of R318. -/
def State.objTakes (s : State) (n i : Nat) (f : CanFrame) : Bool :=
  !s.objSends n i && tbit (s.objCfg n i) (24 + f.kind) && !f.rtr &&
  (s.rv (canObjKey n i 4) ^^^ canWord f) &&& s.rv (canObjKey n i 8) == 0 && decide (f.data.length ≤ 64 * (s.objSpan n i + 1))

/-- The receive object that a frame goes to (R318). -/
def State.objMatch (s : State) (n : Nat) (f : CanFrame) : Option Nat := (s.objHeads n).find? fun i => s.objTakes n i f

/-- Data bytes put into the data words of an object and its continuation objects, the other bytes unchanged (R317).
Log entry 58. -/
def State.putData (s : State) (n i : Nat) (d : List Byte) : State :=
  (List.range (cdiv d.length 4)).foldl (fun s w =>
    let k := canObjKey n (i + w / 16) (0x40 + 4 * (w % 16))
    let old := natLe 4 (s.rv k)
    s.setReg k (leNat ((List.range 4).map fun j => if 4 * w + j < d.length then byteAt d (4 * w + j) else byteAt old j))) s

/-- Data bytes of an object and its continuation objects. -/
def State.getData (s : State) (n i len : Nat) : List Byte :=
  (List.range len).map fun b =>
    BitVec.ofNat 8 (s.rv (canObjKey n (i + b / 64) (0x40 + b % 64 / 4 * 4)) / 2 ^ (8 * (b % 4)))

/-- IRQ of an object: its CAN_OBJ_EVENT bit, and RX (0) or TX (1). -/
def State.objIrq (s : State) (n i bit : Nat) : State :=
  if tbit (s.objCfg n i) 14 then (s.raise (canKey n (0x80 + 4 * (i / 32))) (2 ^ (i % 32))).canEvent n bit else s

/-- A frame stored in an object (R318). The DLC field of a CAN XL frame has no meaning: a free value. Log entry 58. -/
def State.storeFrame (s : State) (n i : Nat) (f : CanFrame) (ts : Nat) : State :=
  let (d, s0) := if f.kind = 2 then s.draw else (f.dlc, s)
  let s1 := s0.modCanObj n i fun o =>
    { o with new := true, rfmt := f.kind, seq := (o.seq + 1) % 256, brs := f.brs, esi := f.esi, dlc := d % 16,
             len := f.data.length }
  let s2 := (s1.setReg (canObjKey n i 0x2C) (canWord f)).setRegs (canObjKey n i 0x1C) (tsWords ts)
  let s3 := if f.kind = 2 then
      (s2.setReg (canObjKey n i 0xC) (f.vcid % 256 * 2 ^ 24 + f.sdt % 256 * 2 ^ 16 + flagBit 15 f.sec)).setReg
        (canObjKey n i 0x10) f.af
    else s2
  (s3.putData n i f.data).objIrq n i 0

/-- A frame arrives at its object (R319): stored, held, replacing the older one, or discarded. -/
def State.frameToObj (s : State) (n i : Nat) (f : CanFrame) (ts : Nat) : State :=
  let o := s.canObj n i
  let keep := tbit (s.objCfg n i) 15
  if o.locked then
    s.modCanObj n i fun o =>
      { o with overrun := o.overrun || o.held.isSome,
               held := if o.held.isSome && keep then o.held else some (f, ts) }
  else if o.new then
    let s1 := s.modCanObj n i fun o => { o with overrun := true }
    if keep then s1 else s1.storeFrame n i f ts
  else s.storeFrame n i f ts

/-- The lock of an object is released (R319): NEW clears, and a held frame moves in. -/
def State.unlock (s : State) (n i : Nat) : State :=
  match (s.canObj n i).held with
  | some (f, ts) => (s.modCanObj n i fun o => { o with locked := false, new := false, held := none }).storeFrame n i f ts
  | none => s.modCanObj n i fun o => { o with locked := false, new := false }

/-- CAN_OBJ_STATUS (R327). Log entry 58. -/
def State.objStatus (s : State) (n i : Nat) : Nat :=
  let o := s.canObj n i
  flagBit 31 o.new + flagBit 30 o.overrun + flagBit 29 o.locked + flagBit 28 o.held.isSome + flagBit 27 o.pending +
  flagBit 26 (s.engineOwned n i) + o.rfmt % 4 * 2 ^ 24 + o.seq % 256 * 2 ^ 16 + flagBit 15 o.brs + flagBit 14 o.esi +
  o.dlc % 16 * 2 ^ 10 + o.len % 2 ^ 10

/-- The key of an object's last word (R319). -/
def State.lastWord (s : State) (n i : Nat) : Nat :=
  let len := (s.canObj n i).len
  if len = 0 then canObjKey n i 0x24 else canObjKey n (i + (len - 1) / 64) (0x40 + (len - 1) % 64 / 4 * 4)

/-! ### Sending (R320, R321, R325) -/

/-- The frame that a pending object sends: its channel's, or that of its own configuration, which an object that a channel takes
over while the frame is on the bus still sends to its end (R321). ESI is the controller's state (R311). Log entry 59. -/
def State.objFrame (s : State) (n i : Nat) : Option CanFrame :=
  let o := s.canObj n i
  let passive := (s.canOf n).state == 3
  if !o.pending then none
  else match o.engFrame with
    | some f => some { f with esi := f.kind == 1 && passive }
    | none =>
      if s.engineOwned n i && (s.canOf n).sel != some (.obj i) then none
      else
        let k := s.objFmt n i
        let id := s.rv (canObjKey n i 4)
        let xl := s.rv (canObjKey n i 0xC)
        let ide := k != 2 && tbit id 31
        some { ide := ide, id := if ide then field id 0 29 else field id 0 11, kind := k, brs := k == 1 && tbit (s.objCfg n i) 27,
               esi := k == 1 && passive, rtr := false, sdt := if k = 2 then field xl 16 8 else 0,
               vcid := if k = 2 then field xl 24 8 else 0, af := if k = 2 then s.rv (canObjKey n i 0x10) else 0,
               sec := k == 2 && tbit xl 15, dlc := if k = 2 then 0 else canDlc o.len,
               data := s.getData n i (min o.reqLen o.len) ++ List.replicate (o.len - o.reqLen) 0 }

/-- The reference message due (R325). Log entry 62. -/
def State.refFrame (s : State) (n : Nat) : CanFrame :=
  let w := s.rv (canKey n 0x30)
  let c := s.canOf n
  let (sec, ns) := match c.refLast with
    | some t => (t / 1000000000 % 2 ^ 32, t % 1000000000)
    | none => (c.refSec % 2 ^ 32, 0x3FFFFFFF)
  { ide := tbit w 30, id := if tbit w 30 then field w 0 29 else field w 0 11, kind := 0, brs := false, esi := false,
    rtr := false, sdt := 0, vcid := 0, af := 0, sec := false, dlc := 8,
    data := natBe 4 sec ++ natBe 4 (c.refK % 4 * 2 ^ 30 + ns) }

/-- The rank of a frame in the bus priority order (R320): base identifier, then the base format before the extended one,
then the rest of the identifier. Log entry 59. -/
def canRank (f : CanFrame) : Nat :=
  if f.ide then f.id / 2 ^ 18 % 2 ^ 11 * 2 ^ 19 + 2 ^ 18 + f.id % 2 ^ 18 else f.id % 2 ^ 11 * 2 ^ 19

/-- The first of the candidates with the least rank. Log entry 59. -/
def bestOf : List (CanSel × Nat) → Option (CanSel × Nat)
  | [] => none
  | x :: t => match bestOf t with
    | some y => if y.2 < x.2 then some y else some x
    | none => some x

/-- What a controller would send next (R320). -/
def State.canNext (s : State) (n : Nat) : Option CanSel :=
  let c := s.canOf n
  if c.safe.isSome then some .safe
  else
    let refs := if s.canRef n && decide (0 < c.refDue) then [(CanSel.reference, canRank (s.refFrame n))] else []
    let objs := (List.range (s.objLimit n)).filterMap fun i => match s.objFrame n i with
      | some f => if s.canFmt n f.kind then some (CanSel.obj i, canRank f) else none
      | none => none
    (bestOf (refs ++ objs)).map (·.1)

/-- The frame that a choice stands for. -/
def State.selFrame (s : State) (n : Nat) : CanSel → Option CanFrame
  | .safe => (s.canOf n).safe
  | .obj i => s.objFrame n i
  | .reference => some (s.refFrame n)

/-- The stop that waits for the end of the frame takes effect (R323). -/
def State.canStop (s : State) (n : Nat) : State :=
  s.modCan n fun c => if c.stopDue then { c with state := 0, stopDue := false, sel := none } else c

/-- Error active or error passive by the counters (R322), with PASSIVE where the controller becomes passive. -/
def State.canConfine (s : State) (n : Nat) : State :=
  let c := s.canOf n
  if c.state = 2 ∨ c.state = 3 then
    let p := decide (128 ≤ c.txErr) || decide (128 ≤ c.rxErr)
    let s1 := s.modCan n fun c => { c with state := if p then 3 else 2 }
    if p && c.state == 2 then s1.canEvent n 2 else s1
  else s

/-- A frame on the bus ends unsent (R321): retried, unless ONESHOT or an ABORT prevents it; a newer frame of the channel takes
its place first. -/
def CanObjSt.unsent (o : CanObjSt) (oneshot : Bool) : CanObjSt :=
  match o.engNext with
  | some f => { o with engFrame := some f, engNext := none, pending := true, noRetry := false }
  | none => if o.noRetry || (oneshot && o.engFrame.isNone) then { o with pending := false, noRetry := false, engFrame := none } else o

/-- The frame that the controller had chosen is no longer on the bus. -/
def State.canUnsent (s : State) (n : Nat) : State :=
  match (s.canOf n).sel with
  | some (.obj i) =>
    (s.modCanObj n i fun o => o.unsent (tbit (s.objCfg n i) 13)).modCan n fun c => { c with sel := none }
  | _ => s.modCan n fun c => { c with sel := none }



/-- The next frame to send is chosen (R320). -/
def State.canSelect (s : State) (n : Nat) : State :=
  if s.canRuns n && !s.canListen n && (s.canOf n).sel.isNone && !(s.canOf n).stopDue then
    s.modCan n fun c => { c with sel := s.canNext n }
  else s

/-- REQ (R321). Log entry 59. -/
def State.objReq (s : State) (n i : Nat) : State :=
  if (s.canObj n i).pending || !((s.objHeads n).contains i && s.objSends n i) then s
  else
    let len := s.rv (canObjKey n i 0x28) % 2 ^ 10
    let (ok, l) : Bool × Nat := match s.objFmt n i with
      | 0 => (decide (len ≤ 8), len)
      | 1 => (decide (len ≤ 64), canFdUp len)
      | _ => (decide (1 ≤ len) && decide (len ≤ 64 * (s.objSpan n i + 1)), len)
    if ok then s.modCanObj n i fun o =>
      { o with pending := true, noRetry := false, engFrame := none, engNext := none, len := l, reqLen := len }
    else s.canEvent n 12

/-- ABORT (R321). -/
def State.objAbort (s : State) (n i : Nat) : State :=
  if !(s.canObj n i).pending then s
  else if (s.canOf n).sel = some (.obj i) then s.modCanObj n i fun o => { o with noRetry := true }
  else s.modCanObj n i fun o => { o with pending := false, engFrame := none }

/-- CLEAR (R319). -/
def State.objClear (s : State) (n i : Nat) : State :=
  s.modCanObj n i fun o => { o with held := none, locked := false, new := false, overrun := false }

/-! ### Reception and errors -/

/-- A frame becomes valid for a receiver (R318, R319): stored, or counted as unmatched. Log entries 58, 60. -/
def State.canReceived (s : State) (n : Nat) (f : CanFrame) (sof : Stamp) : State :=
  if !(s.canRuns n && s.canFmt n f.kind) then s
  else
    let s1 := (s.bump (canKey n 0x40) 1).modCan n fun c =>
      { c with rxErr := if 127 < c.rxErr then 119 + Config.freeNat s.fresh % 9 else c.rxErr - 1 }
    let s2 := { s1 with fresh := s.fresh + 1 }
    let s3 := match s.objMatch n f with
      | some i => s2.frameToObj n i f (s.canStamp n sof)
      | none => s2.bump (canKey n 0x58) 1
    (s3.canConfine n).canStop n

/-- The bits of a data phase in CAN clocks (R313): FD from CAN_DBT, XL from CAN_XBT. -/
def dataBit (w : Nat) : Nat := (field w 0 5 + 1) * (3 + field w 8 5 + field w 16 5 + field w 24 4)

/-- The loop delay is measured on a frame being sent (R314): compensation is enabled for its data phase. -/
def State.tdcOn (s : State) (n kind : Nat) : Bool :=
  (kind == 2 && tbit (s.rv (canKey n 0x14)) 15) || (kind == 1 && tbit (s.rv (canKey n 0x14)) 7)

/-- Transmitter delay compensation fails on a frame being sent (R314). Log entry 61. -/
def State.tdcFails (s : State) (n kind : Nat) (brs : Bool) (d : Nat) : Bool :=
  let t := s.rv (canKey n 0x14)
  s.tdcOn n kind &&
  (if kind = 2 then decide (127 < d) || decide (2 * dataBit (s.rv (canKey n 0x10)) < d + field t 8 7)
  else brs && (decide (127 < d) || decide (2 * dataBit (s.rv (canKey n 0xC)) < d + field t 0 7)))

/-- TDCV after a frame on which a delay was measured (R314). -/
def State.putTdcv (s : State) (n : Nat) (f : Option CanFrame) (d : Option (Fin 256)) : State :=
  match f, d with
  | some f, some d => if s.tdcOn n f.kind then s.modCan n fun c => { c with tdcv := d.val } else s
  | _, _ => s

/-- A safe-state frame read back wrong from the bus is logged (R400); the code of the record is a free value. Log entry 60. -/
def State.logSafeFrame (s : State) (sel : Option CanSel) : State :=
  if sel = some .safe then
    let (d, s1) := s.draw
    s1.logNow 0 0xFF (d % 2 ^ 16)
  else s

/-- A bus error (R322): counters, error passive, bus-off. Log entry 60. -/
def State.canErr (s : State) (n : Nat) (kind : CanErrKind) (lastErr : Nat) (tdc : Option (Fin 256)) : State :=
  if !s.canRuns n then s
  else
    let c := s.canOf n
    let onBus := c.sel.bind (s.selFrame n)
    let fails := match tdc, onBus with
      | some d, some f => s.tdcFails n f.kind f.brs d.val
      | _, _ => false
    let (tx, rx) := match kind with
      | .transmitter => (c.txErr + 8, c.rxErr)
      | .transmitterNoCount => (c.txErr, c.rxErr)
      | .receiver => (c.txErr, min 255 (c.rxErr + 1))
      | .receiverDominant => (c.txErr, min 255 (c.rxErr + 8))
    let s1 := (((s.bump (canKey n 0x50) 1).modCan n fun c =>
      { c with txErr := tx, rxErr := rx, lastErr := lastErr }).putTdcv n onBus tdc).logSafeFrame c.sel
    let s2 := s1.canUnsent n
    let s3 := if fails then s2.canEvent n 11 else s2
    if 255 < tx then
      let auto := tbit (s.canCtl n) 27 || c.safe.isSome
      ((s3.modCan n fun c => { c with state := if auto then 5 else 4 }).canEvent n 3).canStop n
    else (s3.canConfine n).canStop n

/-- A frame on the bus is sent to its end (R320, R321, R324, R325). Log entry 59. -/
def State.frameSent (s : State) (n : Nat) (sel : CanSel) (f : CanFrame) (ts : Nat) : State :=
  let s1 := ((s.emit (.can n f)).bump (canKey n 0x48) 1).modCan n fun c => { c with sel := none, txErr := c.txErr - 1 }
  let s2 := match sel with
    | .safe => (s1.modCan n fun c => { c with safe := none }).canEvent n 9
    | .reference =>
      (s1.modCan n fun c => { c with refDue := c.refDue - 1, refK := c.refK + 1, refLast := some ts }).canEvent n 10
    | .obj i =>
      let own := (s.canObj n i).engFrame.isSome
      let (d, s0) := if f.kind = 2 then s1.draw else (f.dlc, s1)
      let s2 := (s0.modCanObj n i fun o =>
        { o with pending := o.engNext.isSome, engFrame := o.engNext, engNext := none, noRetry := false,
                 seq := (o.seq + 1) % 256, dlc := d % 16, len := f.data.length }).setRegs (canObjKey n i 0x1C) (tsWords ts)
      if own then s2 else s2.objIrq n i 1
  (s2.canConfine n).canStop n

/-- A frame has been sent; one whose delay compensation fails is a bit error instead, recessive or dominant (R314): which of
the two is a free value. Log entries 59, 61. -/
def State.canSent (s : State) (n : Nat) (sof : Stamp) (tdcv : Option (Fin 256)) : State :=
  if !s.canRuns n then s
  else match (s.canOf n).sel with
    | none => s
    | some sel => match s.selFrame n sel with
      | none => s
      | some f =>
        if tdcv.any fun d => s.tdcFails n f.kind f.brs d.val then
          let (d, s1) := s.draw
          s1.canErr n .transmitter (4 + d % 2) tdcv
        else (s.putTdcv n (some f) tdcv).frameSent n sel f (s.canStamp n sof)

/-! ### INIT and timing (R313, R315, R323) -/

/-- The arbitration timing in force keeps its ranges (R313). -/
def nominalOk (t0 t1 : Nat) : Bool :=
  let brp := field t0 0 9 + 1
  let sjw := field t0 16 7 + 1
  let prop := field t1 0 7 + 1
  let ph1 := field t1 8 7 + 1
  let ph2 := field t1 16 7 + 1
  let len := 1 + prop + ph1 + ph2
  decide (2 ≤ ph2) && decide (sjw ≤ min ph1 ph2) && decide (8 ≤ len) && decide (80 ≤ brp * len) && decide (brp * len ≤ 8000)

/-- A data phase in force keeps its ranges (R313): at most `least` CAN clocks make a bit too short. -/
def dataOk (t0 w least : Nat) : Bool :=
  let ph1 := field w 16 5 + 1
  let ph2 := field w 24 4 + 1
  decide (field w 28 4 + 1 ≤ min ph1 ph2) && decide (4 ≤ 1 + field w 8 5 + ph1 + ph2) && field w 0 5 == field t0 0 9 &&
  decide (least ≤ dataBit w)

/-- The timing in force passes the checks of R313 and R315. Log entry 61. -/
def State.canTimingOk (s : State) (n : Nat) : Bool :=
  let t0 := s.rv (canKey n 4)
  let x := s.rv (canKey n 0x10)
  let p := s.rv (canKey n 0x18)
  let fast := tbit (s.canCtl n) 28
  nominalOk t0 (s.rv (canKey n 8)) && (!s.canFmt n 1 || dataOk t0 (s.rv (canKey n 0xC)) 10) &&
  (!s.canFmt n 2 ||
    (dataOk t0 x 4 && (fast || decide (10 ≤ dataBit x)) &&
     (!fast || (decide (1 ≤ field p 0 6) && decide (1 ≤ field p 8 6) && field p 0 6 + field p 8 6 == dataBit x))))

/-- CAN_CTL.INIT. -/
def State.setInit (s : State) (n : Nat) (b : Bool) : State := s.setLive (canKey n 0) 0 1 (b2n b)

/-- INIT written as 1 (R323): the controller stops at the end of the frame in progress, or at once. -/
def State.initSet (s : State) (n : Nat) (busy : Bool) : State :=
  let s1 := s.setInit n true
  let running := (s.canOf n).sel.isSome || busy
  if (s.canOf n).state = 0 then s1
  else if s.canRuns n && running then s1.modCan n fun c => { c with stopDue := true }
  else s1.modCan n fun c => { c with state := 0, sel := none, stopDue := false }

/-- INIT written as 0 (R313, R323): integration starts, or the timing is refused. Log entries 60, 61. -/
def State.initClear (s : State) (n : Nat) : State :=
  if (s.canOf n).state ≠ 0 then
    (s.setInit n false).modCan n fun c => { c with stopDue := false }
  else if s.canTimingOk n then
    let off := decide (255 < (s.canOf n).txErr)
    let s1 := (s.setInit n false).modCan n fun c => { c with state := 1, cfgErr := false, txErr := 0, rxErr := 0 }
    if off then s1.canEvent n 4 else s1
  else ((s.setInit n true).modCan n fun c => { c with cfgErr := true }).canEvent n 8

/-- Bus integration ends (R323). -/
def State.integrated (s : State) (n : Nat) : State :=
  if (s.canOf n).state = 1 ∧ s.domOn 4 = true then
    s.modCan n fun c => { c with state := if 128 ≤ c.txErr ∨ 128 ≤ c.rxErr then 3 else 2 }
  else s

/-- Bus-off recovery (R322). -/
def State.recovered (s : State) (n : Nat) : State :=
  let c := s.canOf n
  if s.domOn 4 = true ∧ (c.state = 5 ∨ (c.state = 4 ∧ (tbit (s.canCtl n) 27 = true ∨ c.safe.isSome = true))) then
    (s.modCan n fun c => { c with state := 2, txErr := 0, rxErr := 0 }).canEvent n 4
  else s

/-- A frame in a disabled format arrives with PEX 1 (R312). -/
def State.pexTaken (s : State) (n : Nat) : State :=
  if s.canRuns n && tbit (s.canCtl n) 29 then
    (((s.bump (canKey n 0x60) 1).modCan n fun c => { c with state := 1 }).canEvent n 5).canStop n
  else s

/-- The time base stands at a whole multiple of REF_PERIOD (R325): it has come to it with its last advance. Log entry 6.
Log entry 62. -/
def State.onRefPeriod (s : State) (n : Nat) : Bool :=
  decide (s.time.tb % (max 1 (s.rv (canKey n 0x34)) * 1000 * 2 ^ 28) < max s.time.last 1)

/-- A REF_PERIOD instant (R325): one more reference message is due; the seconds of the first one are a free value. Log entry 62. -/
def State.refInstant (s : State) (n : Nat) : State :=
  if !(s.domOn 4 && s.canRef n && s.onRefPeriod n) || (s.canOf n).refAt == some s.time.elapsed then s
  else
    let (d, s1) := s.draw
    s1.modCan n fun c =>
      { c with refDue := c.refDue + 1, refSec := if c.refLast = none ∧ c.refDue = 0 then d else c.refSec,
               refAt := some s.time.elapsed }

/-- A write to a word of a message object (R321, R323). -/
def State.objWrite (s : State) (n i o v : Nat) : State :=
  let g := s.objGoverns n i
  if o = 0x28 then s.setReg (canObjKey n i o) v
  else if !s.objSends n g then s
  else if (s.canObj n g).pending then s.canEvent n 7
  else s.setReg (canObjKey n i o) v

/-- A write to CAN_OBJ_CMD (R327): CLEAR, then ABORT, then REQ. Log entry 61. -/
def State.objCmd (s : State) (n i v : Nat) : State :=
  let s1 := if tbit v 2 then s.objClear n i else s
  let s2 := if tbit v 1 then s1.objAbort n i else s1
  if tbit v 0 then s2.objReq n i else s2

/-- A write to CAN_WAKE (R327): WAKE_EN is RW, WOKE W1C. -/
def State.wakeWrite (s : State) (n v : Nat) : State :=
  s.setReg (canKey n 0x38) (flagBit 31 (tbit v 31) + flagBit 30 (tbit (s.rv (canKey n 0x38)) 30 && !tbit v 30))

/-! ### Latched configuration (R323) -/

/-- The mode fields of CAN_CTL (R323): FD_EN, XL_EN, PEX, XL_FAST, LISTEN. -/
def canModeMask : Nat := 0xF4000000

/-- The controller that a register of the CAN block belongs to. -/
def canOfKey (k : Nat) : Nat := (keyOff k - 0xD00000) / 0x20000

/-- A capture may apply at a frame boundary (R323): the mode fields and the timing in INIT; an object's fields while it is neither
PENDING nor LOCKED; nothing while a frame of the controller is on the bus. -/
def State.canCapReady (s : State) (c : Capture) : Bool :=
  let n := canOfKey c.key
  let d := (keyOff c.key - 0xD00000) % 0x20000
  let init := (s.canOf n).state == 0
  (s.canOf n).sel.isNone &&
  (if 0x10000 ≤ d then
    let o := s.canObj n ((d - 0x10000) / 0x80)
    !o.pending && !o.locked
  else if 4 ≤ d ∧ d ≤ 0x18 then init
  else if d = 0 then init || (c.value.toNat ^^^ s.rv c.key) &&& canModeMask == 0
  else true)

/-- CAN_CTL of a controller whose mode fields wait for INIT (R323): AUTO_RECOV and LOCK_TMO apply, the rest of the capture
waits. -/
def State.canCtlPart (s : State) (n : Nat) : State :=
  match (s.regs.blk 13).caps.find? fun c => c.key == canKey n 0 with
  | some c =>
    if (s.canOf n).state = 0 ∨ (s.canOf n).sel.isSome = true then s
    else s.setReg (canKey n 0) ((s.canCtl n &&& canModeMask) ||| clearBits c.value.toNat canModeMask)
  | none => s

/-- The captures of a controller that a predicate picks apply where they may; the reference schedule starts with REF_EN. -/
def State.canApply (s : State) (n : Nat) (pick : Capture → Bool) : State :=
  s.applyReady 13 (fun c => groupOf c.key == 9 && canOfKey c.key == n && pick c && s.canCapReady c) fun t =>
    if t.canRef n && !s.canRef n then t.modCan n fun c => { c with refDue := 0, refK := 0, refLast := none } else t

/-- The start of intermission or bus idle (R320, R323): captures apply, then the next frame is chosen. -/
def State.frameBoundary (s : State) (n : Nat) : State :=
  if s.domOn 4 then ((s.canCtlPart n).canApply n fun _ => true).canSelect n else s

/-! ### Commands -/

/-- What the commands of the CAN controllers may change. -/
def commitCan (s t : State) : State :=
  { s with can := t.can, out := t.out, fresh := t.fresh, safe := t.safe.carry s.safe,
           regs := { s.regs with can := t.regs.can, pci := t.regs.pci, global := t.regs.global, safe := t.regs.safe } }

/-- A received frame passes its CRC (R292, R318). -/
def execFramePassesCrc (can : CanIx) (frame : CanFrame) (s : State) : Answer :=
  .next { s with ctl := (if s.canRuns can && s.canFmt can frame.kind then
    match s.objMatch can frame with
    | some i => s.netInput 3 can i s.now frame.data
    | none => s
    else s).ctl }

/-- A received frame becomes valid (R318). -/
def execCanFrameStored (can : CanIx) (frame : CanFrame) (sof : Stamp) (s : State) : Answer :=
  .next (commitCan s (s.canReceived can frame sof))

/-- A frame is sent (R321). -/
def execCanFrameSent (can : CanIx) (sof : Stamp) (tdcv : Option (Fin 256)) (s : State) : Answer :=
  .next (commitCan s (s.canSent can sof tdcv))

/-- Arbitration is lost (R321). -/
def execArbitrationLost (can : CanIx) (s : State) : Answer :=
  .next (commitCan s (if s.canRuns can then s.canUnsent can else s))

/-- A bus error (R322). -/
def execCanError (can : CanIx) (kind : CanErrKind) (lastErr : Fin 8) (tdc : Option (Fin 256)) (s : State) : Answer :=
  .next (commitCan s (s.canErr can kind lastErr tdc))

/-- Intermission or bus idle (R320, R323). -/
def execTransmitSelection (can : CanIx) (s : State) : Answer := .next (commitCan s (s.frameBoundary can))

/-- CAN_OBJ_CMD.REQ (R321). -/
def execCanObjReq (port : Port) (can : CanIx) (obj : Fin 128) (s : State) : Answer :=
  s.gate port (canObjKey can obj 0x18) (s.isMaster port && !s.engineOwned can obj) fun s => commitCan s (s.objReq can obj)

/-- CAN_OBJ_CMD.ABORT (R321). -/
def execCanObjAbort (port : Port) (can : CanIx) (obj : Fin 128) (s : State) : Answer :=
  s.gate port (canObjKey can obj 0x18) (s.isMaster port && !s.engineOwned can obj) fun s => commitCan s (s.objAbort can obj)

/-- CAN_OBJ_CMD.CLEAR (R319). -/
def execCanObjClear (port : Port) (can : CanIx) (obj : Fin 128) (s : State) : Answer :=
  s.gate port (canObjKey can obj 0x18) (s.isMaster port && !s.engineOwned can obj) fun s => commitCan s (s.objClear can obj)

/-- A read of CAN_OBJ_STATUS (R319). -/
def execCanObjStatusRead (port : Port) (can : CanIx) (obj : Fin 128) (s : State) : Answer :=
  s.readGate port (canObjKey can obj 0x14) fun s => commitCan s
    ((if (s.canObj can obj).new then s.modCanObj can obj fun o => { o with locked := true } else s).emit
      (.readData port (natLe 4 (s.objStatus can obj)) false))

/-- A read of an object's last word (R319). -/
def execLastWordRead (port : Port) (can : CanIx) (obj : Fin 128) (s : State) : Answer :=
  s.readGate port (s.lastWord can obj) fun s => commitCan s
    ((if (s.canObj can obj).locked then s.unlock can obj else s).emit
      (.readData port (natLe 4 (s.rv (s.lastWord can obj))) false))

/-- LOCK_TMO has passed (R319). -/
def execLockTimeout (can : CanIx) (obj : Fin 128) (s : State) : Answer :=
  .next (commitCan s (if (s.canObj can obj).locked then (s.unlock can obj).canEvent can 6 else s))

/-- INIT written as 1 (R323). -/
def execCanInitSet (port : Port) (can : CanIx) (busy : Bool) (s : State) : Answer :=
  s.gate port (canKey can 0) (s.isMaster port) fun s => commitCan s (s.initSet can busy)

/-- INIT written as 0 (R323). -/
def execCanInitClear (port : Port) (can : CanIx) (s : State) : Answer :=
  s.gate port (canKey can 0) (s.isMaster port) fun s => commitCan s (s.initClear can)

/-- 11 consecutive recessive bits after INIT 0 or a protocol exception (R312, R323). -/
def execBusIntegrationDone (can : CanIx) (s : State) : Answer := .next (commitCan s (s.integrated can))

/-- 128 occurrences of 11 recessive bits in bus-off (R322). -/
def execBusOffRecovery (can : CanIx) (s : State) : Answer := .next (commitCan s (s.recovered can))

/-- The transceiver releases the bus (R316). -/
def execTransmitDominantTimeout (can : CanIx) (s : State) : Answer := .next (commitCan s (s.emit (.dominantOff can)))



/-- A reference message falls due (R325). -/
def execReferenceMessage (can : CanIx) (s : State) : Answer := .next (commitCan s (s.refInstant can))

/-- A protocol exception (R312). -/
def execProtocolException (can : CanIx) (s : State) : Answer := .next (commitCan s (s.pexTaken can))

end Sys2Proof.Machine
end

