-- ==== Sys2Proof/Machine/Ingest.lean ====
section
/-!
DEFINITION. Camera ports and the point-cloud scatter engines (R249 to R254, R263 to R265).
-/
namespace Sys2Proof.Machine

/-! ### Camera ports (R251 to R254) -/

/-- The owner partition of a camera port (R249). -/
def State.camOwner (s : State) (n : Nat) : Option Nat :=
  ((s.pipeOf n).bind fun p => s.streamOf 2 p).bind fun st => s.ringOf st

/-- A camera port's state. -/
def State.cam (s : State) (n : Nat) : CamSt := s.ing.cams.getD n ⟨0, false, 0, 0, 0, false, none⟩

/-- A camera port changed. -/
def State.modCam (s : State) (n : Nat) (f : CamSt → CamSt) : State :=
  { s with ing := { s.ing with cams := lmod s.ing.cams n f } }

/-- ING_PORT_CFG.EN, the domain of the camera ports is on (R25), and the link is up. -/
def State.camOn (s : State) (n : Nat) : Bool := tbit (s.rv (camKey n 0)) 31 && s.domOn 6 && (s.cam n).gear != 0
/-- The accepted virtual channel. -/
def State.camVc (s : State) (n : Nat) : Nat := field (s.rv (camKey n 0)) 12 4
/-- The accepted data type. -/
def State.camDt (s : State) (n : Nat) : Nat := field (s.rv (camKey n 0)) 0 6
/-- HEIGHT. -/
def State.camH (s : State) (n : Nat) : Nat := field (s.rv (camKey n 4)) 16 14
/-- WIDTH. -/
def State.camW (s : State) (n : Nat) : Nat := field (s.rv (camKey n 4)) 0 14

/-- An event of a camera port: 0 FRAME, 1 CORRUPT, 2 LINK (R280). -/
def State.camEvent (s : State) (n bit : Nat) : State := s.raise (camKey n 0x10) (2 ^ bit)

/-- ORPHAN (R252, R254). -/
def State.orphan (s : State) (n : Nat) : State := s.bump (camKey n 0x30) 1
/-- OTHER (R252). -/
def State.other (s : State) (n : Nat) : State := s.bump (camKey n 0x38) 1

/-- The front half of a pipe as its registers set it (R255, R280). -/
def State.pipeParam (s : State) (n : Nat) : PipeParam :=
  let v := fun o k => (List.range k).map fun i => s.rv (pipeKey n (o + 4 * i))
  ⟨field (s.rv (pipeKey n 0)) 0 3, v 4 4, v 0x14 3, v 0x800 1025⟩

/-- A pipe's configuration fault for the camera port that feeds it (R255, R256). Log entry 48. -/
def State.pipeFault (s : State) (n : Nat) : Bool :=
  let cam := ((List.range 16).find? fun c => s.pipeOf c == some n).getD n
  let t := s.tsAt (pipeKey n 0x100)
  !(t.outOk && t.cropOk (s.camW cam) (s.camH cam) && (s.pipeParam n).ok (s.camDt cam) (s.camW cam) (s.camH cam))

/-- The frame keeps the first status raised (R254). -/
def State.markFrame (s : State) (n status : Nat) : State :=
  s.modCam n fun c => { c with frameStatus := if c.frameStatus = 0 then status else c.frameStatus }

/-- The slot bytes of a complete frame and its saturations (R255, R256). -/
def State.frameBytes (s : State) (n pipe : Nat) (lines : List (List Nat)) : List Byte × Nat :=
  let t := s.tsAt (pipeKey pipe 0x100)
  t.tensor ((s.pipeParam pipe).frame (s.camDt n) (s.camW n) (s.camH n) lines) none

/-- The frame in progress closes with a status (R254): its counters, its events, its sample. Log entry 47. -/
def State.closeFrame (s : State) (n status : Nat) : State :=
  let c := s.cam n
  let st := if c.frameStatus = 0 then status else c.frameStatus
  let s1 := (s.modCam n fun c => { c with inFrame := false, last := st }).bump (camKey n 0x20) 1
  let s2 := s1.camEvent n 0
  let s3 := if st = 0 then s2 else (s2.bump (camKey n 0x28) 1).camEvent n 1
  match c.route with
  | some (p, a) =>
    match s.sending a with
    | some x =>
      match x.data with
      | .lines l =>
        if st = 0 ∧ x.status = 0 then
          let (b, sat) := s.frameBytes n p l
          (s3.closeSample a 0 (.rows b (s.tsAt (pipeKey p 0x100)).oh)).bump (pipeKey p 0x28) sat
        else s3.closeSample a st (.rows [] 0)
      | .rows _ _ => s3.closeSample a st (.rows [] 0)
    | none => s3
  | none => s3

/-- The faults of a pipe, and those of the rings, as the registers now give them (R255, R256, R270). -/
def State.pipeApply (s : State) (pipe : Option Nat) : State :=
  (match pipe with
    | some p => { s with ing := { s.ing with pipeErr := lmod s.ing.pipeErr p fun _ => s.pipeFault p } }
    | none => s).refreshRings

/-- A Frame Start is the boundary of a camera port and of the pipe that it feeds (R250, R368). Log entry 18. -/
def State.camBoundary (s : State) (n : Nat) : State :=
  let pipe := s.pipeOf n
  s.applyReady 8 (fun c => c.isOf 4 n || (pipe.any fun p => c.isOf 4 (16 + p))) fun t => t.pipeApply pipe

/-- A frame starts at a port (R253, R254). -/
def State.openFrame (s : State) (n frameNo stamp : Nat) : State :=
  let r := (s.pipeOf n).bind fun p => (s.streamOf 2 p).map fun a => (p, a)
  let s1 := s.modCam n fun c => { c with inFrame := true, lines := 0, frameStatus := 0, route := r }
  let ts := (((stamp : Int) + sgn 32 (s.rv (camKey n 8))) % (nsWrap : Int)).toNat
  match r with
  | some (p, a) =>
    s1.startSample a ts (frameNo % 65536) (if s.ing.pipeErr.getD p false then 0x010A else 0) (.lines []) false
  | none => s1

/-- A Frame Start (R252 to R254): a frame in progress ends under the configuration that it began with, the captures of the port
apply, and the packet is judged by the configuration then in force. A Frame Start of another virtual channel while a frame is
in progress is not this port's. Log entries 18, 48. -/
def State.frameStart (s : State) (n vc frameNo stamp : Nat) : State :=
  if !s.camOn n then s
  else if (s.cam n).inFrame && vc != s.camVc n then s.other n
  else
    let s1 := (if (s.cam n).inFrame then s.closeFrame n 0x0101 else s).camBoundary n
    if !s1.camOn n then s1
    else if vc ≠ s1.camVc n then s1.other n
    else s1.openFrame n frameNo stamp

/-- A line goes to the pipe, as it is or as zeros; bytes of a sample that was cut off are counted (R254, R267). Log entry 47. -/
def State.passLine (s : State) (n : Nat) (l : List Nat) : State :=
  match (s.cam n).route with
  | none => s
  | some (_, a) =>
    if (s.sending a).isSome then
      s.modSending a fun x => match x.data with
        | .lines ls => { x with data := .lines (ls ++ [l]) }
        | .rows _ _ => x
    else if (s.ing.streams.getD a ⟨0, 0, false⟩).cut then s.bump (asKey a 0x38) (lineOctets (s.camDt n) l.length)
    else s

/-- A long packet (R252, R254). -/
def State.lineIn (s : State) (n vc dt : Nat) (data : List Nat) (err : LineErr) : State :=
  if !s.camOn n then s
  else if err = .ecc then s.orphan n
  else if vc ≠ s.camVc n ∨ dt ≠ s.camDt n ∨ knownDt dt = false then s.other n
  else
    let c := s.cam n
    if !c.inFrame then s.orphan n
    else if s.camH n ≤ c.lines then s.markFrame n 0x0102
    else
      let want := lineComps dt (s.camW n)
      let bad := err == .crc || data.length != want
      let s1 := s.modCam n fun c => { c with lines := c.lines + 1 }
      let s2 := if bad then s1.markFrame n 0x0103 else s1
      s2.passLine n (if bad then List.replicate want 0 else data)

/-- A Frame End (R254). -/
def State.frameEnd (s : State) (n vc : Nat) : State :=
  if !s.camOn n then s
  else if vc ≠ s.camVc n then s.other n
  else
    let c := s.cam n
    if !c.inFrame then s.orphan n
    else s.closeFrame n (if c.lines < s.camH n then 0x0101 else 0)

/-- A CCI transaction starts (R251, R280). Log entry 48. -/
def State.cciGo (s : State) (n value : Nat) : State :=
  let k := camKey n 0x18
  if tbit (s.rv k) 31 then s
  else
    let v := value % 2 ^ 32 &&& 0xC07FFFFF
    let v' := putField v 29 1 (field (s.rv k) 29 1)
    let s1 := s.setReg k v'
    if tbit v 31 then
      (s1.modCam n fun c => { c with cci := true }).emit
        (.cci n (field v 16 7) (field v 0 16) (tbit v 30) (s.rv (camKey n 0x1C) % 256))
    else s1

/-- A CCI transaction ends (R251): GO clears; NACK where no reply came; a read leaves its byte. -/
def State.cciDone (s : State) (n : Nat) (reply : Option Byte) : State :=
  let k := camKey n 0x18
  if !(s.cam n).cci then s
  else
    let v := putField (putField (s.rv k) 31 1 0) 29 1 (b2n reply.isNone)
    let s1 := (s.modCam n fun c => { c with cci := false }).setReg k v
    match reply with
    | some b => if tbit (s.rv k) 30 then s1.setReg (camKey n 0x1C) b.toNat else s1
    | none => s1

/-! ### Scatter engines (R263 to R265) -/

/-- The alignment stream that a scatter engine feeds. -/
def State.scatStream (s : State) (e : Nat) : Option Nat := s.streamOf 4 e

/-- A scatter engine. -/
def State.scat (s : State) (e : Nat) : ScatSt := s.ing.scats.getD e ⟨none, none, 0⟩

/-- A scatter engine changed. -/
def State.modScat (s : State) (e : Nat) (f : ScatSt → ScatSt) : State :=
  { s with ing := { s.ing with scats := lmod s.ing.scats e f } }

/-- A field's size in bytes by its type (R263): U8, I8, U16, I16, U32, I32, FP32. -/
def scatSize (t : Nat) : Nat := if t < 2 then 1 else if t < 4 then 2 else 4

/-- The value of a field as FP32 (R263). -/
def scatValue (t : Nat) (bigEndian : Bool) (b : List Byte) (o : Nat) : Nat :=
  let n := scatSize t
  let v := if bigEndian then beAt b o n else leAt b o n
  match t with
  | 0 | 2 | 4 => fofInt v
  | 1 | 3 | 5 => fofInt (sgn (8 * n) v)
  | _ => v

/-- A point's eight channels (R263), packed to the engine's format. -/
def State.scatPoint (s : State) (e : Nat) (b : List Byte) (o : Nat) : List Nat :=
  let fmt := s.scatFmt e
  let exp := field (s.rv (scatKey e 0)) 0 8
  (List.range 8).map fun f =>
    let w := s.rv (scatKey e (0x40 + 4 * f))
    if tbit w 31 then
      let v := scatValue (field w 16 3) (tbit w 30) b (o + field w 0 16)
      let t := fadd (fmul v (s.rv (scatKey e (0x60 + 4 * f)))) (s.rv (scatKey e (0x80 + 4 * f)))
      (packF32 fmt exp t).1
    else 0

/-- What a datagram gives (R263, R265): its SWEEP field and its points; none where it is malformed. Log entry 51. -/
def State.scatCount (s : State) (e : Nat) (b : List Byte) : Option Nat :=
  let hdr := s.rv (scatKey e 0x14) / 2 ^ 16
  let stride := s.rv (scatKey e 0x14) % 2 ^ 16
  let c := s.rv (scatKey e 0x18)
  let o := field c 16 15
  let n := if tbit c 31 then leAt b o 2 else c % 2 ^ 16
  let sweepOfs := s.rv (scatKey e 0x1C) / 2 ^ 16
  let fieldsOk := (List.range 8).all fun f =>
    let w := s.rv (scatKey e (0x40 + 4 * f))
    !tbit w 31 || (field w 16 3 != 7 && decide (field w 0 16 + scatSize (field w 16 3) ≤ stride))
  if (tbit c 31 && decide (b.length < o + 2)) || decide (b.length < sweepOfs + 2) || decide (b.length < hdr + n * stride) ||
      !fieldsOk || (fmtOf (s.scatFmt e)).isNone then none else some n

/-- The sweep in progress closes with a status (R264, R265): rows after the last point are zeros. -/
def State.closeSweep (s : State) (e status : Nat) : State :=
  let s1 := s.modScat e fun x => { x with sweep := none }
  match s.scatStream e with
  | none => s1
  | some a => match s.sending a with
    | some x => match x.data with
      | .rows b n =>
        let size := s.maxPoints e * pitchOf (fmtD (s.scatFmt e)).width 8
        s1.closeSample a status (.rows (padTo size b) n)
      | .lines _ => s1
    | none => s1

/-- Points of a datagram added to the sweep in progress; beyond MAX_POINTS they are dropped, and the sweep is complete with
0x0012 (R264). Log entry 51. -/
def State.addPoints (s : State) (e n : Nat) (b : List Byte) : State :=
  match (s.scat e).sweep, s.scatStream e with
  | some (sw, had), some a =>
    let room := s.maxPoints e - had
    let m := min n room
    let hdr := s.rv (scatKey e 0x14) / 2 ^ 16
    let stride := s.rv (scatKey e 0x14) % 2 ^ 16
    let w := (fmtD (s.scatFmt e)).width
    let rows := (List.range m).flatMap fun i => packRows w [s.scatPoint e b (hdr + i * stride)]
    let s1 := s.modScat e fun x => { x with sweep := some (sw, had + m) }
    let s2 := (s1.bump (scatKey e 0xA8) m).bump (scatKey e 0xB0) (n - m)
    let s3 := if (s.sending a).isSome then
        s2.modSending a fun x => match x.data with
          | .rows r k => { x with data := .rows (r ++ rows) (k + m) }
          | .lines _ => x
      else if (s.ing.streams.getD a ⟨0, 0, false⟩).cut then s2.bump (asKey a 0x38) (n * stride)
      else s2
    if 0 < room ∧ m = room then
      ((s3.closeSweep e 0x0012).modScat e fun x => { x with sweep := some (sw, had + m), reason := 0x0012 })
    else s3
  | _, _ => s

/-- A scatter engine applies its captures as a sweep starts (R250, R368). Log entry 18. -/
def State.scatBoundary (s : State) (e : Nat) : State := s.applyReady 8 (fun c => c.isOf 6 e) State.refreshRings

/-- The scatter engine runs: it has a route, its domain is on (R25), EN is in force. -/
def State.scatOn (s : State) (e : Nat) : Bool := (s.scatStream e).isSome && s.domOn 8 && tbit (s.rv (scatKey e 0)) 31

/-- The SWEEP field of a datagram (R264). -/
def State.sweepOf (s : State) (e : Nat) (b : List Byte) : Nat := leAt b (s.rv (scatKey e 0x1C) / 2 ^ 16) 2

/-- A malformed datagram resets the engine (R265). -/
def State.scatReset (s : State) (e sw : Nat) : State :=
  ((s.closeSweep e 0x010A).bump (scatKey e 0xB0) 1).modScat e fun x => { x with resync := some sw, reason := 0x010A }

/-- A sweep starts with its first datagram (R264), by the configuration then in force (R250). Log entries 18, 51. -/
def State.startSweep (s : State) (e : Nat) (b : List Byte) (stamp : Nat) : State :=
  let t := s.scatBoundary e
  let sw := t.sweepOf e b
  match t.scatStream e, t.scatCount e b with
  | some a, some n =>
    if t.scatOn e then
      ((t.modScat e fun x => { x with sweep := some (sw, 0) }).startSample a stamp 0 0 (.rows [] 0) false).addPoints e n b
    else t
  | _, none => if t.scatOn e then t.scatReset e sw else t
  | none, _ => t

/-- A matching datagram (R263 to R265). Log entry 51. -/
def State.datagram (s : State) (e : Nat) (b : List Byte) (stamp : Nat) : State :=
  if !s.scatOn e then s
  else
    let sw := s.sweepOf e b
    if (s.scat e).resync = some sw then s.bump (scatKey e 0xB0) 1
    else
      let s1 := s.modScat e fun x => { x with resync := none }
      match (s1.scat e).sweep, s1.scatCount e b with
      | none, _ => s1.startSweep e b stamp
      | some _, none => s1.scatReset e sw
      | some (f, _), some n => if f = sw then s1.addPoints e n b else (s1.closeSweep e 0).startSweep e b stamp

/-- No matching datagram for SWEEP_TMO (R264). -/
def State.sweepTimeout (s : State) (e : Nat) : State :=
  if (s.scat e).sweep.isSome then s.closeSweep e 0 else s

/-! ### Commands -/

/-- A Frame Start arrives (R254). -/
def execFrameStart (cam : Fin 16) (vc frameNo : Nat) (off : Fin 4) (s : State) : Answer :=
  .next (commitIng s (s.frameStart cam vc frameNo (s.stampNear 4 off)))

/-- A long packet arrives (R254). -/
def execLine (cam : Fin 16) (vc dt : Nat) (data : List Nat) (err : LineErr) (s : State) : Answer :=
  .next (commitIng s (s.lineIn cam vc dt data err))

/-- A Frame End arrives (R254). -/
def execFrameEnd (cam : Fin 16) (vc : Nat) (s : State) : Answer := .next (commitIng s (s.frameEnd cam vc))

/-- No packet for LINE_TMO (R254). -/
def execLineTmoExpiry (cam : Fin 16) (s : State) : Answer :=
  .next (commitIng s (if (s.cam cam).inFrame then s.closeFrame cam 0x0101 else s))

/-- The port FIFO overflows (R254). -/
def execPortFifoOverflow (cam : Fin 16) (s : State) : Answer :=
  .next (commitIng s (if (s.cam cam).inFrame then s.markFrame cam 0x0104 else s))

/-- The link is lost (R254): a frame in progress closes with 0x0112. -/
def execCameraLinkLost (cam : Fin 16) (s : State) : Answer :=
  .next (commitIng s
    (if (s.cam cam).gear = 0 then s
    else
      let s1 := if (s.cam cam).inFrame then s.closeFrame cam 0x0112 else s
      (s1.modCam cam fun c => { c with gear := 0 }).camEvent cam 2))

/-- The link locks at its negotiated gear, G1 to G5 (R251). -/
def execCameraLinkLock (cam : Fin 16) (gear : Fin 5) (s : State) : Answer :=
  .next (commitIng s ((s.modCam cam fun c => { c with gear := gear.val + 1 }).camEvent cam 2))

/-- A write to ING_PORT_CCI (R250, R251). -/
def execCciGo (port : Port) (cam : Fin 16) (value : Word) (s : State) : Answer :=
  s.gate port (camKey cam 0x18) ((s.camOwner cam).any fun p => s.bound p port) fun s =>
    commitIng s (s.cciGo cam value.toNat)

/-- A CCI transaction ends (R251). -/
def execCciDone (cam : Fin 16) (reply : Option Byte) (s : State) : Answer := .next (commitIng s (s.cciDone cam reply))

/-- A matching lidar datagram arrives (R263). -/
def execUdpDatagram (scat : Fin 4) (payload : List Byte) (off : Fin 11) (s : State) : Answer :=
  .next (commitIng s (s.datagram scat payload (s.stampNear 20 off)))

/-- SWEEP_TMO expires (R264). -/
def execSweepTmoExpiry (scat : Fin 4) (s : State) : Answer := .next (commitIng s (s.sweepTimeout scat))

end Sys2Proof.Machine
end

