-- ==== Sys2Proof/Machine/Time.lean ====
section
/-!
DEFINITION. The time base, its state machine, the servo, PTP and the pulse generators (R332 to R347), and the tick that
an idle block takes (log entry 8).
-/
namespace Sys2Proof.Machine

/-- The nominal addend (R333). -/
def addendNominal : Nat := 0x40000000
/-- The least addend in force (R333). -/
def addendLow : Nat := 1073204954
/-- The greatest addend in force (R333). -/
def addendHigh : Nat := 1074278694
/-- The counter wraps here, in units of 2^-28 ns. -/
def tbWrap : Nat := nsWrap * 2 ^ 28

/-- The addend clamped to its bounds (R333). -/
def clampAddend (a : Int) : Nat :=
  if a < (addendLow : Int) then addendLow else if (addendHigh : Int) < a then addendHigh else a.toNat

/-- The extra term of a slew on one tick (R336): at most 214,748 units, within the bounds of the addend. -/
def slewTerm (addend : Nat) (left : Int) : Int :=
  if 0 ≤ left then min (min left 214748) ((addendHigh : Int) - addend)
  else -(min (min (-left) 214748) ((addend : Int) - addendLow))

/-- The counter moved by a signed amount, in units of 2^-28 ns. -/
def tbAdd (tb : Nat) (d : Int) : Nat := (((tb : Int) + d) % (tbWrap : Int)).toNat

/-- The counter advances by one tick's amount, which took `ns` of elapsed time. -/
def TimeSt.advance (t : TimeSt) (d : Int) (ns : Nat) : TimeSt :=
  { t with tb := tbAdd t.tb d, last := d.toNat, elapsed := t.elapsed + ns }

/-- One tick of the time clock, or of the crystal in coarse mode (R333, R334, R336). Log entry 8. -/
def TimeSt.tick (t : TimeSt) (addend : Nat) : TimeSt :=
  if t.coarse then t.advance 8192000000000 30517
  else
    let u := { t with safeClk := t.safeClk + 4 }
    match t.slew with
    | none => u.advance addend 4
    | some left =>
      let x := slewTerm addend left
      { u with slew := some (left - x) }.advance ((addend : Int) + x) 4

/-- The keys of TIME registers. -/
def timeKey (o : Nat) : Nat := 0x500000 + o
/-- The key of a PTP port's register. -/
def ptpKey (q o : Nat) : Nat := 0x510000 + 0x100 * q + o
/-- TIME_ADDEND (R351). -/
def State.addend (s : State) : Nat := s.rv (timeKey 0x20)
/-- SERVO_EN in force. -/
def State.servoOn (s : State) : Bool := tbit (s.rv (timeKey 0x28)) 31
/-- THR in ns (R335). -/
def State.jumpThr (s : State) : Nat := s.rv (timeKey 0x24)

/-- An event bit of TIME_EVENT (R351). -/
def State.timeEvent (s : State) (bit : Nat) : State := s.raise (timeKey 0x30) (2 ^ bit)

/-- The addend set to a value, clamped, with CLAMP (R333). -/
def State.setAddend (s : State) (a : Int) : State :=
  let c := clampAddend a
  let s1 := s.setReg (timeKey 0x20) c
  if (c : Int) = a then s1 else s1.timeEvent 5

/-- A start value of a pulse generator in ns (R345). -/
def State.pgStart (s : State) (g : Nat) : Nat :=
  s.rv (pgKey g 4) + 1000000000 * (s.rv (pgKey g 8) + 2 ^ 32 * (s.rv (pgKey g 12) % 2 ^ 16))

/-- The fields of a generator lie in their ranges (R351). -/
def State.pgValid (s : State) (g : Nat) : Bool :=
  let period := s.rv (pgKey g 0x10)
  let width := s.rv (pgKey g 0x14)
  (period == 0 || (decide (1000 ≤ period) && decide (period ≤ 4000000000))) &&
  decide (8 ≤ width) && decide (width ≤ 1000000000) && (period == 0 || decide (width < period))

/-- The number of edges whose time lies before an instant (`strict`) or at or before it, of an unlimited train. Log entry 67. -/
def edgesBefore (start period now : Nat) (orAt : Bool) : Nat :=
  let d := tdiff now start
  let passed := if orAt then decide (0 ≤ d) else decide (0 < d)
  if !passed then 0
  else if period = 0 then 1
  else if orAt then d.toNat / period + 1 else (d.toNat + period - 1) / period

/-- Edges up to index `n` count as missed where the generator had not yet reached them (R345). -/
def State.pgSkip (s : State) (g n : Nat) : State :=
  match s.time.pulse[g]? with
  | none => s
  | some p =>
    let count := s.rv (pgKey g 0x18)
    let single := s.rv (pgKey g 0x10) == 0
    let lim := if single then min n 1 else if count = 0 then n else min n count
    if lim ≤ p.nextEdge then s
    else
      let s1 := { s with time := { s.time with pulse := s.time.pulse.set g { p with nextEdge := lim } } }
      (s1.bump (pgKey g 0x28) (lim - p.nextEdge)).timeEvent 7

/-- The armed generators after a step of the counter: edges that a forward step carries past are missed (R345). Log entry 67. -/
def State.pgAfterStep (s : State) : State :=
  (List.range 8).foldl (fun s g =>
    match s.time.pulse[g]? with
    | some p => if p.armed then s.pgSkip g (edgesBefore (s.pgStart g) (s.rv (pgKey g 0x10)) s.now false) else s
    | none => s) s

/-- The edges whose time has passed with the last tick without being emitted are missed (R345): the generator is in the middle of a
pulse, PD4 is not ON, or the time base is coarse. Log entry 67. -/
def State.pgPassed (s : State) : State :=
  (List.range 8).foldl (fun s g =>
    match s.time.pulse[g]? with
    | some p =>
      if p.armed then s.pgSkip g (edgesBefore (s.pgStart g) (s.rv (pgKey g 0x10)) ((s.now + nsWrap - 4) % nsWrap) false) else s
    | none => s) s

/-- A step of the counter by a signed amount in units of 2^-28 ns (R335, R337). Log entry 10. -/
def State.stepTime (s : State) (d : Int) : State :=
  let s1 := { s with time := { s.time with tb := tbAdd s.time.tb d, last := 0 } }
  let s2 := (s1.setRegs (timeKey 0x40) (tsWords s1.now)).bump (timeKey 0x68) 1
  s2.pgAfterStep

/-- JUMP, with its counter (log entry 10). -/
def State.jump (s : State) : State := (s.bump (timeKey 0x60) 1).timeEvent 2

/-- HOLDOVER entered: the addend frozen at the measured rate (R340). Log entry 66. -/
def State.enterHoldover (s : State) : State :=
  let v := s.time.servo
  let s1 := { s with time := { s.time with mode := .holdover, servo := { v with c := -v.y, discards := 0 } } }
  if v.fresh then { s with time := { s.time with mode := .holdover } }
  else s1.setAddend (((addendNominal : Rat) * (1 - v.y) + 1 / 2).floor)

/-- A discarded measurement in TRACKING counts; the eighth moves to HOLDOVER (R335). Log entry 10. -/
def State.discardMeasure (s : State) : State :=
  let s1 := s.jump
  if s1.time.mode = .tracking then
    let n := s1.time.servo.discards + 1
    let s2 := { s1 with time := { s1.time with servo := { s1.time.servo with discards := n } } }
    if 8 ≤ n then s2.enterHoldover else s2
  else s1

/-- The signed value of a register of ns, saturated to 32 bits from 2^-16 ns (R351). Log entry 67. -/
def satNs (th : Int) : Nat :=
  let v := if 0 ≤ th then th / 65536 else -((-th) / 65536)
  unsgn 32 (max (-2147483648) (min v 2147483647))

/-- The servo update of R340 on a measurement within THR: the new numbers and the addend. Log entry 66. -/
def Servo.update (v : Servo) (theta master : Int) (t : Rat) (tc : Rat) : Servo × Rat :=
  let e := ((theta - v.p : Int) : Rat) / t - v.c
  let y := if v.first then e else v.y + (e - v.y) / 8
  let c := -(y + ((theta : Rat) / 65536) / tc)
  ({ v with first := false, y := y, c := c, p := theta, master := some master, discards := 0 },
    (addendNominal : Rat) * (1 + c))

/-- IN_SYNC: TRACKING and the last offset within 100 ns (R351). -/
def State.markSync (s : State) (theta : Int) : State :=
  { s with time := { s.time with inSync := s.time.mode == .tracking && decide (theta.natAbs ≤ 100 * 65536) } }

/-- The signed difference of two time values in units of 2^-16 ns (R338). -/
def ptpDiff (a b : Int) : Int :=
  let m : Int := (nsWrap * 65536 : Nat)
  let r := (a - b) % m
  if r < m / 2 then r else r - m

/-- A measurement on the slave port (R335, R340): `theta` and the master time in units of 2^-16 ns. -/
def State.measure (s : State) (theta master : Int) : State :=
  let s0 := s.setReg (timeKey 0x2C) (satNs theta)
  if !s0.servoOn then s0.markSync theta
  else
    let within := decide (theta.natAbs ≤ s0.jumpThr * 65536)
    let s1 := match s0.time.mode with
      | .free =>
        let sv : Servo := ⟨false, true, 0, 0, 0, some master, 0⟩
        let a := s0.stepTime (-(theta * 4096))
        let b := { a with time := { a.time with mode := .tracking, servo := sv } }
        (b.setReg (timeKey 0x20) addendNominal).timeEvent 0
      | _ =>
        if !within then s0.discardMeasure
        else if s0.time.servo.fresh then
          let c := (s0.addend : Rat) / (addendNominal : Rat) - 1
          { s0 with time := { s0.time with mode := .tracking, servo := ⟨false, true, 0, c, theta, some master, 0⟩ } }
        else
          match s0.time.servo.master with
          | none => s0
          | some m0 =>
            let t := ptpDiff master m0
            if t ≤ 0 then s0.discardMeasure
            else
              let tc := (field (s0.rv (timeKey 0x28)) 0 16 * 1000000 : Nat)
              let (sv, a) := s0.time.servo.update theta master (t : Rat) tc
              let s2 := { s0 with time := { s0.time with mode := .tracking, servo := sv } }
              s2.setAddend ((a + 1 / 2).floor)
    s1.markSync theta

/-! ### PTP -/

/-- TIME_CLOCK_ID in force, byte 0 first (R351). -/
def State.clockId (s : State) : Nat := s.rv (timeKey 0x50) * 2 ^ 32 + s.rv (timeKey 0x54)

/-- The role and the profile of a port exist (R339, R351). -/
def State.ptpCfgOk (s : State) (q : Nat) : Bool :=
  field (s.rv (ptpKey q 0)) 24 2 != 3 && decide (field (s.rv (ptpKey q 0)) 16 3 ≤ 4)

/-- PTP runs on the port (R339, R351): enabled, a role and a profile that exist; a port enabled without a clock identity stays
off. -/
def State.ptpOn (s : State) (q : Nat) : Bool :=
  tbit (s.rv (ptpKey q 0)) 31 && s.ptpCfgOk q && !(s.time.ptp.getD q .reset).blocked

/-- Frames of a port come and go: PD4 is on, the Ethernet or T1S port is enabled and its link is up (R25, R331, R352). -/
def State.lineUp (s : State) (q : Nat) : Bool :=
  s.domOn 4 &&
  (if q < 4 then tbit (s.rv (0xE00000 + 0x10000 * q)) 31 && (s.eth[q]?.any fun e => e.link)
  else tbit (s.rv (0xE80000 + 0x10000 * (q - 4))) 31)

/-- PTP messages of a port come and go. -/
def State.ptpUp (s : State) (q : Nat) : Bool := s.ptpOn q && s.lineUp q

/-- ROLE of a port: 0 MASTER, 1 SLAVE, 2 MONITOR. -/
def State.ptpRole (s : State) (q : Nat) : Nat := field (s.rv (ptpKey q 0)) 24 2
/-- The profile uses peer delay (R339). -/
def State.ptpPeer (s : State) (q : Nat) : Bool := let p := field (s.rv (ptpKey q 0)) 16 3; p == 0 || p == 2
/-- DOMAIN of a port. -/
def State.ptpDomain (s : State) (q : Nat) : Nat := field (s.rv (ptpKey q 0)) 0 8
/-- The ingress correction in ns (R342). -/
def State.ingressAdj (s : State) (q : Nat) : Int := sgn 16 (s.rv (ptpKey q 8))
/-- The egress correction in ns (R342). -/
def State.egressAdj (s : State) (q : Nat) : Int := sgn 16 (s.rv (ptpKey q 8) / 2 ^ 16)

/-- A port's PTP state changed. -/
def State.modPtp (s : State) (q : Nat) (f : PtpSt → PtpSt) : State :=
  { s with time := { s.time with ptp := lmod s.time.ptp q f } }

/-- An unusable Sync or a message of the port discarded (log entry 10). -/
def State.ptpDiscard (s : State) (q : Nat) : State := s.bump (ptpKey q 0x30) 1

/-- The time of the master that a Sync gives (R340), in 2^-16 ns. -/
def syncMaster (origin : Stamp) (corr : Int) : Int := (origin.ns * 65536 + origin.frac : Nat) + corr

/-- A stamp in 2^-16 ns. -/
def fineNs (t : Stamp) : Nat := t.ns * 65536 + t.frac

/-- The offset of a Sync (R340) in 2^-16 ns, as a signed difference of time values (R338). -/
def State.syncTheta (s : State) (q ingress : Nat) (master delay : Int) : Int :=
  ptpDiff ((ingress : Int) + s.ingressAdj q * 65536) (master + delay)

/-- The offset of a usable Sync drives the servo, or the monitor's report (R340, R341). `ingress` in 2^-16 ns. -/
def State.syncOffset (s : State) (q : Nat) (ingress : Nat) (origin : Stamp) (corr : Int) : State :=
  match s.time.ptp[q]? with
  | none => s
  | some p =>
    let master := syncMaster origin corr
    let s := s.modPtp q fun p => { p with lag := some (s.syncTheta q ingress master 0) }
    match p.delay with
    | none => s.ptpDiscard q
    | some delay =>
      let theta := s.syncTheta q ingress master delay
      if s.ptpRole q = 1 then
        if field (s.rv (timeKey 0x28)) 16 3 = q then s.measure theta master else s.ptpDiscard q
      else if s.ptpRole q = 2 then
        let s1 := s.setReg (timeKey 0x38) (satNs theta)
        if s.rv (timeKey 0x3C) * 65536 < theta.natAbs then s1.timeEvent 6 else s1
      else s.ptpDiscard q

/-- The accuracy of a port's stamps against its connector, in ns (R342): by the speed of its link. -/
def State.stampAcc (s : State) (q : Nat) : Nat :=
  if q < 4 then
    match (s.eth.getD q ⟨false, false, 0, []⟩).speed with
    | 3 => 8
    | 4 => 20
    | _ => 4
  else 40

/-- A stamp of what crosses the port's connector now: within the port's accuracy of the present instant, at most `late` ns behind it
(R342). Log entry 6. -/
def State.stampOf (s : State) (q late : Nat) (x : Stamp) : Stamp :=
  let a : Int := s.stampAcc q
  let d := tdiff x.ns s.now
  if d < -a then ⟨(((s.now : Int) - a) % (nsWrap : Int)).toNat, 0⟩
  else if a + late < d then ⟨(((s.now : Int) + a + late) % (nsWrap : Int)).toNat, 0⟩
  else x

/-- A Sync received (R339 to R342). TIME_PTP_SRC takes the upper half of the clockIdentity at its lower address, as TIME_CLOCK_ID
has it. Log entry 66. -/
def State.syncIn (s : State) (q : Nat) (ingress : Stamp) (domain src : Nat) (origin : Stamp) (corr : Int)
    (twoStep : Bool) : State :=
  if !s.ptpUp q then s
  else
    let s1 := ((s.bump (ptpKey q 0x20) 1).setReg (ptpKey q 0x10) (src / 2 ^ 32)).setReg (ptpKey q 0x14) (src % 2 ^ 32)
    let ing := fineNs (s.stampOf q 0 ingress)
    if domain ≠ s1.ptpDomain q then s1.ptpDiscard q
    else
      if twoStep then s1.modPtp q fun p => { p with wait := some ⟨ing, corr⟩ }
      else s1.syncOffset q ing origin corr

/-- A Follow_Up received (R340): in time, it completes the Sync that waits. -/
def State.followIn (s : State) (q : Nat) (origin : Stamp) (corr : Int) (inTime : Bool) : State :=
  if !s.ptpUp q then s
  else match s.time.ptp[q]? with
    | none => s
    | some p => match p.wait with
      | none => s.ptpDiscard q
      | some w =>
        let s1 := s.modPtp q fun p => { p with wait := none }
        if inTime then s1.syncOffset q w.ingress origin (w.corr + corr) else s1.ptpDiscard q

/-- The mean link delay of an exchange in 2^-16 ns (R340): by peer delay from the four stamps of the exchange, else from the lag
of the last Sync and the master's stamp of the request. `req` is the egress of the request. Log entry 66. -/
def State.meanDelay (s : State) (q : Nat) (p : PtpSt) (req : Nat) (r : DelayReply) : Option Int :=
  if s.ptpPeer q then
    some ((ptpDiff (((fineNs (s.stampOf q 0 r.ingress)) : Int) + s.ingressAdj q * 65536) req - ptpDiff (fineNs r.tx) (fineNs r.rx) -
      r.corr) / 2)
  else p.lag.map fun lag => (lag + ptpDiff (((fineNs r.rx) : Int) - r.corr) req) / 2

/-- A delay exchange ends (R340): its mean link delay is taken, or it has failed; the delay stays valid for three delay
intervals. Log entry 66. -/
def State.delayDone (s : State) (q : Nat) (reply : Option DelayReply) : State :=
  if !s.ptpUp q then s
  else match s.time.ptp[q]? with
    | none => s
    | some p =>
      if reply.isSome && p.request.isNone then s else
      let p' : PtpSt := match reply.bind fun r => p.request.bind fun t => s.meanDelay q p t r with
        | some d => { p with delay := some d, misses := 0, request := none }
        | none => { p with misses := p.misses + 1, delay := if 3 ≤ p.misses + 1 then none else p.delay, request := none }
      let r := match p'.delay with
        | some d => min (d / 65536).toNat 0xFFFFFFFE
        | none => 0xFFFFFFFF
      (s.modPtp q fun _ => p').setReg (ptpKey q 0x0C) r

/-- timeTraceable and frequencyTraceable: only in TRACKING (R339). -/
def State.traceable (s : State) : Bool := s.time.mode == .tracking

/-- A stamp with the port's correction for its direction (R342). -/
def adjusted (t : Stamp) (adj : Int) : Stamp := ⟨(((t.ns : Int) + adj) % (nsWrap : Int)).toNat, t.frac⟩

/-- The stamp of a message as the port sends it: its egress stamp with the port's correction (R342). -/
def State.egressStamp (s : State) (q : Nat) (e : Stamp) : Stamp := adjusted e (s.egressAdj q)

/-- The destination of a port's messages and their UDP port, event or general (R339). -/
def ptpPlace (profile : Nat) (event : Bool) : Option Nat × List Nat :=
  let port := if event then 319 else 320
  match profile with
  | 1 => (none, [0x01, 0x1B, 0x19, 0x00, 0x00, 0x00])
  | 3 => (some port, [224, 0, 1, 129])
  | 4 => (some port, [0xFF, 0x0E, 0, 0, 0, 0, 0, 0, 0, 0, 0, 0, 0, 0, 0x01, 0x81])
  | _ => (none, [0x01, 0x80, 0xC2, 0x00, 0x00, 0x0E])

/-- A message as it stands on the wire (R339). -/
def State.ptpFrame (s : State) (q : Nat) (m : PtpMsg) (stamp : Stamp) (corr : Int) : PtpFrame :=
  let (udp, dest) := ptpPlace (field (s.rv (ptpKey q 0)) 16 3) ([0, 3, 6, 7].contains m.kind)
  ⟨m.kind, m.seq, udp, dest, s.ptpDomain q, s.clockId, stamp, corr, s.traceable⟩

/-- The PTP message that has waited longest leaves a port with its egress stamp (R330, R339, R342, R343, R349), one that
`stampOf` gives: a Sync or a Pdelay_Resp is followed by its second step unless the port is one-step. Log entry 96. -/
def State.ptpLeaves (s : State) (q : Nat) (egress : Stamp) : State :=
  match (s.time.ptp.getD q .reset).queue with
  | [] => s
  | m :: rest =>
    let out := s.egressStamp q egress
    let oneStep := tbit (s.rv (ptpKey q 0)) 30
    let go : State → PtpMsg → Stamp → Int → List PtpMsg → State := fun s m st corr l =>
      (s.modPtp q fun p => { p with queue := l }).emit (.ptp q (s.ptpFrame q m st corr))
    match m.kind with
    | 0 =>
      let s1 := s.bump (ptpKey q 0x28) 1
      if oneStep then go s1 m ⟨out.ns, 0⟩ 0 rest else go s1 m m.stamp 0 (⟨1, m.seq, out, 0⟩ :: rest)
    | 3 =>
      if oneStep then go s m ⟨0, 0⟩ (m.corr + ptpDiff (fineNs out) (fineNs m.stamp)) rest
      else go s m m.stamp 0 (⟨4, m.seq, out, m.corr⟩ :: rest)
    | 6 => go (s.modPtp q fun p => { p with request := some (fineNs out) }) m ⟨0, 0⟩ 0 rest
    | 7 => go (s.modPtp q fun p => { p with request := some (fineNs out) }) m ⟨0, 0⟩ 0 rest
    | _ => go s m m.stamp m.corr rest

/-- A PTP message of a port waits to be sent (R330, R349). -/
def State.ptpQueue (s : State) (q : Nat) (m : PtpMsg) : State := s.modPtp q fun p => { p with queue := p.queue ++ [m] }

/-- A delay request received: the port answers (R339, R343), with the request's correction. Log entry 96. -/
def State.delayReqIn (s : State) (q : Nat) (ingress : Stamp) (domain seq : Nat) (corr : Int) : State :=
  let ing := adjusted (s.stampOf q 0 ingress) (s.ingressAdj q)
  if !(s.ptpUp q && domain == s.ptpDomain q) then s
  else if s.ptpPeer q then s.ptpQueue q ⟨3, seq, ing, corr⟩
  else if s.ptpRole q = 0 then s.ptpQueue q ⟨2, seq, ing, corr⟩
  else s

/-- A MASTER port's Sync falls due (R339); `origin` is the estimate that it carries where a Follow_Up brings the instant.
Log entry 96. -/
def State.syncOut (s : State) (q : Nat) (origin : Stamp) : State :=
  if s.ptpUp q && s.ptpRole q == 0 then
    (s.ptpQueue q ⟨0, (s.time.ptp.getD q .reset).syncSeq, origin, 0⟩).modPtp q fun p => { p with syncSeq := (p.syncSeq + 1) % 65536 }
  else s

/-- A MASTER port's Announce falls due, once per second (R339). -/
def State.announceOut (s : State) (q : Nat) : State :=
  if s.ptpUp q && s.ptpRole q == 0 then
    (s.ptpQueue q ⟨5, (s.time.ptp.getD q .reset).announceSeq, ⟨0, 0⟩, 0⟩).modPtp q fun p =>
      { p with announceSeq := (p.announceSeq + 1) % 65536 }
  else s

/-- A port's delay request falls due (R339): Delay_Req of a SLAVE or MONITOR port, Pdelay_Req of every port of a peer delay
profile. -/
def State.delayReqOut (s : State) (q : Nat) : State :=
  if s.ptpUp q && (s.ptpPeer q || s.ptpRole q != 0) then
    (s.ptpQueue q ⟨if s.ptpPeer q then 7 else 6, (s.time.ptp.getD q .reset).delaySeq, ⟨0, 0⟩, 0⟩).modPtp q fun p =>
      { p with delaySeq := (p.delaySeq + 1) % 65536 }
  else s

/-! ### Commands -/

/-- Δ of TIME_STEP_S and TIME_STEP_NS, in ns (R351). -/
def State.stepDelta (s : State) : Int := sgn 32 (s.rv (timeKey 0x18)) * 1000000000 + (s.rv (timeKey 0x1C) : Int)

/-- The STEP command (R335, R336). -/
def State.doStep (s : State) : State :=
  let d := s.stepDelta
  if s.servoOn || s.time.slew.isSome then s.timeEvent 4
  else match s.time.mode with
    | .free =>
      let a := s.stepTime (d * 2 ^ 28)
      ({ a with time := { a.time with mode := .tracking } }).timeEvent 0
    | _ =>
      if d.natAbs ≤ s.jumpThr then { s with time := { s.time with slew := some (d * 2 ^ 28) } }
      else s.jump

/-- The RELEASE command (R335, R336). -/
def State.doRelease (s : State) : State :=
  if s.drive then s.timeEvent 4
  else { s with time := { s.time with mode := .free, slew := none, inSync := false } }

/-- The time base enters coarse mode, and FREE (R334, R335). -/
def State.enterCoarse (s : State) : State :=
  { s with time := { s.time with coarse := true, mode := .free, inSync := false } }

/-- The next edge of a generator is due: the present instant lies within 4 ns of its time (R338, R345). Log entry 6. -/
def State.edgeDue (s : State) (g n : Nat) : Bool :=
  let d := tdiff s.now ((s.pgStart g + n * s.rv (pgKey g 0x10)) % nsWrap)
  decide (-4 ≤ d) && decide (d ≤ 4)

/-- A leading edge (R345, R346): the pin, and a trigger to each camera port that no lower generator names. -/
def State.pulseLead (s : State) (g : Nat) : State :=
  match s.time.pulse[g]? with
  | none => s
  | some p =>
    let ctl := s.rv (pgKey g 0)
    let count := s.rv (pgKey g 0x18)
    let single := s.rv (pgKey g 0x10) == 0
    let left := if single then decide (p.nextEdge < 1) else count == 0 || decide (p.nextEdge < count)
    if !(s.domOn 4 && p.armed && !p.high && left && s.edgeDue g p.nextEdge) then s
    else
      let p' := { p with nextEdge := p.nextEdge + 1, high := true, since := s.time.elapsed }
      let s1 := { s with time := { s.time with pulse := s.time.pulse.set g p' } }
      let s2 := s1.bump (pgKey g 0x20) 1
      let s3 := if tbit ctl 30 then s2.drivePin g (!tbit ctl 29) else s2
      (bitsOf 16 ctl).foldl (fun s c =>
        let lower := (List.range g).any fun h => tbit (s.rv (pgKey h 0)) 31 && tbit (s.rv (pgKey h 0)) c
        if lower then s else s.emit (.camTrigger c)) s3

/-- The pulse in progress has lasted WIDTH, counted in ticks of the time clock (R345). -/
def State.widthDone (s : State) (g : Nat) (p : PulseSt) : Bool :=
  decide (p.since + s.rv (pgKey g 0x14) ≤ s.time.elapsed)

/-- A trailing edge (R345). -/
def State.pulseTrail (s : State) (g : Nat) : State :=
  match s.time.pulse[g]? with
  | none => s
  | some p =>
    if !(p.high && s.widthDone g p) then s
    else
      let ctl := s.rv (pgKey g 0)
      let s1 := { s with time := { s.time with pulse := s.time.pulse.set g { p with high := false } } }
      if tbit ctl 30 then s1.drivePin g (tbit ctl 29) else s1

/-- A generator takes its configuration up (R345, R347, R351): armed where its fields are valid. A train that is enabled, or
whose START or PERIOD changes, begins with the first edge after this tick; another goes on. Log entry 67. -/
def State.pgArm (s old : State) (g : Nat) : State :=
  match s.time.pulse[g]? with
  | none => s
  | some p =>
    let en := tbit (s.rv (pgKey g 0)) 31
    let put : PulseSt → State := fun p => { s with time := { s.time with pulse := s.time.pulse.set g p } }
    if !en then put { p with armed := false }
    else if !s.pgValid g then (put { p with armed := false }).timeEvent 8
    else if p.armed && s.pgStart g == old.pgStart g && s.rv (pgKey g 0x10) == old.rv (pgKey g 0x10) then s
    else (put { p with armed := true, nextEdge := 0 }).pgSkip g (edgesBefore (s.pgStart g) (s.rv (pgKey g 0x10)) s.now true)

/-! ### Latched configuration (R347, R351) -/

/-- A timing or PTP configuration that comes into force (R351): CFG_ERR where a port is enabled that cannot run; without a
clock identity it stays off until it is enabled again. Log entry 66. -/
def State.ptpCheck (s : State) (q : Nat) : State :=
  if !tbit (s.rv (ptpKey q 0)) 31 then s
  else
    let s1 := if s.clockId = 0 then s.modPtp q fun p => { p with blocked := true } else s
    if s1.ptpOn q then s1 else s1.timeEvent 8

/-- The block's own fields apply at a tick (R351): a servo that starts on a time base not FREE starts afresh (R340). -/
def State.timeApply (s : State) : State :=
  s.applyReady 5 (fun c => c.isOf 11 0) fun t =>
    let t1 := if t.servoOn && !s.servoOn && t.time.mode != .free then
        { t with time := { t.time with servo := { t.time.servo with fresh := true } } } else t
    if t.clockId = s.clockId then t1 else (List.range 8).foldl State.ptpCheck t1

/-- A port's fields apply (R351), those of the block before them; a port that is enabled starts anew. -/
def State.ptpApply (s : State) (q : Nat) : State :=
  let s0 := s.timeApply
  s0.applyReady 5 (fun c => c.isOf 11 (1 + q)) fun t =>
    (if tbit (t.rv (ptpKey q 0)) 31 && !tbit (s.rv (ptpKey q 0)) 31 then
      (t.modPtp q fun _ => .reset).setReg (ptpKey q 0xC) 0xFFFFFFFF else t).ptpCheck q

/-- A generator's fields apply, after the pulse in progress (R347); its pin rests as POL then says (R477). -/
def State.pgApply (s : State) (g : Nat) : State :=
  if (s.time.pulse[g]?).any fun p => p.high then s
  else s.applyReady 5 (fun c => c.isOf 11 (9 + g)) fun t => (t.pgArm s g).restPins

/-- The components that TIME commands may change. -/
def commitTime (s t : State) : State :=
  { s with time := t.time, out := t.out, pwr := t.pwr, safe := t.safe.carry s.safe,
           regs := { s.regs with time := t.regs.time, pci := t.regs.pci, safe := t.regs.safe } }

/-- TIME_CMD STEP (R335). -/
def execStep (port : Port) (s : State) : Answer :=
  s.gate port 0x500014 (s.isMaster port) fun s => commitTime s s.doStep

/-- TIME_CMD RELEASE (R335). -/
def execRelease (port : Port) (s : State) : Answer :=
  s.gate port 0x500014 (s.isMaster port) fun s => commitTime s s.doRelease

/-- A Sync arrives (R340). -/
def execSync (q : PtpIx) (ingress : Stamp) (domain src : Nat) (origin : Stamp) (corr : Int) (twoStep : Bool)
    (s : State) : Answer := .next (commitTime s (s.syncIn q ingress domain src origin corr twoStep))

/-- A Follow_Up arrives (R340). -/
def execFollowUp (q : PtpIx) (origin : Stamp) (corr : Int) (inTime : Bool) (s : State) : Answer :=
  .next (commitTime s (s.followIn q origin corr inTime))

/-- A delay exchange ends (R340). -/
def execDelayExchange (q : PtpIx) (reply : Option DelayReply) (s : State) : Answer :=
  .next (commitTime s (s.delayDone q reply))

/-- A delay request arrives (R339, R343). -/
def execDelayRequestReceived (q : PtpIx) (ingress : Stamp) (domain seq : Nat) (corr : Int) (s : State) : Answer :=
  .next (commitTime s (s.delayReqIn q ingress domain seq corr))

/-- An Announce arrives: counted, and no role changes (R339). -/
def execAnnounce (q : PtpIx) (s : State) : Answer :=
  .next (commitTime s (if s.ptpUp q then s.modPtp q fun p => { p with announces := p.announces + 1 } else s))

/-- A Sync interval of a MASTER port has passed (R339). -/
def execSyncTransmit (q : PtpIx) (origin : Stamp) (s : State) : Answer := .next (commitTime s (s.syncOut q origin))

/-- A second has passed at a MASTER port (R339). -/
def execAnnounceTransmit (q : PtpIx) (s : State) : Answer := .next (commitTime s (s.announceOut q))

/-- A delay interval of a port has passed (R339). -/
def execDelayRequestTransmit (q : PtpIx) (s : State) : Answer := .next (commitTime s (s.delayReqOut q))

/-- No usable Sync for three Sync intervals (R335). -/
def execSyncLost (s : State) : Answer :=
  .next (commitTime s
    (if s.servoOn && s.time.mode == .tracking then
      let t := s.enterHoldover
      ({ t with time := { t.time with inSync := false } }).timeEvent 3
    else s))

/-- A slew ends once its extra terms total Δ (R336). -/
def execSlewEnd (s : State) : Answer :=
  .next (commitTime s
    (if s.time.slew = some 0 then ({ s with time := { s.time with slew := none } }).timeEvent 1 else s))

/-- The rate of the time base against the crystal, every 1 ms (R400): beyond 1,000 ppm it is cause 0x0418. -/
def execTimeRateCheck (bad : Bool) (s : State) : Answer :=
  let t := { s with pwr := { s.pwr with rateBad := bad } }
  .next (commitTime s (if bad && !s.pwr.rateBad then t.detect 8 0xFF 2 else t))

/-- A leading edge of a pulse generator (R345, R346). -/
def execPulseLeadingEdge (g : Fin 8) (s : State) : Answer := .next (commitTime s (s.pulseLead g))

/-- A trailing edge of a pulse generator (R345). -/
def execPulseTrailingEdge (g : Fin 8) (s : State) : Answer := .next (commitTime s (s.pulseTrail g))

/-- One tick of the time base (R333): pulse edges that it passes are missed (R345). -/
def State.ticked (s : State) : State := ({ s with time := s.time.tick s.addend }).pgPassed

/-- What an idle block does: one tick of the time base while PD0 has power, and the domains with demand take note (R429). Log
entry 8. -/
def State.idle (s : State) : State := if s.boot.powered then s.ticked.noteDemand else s

end Sys2Proof.Machine
end

