-- ==== Sys2Proof/Machine/T1s.lean ====
section
/-!
DEFINITION. The 10BASE-T1S ports (R328 to R331).
-/
namespace Sys2Proof.Machine

/-- The key of a T1S port's register (R331). -/
def t1sKey (q o : Nat) : Nat := 0xE80000 + 0x10000 * q + o

/-- A T1S port. -/
def State.t1sOf (s : State) (q : Nat) : T1sSt := s.t1s.getD q .reset
/-- A T1S port changed. -/
def State.modT1s (s : State) (q : Nat) (f : T1sSt → T1sSt) : State := { s with t1s := lmod s.t1s q f }
/-- An event of a T1S port: 0 RX, 1 TX_DONE, 2 PLCA_LOST. -/
def State.t1sEvent (s : State) (q bit : Nat) : State := s.raise (t1sKey q 0x18) (2 ^ bit)
/-- PD4 is on (R25), and EN. -/
def State.t1sOn (s : State) (q : Nat) : Bool := s.domOn 4 && tbit (s.rv (t1sKey q 0)) 31
/-- PLCA_EN, and a node identifier that takes part (R331). -/
def State.t1sPlca (s : State) (q : Nat) : Bool := tbit (s.rv (t1sKey q 0)) 30 && field (s.rv (t1sKey q 4)) 24 8 != 0xFF

/-- A frame is addressed to the MAC address of two registers, to broadcast, or with `mcast` to a multicast address (R329,
R349). Log entry 64. -/
def macTakes (lo hi : Nat) (mcast : Bool) (f : List Byte) : Bool :=
  let d := sliceAt f 0 6
  d == natLe 4 lo ++ natLe 2 hi || d == List.replicate 6 0xFF#8 || (mcast && (byteAt f 0).toNat % 2 == 1)

/-- A port's PTP handling takes a frame (R329, R339, R349): PTP runs on the port, and the frame has its profile's transport.
Log entry 63. -/
def State.ptpTakes (s : State) (q : Nat) (f : List Byte) : Bool :=
  s.ptpUp q &&
  (let pr := field (s.rv (ptpKey q 0)) 16 3
   let (t, o) := etherType f
   if pr ≤ 2 then t == 0x88F7
   else match udpOf f with
     | some (port, _, _) => (port == 319 || port == 320) && (byteAt f o).toNat / 16 == (if pr = 3 then 4 else 6)
     | none => false)

/-- Bytes in the receive FIFO. Log entry 64. -/
def T1sSt.fill (t : T1sSt) : Nat := (t.rxFifo.map (·.length)).sum

/-- A frame received (R329), under the control filters then in force (R308). Log entry 63. -/
def State.t1sIn (s : State) (q : Nat) (f : List Byte) : State :=
  let s := s.netfBoundary (4 + q)
  let s1 := s.bump (t1sKey q 0x40) 1
  if s.ptpTakes (4 + q) f then s1
  else match s.netfFirst (4 + q) f with
    | some (k, pay) => s1.netInput 4 q k s.now pay
    | none =>
      if !macTakes (s.rv (t1sKey q 0xC)) (s.rv (t1sKey q 0x10)) (tbit (s.rv (t1sKey q 0)) 29) f then s1
      else if 32768 < (s.t1sOf q).fill + f.length then s1.bump (t1sKey q 0x50) 1
      else (s1.modT1s q fun t => { t with rxFifo := t.rxFifo ++ [f] }).t1sEvent q 0

/-- A PTP message of a port waits. -/
def State.ptpWaits (s : State) (q : Nat) : Bool := !(s.time.ptp.getD q .reset).queue.isEmpty

/-- One frame leaves: a command frame, else a PTP frame with its egress stamp, else the host's (R330). Log entry 89. -/
def State.t1sSend (s : State) (q : Nat) (egress : Stamp) : State :=
  let s1 := s.bump (t1sKey q 0x48) 1
  match (s.t1sOf q).cmds with
  | f :: t => (s1.modT1s q fun x => { x with cmds := t }).emit (.t1s q f.2)
  | [] =>
    if s.ptpWaits (4 + q) then s1.ptpLeaves (4 + q) egress
    else match (s.t1sOf q).tx with
      | some f => ((s1.modT1s q fun x => { x with tx := none }).emit (.t1s q f)).t1sEvent q 1
      | none => s

/-- A frame waits to be sent. -/
def State.t1sWaits (s : State) (q : Nat) : Bool :=
  !(s.t1sOf q).cmds.isEmpty || s.ptpWaits (4 + q) || (s.t1sOf q).tx.isSome

/-- The frame to be sent is given up after 16 collisions (R328, clause 147's CSMA/CD). Log entry 65. -/
def State.t1sGiveUp (s : State) (q : Nat) : State :=
  match (s.t1sOf q).cmds with
  | _ :: t => s.modT1s q fun x => { x with cmds := t }
  | [] =>
    if s.ptpWaits (4 + q) then s.modPtp (4 + q) fun p => { p with queue := p.queue.tail }
    else s.modT1s q fun x => { x with tx := none }

/-- A frame sent by CSMA/CD (R328): it goes out, or meets a collision and is tried again. Log entry 65. -/
def State.t1sCsma (s : State) (q : Nat) (collided : Bool) (egress : Stamp) : State :=
  if !s.t1sWaits q then s
  else if !collided then (s.modT1s q fun x => { x with attempts := 0 }).t1sSend q egress
  else
    let n := (s.t1sOf q).attempts + 1
    let s1 := (s.bump (t1sKey q 0x58) 1).modT1s q fun x => { x with attempts := n % 16 }
    if n = 16 then s1.t1sGiveUp q else s1

/-- The frames that follow the first one in an opportunity (R328, R330): MAX_BURST, where the burst timer outlasts the gap of
96 bit times between two frames. Log entry 65. -/
def State.t1sBurst (s : State) (q : Nat) : Nat :=
  if 96 ≤ s.rv (t1sKey q 8) then field (s.rv (t1sKey q 4)) 0 8 else 0

/-- A transmit opportunity (R328, R330): under PLCA the first frame and a burst; where PLCA is off or not active, one frame by
CSMA/CD. `stamps` are the egress stamps of the frames, of which the later ones leave once those before them, of at most 1,538 byte
times each, are out (R330, R342). Log entries 6, 65, 89. -/
def State.t1sChance (s : State) (q : Nat) (collided : Bool) (stamps : List Stamp) : State :=
  let at' : Nat → Stamp := fun k => s.stampOf (4 + q) (k * 1230400) (stamps.getD k ⟨s.now, 0⟩)
  if !s.t1sOn q then s
  else if s.t1sPlca q && (s.t1sOf q).plcaActive then
    (List.range (1 + s.t1sBurst q)).foldl (fun s k => s.t1sSend q (at' k)) s
  else s.t1sCsma q collided (at' 0)

/-- A PLCA setting of a port (R331). -/
def plcaKey (q k : Nat) : Bool := k == t1sKey q 4 || k == t1sKey q 8

/-- A beacon (R328, R331): latched PLCA settings apply, and PLCA is active where the port takes part. Where beacons cease, a port
that is not the coordinator leaves PLCA, with PLCA_LOST. Log entry 65. -/
def State.beaconIn (s : State) (q : Nat) (lost : Bool) : State :=
  if !(s.t1sOn q && tbit (s.rv (t1sKey q 0)) 30) then s
  else if lost then
    if (s.t1sOf q).plcaActive && field (s.rv (t1sKey q 4)) 24 8 != 0 then
      (s.modT1s q fun t => { t with plcaActive := false }).t1sEvent q 2
    else s
  else
    let s1 := (s.applyCaps 14 (plcaKey q)).latchDone s
    s1.modT1s q fun t => { t with plcaActive := s1.t1sPlca q, beaconSeen := true }

/-- The fields of a port apply while it neither sends nor receives, its PLCA settings at a beacon while PLCA is active (R331).
Log entry 65. -/
def State.t1sApply (s : State) (q : Nat) : State :=
  s.applyReady 14 (fun c => c.isOf 10 q && !(plcaKey q c.key && (s.t1sOf q).plcaActive)) fun t =>
    if t.t1sOn q && t.t1sPlca q then t
    else t.modT1s q fun x => { x with plcaActive := false, beaconSeen := x.beaconSeen && t.t1sOn q }

/-- POP (R331). -/
def State.t1sPop (s : State) (q v : Nat) : State :=
  if tbit v 0 then s.modT1s q fun t => { t with rxFifo := t.rxFifo.tail } else s

/-- The first bytes of the transmit window. -/
def State.t1sWindow (s : State) (q n : Nat) : List Byte :=
  (List.range n).map fun b => BitVec.ofNat 8 (s.rv (t1sKey q (0x1000 + b / 4 * 4)) / 2 ^ (8 * (b % 4)))

/-- GO (R331): ignored while BUSY, and where the length is outside its range. -/
def State.t1sGo (s : State) (q v : Nat) : State :=
  let n := field v 0 11
  if !tbit v 31 || (s.t1sOf q).tx.isSome || !(decide (60 ≤ n) && decide (n ≤ 1518)) then s
  else s.modT1s q fun t => { t with tx := some (s.t1sWindow q n) }

/-- What the commands of the T1S ports may change. -/
def commitT1s (s t : State) : State :=
  { s with t1s := t.t1s, ctl := t.ctl, time := t.time, out := t.out,
           regs := { s.regs with eth := t.regs.eth, ctl := t.regs.ctl, time := t.regs.time, pci := t.regs.pci,
                                 global := t.regs.global } }

/-- A frame is received (R329). A frame with a wrong FCS is discarded. -/
def execT1sFrameReceived (q : Fin 4) (frame : List Byte) (fcsOk : Bool) (s : State) : Answer :=
  .next (commitT1s s (if s.t1sOn q && fcsOk then s.t1sIn q frame else s))

/-- A transmit opportunity (R330). -/
def execTransmitOpportunity (chance : Opportunity) (s : State) : Answer :=
  .next (commitT1s s (s.t1sChance chance.q chance.collided chance.stamps))

/-- A beacon, or the end of beacons (R331). -/
def execBeacon (event : BeaconEvent) (s : State) : Answer := .next (commitT1s s (s.beaconIn event.q event.lost))

/-- T1S_RX_CMD (R331). -/
def execPop (port : Port) (q : Fin 4) (value : Word) (s : State) : Answer :=
  s.gate port (t1sKey q 0x24) (s.isMaster port) fun s => commitT1s s (s.t1sPop q value.toNat)

/-- T1S_TX_CMD (R331). -/
def execT1sTxGo (port : Port) (q : Fin 4) (value : Word) (s : State) : Answer :=
  s.gate port (t1sKey q 0x28) (s.isMaster port) fun s => commitT1s s (s.t1sGo q value.toNat)

end Sys2Proof.Machine
end

