-- ==== Sys2Proof/Machine/Eth.lean ====
section
/-!
DEFINITION. The Ethernet ports: link, reception, host rings, transmission (R343, R348 to R350, R352).
-/
namespace Sys2Proof.Machine

/-- The key of an Ethernet port's register (R352). -/
def ethKey (e o : Nat) : Nat := 0xE00000 + 0x10000 * e + o

/-- An Ethernet port. -/
def State.ethOf (s : State) (e : Nat) : EthSt := s.eth.getD e ⟨false, false, 0, []⟩
/-- An Ethernet port changed. -/
def State.modEth (s : State) (e : Nat) (f : EthSt → EthSt) : State := { s with eth := lmod s.eth e f }
/-- An event of an Ethernet port: 0 LINK, 1 RX, 2 TX_DONE, 3 RX_DROP. -/
def State.ethEvent (s : State) (e bit : Nat) : State := s.raise (ethKey e 0x10) (2 ^ bit)
/-- ETH_CFG in force. -/
def State.ethCfg (s : State) (e : Nat) : Nat := s.rv (ethKey e 0)
/-- PD4 is on (R25), the port is enabled and its link is up. -/
def State.ethOn (s : State) (e : Nat) : Bool := s.domOn 4 && tbit (s.ethCfg e) 31 && (s.ethOf e).link
/-- The partition of the rings. -/
def State.ethPart (s : State) (e : Nat) : Nat := field (s.ethCfg e) 8 3
/-- The place of a ring's slot (R350): `lo` the offset of the ring's register. An address that is not 32-byte aligned fails the
checks of R145. -/
def State.ethSlot (s : State) (e lo n : Nat) : Place :=
  if s.rv (ethKey e lo) % 32 ≠ 0 then .none
  else (placeOf (s.rv (ethKey e lo) + 2 ^ 32 * s.rv (ethKey e (lo + 4)))).plus (n % 2 ^ field (s.ethCfg e) 12 4 * 2048)

/-- A frame for the host is dropped and counted (R350). -/
def State.ethDrop (s : State) (e : Nat) : State := s.bump (ethKey e 0x50) 1

/-- A frame goes to the host receive ring (R350). Log entry 64. -/
def State.ethToRing (s : State) (e : Nat) (f : List Byte) (ts : Nat) : State :=
  let head := s.rv (ethKey e 0x24)
  if head = s.rv (ethKey e 0x20) then (s.ethDrop e).ethEvent e 3
  else
    let p := s.ethPart e
    let x := s.ethSlot e 0x18 head
    if s.placeCheck p x (16 + f.length) false ≠ 0 then (s.ethDrop e).placeRefused p x
    else
      let vlan := beAt f 12 2 == 0x8100
      let slot := natLe 2 f.length ++ natLe 2 (b2n vlan) ++ natLe 4 0 ++ natLe 8 (packTs ts) ++ f
      ((s.placeWrite p x slot).setReg (ethKey e 0x24) ((head + 1) % 65536)).ethEvent e 1

/-- The scatter engine of a port takes a frame (R263): the payload of its datagram. -/
def State.scatTakes (s : State) (e : Nat) (f : List Byte) : Option (List Byte) :=
  let c := s.rv (scatKey e 0)
  match udpOf f with
  | some (port, o, n) =>
    if tbit c 31 && (s.scatStream e).isSome && ((List.range 4).any fun i =>
        tbit c (16 + i) && s.rv (scatKey e (4 + 4 * i)) % 2 ^ 16 == port) then some ((f.drop o).take n) else none
  | none => none

/-- A frame received with a correct FCS (R348, R349), under the control filters then in force (R308). Log entry 63. -/
def State.ethIn (s : State) (e : Nat) (f : List Byte) (stamp : Nat) : State :=
  let s := s.netfBoundary e
  let s1 := s.bump (ethKey e 0x40) 1
  if (if beAt f 12 2 = 0x8100 then 1522 else 1518) < f.length then s1.ethDrop e
  else if (etherType f).1 = 0x8808 then s1.bump (ethKey e 0x60) 1
  else if s.ptpTakes e f then s1
  else match s.netfFirst e f with
    | some (k, pay) => s1.netInput 5 e k s.now pay
    | none => match s.scatTakes e f with
      | some pay => s1.datagram e pay stamp
      | none =>
        if macTakes (s.rv (ethKey e 8)) (s.rv (ethKey e 0xC)) (tbit (s.ethCfg e) 27) f then
          s1.ethToRing e f (((stamp : Int) + s.ingressAdj e) % (nsWrap : Int)).toNat
        else s1

/-! ### Transmission (R343, R350) -/

/-- The ones' complement sum of bytes, the first in the high half of its word. -/
def onesSum (l : List Byte) : Nat := (l.zipIdx.map fun x => if x.2 % 2 = 0 then x.1.toNat * 256 else x.1.toNat).sum

/-- The UDP checksum of a frame changed from `f` to `g` is updated (R343); a zero IPv4 checksum stays zero. Log entry 64. -/
def fixChecksum (f g : List Byte) : List Byte :=
  match udpOf f with
  | none => g
  | some (_, o, n) =>
    let u := o - 8
    let old := beAt f (u + 6) 2
    if old = 0 ∧ (etherType f).1 = 0x0800 then g
    else
      let a := onesSum ((f.drop u).take (8 + n))
      let b := onesSum ((g.drop u).take (8 + n))
      let c := (old + a + 65535 - b % 65535) % 65535
      let ck := if c = 0 then 65535 else c
      (natBe 2 ck).zipIdx.foldl (fun l x => l.set (u + 6 + x.2) x.1) g

/-- The egress stamp inserted into a host frame that requests it (R343, R350). -/
def insertStamp (f : List Byte) (o ts : Nat) : List Byte :=
  let st := natBe 6 (ts / 1000000000) ++ natBe 4 (ts % 1000000000)
  fixChecksum f (st.zipIdx.foldl (fun l x => l.set (o + x.2) x.1) f)

/-- A slot of the transmit ring is done with (R350): `bit` 7 DONE with its stamp, 6 ERR. Log entry 64. -/
def State.ethSlotEnd (s : State) (e head flags bit : Nat) (ts : Option Nat) : State :=
  let p := s.ethPart e
  let x := s.ethSlot e 0x28 head
  let put := fun (s : State) (o : Nat) (b : List Byte) =>
    if s.placeCheck p (x.plus o) b.length false = 0 then s.placeWrite p (x.plus o) b else s.placeRefused p (x.plus o)
  let s1 := match ts with
    | some t => put s 8 (natLe 8 (packTs t))
    | none => s
  (put s1 2 (natLe 1 (flags ||| 2 ^ bit))).setReg (ethKey e 0x34) ((head + 1) % 65536)

/-- A frame leaves (R330, R349, R350): a command frame where one waits, else a PTP frame with its egress stamp, else the frame of
the transmit ring's head slot. -/
def State.ethSent (s : State) (e : Nat) (stamp : Stamp) (slot : HostReply) : State :=
  if !s.ethOn e then s
  else match (s.ethOf e).cmds with
    | f :: t => ((s.modEth e fun x => { x with cmds := t }).bump (ethKey e 0x48) 1).emit (.eth e f.2)
    | [] =>
      let head := s.rv (ethKey e 0x34)
      if s.ptpWaits e then (s.bump (ethKey e 0x48) 1).ptpLeaves e (s.stampOf e 0 stamp)
      else if head = s.rv (ethKey e 0x30) then s
      else
        let p := s.ethPart e
        let x := s.ethSlot e 0x28 head
        let (h, c1) := s.fetchPlace p x 16 slot
        if c1 ≠ 0 then (s.fetched p x 16 slot).ethSlotEnd e head 0 6 none
        else
          let len := leAt h 0 2
          let flags := (byteAt h 2).toNat
          if !(decide (60 ≤ len) && decide (len ≤ 1522)) then (s.fetched p x 16 slot).ethSlotEnd e head flags 6 none
          else
            let (b, c2) := s.fetchPlace p x (16 + len) slot
            let s1 := s.fetched p x (16 + len) slot
            if c2 ≠ 0 then s1.ethSlotEnd e head flags 6 none
            else
              let f := b.drop 16
              let ts := (s.egressStamp e (s.stampOf e 0 stamp)).ns
              let g := if tbit flags 0 then insertStamp f (leAt h 4 2) ts else f
              (((s1.bump (ethKey e 0x48) 1).emit (.eth e g)).ethSlotEnd e head flags 7 (some ts)).ethEvent e 2

/-! ### The link (R348, R352) -/

/-- The link goes down. -/
def State.ethDown (s : State) (e : Nat) : State :=
  if (s.ethOf e).link then
    ((s.modEth e fun x => { x with link := false, master := false, speed := 0 }).bump (ethKey e 0x68) 1).ethEvent e 0
  else s

/-- The link comes up as the configuration in force allows: negotiated over the speeds advertised, or forced. -/
def State.ethUp (s : State) (e : Nat) (master : Bool) (speed : Nat) : State :=
  let c := s.ethCfg e
  let ok := if tbit c 30 then tbit (field c 16 5) speed else speed == field c 24 3 && master == (field c 28 2 == 1)
  if s.domOn 4 && tbit c 31 && !(s.ethOf e).link && ok then
    (s.modEth e fun x => { x with link := true, master := master, speed := speed }).ethEvent e 0
  else s

/-- The fields of ETH_CFG whose change restarts the link (R352), with EN. -/
def ethLinkFields (c : Nat) : Nat := c &&& 0xF71F0000

/-- The captures of a port apply between frames; a change of the link's fields restarts the link (R352). -/
def State.ethApply (s : State) (e : Nat) : State :=
  s.applyReady 14 (fun c => c.isOf 13 e) fun t =>
    if ethLinkFields (t.ethCfg e) = ethLinkFields (s.ethCfg e) then t else t.ethDown e

/-- What the commands of the Ethernet ports may change. -/
def commitEth (s t : State) : State :=
  { s with eth := t.eth, ctl := t.ctl, ing := t.ing, dram := t.dram, comp := t.comp, kv := t.kv, time := t.time,
           safe := t.safe.carry s.safe, out := t.out, fresh := t.fresh,
           regs := { s.regs with eth := t.regs.eth, ctl := t.regs.ctl, ing := t.regs.ing, vdec := t.regs.vdec, pci := t.regs.pci,
                                 sec := t.regs.sec, pwr := t.regs.pwr, time := t.regs.time, attn := t.regs.attn,
                                 safe := t.regs.safe, global := t.regs.global } }

/-- A frame is received (R348, R349); `off` places its receive stamp (R342). -/
def execEthFrameReceived (e : Fin 4) (frame : List Byte) (fcsOk : Bool) (off : Fin 11) (s : State) : Answer :=
  .next (commitEth s
    (if !s.ethOn e then s
    else if fcsOk then s.ethIn e frame (s.stampNear (s.stampAcc e) (min off.val (s.stampAcc e / 2)))
    else s.bump (ethKey e 0x58) 1))

/-- ETH_TX_TAIL (R350). -/
def execEthTxTail (port : Port) (e : Fin 4) (value : Word) (s : State) : Answer :=
  s.gate port (ethKey e 0x30) (s.isMaster port) fun s => commitEth s (s.setReg (ethKey e 0x30) (value.toNat % 65536))

/-- A frame has left (R349, R350). -/
def execEthFrameSent (e : Fin 4) (stamp : Stamp) (slot : HostReply) (s : State) : Answer :=
  .next (commitEth s (s.ethSent e stamp slot))

/-- The link changes (R352). -/
def execEthLinkChange (e : Fin 4) (up master : Bool) (speed : Fin 5) (s : State) : Answer :=
  .next (commitEth s (if up then s.ethUp e master speed else s.ethDown e))

end Sys2Proof.Machine
end

