-- ==== Sys2Proof/Machine/Vdec.lean ====
section
/-!
DEFINITION. The video decoders, the decoded-sample cache and the depot assembler (R258 to R262, R275 to R278).
-/
namespace Sys2Proof.Machine

/-! ### Decoder streams (R258 to R262) -/

/-- The owner partition of a decoder stream (R249): of its route, or VDEC_STR_CFG.OWNER. -/
def State.vdecOwner (s : State) (st : Nat) : Option Nat := match s.streamOf 3 st with
  | some a => s.ringOf a
  | none =>
    let o := field (s.rv (vdecKey st 0)) 16 4
    if o < 8 then some o else none

/-- A decoder stream. -/
def State.vdec (s : State) (st : Nat) : VdecSt := s.ing.vdecs.getD st .reset

/-- A decoder stream changed. -/
def State.modVdec (s : State) (st : Nat) (f : VdecSt → VdecSt) : State :=
  { s with ing := { s.ing with vdecs := lmod s.ing.vdecs st f } }

/-- An event of a decoder stream: 0 DONE, 1 CORRUPT, 2 RESET (R281). -/
def State.vdecEvent (s : State) (st bit : Nat) : State := s.raise (vdecKey st 0x20) (2 ^ bit)

/-- CODEC of a stream. -/
def State.codec (s : State) (st : Nat) : Nat := field (s.rv (vdecKey st 0)) 0 3
/-- LOG2_SIZE of a stream's ring. -/
def State.vdecLog (s : State) (st : Nat) : Nat := field (s.rv (vdecKey st 0)) 24 4
/-- HEAD of a stream's ring. -/
def State.vdecHead (s : State) (st : Nat) : Nat := s.rv (vdecKey st 0x14)

/-- The address of the descriptor at HEAD (R260): the base as written, also where it is no multiple of 64. Log entry 52. -/
def State.vdecAddr (s : State) (st : Nat) : Nat :=
  s.rv (vdecKey st 8) + 2 ^ 32 * s.rv (vdecKey st 0xC) + 64 * s.vdecHead st

/-- A stream has a descriptor to read: its domain on (R25), enabled, a codec, an owner, HEAD before TAIL (R260). -/
def State.vdecDue (s : State) (st : Nat) : Option Nat :=
  let n := 2 ^ s.vdecLog st
  if s.domOn 7 && tbit (s.rv (vdecKey st 0)) 31 && decide (1 ≤ s.codec st) && decide (s.codec st ≤ 4) &&
      s.vdecHead st % n != s.rv (vdecKey st 0x10) % n then s.vdecOwner st else none

/-- The descriptor at HEAD: its bytes, or the status that its read fails with; HEAD advances (R260, R421). Log entry 52. -/
def State.takeDesc (s : State) (st p : Nat) (r : HostReply) : (List Byte × Nat) × State :=
  let place := placeOf (s.vdecAddr st)
  (s.fetchPlace p place 64 r, (s.fetched p place 64 r).setReg (vdecKey st 0x14) ((s.vdecHead st + 1) % 2 ^ s.vdecLog st))

/-- A descriptor is complete or discarded (R260): its write-back, VDEC_STR_LAST, DONE. -/
def State.writeBack (s : State) (st p addr tag status count : Nat) : State :=
  let place := (placeOf addr).plus 0x38
  let v := natLe 2 status ++ natLe 2 count ++ natLe 4 1
  let code := s.placeCheck p place 8 false
  let s1 := if code = 0 then s.placeWrite p place v else if isWindowCode code then s.winRefused p else s
  (s1.setReg (vdecKey st 0x1C) tag).vdecEvent st 0

/-- The fields of a descriptor (R223 step 1, R260): zero where they are valid. LEN is that of an access unit's data.
Log entry 52. -/
def auCheck (b : List Byte) : Nat :=
  let kind := leAt b 0 1
  let ok := (kind == 1 || kind == 2) && decide (leAt b 1 1 < 2) && leAt b 2 2 == 0 &&
    (kind == 2 || (decide (1 ≤ leAt b 4 4) && decide (leAt b 4 4 ≤ 67108864))) && zeroRange b 0x28 16 && (leAt b 1 1 == 0 || leAt b 0x18 8 != 0)
  codeIf (!ok) 0x010B

/-- A stream resets (R259): reference memory is released, it awaits a random access point. Log entry 52. -/
def State.vdecReset (s : State) (st reason : Nat) : State :=
  (s.modVdec st fun v =>
    { v with state := 1, reason := reason, refBytes := 0, corruptChain := false, seq := none, units := [] }).vdecEvent st 2

/-- The bytes of the reference pool (R259). -/
def poolBytes : Nat := 1280 * 2 ^ 20

/-- The part of the reference pool that other streams leave. -/
def State.poolFree (s : State) (st : Nat) : Nat :=
  poolBytes - ((s.ing.vdecs.zipIdx.filter fun x => x.2 != st).map fun x => x.1.refBytes).sum

/-- The dimensions stand within the limits of the device and the budget (R259). -/
def State.dimsOk (s : State) (st w h : Nat) : Bool :=
  let b := s.rv (vdecKey st 4)
  decide (16 ≤ w) && decide (w ≤ 8192) && decide (16 ≤ h) && decide (h ≤ 8192) && decide (w ≤ field b 0 14) &&
  decide (h ≤ field b 16 14)

/-- The reference memory that a sequence needs (R259). -/
def seqNeeds (q : SeqHeader) : Nat :=
  (q.dpb + 1) * ((⟨q.w, q.h, if q.mono then 0 else 1, if q.deep then 10 else 8, []⟩ : Picture).bytes2 * q.w * q.h / 2)

/-- The bit depth and the chroma format of a sequence are among those of its codec (R258): H.264 at 8 bits, H.265 at 4:2:0. -/
def codecTakes (codec : Nat) (deep mono : Bool) : Bool := !(codec == 1 && deep) && !(codec == 2 && mono)

/-- The checks of a sequence header in their order (R259): zero where it passes. -/
def State.seqCheck (s : State) (st : Nat) (q : SeqHeader) : Nat :=
  firstCode [codeIf (!(q.supported && codecTakes (s.codec st) q.deep q.mono)) 0x010B, codeIf (!s.dimsOk st q.w q.h) 0x0109, codeIf (decide (s.poolFree st < seqNeeds q)) 0x0113]

/-- A picture put at its place among those that wait. -/
def insertPic (l : List PicWait) (place : Nat) (x : PicWait) : List PicWait := l.take place ++ [x] ++ l.drop place

/-- The pictures of a descriptor wait for their output, with the route and the owner of their stream as they began (R54); a
descriptor without one is complete at once. -/
def State.queuePics (s : State) (st p addr : Nat) (b : List Byte) (ts status : Nat) (pics : List (Nat × Picture)) : State :=
  let sid := if tbit (leAt b 1 1) 0 then some (leAt b 0x18 8) else none
  let n := pics.length
  if n = 0 then s.writeBack st p addr (leAt b 0x20 4) status 0
  else
    let q := pics.zipIdx.foldl (fun (l : List PicWait) x =>
      insertPic l x.1.1 ⟨x.1.2, status, ts, leAt b 0x20 4, sid, addr, if x.2 + 1 = n then some n else none,
        s.stageWords (vdecKey st 0x100), s.streamOf 3 st, p⟩) (s.vdec st).queue
    s.modVdec st fun v => { v with queue := q }

/-- CODEC 4: a raw picture (R258, R259). -/
def State.rawUnit (s : State) (st p addr : Nat) (b data : List Byte) (ts : Nat) : State :=
  let w := leAt b 0x24 2
  let h := leAt b 0x26 2
  let fmt := field (s.rv (vdecKey st 0)) 8 2
  let two := match fmt with | 0 => 2 | 1 => 4 | 2 => 3 | _ => 6
  let chk := firstCode [codeIf (!s.dimsOk st w h) 0x0109, codeIf (decide (2 * leAt b 4 4 < w * h * two)) 0x010A]
  if chk ≠ 0 then (s.vdecReset st chk).writeBack st p addr (leAt b 0x20 4) chk 0
  else
    (s.modVdec st fun v => { v with state := 2 }).queuePics st p addr b ts 0
      [((s.vdec st).queue.length, rawPicture fmt w h data)]

/-- A decoded picture under the sequence header in force (R258): its size lies within the declared one, its depth and chroma format
are the header's, and it has one value of that depth for each luma and chroma place. Log entry 52. -/
def seqPicture (q : SeqHeader) (x : DecPic) : Picture :=
  let w := max 1 (min x.w q.w)
  let h := max 1 (min x.h q.h)
  let n := w * h + (if q.mono then 0 else 2 * ((w + 1) / 2 * ((h + 1) / 2)))
  ⟨w, h, if q.mono then 0 else 1, if q.deep then 10 else 8,
    (List.range n).map fun i => x.data.getD i 0 % 2 ^ (if q.deep then 10 else 8)⟩

/-- What a unit decodes to: by its standard, from the units that the stream has taken since its last reset, its own bytes and the
errors met in reference pictures (R258). Log entry 52. -/
def State.decoded (s : State) (st : Nat) (data : List Byte) (refs : PoolErrors) : Decoded :=
  Config.decode (s.codec st) (s.vdec st).units data refs.dramUe

/-- Errors in the reference pool, in the device's own DRAM, counted and logged (R139, R161). -/
def State.poolErrors (s : State) (refs : PoolErrors) : State :=
  (s.dramErrors refs.dramCe refs.dramUe (refs.dramUe.map fun a => ⟨a, 1⟩)).1

/-- A coded access unit (R259, R261): its bytes, and what they decode to. -/
def State.codedUnit (s : State) (st p addr : Nat) (b data : List Byte) (ts : Nat) (d : Decoded) : State :=
  let tag := leAt b 0x20 4
  let v := s.vdec st
  let head := match d.seq with
    | some q => some q
    | none => v.seq
  let chk := match d.seq with
    | some q => s.seqCheck st q
    | none => 0
  if chk ≠ 0 then (s.vdecReset st chk).writeBack st p addr tag chk 0
  else if v.state ≠ 2 ∧ (d.begins = false ∨ d.seq.isNone = true) then
    (s.modVdec st fun v => { v with state := 1 }).writeBack st p addr tag 0x0108 0
  else
    let chain := v.corruptChain && !d.begins
    let status := if d.error then 0x0107 else if chain && d.depends then 0x0108 else 0
    let s1 := s.modVdec st fun v =>
      { v with state := 2, corruptChain := chain || status != 0, seq := head, units := v.units ++ [data],
               refBytes := match d.seq with | some q => seqNeeds q | none => v.refBytes }
    s1.queuePics st p addr b ts status (match head with
      | some q => d.pics.map fun x => (x.place, seqPicture q x)
      | none => [])

/-- A stream takes its configuration up (R256, R260): its fault; a stream that becomes enabled reads its ring from the start.
`old` is the state before. -/
def State.vdecApply (s old : State) (st : Nat) : State :=
  let s1 := { s with ing := { s.ing with vdecErr := lmod s.ing.vdecErr st fun _ => !(s.tsAt (vdecKey st 0x100)).outOk } }
  let s2 := if tbit (s.rv (vdecKey st 0)) 31 && !tbit (old.rv (vdecKey st 0)) 31 then s1.setReg (vdecKey st 0x14) 0 else s1
  s2.refreshRings

/-- A stream is about to begin a picture: it applies its captures (R250, R368). Log entry 18. -/
def State.vdecBoundary (s : State) (st : Nat) : State := s.applyReady 9 (fun c => c.isOf 7 st) fun t => t.vdecApply s st

/-- A descriptor read by a stream that is not an end of stream: discarded, or its unit decoded (R258 to R262). -/
def State.decodeUnit (s : State) (st p addr : Nat) (b : List Byte) (data : HostReply) (refs : PoolErrors) : State :=
  let tag := leAt b 0x20 4
  let len := leAt b 4 4
  let place := placeOf (leAt b 8 8)
  let bad := auCheck b
  if bad ≠ 0 then s.writeBack st p addr tag bad 0
  else
    let (bytes, rd) := s.fetchPlace p place len data
    let s1 := s.fetched p place len data
    if rd ≠ 0 then s1.writeBack st p addr tag rd 0
    else
      let cap := leAt b 0x10 8
      let ts := if cap = 0 then s1.now else s1.fullTs cap
      if s1.codec st = 4 then s1.rawUnit st p addr b bytes ts
      else (s1.poolErrors refs).codedUnit st p addr b bytes ts (s1.decoded st bytes refs)

/-- The decoder reads one descriptor of KIND 1, or one that it discards, and decodes its unit (R258 to R262). A descriptor that
cannot be read is discarded with the status of its read; VDEC_STR_LAST keeps the tag of the one before. Log entry 52. -/
def State.accessUnit (s : State) (st : Nat) (desc data : HostReply) (refs : PoolErrors) : State :=
  if (s.vdecDue st).isNone then s
  else
    let t := s.vdecBoundary st
    match t.vdecDue st with
    | none => t
    | some p =>
      let addr := t.vdecAddr st
      let ((b, code), s1) := t.takeDesc st p desc
      if code ≠ 0 then s1.writeBack st p addr (s1.rv (vdecKey st 0x1C)) code 0
      else if leAt b 0 1 = 2 ∧ auCheck b = 0 then s
      else s1.decodeUnit st p addr b data refs

/-- A picture goes into the cache, or is refused (R275): the status for the write-back. -/
def State.cacheInsert (s : State) (id : Nat) (x : PicWait) : Nat × State :=
  let used := (s.ing.cache.map fun c => c.2.units).sum
  if (alGet s.ing.cache id).isSome then (0x0110, s)
  else if s.cacheMiB * 16 < used + x.pic.units then (0x010F, s)
  else (x.status, { s with ing := { s.ing with cache := alSet s.ing.cache id ⟨x.pic, x.ts, x.status, x.pic.units, false⟩ } })

/-- The parameter set of the tensor stage as it was in force when the picture began. -/
def PicWait.param (x : PicWait) : TsParam := .ofRegs fun o => x.stage.getD (o / 4) 0

/-- The stream's tensor stage can take the picture (R256). -/
def PicWait.stageOk (x : PicWait) : Bool := x.param.outOk && x.param.cropOk x.pic.w x.pic.h

/-- One picture leaves the decoder (R262): to the cache, or as a sample of the alignment stream to which it was routed as it began
(R54). Log entry 52. -/
def State.outputPic (s : State) (st : Nat) (x : PicWait) : State :=
  let s1 := s.bump (vdecKey st 0x28) 1
  let (status, s2) : Nat × State := match x.sampleId with
    | some id => s1.cacheInsert id x
    | none => match x.route with
      | some a =>
        let t := x.param
        let bad := if x.status ≠ 0 then x.status else if x.stageOk then 0 else 0x010A
        let d : SampleData := if bad = 0 then .rows (t.tensor x.pic.pixels none).1 t.oh else .rows [] 0
        (x.status, s1.startSample a x.ts x.tag bad d true)
      | none => (x.status, s1)
  let s3 := if x.status = 0 then s2 else (s2.bump (vdecKey st 0x30) 1).vdecEvent st 1
  match x.lastOf with
  | some n => s3.writeBack st x.owner x.wbAddr x.tag status n
  | none => s3

/-- The picture first in output order leaves the decoder (R262). -/
def State.pictureDone (s : State) (st : Nat) : State :=
  match (s.vdec st).queue with
  | [] => s
  | x :: l => (s.modVdec st fun v => { v with queue := l }).outputPic st x

/-- A descriptor of KIND 2 (R260): every held picture leaves, then the stream resets. -/
def State.endOfStream (s : State) (st : Nat) (desc : HostReply) : State :=
  match s.vdecDue st with
  | none => s
  | some p =>
    let addr := s.vdecAddr st
    let ((b, code), s1) := s.takeDesc st p desc
    if code ≠ 0 ∨ leAt b 0 1 ≠ 2 ∨ auCheck b ≠ 0 then s
    else
      let l := (s1.vdec st).queue
      let s2 := l.foldl (fun (s : State) (x : PicWait) => s.outputPic st x) (s1.modVdec st fun v => { v with queue := [] })
      (s2.vdecReset st 0).writeBack st p addr (leAt b 0x20 4) 0 l.length

/-! ### Cache commands (R275, R281) -/

/-- An entry leaves the cache, at once or once the batch that reads it is complete. Log entry 53. -/
def State.evict (s : State) (drop : Nat → Bool) : State :=
  let busy := s.building
  let l := (s.ing.cache.filter fun c => !(drop c.1 && !busy.contains c.1)).map fun c =>
    if drop c.1 then (c.1, { c.2 with doomed := true }) else c
  { s with ing := { s.ing with cache := l } }

/-- The SAMPLE_ID that VDEC_CACHE_ID names. -/
def State.cacheId (s : State) : Nat := s.rv 0x980004 + 2 ^ 32 * s.rv 0x980008

/-! ### The depot assembler (R276 to R278) -/

/-- BATCH_SIZE of a ring's depot registers. -/
def State.depSize (s : State) (p : Nat) : Nat := field (s.rv (depKey p 8)) 0 7
/-- LOG2_SIZE of a ring's request ring. -/
def State.depLog (s : State) (p : Nat) : Nat := field (s.rv (depKey p 8)) 16 4

/-- Requests that wait in the request ring. -/
def State.depWaiting (s : State) (p : Nat) : Nat :=
  let n := 2 ^ s.depLog p
  (s.rv (depKey p 0xC) % n + n - (s.ring p).reqNo % n) % n

/-- The requests of the next batch, read in ring order from the base as written, also where it is no multiple of 64; the status of
a read that fails. Log entry 53. -/
def State.depRead (s : State) (p : Nat) (r : HostReply) : List Byte × Nat × State :=
  let base := s.rv (depKey p 0) + 2 ^ 32 * s.rv (depKey p 4)
  let n := 2 ^ s.depLog p
  (List.range (s.depSize p)).foldl (fun (a : List Byte × Nat × State) i =>
    let place := placeOf (base + 64 * (((s.ring p).reqNo + i) % n))
    let one : HostReply := { r with data := sliceAt r.data (64 * i) 64, dramCe := if i = 0 then r.dramCe else [] }
    let (b, code) := a.2.2.fetchPlace p place 64 one
    let t := a.2.2.fetched p place 64 one
    if code = 0 then (a.1 ++ b, a.2.1, t) else (a.1 ++ List.replicate 64 0, if a.2.1 = 0 then code else a.2.1, t)) ([], 0, s)

/-- The parameter set of a request: the ring's, with the crop, the destination and FLIP of the request (R277). -/
def TsParam.ofRequest (t : TsParam) (b : List Byte) : TsParam :=
  { t with flip := tbit (leAt b 1 1) 0, cx := leAt b 0x10 2, cy := leAt b 0x12 2, cw := leAt b 0x14 2, ch := leAt b 0x16 2,
           dx := leAt b 0x18 2, dy := leAt b 0x1A 2, dw := leAt b 0x1C 2, dh := leAt b 0x1E 2 }

/-- The augmentation of a request (R276). -/
def augmentOf (b : List Byte) : Augment :=
  ⟨(List.range 3).map fun i => leAt b (0x20 + 4 * i) 4, (List.range 3).map fun i => leAt b (0x2C + 4 * i) 4, leAt b 0x38 4,
    leAt b 0x3C 4⟩

/-- One slot of a depot batch (R277, R278): its tensor bytes, its status, whether it is VALID. What a request outside the
fields of R276 or the conditions of R256 gives is open: its bytes are free values (log entry 2). Log entry 53. -/
def State.depSlot (s : State) (p : Nat) (b : List Byte) (epoch : Nat) : List Byte × Nat × Bool :=
  let t := (s.tsAt (depKey p 0x80)).ofRequest b
  let zero := List.replicate t.size 0
  match alGet s.ing.cache (leAt b 8 8) with
  | none => (zero, 0x010E, false)
  | some e =>
    if e.status ≠ 0 then (zero, e.status, false)
    else if !t.cropOk e.pic.w e.pic.h then (zero, 0x0114, false)
    else if t.outOk && leAt b 0 1 == 1 && decide (leAt b 1 1 < 2) && leAt b 2 2 == 0 then
      ((t.tensor e.pic.pixels (some (augmentOf b))).1, 0, true)
    else ((List.range t.size).map fun i => Config.freeByte epoch i, 0, true)

/-- The slots of the batch under construction are filled, and its record made (R271, R278). -/
def State.depFill (s : State) (p : Nat) (w : WindowSt) (buf : Nat) : State :=
  let n := w.record.length / 64
  let req := fun i => sliceAt w.record (64 * i) 64
  let slots := (List.range n).map fun i => s.depSlot p (req i) (s.fresh + i)
  let oh := (s.tsAt (depKey p 0x80)).oh
  let first := (s.ring p).reqNo
  let entry : Nat → List Byte := fun i =>
    let (_, status, ok) := slots.getD i ([], 0, false)
    let ts := match alGet s.ing.cache (leAt (req i) 8 8) with
      | some e => packTs e.ts
      | none => 0
    slotEntry i status ((first + i) % 2 ^ 32) ts (leAt (req i) 8 8) (if ok then leAt (req i) 4 4 else 0) (if ok then oh else 0) ok
  let adm := maskOf ((List.range n).filter fun i => (slots.getD i ([], 0, false)).2.2)
  let rcd := batchHeader w.k 0 0 0 adm (2 ^ n - 1) n 2 ++ (List.range n).flatMap entry
  let base := s.ringBase p + buf * s.ringStride p
  let s1 := { s with fresh := s.fresh + n }
  let s2 := (List.range n).foldl (fun (s : State) (i : Nat) =>
    s.writeDram p (base + s.rv (depKey p 0x14) + i * s.rv (depKey p 0x18)) (slots.getD i ([], 0, false)).1) s1
  s2.modRing p fun r => { r with
    wins := r.wins.map fun y => if y.k = w.k ∧ y.closed = false then { y with closed := true, record := rcd } else y
    reqNo := (r.reqNo + n) % 2 ^ 32 }

/-- The batch under construction of a depot ring. -/
def State.depWin (s : State) (p : Nat) : Option WindowSt := (s.ring p).wins.find? fun w => !w.closed

/-- A depot ring can build: a depot image, enabled, its domain on (R25), no fault, its partition's DRAM granted (R274, R276). -/
def State.depOn (s : State) (p : Nat) : Bool :=
  s.ringEn p && s.domOn 8 && s.ringDepot p && !(s.ring p).cfgErr && !(s.ring p).stopped

/-- A depot ring can begin a batch: BATCH_SIZE requests and a free buffer are present (R276). -/
def State.depStarts (s : State) (p : Nat) : Bool :=
  let n := s.depSize p
  s.depOn p && (s.depWin p).isNone && !(s.ring p).frees.isEmpty && n != 0 && decide (n ≤ 64) && decide (n ≤ s.depWaiting p)

/-- The assembler begins a batch (R276): its requests are read, it takes a buffer; a batch whose requests cannot be read is
discarded (R421). -/
def State.depStart (s : State) (p : Nat) (r : HostReply) : State :=
  let n := s.depSize p
  let (b, code, a) := s.depRead p r
  if code ≠ 0 then a.modRing p fun r => { r with reqNo := (r.reqNo + n) % 2 ^ 32 }
  else
    let (buf, c) := a.takeBuf p
    c.modRing p fun r => { r with wins := r.wins ++ [⟨r.batchNo, buf, false, [], false, b, 0⟩], batchNo := r.batchNo + 1 }

/-- Every SAMPLE_ID of the requests is in the cache. -/
def State.depHits (s : State) (w : WindowSt) : Bool := w.reads.all fun id => (alGet s.ing.cache id).isSome

/-- The assembler begins a batch where it can, by the ring's configuration in force as it takes the buffer (R250), and fills its
slots once every sample is in the cache (R276 to R278). Log entry 18. -/
def State.depBuild (s : State) (p : Nat) (r : HostReply) : State :=
  if !s.depOn p then s
  else
    let s0 := if s.depStarts p then s.ringBoundary p else s
    let s1 := if s0.depStarts p then s0.depStart p r else s0
    match s1.depWin p with
    | some w => match w.buf with
      | some buf => if s1.depHits w then s1.depFill p w buf else s1
      | none => s1
    | none => s1

/-- MISS_TMO has passed since the batch began (R278): slots whose sample is absent are zero-filled with 0x010E. -/
def State.missTimeout (s : State) (p : Nat) : State :=
  match s.depOn p, s.depWin p with
  | true, some w => match w.buf with
    | some buf => s.depFill p w buf
    | none => s
  | _, _ => s

/-! ### Commands -/

/-- A write to VDEC_STR_TAIL (R250, R260). -/
def execVdecStrTail (port : Port) (stream : Fin 64) (value : Word) (s : State) : Answer :=
  s.gate port (vdecKey stream 0x10) ((s.vdecOwner stream).any fun p => s.bound p port) fun s =>
    commitIng s (s.setReg (vdecKey stream 0x10) (value.toNat % 65536))

/-- The decoder reads and decodes one access unit (R258). -/
def execAccessUnit (stream : Fin 64) (desc data : HostReply) (refs : PoolErrors) (s : State) : Answer :=
  .next (commitIng s (s.accessUnit stream desc data refs))

/-- The decoder reads a descriptor of KIND 2 (R260). -/
def execEndOfStream (stream : Fin 64) (desc : HostReply) (s : State) : Answer :=
  .next (commitIng s (s.endOfStream stream desc))

/-- A decoded picture is output (R262). -/
def execPictureDone (stream : Fin 64) (s : State) : Answer := .next (commitIng s (s.pictureDone stream))

/-- EVICT in VDEC_CACHE_CMD, from the master port (R275, R281). -/
def execEvict (port : Port) (s : State) : Answer :=
  s.gate port 0x980000 (s.isMaster port) fun s => commitIng s (s.evict fun id => id == s.cacheId)

/-- CLEAR in VDEC_CACHE_CMD, from the master port (R275, R281). -/
def execClear (port : Port) (s : State) : Answer :=
  s.gate port 0x980000 (s.isMaster port) fun s => commitIng s (s.evict fun _ => true)

/-- A write to ING_DEP_TAIL (R250, R276). -/
def execIngDepTail (port : Port) (ring : PartIx) (value : Word) (s : State) : Answer :=
  s.gate port (depKey ring 0xC) (s.bound ring port) fun s =>
    commitIng s (s.setReg (depKey ring 0xC) (value.toNat % 65536))

/-- The assembler builds a depot batch (R276). -/
def execDepotBatchBuild (ring : PartIx) (reply : HostReply) (s : State) : Answer :=
  .next (commitIng s (s.depBuild ring reply))

/-- MISS_TMO passes (R278). -/
def execMissTmoExpiry (ring : PartIx) (s : State) : Answer := .next (commitIng s (s.missTimeout ring))

end Sys2Proof.Machine
end

