-- ==== Sys2Proof/Machine/Ward.lean ====
section
/-!
DEFINITION. The Ward loader up to validation (R50 to R52, R58): BEGIN, CHUNK, FINISH, ABORT, and the counter advance
that follows a switch (R56). The switch itself stands in the file of the switch.
-/
namespace Sys2Proof.Machine

/-- The key of a register of the WARD block. -/
def wardKey (o : Nat) : Nat := 0x100000 + o

/-- An event of WARD_INT_STAT: 0 APPLIED, 1 FAILED, 2 REFUSED (R50). Log entry 88. -/
def State.wardEvent (s : State) (bit : Nat) : State := s.raise (wardKey 0x30) (2 ^ bit)

/-- WARD_ERROR and WARD_ERROR_OFF (R50). The loader's own statuses carry section 0xFF and offset 0 (log entry 20). -/
def State.wardError (s : State) (status sect off : Nat) : State :=
  (s.setReg (wardKey 0x14) (status * 2 ^ 16 + sect * 2 ^ 8)).setReg (wardKey 0x18) off

/-- A load ends without applying (R51). -/
def State.wardFail (s : State) (status sect off : Nat) : State := (s.wardError status sect off).wardEvent 1

/-- The loader changed. -/
def State.modWard (s : State) (f : WardSt → WardSt) : State := { s with ward := f s.ward }

/-- Staging and coverage cleared (R51). -/
def WardSt.clearStaging (w : WardSt) : WardSt := { w with staging := .zero, covered := [], busy := false }

/-- A chunk's copy ends (R52): the aperture's bytes stand in staging, the words are covered, BUSY clears. Log entry 21. -/
def WardSt.copyDone (w : WardSt) : WardSt :=
  if w.busy then
    { w with busy := false, staging := w.staging.writeBytes w.chunk.1 (w.aperture.readBytes 0 w.chunk.2),
             covered := w.covered ++ [w.chunk] }
  else w

/-- WARD_TOTAL_LEN is acceptable (R52). -/
def totalOk (n : Nat) : Bool := n % 8 == 0 && decide (1024 ≤ n) && decide (n ≤ 4194304)

/-- BEGIN (R51, R52); refused until the module is ready (R448). Log entries 20, 22. -/
def State.wardBegin (s : State) (port : Nat) : State :=
  let n := s.rv (wardKey 4)
  if !s.boot.ready then s.wardEvent 2
  else match s.ward.state with
  | .validating => s.wardEvent 2
  | .holding => s.wardEvent 2
  | _ =>
    if totalOk n then s.modWard fun w => { w.clearStaging with state := .receiving, beginPort := port, total := n }
    else (s.modWard fun w => { w.clearStaging with state := .idle }).wardFail 0x0605 0xFF 0

/-- CHUNK (R51, R52). -/
def State.wardChunk (s : State) : State :=
  let off := s.rv (wardKey 8)
  let len := s.rv (wardKey 0xC)
  if s.ward.state ≠ .receiving ∨ s.ward.busy = true then s.wardEvent 2
  else if chunkOk off len s.ward.total then s.modWard fun w => { w with busy := true, chunk := (off, len) }
  else s.wardFail 0x0602 0xFF 0

/-- FINISH (R51): a copy that still runs completes first (log entry 21). -/
def State.wardFinish (s : State) : State :=
  if s.ward.state ≠ .receiving then s.wardEvent 2
  else
    let s1 := s.modWard WardSt.copyDone
    if fullyCovered s1.ward.covered s1.ward.total then
      (s1.modWard fun w => { w with state := .validating }).engineAdd .validate
    else (s1.modWard fun w => { w.clearStaging with state := .idle }).wardFail 0x0603 0xFF 0

/-- ABORT (R51). -/
def State.wardAbort (s : State) : State :=
  if s.ward.state ≠ .receiving then s.wardEvent 2
  else s.modWard fun w => { w.clearStaging with state := .idle }

/-- The command of a value written to WARD_CMD (R50). -/
def State.wardCmd (s : State) (port value : Nat) : State :=
  match field value 0 3 with
  | 1 => s.wardBegin port
  | 2 => s.wardChunk
  | 3 => s.wardFinish
  | 4 => s.wardAbort
  | _ => s.wardEvent 2

/-- The anti-rollback advance ends (R56, R411): a failure shows as 0x0002. Log entry 20. -/
def State.advanceDone (s : State) (ok : Bool) : State :=
  match s.sec.engine with
  | .advance c v :: _ =>
    let s1 := s.writeCounter c v ok
    (if ok then s1 else s1.wardError 0x0002 0 0).enginePop
  | _ => s

/-- What the loader's commands may change. -/
def commitWard (s t : State) : State :=
  { s with ward := t.ward, sec := t.sec, out := t.out, fresh := t.fresh,
           regs := { s.regs with ward := t.regs.ward, sec := t.regs.sec, pci := t.regs.pci } }

/-- BEGIN written to WARD_CMD, from any port (R51, R57). -/
def execBegin (port : Port) (s : State) : Answer :=
  s.gate port 0x100000 true fun s => commitWard s (s.wardBegin port)

/-- CHUNK written to WARD_CMD (R52). -/
def execChunk (port : Port) (s : State) : Answer := s.gate port 0x100000 true fun s => commitWard s s.wardChunk

/-- The copy of a chunk ends (R52). -/
def execChunkCopyDone (s : State) : Answer := .next (commitWard s (s.modWard WardSt.copyDone))

/-- FINISH written to WARD_CMD (R51). -/
def execFinish (port : Port) (s : State) : Answer := s.gate port 0x100000 true fun s => commitWard s s.wardFinish

/-- ABORT written to WARD_CMD (R51). -/
def execAbort (port : Port) (s : State) : Answer := s.gate port 0x100000 true fun s => commitWard s s.wardAbort

/-- An undefined code written to WARD_CMD: refused (R51). A defined code does what that code does. -/
def execWardCmdUnknown (port : Port) (value : Word) (s : State) : Answer :=
  s.gate port 0x100000 true fun s => commitWard s (s.wardCmd port value.toNat)

/-- The counter advance of a switch ends (R56). -/
def execAntiRollbackAdvance (ok : Bool) (s : State) : Answer := s.clocked fun s => commitWard s (s.advanceDone ok)

end Sys2Proof.Machine
end

