-- ==== Sys2Proof/Machine/Regs.lean ====
section
/-!
DEFINITION. The host ports: register writes and their access rules, event registers, BAR2 and BAR4, latches, the snapshot,
links and resets (R10 to R12, R353 to R373).
-/
namespace Sys2Proof.Machine

/-! ### Access rules -/

/-- The key of a row for a port: a per-port register, a register of the selected queue, or the offset itself. -/
def State.regKey (s : State) (port : Nat) (r : Row) (off : Nat) : Nat :=
  if r.perPort then portKey port off
  else if r.rule = .queue then queueKey (s.selected port) (off - 0x700000) else off

/-- A port may write a register, by the rules of its block; `ix` are the indices of the row's instance, `k` its key. -/
def State.mayWrite (s : State) (port : Nat) (r : Row) (ix : List Nat) (k : Nat) : Bool :=
  let n := ix.headD 0
  let by' := fun (p : Option Nat) => p.any fun x => s.bound x port
  match r.rule with
  | .any => !r.perPort || k / 2 ^ 26 == port + 1
  | .master => port == s.master
  | .core => by' (s.partOfCore n)
  | .queue => (s.bindOf ((k - 2 ^ 30) / 64)).any fun b => b.port == port
  | .part => s.bound n port
  | .ingPort => by' (s.camOwner n)
  | .ingPipe => by' ((s.streamOf 2 n).bind s.ringOf)
  | .ingScat => by' ((s.scatStream n).bind s.ringOf)
  | .ingStream => by' (s.ringOf n)
  | .vdec => by' (s.vdecOwner n) || (port == s.master && k == vdecKey n 0)
  | .chan => by' ((s.chanEntry n).map (·.part)) && (s.leaderOf n == n || keyOff k % 0x1000 == 0xC || keyOff k % 0x1000 == 0x10)
  | .safe => port == s.master || (s.safetyPart.any fun p => s.bound p.index port)
  | .window => ix.getD 1 0 / 64 == port && s.bound n port

/-- A CAN message object's number and offset, of an offset among the objects of its controller. -/
def objAt (off : Nat) : Option (Nat × Nat × Nat) :=
  let d := (off - 0xD00000) % 0x20000
  if slotOf off = 13 ∧ 0x10000 ≤ d then some ((off - 0xD00000) / 0x20000, (d - 0x10000) / 0x80, d % 0x80) else none

/-- A write that is forbidden whatever the port: to an engine-owned object (R321). Log entry 17. -/
def State.ownedObject (s : State) (off : Nat) : Bool := match objAt off with
  | some (n, i, _) => s.engineOwned n i
  | none => false

/-! ### Links and the snapshot -/

/-- A port changed. -/
def State.modPort (s : State) (p : Nat) (f : PortSt → PortSt) : State := { s with ports := lmod s.ports p f }

/-- The full width of a port (R353): 16, 8 or 4 lanes; 0 where the port does not exist. -/
def State.fullWidth (s : State) (p : Nat) : Nat :=
  if s.nPorts ≤ p then 0
  else match s.boot.laneCfg with
    | 0 => 16
    | 1 => 8
    | 2 => if p = 0 then 8 else 4
    | _ => 4

/-- Every counter with its value, and TIME_NOW, in rising order of their offsets (R370). -/
def State.counterList (s : State) : List (Nat × Nat) :=
  let all := (List.range 16).flatMap fun b => (s.regs.blk b).counters
  let sec := s.now / 1000000000
  ((0x500000, s.time.frac + 2 ^ 32 * (s.now % 1000000000)) :: (0x500008, sec) :: all).foldl (fun l x => alSet l x.1 x.2) []

/-- TAKE (R370, R372). -/
def State.takeSnapshot (s : State) (port v : Nat) : State :=
  if !tbit v 0 then s
  else
    let s1 := s.modPort port fun p => { p with holding := s.counterList }
    (s1.setReg (portKey port 0x24) ((s.rv (portKey port 0x24) + 1) % 2 ^ 32)).setRegs (portKey port 0x28) (tsWords s.now)

/-- RETRAIN (R354): nothing trains while PERST_N holds the port. Log entry 32. -/
def State.retrain (s : State) (port v : Nat) : State :=
  if tbit v 0 && s.linkUp port then s.modPort port fun p => { p with training := true } else s

/-- PCI_BUSERR_CLR bit 0 (R373). -/
def State.buserrLogClear (s : State) (port : Nat) : State :=
  ((s.setReg (portKey port 0x600020) 0).setRegs (portKey port 0x600024) [0, 0]).setRegs (portKey port 0x60002C) [0, 0, 0]

/-- PCI_BUSERR_CLR bit 1 (R373). -/
def State.buserrCountClear (s : State) (port : Nat) : State := s.setReg (portKey port 0x600038) 0

/-! ### Latches (R366 to R369) -/

/-- The keys of a block that can differ from reset. -/
def RegBlock.liveKeys (b : RegBlock) : List Nat :=
  (b.vals.map (·.1) ++ b.shadows.map (·.1) ++ b.caps.map (·.key)).eraseDups

/-- A LATCH_GO of the port captures the register (R366): its new capture. -/
def State.captureOf (s : State) (port mask k : Nat) : Option Capture :=
  match rowAt (keyOff k) with
  | some (r, ix) =>
    if r.acc = .rwl ∧ tbit mask (groupOf k) = true ∧ groupOf k < 32 ∧ s.mayWrite port r ix k = true ∧ s.ownedObject (keyOff k) = false then
      let old := (s.regs.blk (slotOf k)).caps.find? fun c => c.key == k
      let ref := match old with
        | some c => c.value.toNat
        | none => s.rv k
      if s.regs.shadow k = ref then none
      else some ⟨k, toWord (s.regs.shadow k), match old with
        | some c => if c.ports.contains port then c.ports else c.ports ++ [port]
        | none => [port], s.time.elapsed⟩
    else none
  | none => none

/-- A block after the captures of a LATCH_GO. -/
def RegBlock.capture (b : RegBlock) (new : List Capture) : RegBlock :=
  { b with caps := b.caps.filter (fun c => !new.any fun n => n.key == c.key) ++ new }

/-- The channels of whose SEL a list of captures holds a change (R302). -/
def State.selChanged (s : State) (new : List Capture) : List Nat :=
  (List.range 24).filter fun c => new.any fun x => x.key == chKey c 4 && x.value.toNat % 2 != s.activeBank c

/-- The target bank of a captured SEL is validated (R290, R302): a capture of an invalid one is dropped, with BANK_REJECT.
Log entry 24. -/
def State.checkSel (s : State) (c : Nat) : State :=
  if (s.bank c (1 - s.activeBank c)).valid then s
  else (s.dropCaps 12 fun k => k == chKey c 4).chanEvent c 2

/-- GLOBAL_LATCH_GO (R366, R369): LATCH_DONE at once where nothing is left to apply, also on a port whose capture it has replaced
and a check has dropped. Log entries 17, 19. -/
def State.latchGo (s : State) (port mask : Nat) : State :=
  if mask = 0 then s
  else
    let new := (List.range 16).flatMap fun b => (s.regs.blk b).liveKeys.filterMap fun k => s.captureOf port mask k
    let put : State → Nat → State := fun t b =>
      { t with regs := t.regs.setBlk b ((t.regs.blk b).capture (new.filter fun c => min (slotOf c.key) 15 == b)) }
    let s1 := (List.range 16).foldl put s
    let s2 := ((s.selChanged new).foldl State.checkSel s1).latchDone s
    if new.isEmpty || s2.latchPend port == 0 then s2.raise (portKey port 0x40) 1 else s2

/-- A channel applies its captures, with the checks of its boundary (R302, R303, R367): at a boundary on its grid, and at any time
while PD5 is not ON, where it has no grid. A channel without an entry has nothing to check. Log entry 18. -/
def State.chanLatch (s : State) (c : Nat) : State :=
  if (s.chanEntry c).isNone then s.applyReady 12 (fun x => x.isOf 2 c || x.isOf 3 c) id
  else if !s.domOn 5 || ((s.boundary c).isSome && !s.sampling c) then s.chanBoundary c else s

/-- A camera port, or a pipe (from 16), is not operating (R367): no Frame Start that it takes can arrive, its port being disabled,
off or without a link. Log entry 18. -/
def State.camIdle (s : State) (i : Nat) : Bool :=
  if i < 16 then !s.camOn i else !((List.range 16).any fun n => s.pipeOf n == some (i - 16) && s.camOn n)

/-- A decoder stream is not operating (R367): disabled, off, or without an owner. Log entry 18. -/
def State.vdecIdle (s : State) (st : Nat) : Bool :=
  !s.domOn 7 || !tbit (s.rv (vdecKey st 0)) 31 || (s.vdecOwner st).isNone

/-- A ring takes no buffer as things stand (R250, R367): it runs no windows, and no depot batch is being built or due. -/
def State.ringIdle (s : State) (p : Nat) : Bool :=
  if s.ringDepot p then !s.depOn p || ((s.depWin p).isNone && !s.depHas p) else !s.ringRuns p

/-- An alignment stream, a ring or a depot ring applies its captures while its ring is idle; the ring applies with it. -/
def State.ringLatch (s : State) (i : Nat) : State :=
  match if i < 64 then s.ringOf i else some (i - 64) with
  | some p => if s.ringIdle p then s.ringBoundary p else s
  | none => s.applyReady 8 (fun c => c.isOf 5 i) State.refreshRings

/-- A queue is without a running or suspended job (R246). -/
def State.queueIdle (s : State) (q : Nat) : Bool :=
  (s.queue q).susp.isNone && !(s.comp.parts.any fun p => p.job.any fun j => j.queue == q)

/-- The pool of a partition has no context that is swapped or on its way (R218). -/
def State.poolIdle (s : State) (p : Nat) : Bool :=
  !((s.ctxs p).any fun x => x.2.state == .swappingOut || x.2.state == .swapped || x.2.state == .swappingIn)

/-- No command of a core is open (R126). -/
def State.coreIdle (s : State) (n : Nat) : Bool := match s.partOfCore n, s.comp.parts[(s.partOfCore n).getD 8]?.bind (·.job) with
  | some p, some j => j.targets.all fun x => !x.cmdOpen || !(s.coresOf p x.id).contains n
  | _, _ => true

/-- The captures of an instance apply, with those of its other groups, where it stands at a boundary (R367, R368): an instance whose
boundary is an event with a row of its own (a Frame Start, a sweep start, a picture) only while it is not operating; those of PWR
apply with the governor's evaluation (R445). Log entry 18. -/
def State.latchApply (s : State) (g i : Nat) : State :=
  let all := s.applyReady (slotOfGroup g) (fun c => c.isOf g i) id
  match g with
  | 0 => s.applyReady 6 (fun c => c.isOf 0 i && keyOff c.key != 0x600008) id
  | 2 => s.chanLatch i
  | 3 => if i < 24 then s.chanLatch i else all
  | 4 => if s.camIdle i then
      s.applyReady 8 (fun c => c.isOf 4 i) fun t => t.pipeApply (if i < 16 then s.pipeOf i else some (i - 16)) else s
  | 5 => s.ringLatch i
  | 6 => if s.scatOn i then s else s.scatBoundary i
  | 7 => if s.vdecIdle i then s.vdecBoundary i else s
  | 8 => if s.queueIdle i then all else s
  | 9 => if i < 8 then (s.canCtlPart i).canApply i fun c => c.isOf 9 i else s.canApply ((i - 8) / 128) fun c => c.isOf 9 i
  | 10 => s.t1sApply i
  | 11 => if i = 0 then s.timeApply else if i < 9 then s.ptpApply (i - 1) else s.pgApply (i - 9)
  | 12 => if s.poolIdle i then all else s
  | 13 => s.ethApply i
  | 14 => s
  | 15 => if s.drive then s else s.safeBoundary
  | g => if g < 16 then all else if s.coreIdle (g - 16) then s.applyCore (g - 16) else s

/-! ### Register writes -/

/-- A write to a loader's aperture. -/
def aperturePut (m : Mem) (o v : Nat) : Mem := m.writeBytes o (natLe 4 v)

/-- A write to a WO register does what its command does (R11). Log entries 14, 80. -/
def State.regCommand (s : State) (port off v : Nat) : State :=
  let code := field v 0 3
  if off = 0x10 then s.latchGo port v
  else if off = 0x20 then s.takeSnapshot port v
  else if off = 0x100000 then s.wardCmd port v
  else if 0x110000 ≤ off ∧ off < 0x120000 then
    s.modWard fun w => { w with aperture := aperturePut w.aperture (off - 0x110000) v }
  else if off = 0x200004 then
    let s1 := if tbit v 0 then s.doResume (field v 16 16) else s
    if tbit v 1 then s1.detect 4 0xFF 2 else s1
  else if off = 0x2400C0 then
    let s1 := if tbit v 0 then s.memCountersClear else s
    if tbit v 1 then s1.memLogClear else s1
  else if off = 0x300120 then s.attGo port v
  else if off = 0x300200 then
    match code with
    | 1 => s.mbBegin
    | 2 => s.mbChunk
    | 3 => s.mbEnrol
    | 4 => s.mbFwUpdate
    | 5 => s.mbAbort
    | _ => s
  else if off = 0x300320 then
    if !s.bound code port then s.busError port 0 3 off else if tbit v 31 then s.measure' port code else s
  else if 0x310000 ≤ off ∧ off < 0x320000 then
    s.modMb fun m => { m with aperture := aperturePut m.aperture (off - 0x310000) v }
  else if off = 0x500014 then
    match field v 0 2 with
    | 1 => s.doStep
    | 2 => s.doRelease
    | _ => s
  else if off = 0x60000C then s.retrain port v
  else if off = 0x60003C then
    let s1 := if tbit v 0 then s.buserrLogClear port else s
    if tbit v 1 then s1.buserrCountClear port else s1
  else if off = 0x700020 then if tbit v 0 then s.resetQueue (s.selected port) else s
  else if off = 0x980000 then
    let s1 := if tbit v 0 then s.evict fun id => id == s.cacheId else s
    if tbit v 1 then s1.evict fun _ => true else s1
  else if slotOf off = 14 then
    let q := (off - 0xE80000) / 0x10000
    if off % 0x10000 = 0x24 then s.t1sPop q v else s.t1sGo q v
  else match objAt off with
    | some (n, i, _) => s.objCmd n i v
    | none => s

/-- MSI-X vector control: a vector unmasked sends its pending message (R365). Log entry 16. -/
def State.vectorControl (s : State) (port k v : Nat) : State :=
  let n := (keyOff k - 0x640000) / 16
  let s1 := s.setReg k v
  if !tbit v 0 && tbit (s.rv (pbaKey port n)) (n % 32) then
    (s1.setReg (pbaKey port n) (clearBits (s.rv (pbaKey port n)) (2 ^ (n % 32)))).sendVector port n
  else s1

/-- A bank of a channel counts as active (R302): in force, a captured change of SEL waits, or a withheld sample runs it again,
with its INIT (R306). -/
def State.bankActive (s : State) (c b : Nat) : Bool :=
  b == s.activeBank c || (s.regs.ctl.caps.any fun x => x.key == chKey c 4 && x.value.toNat % 2 != s.activeBank c) ||
  ((s.chan c).withheld.any fun n => n.bank == b || n.init == some b) || (s.chan c).initDue == some b

/-- ATTN_POOL_LOW is written (R218): LOW is raised when the free slots next fall below the new threshold. -/
def State.lowSet (s : State) (p : Nat) : State := match s.part p with
  | some e =>
    let low := decide (s.freeCount p e < s.rv (poolKey p 0x10))
    { s with kv := { s.kv with pools := lmod s.kv.pools p fun q => { q with wasLow := low } } }
  | none => s

/-- A write to a RW register takes effect at once (R11), as far as its block allows. `x` is the value masked and fixed.
Log entries 14, 84. -/
def State.regNow (s : State) (port off k x : Nat) : State :=
  if off = 0x500020 then if s.servoOn then s else s.setAddend x
  else if slotOf off = 6 ∧ 0x640000 ≤ off ∧ off < 0x648000 ∧ off % 16 = 12 then s.vectorControl port k x
  else if slotOf off = 8 ∧ off < 0x810000 ∧ off % 0x1000 = 0x18 then s.cciGo ((off - 0x800000) / 0x1000) x
  else if slotOf off = 11 ∧ 0xB30000 ≤ off ∧ off % 0x40 = 0x10 then (s.setReg k x).lowSet ((off - 0xB30000) / 0x40)
  else if slotOf off = 12 ∧ 0xC10000 ≤ off then
    let c := (off - 0xC10000) / 0x1000
    let o := off % 0x1000
    if 0x100 ≤ o ∧ o < 0x180 then if tbit (s.rv (chKey c 0)) 31 then s.chanEvent c 4 else s.setReg k x
    else if 0x400 ≤ o then if s.bankActive c ((o - 0x400) / 0x600) then s.chanEvent c 4 else s.setReg k x
    else s.setReg k x
  else if slotOf off = 14 ∧ 0xE80000 ≤ off ∧ 0x1000 ≤ off % 0x10000 then
    if (s.t1sOf ((off - 0xE80000) / 0x10000)).tx.isSome then s else s.setReg k x
  else match objAt off with
    | some (n, i, o) => s.objWrite n i o x
    | none => if slotOf off = 13 ∧ off % 0x20000 = 0x38 then s.wakeWrite ((off - 0xD00000) / 0x20000) x else s.setReg k x

/-- A write to a RWL register goes to its shadow (R11, R366); INIT of CAN_CTL and OWNER of VDEC_STR_CFG act at once.
Log entries 84, 85. -/
def State.regShadow (s : State) (port off k x : Nat) : State :=
  if slotOf off = 13 ∧ off % 0x20000 = 0 then
    let n := (off - 0xD00000) / 0x20000
    let s1 := { s with regs := s.regs.setShadow k (putField x 0 1 (s.canCtl n)) }
    if tbit x 0 then
      let (d, s2) := s1.draw
      s2.initSet n (d % 2 == 1)
    else s1.initClear n
  else if slotOf off = 9 ∧ off < 0x940000 ∧ off % 0x1000 = 0 then
    let n := (off - 0x900000) / 0x1000
    let o := field x 16 4
    let s1 := if port = s.master then s.setLive k 16 4 (if 8 ≤ o then 15 else o) else s
    if (s.vdecOwner n).any fun p => s.bound p port then
      { s1 with regs := s1.regs.setShadow k (putField x 16 4 (field (s1.rv k) 16 4)) }
    else s1
  else { s with regs := s.regs.setShadow k x }

/-- The rules let a port write the register at an offset (R361, R448): its block can be written in this phase, its rules admit the
port, no engine owns the object. Log entries 9, 14, 17. -/
def State.allows (s : State) (port off : Nat) : Bool := match rowAt off with
  | some (r, ix) => s.phaseOk off && s.mayWrite port r ix (s.regKey port r off) && !s.ownedObject off
  | none => false

/-- A write of one aligned DWORD to BAR0, from a port that exists (R11, R12, R359 to R361, R448): what the rules forbid to the port
is a bus error, whatever the access code of the register (R218). Log entry 14. -/
def State.regWrite (s : State) (port off v : Nat) : State :=
  if off % 4 ≠ 0 then s.busError port 0 4 off
  else match rowAt off with
    | none => s.busError port 0 2 off
    | some (r, _) =>
      let k := s.regKey port r off
      let x := r.fix (v &&& r.mask)
      if !s.allows port off then s.busError port 0 3 off
      else match r.acc with
        | .ro => s
        | .wo => s.regCommand port off v
        | .w1c => s.w1c k x
        | .rwl => s.regShadow port off k x
        | .rw => s.regNow port off k x

/-- Offsets of the apertures that accept longer writes (R359): WARD_CHUNK_BUF and T1S_TX_WIN, the first and the one after the
last. -/
def wideApertures : List (Nat × Nat) :=
  (0x110000, 0x120000) :: (List.range 4).map fun q => (0xE81000 + 0x10000 * q, 0xE81600 + 0x10000 * q)

/-- A longer write lies in one aperture and within the payload size in force (R359). -/
def State.wideOk (s : State) (port off n : Nat) : Bool :=
  off % 4 == 0 && decide (4 * n ≤ 128 * 2 ^ (s.pciCfg port).payload.val) &&
  wideApertures.any fun a => decide (a.1 ≤ off) && decide (off + 4 * n ≤ a.2)

/-- A write request of one or more DWORDs to BAR0 (R359): a forbidden one is one bus error (R361). Log entry 14. -/
def State.regWrites (s : State) (w : RegWrite) : State :=
  if w.more.isEmpty then s.regWrite w.port w.off w.value.toNat
  else if !s.wideOk w.port w.off (w.more.length + 1) then s.busError w.port 0 4 w.off
  else if !s.allows w.port w.off then s.busError w.port 0 3 w.off
  else (w.value :: w.more).zipIdx.foldl (fun s x => s.regWrite w.port (w.off + 4 * x.2) x.1.toNat) s

/-- What a write to a register may change, by its block: registers, outputs and free values drawn; the state behind the
block's commands. No register write advances an anti-rollback counter. -/
def commitRegs (off : Nat) (s t : State) : State :=
  let b := off / 0x100000
  { s with fresh := t.fresh, out := t.out, regs := t.regs,
           ports := if b = 0 ∨ b = 6 then t.ports else s.ports,
           ward := if b = 1 then t.ward else s.ward,
           sec := if b = 1 ∨ b = 3 then { t.sec with counters := s.sec.counters } else s.sec,
           safe := if b = 2 then t.safe else if b = 5 ∨ b = 7 ∨ b = 9 then t.safe.carry s.safe else s.safe,
           time := if b = 5 then t.time else s.time,
           pwr := if b = 5 then t.pwr else s.pwr,
           comp := if b = 7 ∨ b = 9 then t.comp else s.comp,
           kv := if b = 11 then t.kv else s.kv,
           ing := if 7 ≤ b ∧ b ≤ 9 then t.ing else s.ing,
           can := if b = 2 ∨ b = 13 then t.can else s.can,
           t1s := if b = 14 then t.t1s else s.t1s }

/-- A write to a register that has no row of its own; a register with rows of its own does what they say. -/
def execRegisterWrite (w : RegWrite) (s : State) : Answer :=
  s.onPort w.port fun s => commitRegs w.off s (s.regWrites w)

/-- A write to a W1C register (R11, R365). -/
def execEventRegisterW1c (w : RegWrite) (s : State) : Answer :=
  s.onPort w.port fun s => match rowAt w.off with
    | some (r, _) =>
      if r.acc = .w1c ∧ w.off % 4 = 0 then
        let t := s.regWrites w
        { s with regs := t.regs, out := t.out }
      else s
    | none => s

/-! ### BAR2, BAR4, malformed and reserved accesses -/

/-- What a bus error may change (R361). -/
def commitBus (s t : State) : State := { s with ports := t.ports, regs := { s.regs with pci := t.regs.pci }, out := t.out }

/-- A read of BAR2 (R362). -/
def execBar2Read (port : Port) (off _len : Nat) (s : State) : Answer :=
  s.onPort port fun s => commitBus s (s.readError port 2 4 off)

/-- The partition and the DRAM offset that a BAR4 access reaches (R363). -/
def State.segment (s : State) (port off len : Nat) (write : Bool) : Option (Nat × Nat) :=
  let k := off / 2 ^ 32
  let lo := s.rv (portKey port (0x600100 + 8 * k))
  let p := field lo 16 3
  let x := s.rv (portKey port (0x600104 + 8 * k)) % 2 ^ 16 * 2 ^ 21 + off % 2 ^ 32
  if k < 16 ∧ tbit lo 31 = true ∧ (write = false ∨ tbit lo 30 = true) ∧ off % 2 ^ 32 + len ≤ 2 ^ 32 ∧ s.bound p port = true ∧
      s.inDram p x len = true then some (p, x) else none

/-- A read of a partition's DRAM through BAR4 (R363): the tower serves it (R153), it is counted (R159), and poison that it meets is
an uncorrected error (R139, R161). Log entry 34. -/
def State.bar4Serve (s : State) (port p x len : Nat) : State :=
  let t := (s.countRead p x len).emit (.readData port (s.readDram p x len) (s.placePoisoned p (.dram x) len))
  (t.dramErrors [] [] [⟨((s.dramOf p).getD (0, 0)).1 + x, len⟩]).1

/-- A read of BAR4 (R363). -/
def execBar4Read (port : Port) (off len : Nat) (s : State) : Answer :=
  s.onPort port fun s => match s.segment port off len false with
    | some (p, x) => commitStep s (s.bar4Serve port p x len)
    | none => commitBus s (s.readError port 4 6 off)

/-- A write to BAR4 (R363). -/
def execBar4Write (port : Port) (off : Nat) (data : List Byte) (s : State) : Answer :=
  s.onPort port fun s => match s.segment port off data.length true with
    | some (p, x) =>
      let t := s.writeDram p x data
      { s with dram := t.dram, regs := { s.regs with pwr := t.regs.pwr } }
    | none => commitBus s (s.busError port 4 6 off)

/-- A malformed access to BAR0 (R359, R361). -/
def execMalformedAccess (port : Port) (off : Nat) (write : Bool) (s : State) : Answer :=
  s.onPort port fun s => commitBus s (if write then s.busError port 0 4 off else s.readError port 0 4 off)

/-- An access to a reserved or unimplemented location (R12, R361). -/
def execReservedLocationAccess (port : Port) (bar : Fin 5) (off : Nat) (write : Bool) (s : State) : Answer :=
  s.onPort port fun s =>
    if bar = 0 ∧ off % 4 = 0 ∧ (rowAt off).isNone = true then
      commitBus s (if write then s.busError port 0 2 off else s.readError port 0 1 off)
    else s

/-! ### Latch and snapshot commands -/

/-- What LATCH_GO may change. -/
def commitLatch (s t : State) : State := { s with regs := t.regs, out := t.out }

/-- GLOBAL_LATCH_GO (R366). -/
def execLatchGo (port : Port) (mask : Word) (s : State) : Answer :=
  s.gate port 0x10 true fun s => commitLatch s (s.latchGo port mask.toNat)

/-- What the apply of captures may change. -/
def commitApply (s t : State) : State :=
  { s with regs := t.regs, out := t.out, ctl := t.ctl, ing := t.ing, can := t.can, t1s := t.t1s, eth := t.eth, time := t.time,
           safe := t.safe.carry s.safe, fresh := t.fresh }

/-- The instance `index` of latch group `slot` reaches its boundary (R367, R368). -/
def execLatchApply (slot : Fin 32) (index : Nat) (s : State) : Answer := .next (commitApply s (s.latchApply slot index))

/-- What a snapshot may change. -/
def commitSnap (s t : State) : State := { s with ports := t.ports, regs := { s.regs with global := t.regs.global } }

/-- GLOBAL_SNAP (R370). -/
def execSnapshot (port : Port) (value : Word) (s : State) : Answer :=
  s.gate port 0x20 true fun s => commitSnap s (s.takeSnapshot port value.toNat)

/-! ### Links -/

/-- PCI_PORT_CMD (R354, R373). -/
def execRetrain (port : Port) (value : Word) (s : State) : Answer :=
  s.gate port 0x60000C true fun s => { s with ports := (s.retrain port value.toNat).ports }

/-- The port's link can train (R354, R480): PERST_N does not hold the port. -/
def State.canTrain (s : State) (p : Nat) : Bool := (s.ports[p]?).any fun x => !x.perst

/-- Training has ended with a width and a speed (R354): a captured MAX_SPEED takes effect with it. Log entry 32. -/
def State.trained (s : State) (p width speed : Nat) : State :=
  let k := portKey p 0x600008
  let s1 := s.applyCaps 6 fun c => c == k
  let mx := s1.rv k % 8
  if s.canTrain p && [1, 2, 4, 8, 16].contains width && decide (width ≤ s.fullWidth p) && decide (1 ≤ speed) && decide (speed ≤ mx) then
    ((s1.modPort p fun x => { x with width := width, speed := speed, maxSpeed := mx, training := false }).raise
      (portKey p 0x600010) 2).latchDone s
  else s

/-- The link returns to L0 after training (R354). -/
def execLinkTrainingComplete (port : Port) (width speed : Nat) (s : State) : Answer :=
  s.onLink port fun s =>
    let t := s.trained port width speed
    { s with ports := t.ports, regs := { s.regs with pci := t.regs.pci, global := t.regs.global }, out := t.out }

/-- A register of a port's own state (R358): its PCI registers and MSI-X table, its window table entries. Log entry 31. -/
def portOwn (p k : Nat) : Bool :=
  (slotOf k == 6 && k / 2 ^ 26 == p + 1) ||
  (decide (0x610000 ≤ k) && decide (k < 0x618000) && k % 0x1000 / 16 / 64 == p)

/-- A block of registers without a port's pending bits (R358). -/
def RegBlock.forgetPort (b : RegBlock) (p : Nat) : RegBlock :=
  { b with caps := b.caps.map fun c => { c with ports := c.ports.filter (· != p) } }

/-- The store without a port's pending bits. Log entry 31. -/
def Regs.forgetPort (r : Regs) (p : Nat) : Regs :=
  (List.range 16).foldl (fun r b => r.setBlk b ((r.blk b).forgetPort p)) r

/-- The level of PERST_N after an event at a port (R358, R480). -/
def heldAfter (kind : PortResetKind) (x : PortSt) : Bool := match kind with
  | .perst => true
  | .perstEnd => false
  | _ => x.perst

/-- A port's own state is reset (R358): captures remain and apply; the link goes down but for a Function Level Reset. The end of
PERST_N resets nothing: the port is free to train (R480). Log entry 31. -/
def State.portReset (s : State) (p : Nat) (kind : PortResetKind) : State :=
  if kind = .perstEnd then s.modPort p fun x => { x with perst := false } else
  let b := s.regs.pci
  let pci := { b with vals := b.vals.filter fun x => !portOwn p x.1, shadows := b.shadows.filter fun x => !portOwn p x.1 }
  let regs := ({ s.regs with pci := pci } : Regs).forgetPort p
  let port : PortSt → PortSt := fun x => match kind with
    | .flr => { x with holding := [], maxSpeed := 5, cfg := {}, aer := 0 }
    | _ => { PortSt.reset with perst := heldAfter kind x }
  { s with regs := regs, ports := lmod s.ports p port }

/-- PERST_N and its end, a Function Level Reset, a hot reset, a link-down event (R358, R480); a port that does not exist ignores
them (R471). Of a module without power only the level of the pin is kept. Log entry 16. -/
def execPortReset (port : Port) (kind : PortResetKind) (s : State) : Answer :=
  if s.alive || !s.exists' port then s.onLink port fun s => s.portReset port kind
  else .next (s.modPort port fun x => { x with perst := heldAfter kind x })

/-- A vector whose pending bit is set is sent where nothing masks it any more (R365). -/
def State.sendPending (s : State) (port v : Nat) : State :=
  if tbit (s.rv (pbaKey port v)) (v % 32) && !tbit (s.rv (msixKey port v 12)) 0 then
    (s.setReg (pbaKey port v) (clearBits (s.rv (pbaKey port v)) (2 ^ (v % 32)))).sendVector port v
  else s

/-- The vectors of a port whose pending-bit words are not zero. -/
def State.pendingVectors (s : State) (port : Nat) : List Nat :=
  (s.regs.pci.vals.filter fun x => decide (pbaKey port 0 ≤ x.1) && decide (x.1 < pbaKey port 0 + 256)).flatMap fun x =>
    (List.range 32).map fun b => (x.1 - pbaKey port 0) / 4 * 32 + b

/-- The link comes up (R239), but not while PERST_N holds the port (R480), and the host configures the function (R355): where that
leaves no function mask, what is pending goes out. Log entry 16. -/
def State.linkComes (s : State) (port : Nat) (cfg : PciCfg) : State :=
  if !s.canTrain port then s
  else
    let s1 := s.modPort port fun x => { x with up := true, cfg := cfg }
    if cfg.msixEnable && !cfg.msixMask && !cfg.d3hot then
      (s1.pendingVectors port).foldl (fun s v => s.sendPending port v) s1
    else s1

/-- The link comes up (R239, R355). -/
def execLinkUp (link : LinkRise) (s : State) : Answer :=
  s.onLink link.port fun s => commitBus s (s.linkComes link.port link.cfg)

/-- PCI_BUSERR_CLR bit 0 (R373). -/
def execBuserrLogClear (port : Port) (s : State) : Answer :=
  s.gate port 0x60003C true fun s => { s with regs := (s.buserrLogClear port).regs }

/-- PCI_BUSERR_CLR bit 1 (R373). -/
def execBuserrCountClear (port : Port) (s : State) : Answer :=
  s.gate port 0x60003C true fun s => { s with regs := (s.buserrCountClear port).regs }

end Sys2Proof.Machine
end

