-- ==== Sys2Proof/Machine/Boot.lean ====
section
/-!
DEFINITION. Start-up, self-test, key-off, parking and wake (R403, R407, R446 to R456, R465).
-/
namespace Sys2Proof.Machine

/-! ### Cold start -/

/-- What power loss leaves of a counter write, an enrolment or a bank write in progress (R408, R409, R411): each counter and slot
old or new; of the package in a bank, where its write had begun, a part that is not whole. The choices are free values.
Log entry 69. -/
def SecSt.cut (c : SecSt) (epoch : Nat) : SecSt :=
  let free : Nat → Nat := fun i => Config.freeNat (epoch + i)
  let b := c.mb.bytes
  let c1 := match c.engine.head? with
    | some (.advance n v) => if free 0 % 2 = 1 then { c with counters := c.advanced n v } else c
    | some (.enrol _) =>
      if c.puf = 1 ∧ c.enrolCheck b true = 0 ∧ free 0 % 3 ≠ 0 then
        { c with slots := c.slots.set (leAt b 5 1 - 1) (enrolKey b)
                 counters := if free 0 % 3 = 2 then c.advanced 3 (leAt b 8 4) else c.counters }
      else c
    | _ => c
  if c.mb.state = 2 ∧ c.enrolling = false ∧ c.puf = 1 ∧ c.fwCheck b true = 0 ∧ free 1 % 2 = 1 then
    { c1 with banks := c1.banks.set (1 - c.bank) (some (b.take (free 2 % b.length))) }
  else c1

/-- What secure flash keeps without power (R407 to R411): the banks, the preferred bank, the counters, the write count, the key
slots; the random generator is seeded anew, and the security engine draws a new session value and new swap nonces as PD2 powers up
(R404, R416, R417). Log entry 70. -/
def SecSt.powerUp (k : SecSt) (epoch : Nat) : SecSt :=
  let c := k.cut epoch
  { SecSt.reset with banks := c.banks, preferred := c.preferred, counters := c.counters, slots := c.slots, writes := c.writes,
                     unknown := c.unknown, seed := epoch, ivSession := ⟨epoch, 0⟩,
                     nonces := (List.range 8).map fun p => ⟨epoch, 1 + p⟩ }

/-- What the pins show as PD1 to PD28 lose their power: the deadbolt pins low (R383, R465), the pulse pins low (R477), the supplies of
the SENT sensors off (R479). -/
def State.dark (s : State) : State :=
  let t := s.stopHeartbeat.pinsOff
  if t.domOn 5 then t.emit (.sentSup false) else t

/-- Every domain reset (R446): the registers at their reset values, undefined what memory BIST has not yet cleared; the
model's queue, outputs and count of free values stand, and the level of each PERST_N. Log entries 16, 70, 90. -/
def State.cold (s : State) : State :=
  { State.reset with pending := s.pending, out := s.dark.out, fresh := s.fresh + 32, comp := .reset s.fresh,
                     kv := .reset (s.fresh + 16), sec := s.sec.powerUp s.fresh,
                     ports := s.ports.map fun x => { PortSt.reset with perst := x.perst } }

/-- The governor of a module in which only the first `n` domains are powered (R426, R453, R465). -/
def PwrSt.only (n : Nat) : PwrSt :=
  { PwrSt.reset with doms := (List.range 29).map fun d => { DomSt.reset d with state := if d < n then .on else .off } }

/-- What the next start-up knows of a key-off test that power loss cut off (R454). Log entry 71. -/
def BootSt.cutRecords (b : BootSt) : List FaultRec := if b.keyOffCut then b.keyOffRecords else []

/-- Power good (R446): the straps are sampled. -/
def State.powerGood (s : State) (laneCfg cfgmSel : Nat) : State :=
  let c := s.cold
  { c with boot := { c.boot with laneCfg := laneCfg, cfgmSel := cfgmSel, keyOffRecords := s.boot.cutRecords } }

/-- The power stage shuts off (R465): every domain loses power, and the deadbolt pins are low. -/
def State.powerOff (s : State) : State :=
  let c := s.cold
  { c with boot := { c.boot with powered := false, laneCfg := s.boot.laneCfg, cfgmSel := s.boot.cfgmSel,
                                 keyOffRecords := s.boot.cutRecords, keyOffCut := s.boot.keyOffCut }
           pwr := .only 0 }

/-- The reference oscillator runs (R334, R447): the time base leaves coarse mode. -/
def State.oscRuns (s : State) : State :=
  if s.alive then
    { s with boot := { s.boot with refOsc := true }, time := { s.time with coarse := false },
             pwr := { s.pwr with oscLost := false } }
  else s

/-- Root key recovery ends (R403, R447). -/
def State.pufDone (s : State) (ok : Bool) : State :=
  if s.alive && s.sec.puf == 0 then { s with sec := { s.sec with puf := if ok then 1 else 2 } } else s

/-! ### Firmware (R407, R435) -/

/-- VERSION, SECURITY_VERSION and digest of the package in a bank, where it passes (R407). Of the package that the bank held
when the module was made the model has no bytes: whether it passes is given. Log entry 69. -/
def SecSt.bankFw (c : SecSt) (bank : Nat) (counterOk : Bool) (factory : Nat → Bool) : Option (Nat × Nat × List Byte) :=
  match c.banks.getD bank none with
  | some b => if c.fwCheck b counterOk = 0 then some (leAt b 0x10 4, leAt b 0x14 4, sm3 b) else none
  | none =>
    let (v, sv) := Config.factoryFw bank
    if factory bank && counterOk && decide (c.counters.getD 0 0 ≤ sv) then
      some (v % 2 ^ 32, sv % 2 ^ 32, (List.range 32).map (Config.factoryDigest bank)) else none

/-- The domains that a start-up leaves off are on while a self-test runs on them (R448), PD5 with the supplies of its sensors
(R479). -/
def State.testDomains (s : State) (st : DomState) : State :=
  let put : DomSt × Nat → DomSt := fun x => if 5 ≤ x.2 then { x.1 with state := st } else x.1
  ({ s with pwr := { s.pwr with doms := s.pwr.doms.zipIdx.map put } } : State).supplied s

/-- The firmware of a bank starts (R407), and with it LBIST (R447); its SECURITY_VERSION advances the counter behind it. Log
entry 69. -/
def State.startFw (s : State) (bank : Nat) (fallback writeOk : Bool) (f : Nat × Nat × List Byte) : State :=
  let sec := { s.sec with fwRunning := true, bank := bank, fallback := fallback, fwVersion := f.1, fwSecver := f.2.1, fwDigest := f.2.2 }
  let t := ({ s with sec := sec }).testDomains .on
  if t.sec.counters.getD 0 0 < f.2.1 then t.writeCounter 0 f.2.1 writeOk else t

/-- The device's voltage table is checked; the default table is taken where it fails (R435). Log entry 73. -/
def State.checkTable (s : State) (valid : Bool) : State :=
  let t := { s with pwr := { s.pwr with vtDefault := !valid } }
  if valid then t else t.pwrEvent 0

/-- The first of two banks whose package passes starts (R407); where none passes only the boot ROM runs. `a` is the
preferred bank, `fa` and `fb` what it and the other hold. Log entry 69. -/
def State.fwStart (s : State) (a : Nat) (writeOk : Bool) (fa fb : Option (Nat × Nat × List Byte)) : State :=
  match fa, fb with
  | some f, _ => s.startFw a false writeOk f
  | none, some f => s.startFw (1 - a) true writeOk f
  | none, none => { s with sec := { s.sec with romOnly := true } }

/-- The boot ROM tries the preferred bank, then the other, and starts the first that passes (R407); the voltage table is
checked (R435). `factory` says of each bank whether the package it was made with passes. -/
def State.fwBoot (s : State) (counterOk writeOk : Bool) (factory : Nat → Bool) : State :=
  if !(s.alive && s.sec.puf == 1 && !s.sec.fwRunning && !s.sec.romOnly) then s
  else
    let a := s.sec.preferred
    ((s.readCounter 0 counterOk).checkTable vtValid).fwStart a writeOk (s.sec.bankFw a counterOk factory)
      (s.sec.bankFw (1 - a) counterOk factory)

/-! ### Self-test (R449 to R451) -/

/-- UNIT of a domain in a self-test record (R451). -/
def domUnit (d : Nat) : Nat := if d < 9 then 64 + d else if d < 13 then 16 + (d - 9) else d - 13

/-- The mailbox, the engine's operations and the loader start from their reset values (R449): the firmware, the recovered key, what
was drawn at power-up and the flash stand; a report in progress is not made. Log entry 71. -/
def State.resetPd2 (s : State) : State :=
  let t := (List.range 4).foldl (fun (s : State) p =>
    if tbit (s.rv (portKey p 0x300124)) 0 then s.setReg (portKey p 0x300124) 0 else s) s
  { t with ward := .reset, sec := { t.sec with mb := .reset, engine := [] } }

/-- The logic of PD4 starts from its reset values (R449): the buses, the PTP ports, the pulse generators. Log entry 71. -/
def State.resetPd4 (s : State) : State :=
  let idle : PulseSt → PulseSt := fun p => { p with armed := false, nextEdge := 0, high := false, since := 0 }
  let t : State := { s with can := State.reset.can, t1s := State.reset.t1s, eth := State.reset.eth
                            time := { s.time with ptp := TimeSt.reset.ptp, pulse := s.time.pulse.map idle } }
  t.restPins

/-- A domain's logic is reset when its test ends (R449): of PD1 to PD28 what their blocks hold beyond the register store, of PD4
and PD3 where asked; a hard cause stands until the next power-up (R381). Log entry 71. -/
def State.logicReset (s : State) (ports buses : Bool) : State :=
  let t := if buses then s.resetPd2.resetPd4 else s.resetPd2
  { t with safe := { SafeSt.reset with hard := t.safe.hard }, comp := .reset t.fresh, kv := .reset (t.fresh + 16),
           fresh := t.fresh + 32, ing := .reset, ctl := .reset
           ports := if ports then t.ports.map fun x => { PortSt.reset with perst := x.perst } else t.ports }

/-- The start-up LBIST ends (R449, R451): PD1 to PD28, without PD4 on a wake (R456). The host ports come up in parallel (R447), so
that their links stand. Log entry 71. -/
def State.lbistDone' (s : State) (fails invalid : List Nat) : State :=
  if !(s.alive && s.sec.fwRunning && !s.boot.lbistDone && s.boot.keyOff == .none) then s
  else
    let doms := (List.range 29).filter fun d => d != 0 && !(d == 4 && s.boot.wakeStart)
    let recs := doms.flatMap fun d =>
      (if fails.contains d then [(⟨0, domUnit d, 0x0428, s.now⟩ : FaultRec)] else []) ++
      (if invalid.contains d then [⟨0, domUnit d, 0x0429, s.now⟩] else [])
    { s.logicReset false (!s.boot.wakeStart) with boot := { s.boot with lbistDone := true, records := s.boot.records ++ recs } }

/-- A unit that memory BIST can name (R451): core, staging buffer, tower, domain. -/
def bistUnit (u : Nat) : Bool := decide (u < 20) || (decide (24 ≤ u) && decide (u ≤ 27)) || (decide (65 ≤ u) && decide (u ≤ 72))

/-- A word of the CAN message memories: the data of an object (R327, R450). -/
def isCanData (k : Nat) : Bool :=
  let d := (keyOff k - 0xD00000) % 0x20000
  slotOf k == 13 && decide (0x10000 ≤ d) && decide (d < 0x14000) && decide (0x40 ≤ d % 0x80)

/-- A scratchpad that memory BIST has tested: 0, with valid check bits (R450). -/
def Pad.tested (p : Pad) : Pad := { p with fills := p.fills.map fun _ => .zero, cells := [], poison := [] }

/-- Every location that memory BIST tests is left at 0 (R450): the DRAM, the scratchpads, the staging buffers, the CAN message
memories; the control engine's banks and state words are registers, which stand at 0 until the block can be written (R448).
Log entry 71. -/
def State.marched (s : State) : State :=
  { s with dram := { s.dram with mem := .zero, poison := [] }
           comp := { s.comp with cores := s.comp.cores.map fun c => { c with pad := c.pad.tested } }
           kv := { s.kv with engines := s.kv.engines.map fun e => { e with staging := .zero, poison := [] } }
           can := s.can.map fun c => { c with objs := [] }
           regs := { s.regs with can := { s.regs.can with vals := s.regs.can.vals.filter fun x => !isCanData x.1 } } }

/-- Memory BIST ends (R450, R451): every location tested at 0, and the failures recorded. Log entry 71. -/
def State.mbistDone' (s : State) (fails : List Nat) : State :=
  if !(s.alive && s.boot.lbistDone && !s.boot.mbistDone && s.boot.keyOff == .none) then s
  else
    let recs := (fails.filter bistUnit).map fun u => (⟨0, u, 0x042A, s.now⟩ : FaultRec)
    ({ s.marched with boot := { s.boot with mbistDone := true, records := s.boot.records ++ recs } }).testDomains .off

/-- The records of a start-up as the island writes them (R451): at most 62, then one of the same code with UNIT 0xFE.
Log entry 71. -/
def cappedRecords (l : List FaultRec) : List FaultRec :=
  if 62 < l.length then
    l.take 62 ++ (match (l.take 62).getLast? with
      | some r => [{ r with unit := 0xFE }]
      | none => [])
  else l

/-- The start-up is complete (R447), and no key-off has stopped it (R453). -/
def State.startedUp (s : State) : Bool :=
  s.alive && s.sec.puf == 1 && s.sec.fwRunning && s.boot.lbistDone && s.boot.mbistDone && s.boot.refOsc && !s.boot.ready &&
  s.boot.keyOff == .none

/-- The module becomes ready (R447, R451): key-off records, this start-up's records, the summary; the towers are active. -/
def State.becomeReady (s : State) : State :=
  if !s.startedUp then s
  else
    let l := cappedRecords (s.boot.keyOffRecords ++ s.boot.records)
    let s1 := l.foldl State.logFault s
    let s2 := s1.logNow 0 0xFF 0x0427
    { s2 with boot := { s2.boot with ready := true, records := [], keyOffRecords := [], keyOffCut := false },
              dram := { s2.dram with towers := s2.dram.towers.map fun t => { t with state := .active } } }

/-! ### Key-off (R453 to R456) -/

/-- The running job and the suspended jobs of a partition end with a job-level code: the running one stops at its
boundaries (R53, R54, R231, R453), the suspended ones complete at once. -/
def State.endJobs (s : State) (p code : Nat) : State :=
  let r : Raised := ⟨code, 31, 0xFFFFFFFF⟩
  let s1 := (s.raiseCode p r).settle p
  let qs := s1.comp.queues.filterMap fun x => match x.2.susp with
    | some j => if (s1.bindOf x.1).any fun b => b.part == p then some (x.1, j) else none
    | none => none
  qs.foldl (fun (s : State) (x : Nat × Job) => s.endJob p x.1 { x.2 with raised := x.2.raised ++ [r] }) s1

/-- Key-off is detected (R453): jobs hold and end, the heartbeat stops, SAFE_STATE.STATE becomes 0, the channels stop. -/
def State.keyOffStart (s : State) : State :=
  if !(s.alive && s.boot.keyOff == .none) then s
  else
    let s0 := { s with boot := { s.boot with keyOff := .holding, keyOffCut := true,
                                             keyOffRecords := [⟨0, 0xFF, 0x042C, s.now⟩] } }
    let s1 := (List.range 8).foldl (fun s p => s.endJobs p 0x060F) s0
    let s2 := s1.stopHeartbeat
    let stop : ChanSt → ChanSt := fun c => match c.state with
      | .running => { c with state := .stopped }
      | .identifying => { c with state := .stopped }
      | _ => c
    { s2 with safe := { s2.safe with state := 0, entryDue := none }, ctl := { s2.ctl with chans := s2.ctl.chans.map stop } }

/-- Every job has ended: LBIST runs on PD1 to PD28 (R453). -/
def State.keyOffTest (s : State) : State :=
  if s.boot.keyOff == .holding && s.comp.parts.all fun p => p.job.isNone then
    { s with boot := { s.boot with keyOff := .lbist, ready := false } }
  else s

/-- Key-off LBIST ends: the logic of PD1 to PD28 is reset (R449), PD0 keeps the results (R451, R453). -/
def State.keyOffTested (s : State) (fails : List Nat) : State :=
  if s.boot.keyOff == .lbist then
    let recs := ((List.range 29).filter fun d => d != 0 && fails.contains d).map fun d =>
      (⟨0, domUnit d, 0x042B, s.now⟩ : FaultRec)
    { s.logicReset true true with boot := { s.boot with keyOff := .lbistDone, keyOffRecords := recs, keyOffCut := false } }
  else s

/-- WAKE_EN of a controller (R326). -/
def State.wakeEn (s : State) (n : Nat) : Bool := tbit (s.rv (canKey n 0x38)) 31

/-- A CAN register that the parked state keeps (R455). Log entry 72. -/
def State.parkKeeps (s : State) (k : Nat) : Bool :=
  let n := (keyOff k - 0xD00000) / 0x20000
  let d := (keyOff k - 0xD00000) % 0x20000
  d == 0x38 || (s.wakeEn n && (decide (d ≤ 0x18) || (decide (0x10000 ≤ d) && decide (d % 0x80 ≤ 8))))

/-- What the time base keeps over the parked state (R455): the time counter, in coarse mode. -/
def TimeSt.kept (t : TimeSt) : TimeSt := { TimeSt.reset with tb := t.tb, last := t.last, elapsed := t.elapsed }

/-- Parking completes (R426, R453, R455): only what PD0 keeps remains, and every other domain is OFF; a kept register's shadow takes
its value in force. Log entry 72. -/
def State.park (s : State) : State :=
  if s.boot.keyOff ≠ .lbistDone then s
  else
    let c := s.cold
    let vals := s.regs.can.vals.filter fun x => s.parkKeeps x.1
    let can : RegBlock := ⟨vals, vals.filter fun x => keyOff x.1 % 0x20000 != 0x38, [], []⟩
    { c with boot := { c.boot with keyOff := .parked, laneCfg := s.boot.laneCfg, cfgmSel := s.boot.cfgmSel,
                                   keyOffRecords := s.boot.keyOffRecords },
             pwr := .only 1, time := s.time.kept, regs := { c.regs with can := can },
             sec := { c.sec with session := s.sec.session } }

/-- The module wakes (R456): the start-up sequence runs; the controllers that the parked state kept leave INIT. Log entry 72. -/
def State.wakeUp (s : State) (laneCfg cfgmSel : Nat) : State :=
  if !(s.boot.powered && s.boot.keyOff == .parked) then s
  else
    let c := s.cold
    let s1 := { c with boot := { BootSt.reset with wakeStart := true, laneCfg := laneCfg, cfgmSel := cfgmSel,
                                                   keyOffRecords := s.boot.keyOffRecords },
                       time := s.time.kept, regs := { c.regs with can := s.regs.can },
                       sec := { c.sec with session := s.sec.session } }
    (List.range 8).foldl (fun (s : State) n => if s.wakeEn n then s.initClear n else s) s1

/-- The wake-up pattern on a bus whose controller listens for it while PD4 is off (R326): WOKE, and where the module is parked its
wake-up begins, which samples the straps (R478). Log entry 72. -/
def State.wakePattern (s : State) (n laneCfg cfgmSel : Nat) : State :=
  let parked := s.boot.keyOff == .parked
  if s.boot.powered && s.wakeEn n && (parked || (s.pwr.doms[4]?).any fun d => d.state == .off) then
    let t := s.setReg (canKey n 0x38) (putField (s.rv (canKey n 0x38)) 30 1 1)
    if parked then t.wakeUp laneCfg cfgmSel else t
  else s

/-! ### Commands -/

/-- Power good (R446). -/
def execPowerGood (laneCfg cfgmSel : Fin 4) (s : State) : Answer := .next (s.powerGood laneCfg cfgmSel)

/-- The reference oscillator runs (R447). -/
def execReferenceOscillatorRunning (s : State) : Answer :=
  .next { s with boot := s.oscRuns.boot, time := s.oscRuns.time, pwr := s.oscRuns.pwr }

/-- Root key recovery ends (R403), in the security engine (R25). -/
def execPufRecovery (ok : Bool) (s : State) : Answer := s.clocked fun s => { s with sec := (s.pufDone ok).sec }

/-- What the start of the firmware may change. -/
def commitFw (s t : State) : State :=
  { s with sec := t.sec, pwr := t.pwr, out := t.out, fresh := t.fresh,
           regs := { s.regs with sec := t.regs.sec, pwr := t.regs.pwr, pci := t.regs.pci } }

/-- The boot ROM starts a firmware bank (R407), in the security engine (R25). -/
def execFirmwareBoot (counter : CounterReply) (factory : FactoryCheck) (s : State) : Answer :=
  s.clocked fun s =>
    commitFw s (s.fwBoot counter.readOk counter.writeOk fun bank => if bank = 0 then factory.bank0 else factory.bank1)

/-- What the end of an LBIST may change (R449): the phase of the start-up and the logic of PD1 to PD28; not the DRAM, the flash, the
governor, the time counter. -/
def commitLbist (s t : State) : State :=
  { s with boot := t.boot, safe := t.safe, comp := t.comp, kv := t.kv, ing := t.ing, ctl := t.ctl, can := t.can, t1s := t.t1s,
           eth := t.eth, ports := t.ports, ward := t.ward, fresh := t.fresh, out := t.out
           sec := { s.sec with mb := t.sec.mb, engine := t.sec.engine }
           time := { s.time with ptp := t.time.ptp, pulse := t.time.pulse }
           regs := { s.regs with sec := t.regs.sec } }

/-- LBIST ends (R449). -/
def execLbistComplete (fails invalid : List DomIx) (s : State) : Answer :=
  .next (commitLbist s (s.lbistDone' (fails.map (·.val)) (invalid.map (·.val))))

/-- What the end of a memory BIST may change (R450). -/
def commitMarch (s t : State) : State :=
  { s with boot := t.boot, dram := t.dram, pwr := t.pwr, comp := t.comp, kv := t.kv, can := t.can, out := t.out
           regs := { s.regs with can := t.regs.can } }

/-- Memory BIST ends (R450). -/
def execMemoryBistComplete (fails : List Nat) (s : State) : Answer := .next (commitMarch s (s.mbistDone' fails))

/-- What readiness may change. -/
def commitReady (s t : State) : State :=
  { s with boot := t.boot, safe := t.safe.carry s.safe, dram := t.dram, out := t.out,
           regs := { s.regs with safe := t.regs.safe, pci := t.regs.pci } }

/-- The module becomes ready (R447). -/
def execReady (s : State) : Answer := .next (commitReady s s.becomeReady)

/-- What key-off may change. -/
def commitKeyOff (s t : State) : State :=
  { commitJob s t with boot := t.boot, ctl := t.ctl, safe := t.safe }

/-- KEY_SENSE has been inactive for 100 ms (R453). -/
def execKeyOff (s : State) : Answer := .next (commitKeyOff s s.keyOffStart)

/-- Every job has ended (R453). -/
def execKeyOffLbistStart (s : State) : Answer := .next { s with boot := s.keyOffTest.boot }

/-- Key-off LBIST ends (R453). -/
def execKeyOffLbistComplete (fails : List DomIx) (s : State) : Answer :=
  .next (commitLbist s (s.keyOffTested (fails.map (·.val))))

/-- Parking completes (R455). -/
def execParked (s : State) : Answer := .next s.park

/-- The module wakes (R456). -/
def execWake (laneCfg cfgmSel : Fin 4) (s : State) : Answer := .next (s.wakeUp laneCfg cfgmSel)

/-- The wake-up pattern while PD4 is off (R326). -/
def execWakeUpPattern (wake : CanWake) (s : State) : Answer := .next (s.wakePattern wake.can wake.laneCfg wake.cfgmSel)

/-- The power stage shuts off (R465). -/
def execPowerStageShutdown (s : State) : Answer := .next s.powerOff

end Sys2Proof.Machine
end

