-- ==== Sys2Proof/Machine/Granules.lean ====
section
/-!
DEFINITION. The slots and granules of the test keys (R388 to R394): when a granule may run on a unit, what it leaves.
-/
namespace Sys2Proof.Machine

/-! ### What a unit has to do -/

/-- The unit on which the step at the head of a target runs: its cores, its attention engine or its narrow-channel engine. -/
def State.runsOn (s : State) (e : PartEntry) (p u : Nat) (x : TargetSt) : Bool :=
  if u < 16 then decide (x.id < 16) && (s.coresOf p x.id).contains u
  else if u < 20 then match x.steps with
    | (_, b) :: _ => decide (x.id < 16) && decide (0x20 ≤ hOp b) && decide (hOp b < 0x30) &&
        ((s.hostOf p x.id).bind fun h => s.engineOf e h) == some (u - 16)
    | [] => false
  else x.id == u - 4

/-- The targets of the running jobs that a unit serves, with the partition's entry. -/
def State.unitTargets (s : State) (u : Nat) : List (PartEntry × TargetSt) :=
  (List.range 8).flatMap fun p => match s.part p, s.comp.parts[p]?.bind (·.job) with
    | some e, some j => (j.targets.filter fun x => s.runsOn e p u x).map fun x => (e, x)
    | _, _ => []

/-- A step is ready on a target: delivered, and waiting for nothing but its unit. -/
def TargetSt.hasReady (x : TargetSt) : Bool := !x.steps.isEmpty && !x.stopped && x.phase.mayRun

/-- A safety-relevant step is ready for a unit (R391). -/
def State.safetyReady (s : State) (u : Nat) : Bool := (s.unitTargets u).any fun x => x.1.isSafety && x.2.hasReady

/-- A unit stands at a command boundary or is idle (R392); an attention engine between its steps. -/
def State.unitBoundary (s : State) (u : Nat) : Bool :=
  if 16 ≤ u ∧ u < 20 then (s.kv.engines[u - 16]?).all fun g => match s.partOfEngine (u - 16) with
    | some p => g.line.all fun t => !s.isAsking p t
    | none => true
  else (s.unitTargets u).all fun x => !x.2.cmdOpen

/-- The domain of a unit under test keys. -/
def unitDom (u : Nat) : Nat := if u < 16 then 13 + u else if u < 20 then 9 + (u - 16) else 8

/-- The slot of a unit runs: its core's (R388, R390). -/
def State.slotRuns (s : State) (u : Nat) : Bool := (s.safe.units[slotCore u]?).any (·.inSlot)

/-- A granule may start on a unit (R390 to R392): owed, its domain on, at a command boundary, no safety-relevant step ready, and
outside its slot no step ready at all; a pair that identifies a fault does not wait for a slot (R396). Log entry 46. -/
def State.granuleDue (s : State) (u : Nat) : Bool :=
  s.granuleOwed u && s.domOn (unitDom u) && s.unitBoundary u && !s.safetyReady u &&
  (s.slotRuns u || s.identifyingCore u || !(s.unitTargets u).any fun x => x.2.hasReady)

/-! ### Commands -/

/-- The start of a core's slot (R390): the core is reserved; a domain that is off wakes. -/
def execSlotStart (unit : CoreIx) (s : State) : Answer :=
  .next (commitSafe s (match s.safe.units[unit.val]? with
    | none => s
    | some t =>
      if s.safe.running && t.enabled then
        let s1 := s.modUnit unit fun t => { t with inSlot := true }
        { s1 with pwr := { s1.pwr with doms := lmod s1.pwr.doms (13 + unit.val) DomSt.wake } }
      else s))

/-- The end of a core's slot (R390): the core is no longer reserved; what remains runs when the unit is idle (R392). -/
def execSlotEnd (unit : CoreIx) (s : State) : Answer :=
  .next (commitSafe s (s.modUnit unit fun t => { t with inSlot := false }))

/-- A granule starts (R392, R393): banks 62 and 63 of a core are opened where they are off. -/
def State.startGranule (s : State) (u : Nat) : State :=
  if !s.granuleDue u then s
  else match (if u < 16 then s.comp.cores[u]? else none) with
    | some c =>
      let s1 := s.modUnit u fun t =>
        { t with running := true, opened := testBanks.filter fun b => c.pad.banks.getD b .on == .off }
      { s1 with comp := { s1.comp with cores := s1.comp.cores.set u { c with pad := c.pad.openTest } } }
    | none => s.modUnit u fun t => { t with running := true, opened := [] }

/-- A granule starts (R391 to R393). -/
def execGranuleStart (unit : UnitIx) (s : State) : Answer := .next (commitSafe s (s.startGranule unit))

/-- A granule is abandoned for a safety-relevant step that is ready, and runs again later from its start (R391). -/
def execGranuleAbandon (unit : UnitIx) (s : State) : Answer :=
  .next (commitSafe s (if s.safetyReady unit then s.leaveGranule unit else s))

/-- A granule ends and the island compares its signature (R388, R394): a match counts, the last one passes the unit; a
mismatch runs the granule again, a second one fails the unit. -/
def State.granuleEnds (s : State) (u : Nat) (mismatch : Bool) : State :=
  match s.safe.units[u]? with
  | none => s
  | some t =>
    if !t.running then s
    else
      let s1 := s.leaveGranule u
      if mismatch then
        let s2 := s1.setReg 0x210080 (min (s1.rv 0x210080 + 1) 0xFFFFFFFF)
        if t.mismatched then (s2.raise 0x200020 0x10).loseUnit u 0x0420
        else s2.modUnit u fun t => { t with mismatched := true }
      else
        let n := min (t.doneGranules + 1) (granulesOf u)
        let pass := n == granulesOf u
        s1.modUnit u fun t =>
          { t with mismatched := false, doneGranules := n, passed := t.passed || pass, lapsed := t.lapsed && !pass }

/-- A granule ends (R394). -/
def execGranuleDone (unit : UnitIx) (mismatch : Bool) (s : State) : Answer :=
  .next (commitSafe s (s.granuleEnds unit mismatch))

end Sys2Proof.Machine
end

