-- ==== Sys2Proof/Machine/Switch.lean ====
section
/-!
DEFINITION. The end of a validation, the hold and its release, and the switch of the Ward image with its effects on every
block (R48, R51, R53 to R56, R60, R121, R131, R214, R274, R303, R307, R367, R380, R385, R389, R414, R427, R431, R437).
-/
namespace Sys2Proof.Machine

/-! ### Jobs and queues -/

/-- A target stands at a command boundary (R53). -/
def TargetSt.atBoundary (x : TargetSt) : Bool := !x.cmdOpen && x.phase == .fresh

/-- Every running job waits at its command boundaries (R53). Log entry 25. -/
def State.allHeld (s : State) : Bool := s.comp.parts.all fun q => match q.job with
  | some j => j.targets.all TargetSt.atBoundary
  | none => true

/-- A job ends with 0x060E at once (R55). -/
def State.cutJob (s : State) (p q : Nat) (j : Job) : State :=
  s.endJob p q { j with raised := j.raised ++ [⟨0x060E, 31, 0xFFFFFFFF⟩] }

/-- The running jobs and the suspended ones end (R55). Log entry 25. -/
def State.cutJobs (s : State) : State :=
  let s1 := (List.range 8).foldl (fun (s : State) p => match s.comp.parts[p]?.bind (·.job) with
    | some j => (s.modPart p fun x => { x with job := none }).cutJob p j.queue j
    | none => s) s
  let held := s1.comp.queues.filterMap fun x => x.2.susp.map fun j => (x.1, j)
  held.foldl (fun (s : State) (x : Nat × Job) => match s.bindOf x.1 with
    | some b => s.cutJob b.part x.1 x.2
    | none => s) s1

/-- A queue's binding: PARTITION, PORT and RING_LOC of the range that holds it (R55). -/
def State.bindKey (s : State) (q : Nat) : Option (Nat × Nat × Nat) := (s.bindOf q).map fun b => (b.part, b.port, b.ringLoc)

/-- Queues whose binding changes are reset to empty (R55). Log entry 25. -/
def State.rebindQueues (s old : State) : State :=
  { s with comp := { s.comp with queues := s.comp.queues.filter fun x => s.bindKey x.1 == old.bindKey x.1 } }

/-! ### Cores and partitions -/

/-- A scratchpad at a switch (R55, R135, R137, R155): the weight-resident region, and every bank that was in it, undefined;
no tag; a bank that moves into it opens where the core's domain is not off. -/
def Pad.switch (p : Pad) (old new epoch : Nat) (off : Bool) : Pad :=
  let n := max old new
  { fills := (List.range 64).map fun b => if b < n then .free epoch else p.fills.getD b .zero
    cells := p.cells.filter fun c => decide (n ≤ c.1 / 0x80000)
    poison := p.poison.filter fun g => decide (n ≤ g * 8 / 0x80000)
    banks := p.banks.zipIdx.map fun x => if x.2 < new && !off then x.1.open' else x.1
    tag := 0 }

/-- The partitions under a new image (R54, R148, R241, R244): mapping, DRAM range, no re-map due. -/
def State.freshParts (s : State) (i : Image) : List PartSt := (List.range 8).map fun p =>
  match s.part p with
  | some e =>
    let (ok, base) := s.grantOf i p
    { PartSt.empty with map := s.mapping e, base := base, granted := ok,
                        lastServed := (s.comp.parts.getD p .empty).lastServed }
  | none => .empty

/-- The cores under a new image: scratchpads as R55 states, the first logical core of each host loaded, park images
undefined (R242). -/
def State.freshCores (s old : State) (parts : List PartSt) : List CoreSt := s.comp.cores.zipIdx.map fun x =>
  let n := x.2
  let e := s.fresh + 17 * n
  let off := match s.pwr.doms[13 + n]? with | some d => d.state == .off | none => false
  let pad := x.1.pad.switch (old.actBank n) (s.actBank n) e off
  match (s.partOfCore n).bind fun p => (s.part p).map fun y => (p, y) with
  | some (p, y) =>
    let mine := lcoresAt (parts.getD p .empty).map (if y.hinged then n / 2 * 2 else n)
    { x.1 with pad := pad, loaded := mine.head?, parks := (mine.drop 1).map fun i => (i, Pad.reset (e + 1 + i)) }
  | none => { x.1 with pad := pad, loaded := none, parks := [] }

/-- A partition under the new image: its re-maps are counted anew; QUOTA_LOST and NO_HOST where the switch has made it so
(R247). Log entry 25. -/
def State.switchPart (s old : State) (p : Nat) : State :=
  let lost : State → Bool := fun x => (x.part p).isSome && !(x.comp.parts.getD p .empty).granted
  let bare : State → Bool := fun x => (x.part p).isSome && (x.comp.parts.getD p .empty).map.all Option.isNone
  let bits := flagBit 1 (lost s && !lost old) + flagBit 2 (bare s && (old.part p).isSome && !bare old)
  let s1 := s.setReg (qpKey p 0xC) 0
  if bits = 0 then s1 else s1.raise (qpKey p 0x20) bits

/-- The hold blocks take the new image (R54, R55, R121, R183, R274): `s` holds it, `old` is the state before. -/
def State.switchComp (s old : State) (i : Image) : State :=
  let parts := s.freshParts i
  let s1 := { s with comp := { s.comp with parts := parts, cores := s.freshCores old parts, catches := [],
                                           nceHolder := [none, none] }
                     fresh := s.fresh + 272 }
  (List.range 8).foldl (fun (s : State) p => s.switchPart old p) (s1.rebindQueues old)

/-! ### Contexts (R214) -/

/-- The contexts of a partition survive (R214). -/
def ctxsSurvive (old new : State) (p : Nat) : Bool := (List.range (p + 1)).all fun i => old.part i == new.part i

/-- The contexts of a partition become FREE, and it takes a new swap nonce (R214, R404). Log entry 70. -/
def State.freeCtxs (s : State) (p : Nat) : State :=
  let drop : Option StageSlot → Option StageSlot := fun x => x.filter fun y => y.part != p
  let (n, s1) := s.random
  { s1 with kv := { s1.kv with pools := s1.kv.pools.set p ⟨[], false, []⟩
                               engines := s1.kv.engines.map fun e => { e with slots := e.slots.map drop } }
            sec := { s1.sec with nonces := s1.sec.nonces.set p n } }

/-- The key-value cache at a switch. -/
def State.switchKv (s old : State) : State :=
  (List.range 8).foldl (fun s p => if ctxsSurvive old s p then s else s.freeCtxs p) s

/-! ### Rings and cache (R54, R274, R275) -/

/-- The routes into a ring are the same in both states (R274). Log entry 45. -/
def sameRoutes (old new : State) (p : Nat) : Bool := old.streamsOf p == new.streamsOf p

/-- A ring at a switch: emptied where its routes change; a depot batch under construction ends with the depot image.
Log entry 45. -/
def State.switchRing (s old : State) (p : Nat) : State :=
  let stop := !(s.comp.parts.getD p .empty).granted && (s.part p).isSome
  if sameRoutes old s p then
    let depot := tbit (s.rv (ringKey p 0)) 30
    let gone : List WindowSt := if depot && !s.depot then (s.ring p).wins.filter fun w => !w.closed else []
    let bufs := gone.foldl (fun (l : List BufSt) w => match w.buf with
      | some b => l.set b .free
      | none => l) (s.ring p).bufs
    s.modRing p fun r => { r with bufs := bufs, wins := if gone.isEmpty then r.wins else r.wins.filter (·.closed),
                                  stopped := stop }
  else
    s.modRing p fun r => { r with bufs := r.bufs.map fun _ => .free, wins := [], waiting := [], nextWin := s.firstWindow p,
                                  stopped := stop }

/-- The ingest blocks at a switch. -/
def State.switchIng (s old : State) : State :=
  let s1 := (List.range 8).foldl (fun (s : State) p => s.switchRing old p) { s with ing := { s.ing with cache := [] } }
  s1.refreshRings

/-! ### Control channels (R54, R303, R307, R367) -/

/-- The CTL_ALLOC entry of a channel is the same in both states. -/
def chanKept (old new : State) (c : Nat) : Bool := old.chanEntry c == new.chanEntry c

/-- The registers of a channel at their reset values, without captures (R303, R367). -/
def RegBlock.forgetChan (b : RegBlock) (c : Nat) : RegBlock :=
  b.resetKeep fun k => decide (keyOff k < chKey c 0) || decide (chKey (c + 1) 0 ≤ keyOff k)

/-- The channels that start from the reset values: enabled with an entry that is new or has changed. Log entry 29. -/
def freshChans (old new : State) : List Nat :=
  (List.range 24).filter fun c => (new.chanEntry c).isSome && !chanKept old new c

/-- A channel at a switch: `s` after its registers are settled, a unit that has failed and fails the
built-in test laws, which run now, stays FAILED; the other unit of a hinged pair then runs solo (R306, R307). Log entry 29. -/
def State.switchChan (s old : State) (lawFails : List Nat) (c : Nat) : ChanSt :=
  let dead : Nat → Bool := fun k => (s.chan k).unitFailed && lawFails.contains k
  let x := { s.chan c with unitFailed := dead c }
  match s.chanEntry c with
  | none => { ChanSt.reset with unitFailed := x.unitFailed }
  | some _ =>
    let lead := s.leaderOf c
    let run := chanKept old s lead && tbit (s.rv (chKey lead 0)) 31
    let st : ChanState := if x.unitFailed then .failed
      else if run then (if x.state = .identifying then .identifying else .running) else .stopped
    let mate := match s.partnerOf c with
      | some m => dead m
      | none => false
    { (if chanKept old s c then x else ChanSt.reset) with
        state := st, unitFailed := x.unitFailed, solo := mate && !x.unitFailed }

/-- The control engine at a switch; the pairs lost no longer stand as a cause (R381). -/
def State.switchCtl (s old : State) (lawFails : List Nat) : State :=
  let b := (freshChans old s).foldl RegBlock.forgetChan s.regs.ctl
  let s1 := { s with regs := { s.regs with ctl := b } }
  { s1 with ctl := { s1.ctl with chans := (List.range 24).map (s1.switchChan old lawFails) }
            safe := { s1.safe with pairLost := [] } }

/-! ### Safety (R60, R376, R380, R381, R385, R389, R452) -/

/-- The state machine of the deadbolt at a switch to a drive image (R385, R452); an image whose SAFETY partition has no host in
service from the start is cause 0x0412 (R381). Log entry 28. -/
def State.switchDrive (s : State) : State :=
  let s1 := if s.safe.state = 3 then { s with safe := { s.safe with state := 0 } } else s
  let s2 := if s1.standing 2 then s1.detect 2 0xFF 2 else s1
  if s2.safe.state = 2 ∧ s2.anyStanding = false then
    ({ s2 with safe := { s2.safe with state := 1 } }).startHeartbeat.raise 0x200020 2
  else s2

/-- The deadbolt at a switch to a depot image (R60, R385, R452). Log entry 28. -/
def State.switchDepot (s : State) : State :=
  let s1 := s.stopHeartbeat
  let s2 := { s1 with safe := { s1.safe with state := 3, entryDue := none } }
  if s.safe.state = 2 then s2.raise 0x200020 2 else s2

/-- The island at a switch. Log entries 25, 27. -/
def State.switchSafe (s old : State) (i : Image) : State :=
  let b := s.regs.safe.resetKeep fun k => !isEsc k
  let s1 := { s with regs := { s.regs with safe := b }
                     safe := { s.safe with nextPlan := i.safety, interval := 0 } }
  let s2 := if s1.safe.running && s1.drive then s1 else s1.startInterval i.safety
  let s3 := s2.refreshMons old
  if s3.drive then s3.switchDrive else s3.switchDepot

/-! ### Power and measurement registers (R414, R427, R431, R437) -/

/-- The domains take their policies, PWR_CAP its initial value, the measurement registers 0. Log entry 26. -/
def State.switchPwr (s : State) (i : Image) : State :=
  let dom : DomSt × Nat → DomSt := fun x =>
    let d := { x.1 with policy := i.policy.getD x.2 0 }
    if d.policy = 1 then d.wake else d
  let s1 := { s with pwr := { s.pwr with doms := s.pwr.doms.zipIdx.map dom } }
  let s2 := { s1 with regs := (s1.regs.setVal (pwrKey 0x10) i.capInit).setShadow (pwrKey 0x10) i.capInit }
  (List.range 8).foldl (fun (s : State) p =>
    (s.setRegs (secKey (0x400 + 0x20 * p)) (List.replicate 8 0)).setReg (secKey (0x500 + 4 * p)) 0) s2

/-! ### The switch -/

/-- The loader reports the switch (R50, R54). Log entry 20. -/
def State.switchReport (s : State) : State :=
  ((s.setRegs (wardKey 0x60) (tsWords s.now)).setReg (wardKey 0x24) ((s.rv (wardKey 0x24) + 1) % 2 ^ 32)).wardError 1 0 0
    |>.wardEvent 0

/-- The counter of a profile (R410). -/
def profileCounter (profile : Nat) : Nat := if profile = 1 then 1 else 2

/-- The anti-rollback advance that follows a switch (R56). -/
def State.switchAdvance (s : State) (i : Image) : State :=
  let c := profileCounter i.profile
  if i.advance && decide (s.sec.counters.getD c 0 < i.secver) then s.engineAdd (.advance c i.secver) else s

/-- All hold blocks take the new image (R54, R55). `lawFails` are the channels whose unit fails the built-in test laws
(R307, log entry 1). Log entry 25. -/
def State.switch (s : State) (i : Image) (lawFails : List Nat) : State :=
  let s1 := s.cutJobs
  let s2 := s1.modWard fun w => { w.clearStaging with state := .idle, image := some i, cand := none }
  let s3 := (s2.switchComp s1 i).switchKv s1
  let s4 := (s3.switchCtl s1 lawFails).switchPwr i
  let s5 := ({ s4.switchIng s1 with safe := (s4.switchIng s1).safe.carry s.safe, ward := s2.ward }).switchSafe s1 i
  { (s5.switchReport.switchAdvance i).latchDone s1 with ward := s2.ward }

/-! ### Validation, hold, release -/

/-- What validation reads besides the image (R49). -/
def State.wardInputs (s : State) (b : List Byte) (counterOk : Bool) : WardInputs :=
  ⟨s.ward.total, s.sec.authKey (leAt b 0x1C 1),
   if counterOk then s.sec.counters[profileCounter (leAt b 0x0E 1)]? else none, s.nPorts⟩

/-- The counter is read at step 6, where the checks before it pass (R48, R411). Log entry 30. -/
def counterReached (f : Option WardFail) : Bool := match f with
  | some e => !([0x0604, 0x0605, 0x060B, 0x0502, 0x0501].contains e.status)
  | none => true

/-- The validation of the staged image ends (R48, R51, R53). Log entry 30. -/
def State.validated (s : State) (counterOk : Bool) : State :=
  match s.sec.engine, s.ward.state with
  | .validate :: _, .validating =>
    let b := s.ward.staging.readBytes 0 s.ward.total
    let r := validate b (s.wardInputs b counterOk)
    let s1 := (if counterReached r then s.readCounter (profileCounter (leAt b 0x0E 1)) counterOk else s).enginePop
    match r with
    | some e => (s1.modWard fun w => { w.clearStaging with state := .idle }).wardFail e.status e.sect e.offset
    | none =>
      let i := parseImage b
      match s.ward.image with
      | none => s1.switch i []
      | some _ => s1.modWard fun w => { w with state := .holding, cand := some i }
  | _, _ => s

/-- Every hold block waits: the switch (R51, R54). -/
def State.holdEnds (s : State) (lawFails : List Nat) : State :=
  match s.ward.state, s.ward.cand with
  | .holding, some i => if s.allHeld then s.switch i lawFails else s
  | _, _ => s

/-- The loader after the release of a hold (R51): IDLE, the image held is dropped, the image in force stays. -/
def WardSt.release (w : WardSt) : WardSt := { w.clearStaging with state := .idle, cand := none }

/-- WARD_APPLY_TMO expires: the hold is released under the old image (R51, R53). -/
def State.holdReleased (s : State) : State :=
  match s.ward.state with
  | .holding =>
    let s1 := (s.modWard WardSt.release).wardFail 0x060C 0xFF 0
    { (List.range 8).foldl (fun (s : State) p => s.settle p) s1 with ward := s.ward.release }
  | _ => s

/-! ### Commands -/

/-- What the loader's last steps may change: not the ports, the start-up, the time base, the buses, nor an anti-rollback
counter (R56: its advance follows later). -/
def commitSwitch (s t : State) : State :=
  { s with fresh := t.fresh, out := t.out, regs := t.regs, ward := t.ward,
           sec := { t.sec with counters := s.sec.counters }, pwr := t.pwr, safe := t.safe,
           comp := t.comp, dram := t.dram, kv := t.kv, ing := t.ing, ctl := t.ctl }

/-- Validation ends (R48), in the security engine (R25). -/
def execValidationDone (counterOk : Bool) (s : State) : Answer := s.clocked fun s => commitSwitch s (s.validated counterOk)

/-- The hold ends with the switch (R54). -/
def execSwitch (lawFails : List ChanIx) (s : State) : Answer :=
  .next (commitSwitch s (s.holdEnds (lawFails.map (·.val))))

/-- What the release of a hold may change: what a switch may, but for the image, the island's state, the security engine. -/
def commitRelease (s t : State) : State :=
  { commitSwitch s t with safe := t.safe.carry s.safe, sec := s.sec }

/-- The hold is released (R53). -/
def execHoldRelease (s : State) : Answer := .next (commitRelease s s.holdReleased)

end Sys2Proof.Machine
end

