-- ==== Sys2Proof/Machine/Dispatch.lean ====
section
/-!
DEFINITION. The dispatch: one arm for each command, one direct call of its meaning.
-/
namespace Sys2Proof.Machine

/-- The effect of a command on everything but the queue of commands that wait. -/
def exec (i : Instr) (s : State) : Host.Outcome State Fault Refusal :=
  match i with
  | .begin port => Sys2Proof.Machine.execBegin port s
  | .chunk port => Sys2Proof.Machine.execChunk port s
  | .chunkCopyDone => Sys2Proof.Machine.execChunkCopyDone s
  | .finish port => Sys2Proof.Machine.execFinish port s
  | .abort port => Sys2Proof.Machine.execAbort port s
  | .wardCmdUnknown port value => Sys2Proof.Machine.execWardCmdUnknown port value s
  | .validationDone counterOk => Sys2Proof.Machine.execValidationDone counterOk s
  | .switch lawFails => Sys2Proof.Machine.execSwitch lawFails s
  | .holdRelease => Sys2Proof.Machine.execHoldRelease s
  | .antiRollbackAdvance ok => Sys2Proof.Machine.execAntiRollbackAdvance ok s
  | .doorbell port off size value => Sys2Proof.Machine.execDoorbell port off size value s
  | .bar2Read port off len => Sys2Proof.Machine.execBar2Read port off len s
  | .bar4Read port off len => Sys2Proof.Machine.execBar4Read port off len s
  | .bar4Write port off data => Sys2Proof.Machine.execBar4Write port off data s
  | .malformedAccess port off write => Sys2Proof.Machine.execMalformedAccess port off write s
  | .reservedLocationAccess port bar off write => Sys2Proof.Machine.execReservedLocationAccess port bar off write s
  | .registerWrite w => Sys2Proof.Machine.execRegisterWrite w s
  | .eventRegisterW1c w => Sys2Proof.Machine.execEventRegisterW1c w s
  | .latchGo port mask => Sys2Proof.Machine.execLatchGo port mask s
  | .latchApply slot index => Sys2Proof.Machine.execLatchApply slot index s
  | .snapshot port value => Sys2Proof.Machine.execSnapshot port value s
  | .retrain port value => Sys2Proof.Machine.execRetrain port value s
  | .linkTrainingComplete port width speed => Sys2Proof.Machine.execLinkTrainingComplete port width speed s
  | .portReset port kind => Sys2Proof.Machine.execPortReset port kind s
  | .linkUp link => Sys2Proof.Machine.execLinkUp link s
  | .buserrLogClear port => Sys2Proof.Machine.execBuserrLogClear port s
  | .buserrCountClear port => Sys2Proof.Machine.execBuserrCountClear port s
  | .safeMemCounterClear port => Sys2Proof.Machine.execSafeMemCounterClear port s
  | .safeMemLogClear port => Sys2Proof.Machine.execSafeMemLogClear port s
  | .jobStart part desc => Sys2Proof.Machine.execJobStart part desc s
  | .stepDelivery part step => Sys2Proof.Machine.execStepDelivery part step s
  | .sliceExpiry part => Sys2Proof.Machine.execSliceExpiry part s
  | .jobSuspended part => Sys2Proof.Machine.execJobSuspended part s
  | .jobTimeout part => Sys2Proof.Machine.execJobTimeout part s
  | .jobComplete part => Sys2Proof.Machine.execJobComplete part s
  | .queueReset port => Sys2Proof.Machine.execQueueReset port s
  | .remap part => Sys2Proof.Machine.execRemap part s
  | .parkSwitch core lcore => Sys2Proof.Machine.execParkSwitch core lcore s
  | .matmul part target env => Sys2Proof.Machine.execMatmul part target env s
  | .vector part target env => Sys2Proof.Machine.execVector part target env s
  | .fft2d part target env => Sys2Proof.Machine.execFft2d part target env s
  | .catchPost part target mismatch => Sys2Proof.Machine.execCatchPost part target mismatch s
  | .catchWait part target => Sys2Proof.Machine.execCatchWait part target s
  | .catchSet part target mismatch => Sys2Proof.Machine.execCatchSet part target mismatch s
  | .resetBlock part target mismatch => Sys2Proof.Machine.execResetBlock part target mismatch s
  | .catchServe block index => Sys2Proof.Machine.execCatchServe block index s
  | .catchWaitTimeout part target => Sys2Proof.Machine.execCatchWaitTimeout part target s
  | .catchWaitAbandon part target => Sys2Proof.Machine.execCatchWaitAbandon part target s
  | .stepEnd part target mismatch active dpu vec => Sys2Proof.Machine.execStepEnd part target mismatch active dpu vec s
  | .spFill part target env => Sys2Proof.Machine.execSpFill part target env s
  | .spCopy part target env => Sys2Proof.Machine.execSpCopy part target env s
  | .dma part target env => Sys2Proof.Machine.execDma part target env s
  | .bankClose part target => Sys2Proof.Machine.execBankClose part target s
  | .bankOpen part target => Sys2Proof.Machine.execBankOpen part target s
  | .bankOff core bank => Sys2Proof.Machine.execBankOff core bank s
  | .bankOn core bank => Sys2Proof.Machine.execBankOn core bank s
  | .tagCheck part target => Sys2Proof.Machine.execTagCheck part target s
  | .tagSet part target => Sys2Proof.Machine.execTagSet part target s
  | .scrub core word result => Sys2Proof.Machine.execScrub core word result s
  | .conv part target env => Sys2Proof.Machine.execConv part target env s
  | .fconv part target env => Sys2Proof.Machine.execFconv part target env s
  | .pool part target env => Sys2Proof.Machine.execPool part target env s
  | .nceConv part target env => Sys2Proof.Machine.execNceConv part target env s
  | .nceGranule engine => Sys2Proof.Machine.execNceGranule engine s
  | .attn part target env => Sys2Proof.Machine.execAttn part target env s
  | .kvAppend part target env => Sys2Proof.Machine.execKvAppend part target env s
  | .kvMap part target env => Sys2Proof.Machine.execKvMap part target env s
  | .kvCtxOpen part target env => Sys2Proof.Machine.execKvCtxOpen part target env s
  | .kvCtxClose part target env => Sys2Proof.Machine.execKvCtxClose part target env s
  | .kvCtxTruncate part target env => Sys2Proof.Machine.execKvCtxTruncate part target env s
  | .kvCtxAccept part target env => Sys2Proof.Machine.execKvCtxAccept part target env s
  | .kvCtxFlush part target env => Sys2Proof.Machine.execKvCtxFlush part target env s
  | .kvCtxSetPrio part target env => Sys2Proof.Machine.execKvCtxSetPrio part target env s
  | .kvCtxPrefetch part target env => Sys2Proof.Machine.execKvCtxPrefetch part target env s
  | .swapOutPageDone part env => Sys2Proof.Machine.execSwapOutPageDone part env s
  | .swapInPageDone part env => Sys2Proof.Machine.execSwapInPageDone part env s
  | .setpt part target env => Sys2Proof.Machine.execSetpt part target env s
  | .sample ch fault => Sys2Proof.Machine.execSample ch fault s
  | .faultIdentificationDone ch leaderFails followerFails => Sys2Proof.Machine.execFaultIdentificationDone ch leaderFails followerFails s
  | .sentFrame port pulses => Sys2Proof.Machine.execSentFrame port pulses s
  | .framePassesCrc can frame => Sys2Proof.Machine.execFramePassesCrc can frame s
  | .canFrameStored can frame sof => Sys2Proof.Machine.execCanFrameStored can frame sof s
  | .canFrameSent can sof tdcv => Sys2Proof.Machine.execCanFrameSent can sof tdcv s
  | .arbitrationLost can => Sys2Proof.Machine.execArbitrationLost can s
  | .canError can kind lastErr tdc => Sys2Proof.Machine.execCanError can kind lastErr tdc s
  | .transmitSelection can => Sys2Proof.Machine.execTransmitSelection can s
  | .canObjReq port can obj => Sys2Proof.Machine.execCanObjReq port can obj s
  | .canObjAbort port can obj => Sys2Proof.Machine.execCanObjAbort port can obj s
  | .canObjClear port can obj => Sys2Proof.Machine.execCanObjClear port can obj s
  | .canObjStatusRead port can obj => Sys2Proof.Machine.execCanObjStatusRead port can obj s
  | .lastWordRead port can obj => Sys2Proof.Machine.execLastWordRead port can obj s
  | .lockTimeout can obj => Sys2Proof.Machine.execLockTimeout can obj s
  | .canInitSet port can busy => Sys2Proof.Machine.execCanInitSet port can busy s
  | .canInitClear port can => Sys2Proof.Machine.execCanInitClear port can s
  | .busIntegrationDone can => Sys2Proof.Machine.execBusIntegrationDone can s
  | .busOffRecovery can => Sys2Proof.Machine.execBusOffRecovery can s
  | .transmitDominantTimeout can => Sys2Proof.Machine.execTransmitDominantTimeout can s
  | .wakeUpPattern can => Sys2Proof.Machine.execWakeUpPattern can s
  | .referenceMessage can => Sys2Proof.Machine.execReferenceMessage can s
  | .t1sFrameReceived q frame fcsOk => Sys2Proof.Machine.execT1sFrameReceived q frame fcsOk s
  | .transmitOpportunity chance => Sys2Proof.Machine.execTransmitOpportunity chance s
  | .beacon event => Sys2Proof.Machine.execBeacon event s
  | .pop port q value => Sys2Proof.Machine.execPop port q value s
  | .t1sTxGo port q value => Sys2Proof.Machine.execT1sTxGo port q value s
  | .ethFrameReceived e frame fcsOk off => Sys2Proof.Machine.execEthFrameReceived e frame fcsOk off s
  | .ethTxTail port e value => Sys2Proof.Machine.execEthTxTail port e value s
  | .ethFrameSent e stamp slot => Sys2Proof.Machine.execEthFrameSent e stamp slot s
  | .ethLinkChange e up master speed => Sys2Proof.Machine.execEthLinkChange e up master speed s
  | .step port => Sys2Proof.Machine.execStep port s
  | .release port => Sys2Proof.Machine.execRelease port s
  | .sync q ingress domain src origin corr twoStep => Sys2Proof.Machine.execSync q ingress domain src origin corr twoStep s
  | .followUp q origin corr inTime => Sys2Proof.Machine.execFollowUp q origin corr inTime s
  | .delayExchange q reply => Sys2Proof.Machine.execDelayExchange q reply s
  | .delayRequestReceived q ingress domain seq corr => Sys2Proof.Machine.execDelayRequestReceived q ingress domain seq corr s
  | .announce q => Sys2Proof.Machine.execAnnounce q s
  | .syncTransmit q origin => Sys2Proof.Machine.execSyncTransmit q origin s
  | .announceTransmit q => Sys2Proof.Machine.execAnnounceTransmit q s
  | .delayRequestTransmit q => Sys2Proof.Machine.execDelayRequestTransmit q s
  | .syncLost => Sys2Proof.Machine.execSyncLost s
  | .slewEnd => Sys2Proof.Machine.execSlewEnd s
  | .timeRateCheck bad => Sys2Proof.Machine.execTimeRateCheck bad s
  | .pulseLeadingEdge g => Sys2Proof.Machine.execPulseLeadingEdge g s
  | .pulseTrailingEdge g => Sys2Proof.Machine.execPulseTrailingEdge g s
  | .frameStart cam vc frameNo off => Sys2Proof.Machine.execFrameStart cam vc frameNo off s
  | .line cam vc dt data err => Sys2Proof.Machine.execLine cam vc dt data err s
  | .frameEnd cam vc => Sys2Proof.Machine.execFrameEnd cam vc s
  | .lineTmoExpiry cam => Sys2Proof.Machine.execLineTmoExpiry cam s
  | .portFifoOverflow cam => Sys2Proof.Machine.execPortFifoOverflow cam s
  | .cameraLinkLost cam => Sys2Proof.Machine.execCameraLinkLost cam s
  | .cciGo port cam value => Sys2Proof.Machine.execCciGo port cam value s
  | .cciDone cam reply => Sys2Proof.Machine.execCciDone cam reply s
  | .sampleComplete stream => Sys2Proof.Machine.execSampleComplete stream s
  | .windowClose ring => Sys2Proof.Machine.execWindowClose ring s
  | .batchComplete ring => Sys2Proof.Machine.execBatchComplete ring s
  | .vdecStrTail port stream value => Sys2Proof.Machine.execVdecStrTail port stream value s
  | .accessUnit stream desc data refs => Sys2Proof.Machine.execAccessUnit stream desc data refs s
  | .endOfStream stream desc => Sys2Proof.Machine.execEndOfStream stream desc s
  | .pictureDone stream => Sys2Proof.Machine.execPictureDone stream s
  | .evict port => Sys2Proof.Machine.execEvict port s
  | .clear port => Sys2Proof.Machine.execClear port s
  | .udpDatagram scat payload off => Sys2Proof.Machine.execUdpDatagram scat payload off s
  | .sweepTmoExpiry scat => Sys2Proof.Machine.execSweepTmoExpiry scat s
  | .ingDepTail port ring value => Sys2Proof.Machine.execIngDepTail port ring value s
  | .depotBatchBuild ring reply => Sys2Proof.Machine.execDepotBatchBuild ring reply s
  | .missTmoExpiry ring => Sys2Proof.Machine.execMissTmoExpiry ring s
  | .ageEvaluation => Sys2Proof.Machine.execAgeEvaluation s
  | .safeStateEntry => Sys2Proof.Machine.execSafeStateEntry s
  | .safeFrameRepeat => Sys2Proof.Machine.execSafeFrameRepeat s
  | .resume port value => Sys2Proof.Machine.execResume port value s
  | .enter port value => Sys2Proof.Machine.execEnter port value s
  | .deadboltReadback mismatch => Sys2Proof.Machine.execDeadboltReadback mismatch s
  | .guardKick => Sys2Proof.Machine.execGuardKick s
  | .guardTimeout => Sys2Proof.Machine.execGuardTimeout s
  | .islandLockstepTrip => Sys2Proof.Machine.execIslandLockstepTrip s
  | .referenceOscillatorStop => Sys2Proof.Machine.execReferenceOscillatorStop s
  | .intervalEnd => Sys2Proof.Machine.execIntervalEnd s
  | .slotStart unit => Sys2Proof.Machine.execSlotStart unit s
  | .granuleStart unit => Sys2Proof.Machine.execGranuleStart unit s
  | .granuleDone unit mismatch => Sys2Proof.Machine.execGranuleDone unit mismatch s
  | .granuleAbandon unit => Sys2Proof.Machine.execGranuleAbandon unit s
  | .pairIdentificationDone pair evenFails oddFails => Sys2Proof.Machine.execPairIdentificationDone pair evenFails oddFails s
  | .attestationGo port value => Sys2Proof.Machine.execAttestationGo port value s
  | .attestationDone => Sys2Proof.Machine.execAttestationDone s
  | .mbBegin port => Sys2Proof.Machine.execMbBegin port s
  | .mbChunk port => Sys2Proof.Machine.execMbChunk port s
  | .mbChunkCopyDone => Sys2Proof.Machine.execMbChunkCopyDone s
  | .mbAbort port => Sys2Proof.Machine.execMbAbort port s
  | .enrol port => Sys2Proof.Machine.execEnrol port s
  | .enrolComplete counter => Sys2Proof.Machine.execEnrolComplete counter s
  | .fwUpdate port => Sys2Proof.Machine.execFwUpdate port s
  | .fwUpdateComplete counterOk => Sys2Proof.Machine.execFwUpdateComplete counterOk s
  | .measurementGo port value => Sys2Proof.Machine.execMeasurementGo port value s
  | .powerGood laneCfg cfgmSel => Sys2Proof.Machine.execPowerGood laneCfg cfgmSel s
  | .referenceOscillatorRunning => Sys2Proof.Machine.execReferenceOscillatorRunning s
  | .pufRecovery ok => Sys2Proof.Machine.execPufRecovery ok s
  | .firmwareBoot counter factory => Sys2Proof.Machine.execFirmwareBoot counter factory s
  | .lbistComplete fails invalid => Sys2Proof.Machine.execLbistComplete fails invalid s
  | .memoryBistComplete fails => Sys2Proof.Machine.execMemoryBistComplete fails s
  | .ready => Sys2Proof.Machine.execReady s
  | .keyOff => Sys2Proof.Machine.execKeyOff s
  | .keyOffLbistStart => Sys2Proof.Machine.execKeyOffLbistStart s
  | .keyOffLbistComplete fails => Sys2Proof.Machine.execKeyOffLbistComplete fails s
  | .parked => Sys2Proof.Machine.execParked s
  | .wake laneCfg cfgmSel => Sys2Proof.Machine.execWake laneCfg cfgmSel s
  | .supplyMonitorTrip source => Sys2Proof.Machine.execSupplyMonitorTrip source s
  | .powerStageShutdown => Sys2Proof.Machine.execPowerStageShutdown s
  | .governorEvaluation power voltage temps towers => Sys2Proof.Machine.execGovernorEvaluation power voltage temps towers s
  | .demand dom => Sys2Proof.Machine.execDemand dom s
  | .wakeComplete woken => Sys2Proof.Machine.execWakeComplete woken s
  | .retainEntry dom => Sys2Proof.Machine.execRetainEntry dom s
  | .offEntry dom => Sys2Proof.Machine.execOffEntry dom s
  | .pointStepDone dom => Sys2Proof.Machine.execPointStepDone dom s
  | .droopDetect core => Sys2Proof.Machine.execDroopDetect core s
  | .droopEnd core cycles => Sys2Proof.Machine.execDroopEnd core cycles s
  | .meteringInterval energy selfCheckOk activity => Sys2Proof.Machine.execMeteringInterval energy selfCheckOk activity s
  | .selfRefreshEntry tower => Sys2Proof.Machine.execSelfRefreshEntry tower s
  | .selfRefreshExit tower => Sys2Proof.Machine.execSelfRefreshExit tower s
  | .protocolException can => Sys2Proof.Machine.execProtocolException can s
  | .cameraLinkLock cam gear => Sys2Proof.Machine.execCameraLinkLock cam gear s
  | .slotEnd unit => Sys2Proof.Machine.execSlotEnd unit s
  | .supplyMonitorClear source => Sys2Proof.Machine.execSupplyMonitorClear source s
  | .hostReadTimeout part target => Sys2Proof.Machine.execHostReadTimeout part target s

end Sys2Proof.Machine
end

