-- ==== Sys2Proof/Machine/RegRead.lean ====
section
/-!
DEFINITION. What a read of a BAR0 register returns (R10 to R12, R361, R370, R448): the status registers as views of the
state, and the registers that the store holds. A plain read has no row in the table of operations and changes nothing.
-/
namespace Sys2Proof.Machine

/-- Word i of a list of bytes, little-endian. -/
def wordOf (b : List Byte) (i : Nat) : Nat := leAt b (4 * i) 4

/-- A number that names a unit, 15 for none. -/
def unit4 (x : Option Nat) : Nat := x.getD 15

/-- A captured value of a block waits for a key that a predicate picks (R366). -/
def State.waitsFor (s : State) (slot : Nat) (pick : Nat → Bool) : Bool := (s.regs.blk slot).caps.any fun c => pick c.key

/-! ### GLOBAL and PCI (R365, R372, R373) -/

/-- An event register holds an enabled event for a port (R365). -/
def State.eventFor (s : State) (port k : Nat) : Bool :=
  (match rowOfKey k with
    | some r => r.acc == .w1c
    | none => false) && hasEnable k && (s.rv k &&& s.rv (k + 4)) != 0 && (s.eventPorts k).contains port

/-- PCI_IRQ_SRC of a port. -/
def State.irqSrc (s : State) (port : Nat) : Nat :=
  maskOf ((List.range 32).filter fun src =>
    (s.regs.blk src).vals.any fun x => slotOf x.1 == src && s.eventFor port x.1)

/-- The GLOBAL registers that the store does not hold. -/
def State.viewGlobal (s : State) (port off : Nat) : Option Nat :=
  match off with
  | 0x0 => some (0x5016 * 2 ^ 16 + Config.stepping.toNat * 2 ^ 8 + b2n Config.gradeX)
  | 0x4 => some (s.boot.laneCfg * 2 ^ 8 + s.boot.cfgmSel * 2 ^ 4 + port)
  | 0x14 => some (s.latchPend port)
  | _ => none

/-- The capabilities of a port's configuration space, and its extended capabilities (R355). -/
inductive Capability where
  | powerManagement
  | pciExpressEndpoint
  | msix
  | advancedErrorReporting
  | deviceSerialNumber
  | secondaryPciExpress
  | dataLinkFeature
  | physicalLayer16
  | physicalLayer32
  | laneMargining
  deriving DecidableEq, Repr

/-- What a port's configuration space shows (R355): its fixed identities, the module's serial number, the capabilities that are
present (one that is not listed is absent), what the host has written to it, the status of Advanced Error Reporting. Log entry
16. -/
structure CfgSpace where
  vendor : Nat
  device : Nat
  subVendor : Nat
  subsystem : Nat
  revision : Nat
  classCode : Nat
  serial : Nat
  capabilities : List Capability
  extended : List Capability
  maxPayload : Nat
  tenBitTags : Bool
  flr : Bool
  cfg : PciCfg
  aer : Nat
  deriving DecidableEq, Repr

/-- The configuration space of a port (R355). -/
def State.cfgSpace (s : State) (port : Nat) : CfgSpace :=
  ⟨0x1F3C, 0x5016, 0x1F3C, port, Config.stepping.toNat, 0x120000, deviceSerial, [.powerManagement, .pciExpressEndpoint, .msix],
   [.advancedErrorReporting, .deviceSerialNumber, .secondaryPciExpress, .dataLinkFeature, .physicalLayer16, .physicalLayer32,
    .laneMargining], 512, true, true, s.pciCfg port, (s.ports.getD port .reset).aer⟩

/-- The PCI registers that the store does not hold. -/
def State.viewPci (s : State) (port o : Nat) : Option Nat :=
  let p := s.ports.getD port .reset
  match o with
  | 0x0 => some (s.fullWidth port * 2 ^ 8 + port)
  | 0x4 => some (if p.up then 2 ^ 31 + p.width * 2 ^ 16 + p.speed else 0)
  | 0x18 => some (s.irqSrc port)
  | _ => none

/-! ### WARD (R50) -/

/-- The loader's state as WARD_STATE numbers it. -/
def LoaderState.code : LoaderState → Nat
  | .idle => 0
  | .receiving => 1
  | .validating => 2
  | .holding => 3

/-- The WARD registers that the store does not hold. -/
def State.viewWard (s : State) (o : Nat) : Option Nat :=
  let w := s.ward
  let img : (Image → Nat) → Nat := fun f => match w.image with
    | some i => f i
    | none => 0
  if o = 0x10 then
    some (w.beginPort * 2 ^ 24 + img Image.profile * 2 ^ 16 + flagBit 4 w.busy + w.state.code)
  else if o = 0x1C then some (img Image.version)
  else if o = 0x20 then some (img Image.secver)
  else if o = 0x2C then some s.master
  else if 0x40 ≤ o ∧ o < 0x60 then some (img fun i => wordOf i.digest ((o - 0x40) / 4))
  else none

/-! ### SAFE (R397, R402) -/

/-- The record in slot k of the fault log: record r lies in slot r mod 64 (R402). -/
def SafeSt.slot (c : SafeSt) (k : Nat) : Option FaultRec :=
  let n := c.flog.length
  let first := c.flogHead - n
  c.flog[(k + 64 - first % 64) % 64]?

/-- A word of a fault record (R402). -/
def FaultRec.word (r : FaultRec) (j : Nat) : Nat :=
  if j = 0 then r.response % 256 * 2 ^ 24 + r.unit % 256 * 2 ^ 16 + r.code % 2 ^ 16 else (tsWords r.ts).getD (j - 1) 0

/-- SAFE_TK_STATUS of a unit. -/
def TestSt.word (t : TestSt) : Nat :=
  flagBit 31 t.lapsed + flagBit 30 t.oos + flagBit 29 t.passed + flagBit 28 t.enabled + t.doneGranules % 16

/-- SAFE_OOS (R402). -/
def State.oosWord (s : State) : Nat :=
  maskOf ((List.range 22).filter s.unitOos) ||| maskOf (s.safe.towersOos.map (· + 24))

/-- SAFE_AGE_STATUS of a monitor. -/
def State.ageStatus (s : State) (m : Nat) : Nat :=
  flagBit 31 ((alGet s.safe.mons m).any (·.exceeded)) + flagBit 30 (s.esc m) + flagBit 29 (s.monActive m)

/-- The SAFE registers that the store does not hold; `r` is what the store answers. -/
def State.viewSafe (s : State) (o r : Nat) : Option Nat :=
  let c := s.safe
  let m := (o - 0x20000) / 16
  if o = 0 then
    some ((if c.entryCnt = 0 ∧ c.state ≠ 2 then 0 else (0x0410 + c.cause) * 2 ^ 16) + flagBit 8 (!c.hard.isEmpty) + c.state)
  else if o = 0xC then some c.entryCnt
  else if 0x10 ≤ o ∧ o < 0x1C then some ((tsWords c.entryTs).getD ((o - 0x10) / 4) 0)
  else if o = 0x28 then some s.standingWord
  else if o = 0x30 then some (maskOf ((List.range 22).filter s.unitLapsed))
  else if o = 0x34 then some s.oosWord
  else if o = 0x38 then some c.interval
  else if 0xA0 ≤ o ∧ o < 0xC0 then
    some (maskOf ((List.range 32).filter fun i => (alGet c.mons ((o - 0xA0) / 4 * 32 + i)).any (·.exceeded)))
  else if 0x10000 ≤ o ∧ o < 0x10058 then some ((c.units.getD ((o - 0x10000) / 4) .reset).word)
  else if 0x20000 ≤ o ∧ o < 0x21000 then
    match o % 16 with
    | 0 => some (r + flagBit 29 (!(s.chansOf m).isEmpty))
    | 4 => some (s.ageStatus m)
    | 8 => some (match alGet c.mons m with | some x => x.age | none => 0)
    | _ => some (s.monLimit m)
  else if o = 0x30000 then some c.flogHead
  else if 0x30100 ≤ o ∧ o < 0x30500 then
    some (match c.slot ((o - 0x30100) / 16) with
      | some x => x.word ((o - 0x30100) % 16 / 4)
      | none => 0)
  else none

/-! ### SEC (R424) -/

/-- The public half of the identity key, X then Y, big-endian (R424). -/
def idPub : List Byte := (natLe 32 identityPub.1).reverse ++ (natLe 32 identityPub.2).reverse

/-- The SEC registers that the store does not hold. -/
def State.viewSec (s : State) (o : Nat) : Option Nat :=
  let c := s.sec
  if o = 0 then
    some (flagBit 24 c.ctrFail + maskOf ((List.range 4).filter fun i => (c.slots.getD i none).isSome) * 2 ^ 16 +
      flagBit 9 c.fallback + c.bank * 2 ^ 8 + flagBit 2 c.romOnly + c.puf)
  else if o = 0x10 then some (deviceSerial % 2 ^ 32)
  else if o = 0x14 then some (deviceSerial / 2 ^ 32)
  else if o = 0x30 then some c.fwVersion
  else if o = 0x34 then some c.fwSecver
  else if 0x40 ≤ o ∧ o < 0x80 then some (wordOf idPub ((o - 0x40) / 4))
  else if o = 0x80 then some (Config.certLen.val)
  else if o = 0x210 then some (c.mb.status * 2 ^ 16 + c.mb.state)
  else if 0x20000 ≤ o ∧ o < 0x20800 then some (leNat ((List.range 4).map fun i => Config.certByte (o - 0x20000 + i)))
  else none

/-! ### PWR (R159, R445) -/

/-- A domain's state as PWR_DOM_STATE numbers it. -/
def DomState.code : DomState → Nat
  | .off => 0
  | .waking => 1
  | .on => 2
  | .retain => 3

/-- A tower's state as PWR_DRAM_STATE numbers it. -/
def TowerState.code : TowerState → Nat
  | .off => 0
  | .active => 1
  | .selfRefresh => 2
  | .outOfService => 3

/-- A word of the bank-state pair of a core: the banks whose state a predicate picks. -/
def State.bankWord (s : State) (core half : Nat) (pick : BankSt → Bool) : Nat :=
  match s.comp.cores[core]? with
  | some c => maskOf ((List.range 32).filter fun i => pick (c.pad.banks.getD (32 * half + i) .off))
  | none => 0

/-- The PWR registers that the store does not hold; PWR_VT is the table of the secure flash, also while the default one is in use
(R435). -/
def State.viewPwr (s : State) (o : Nat) : Option Nat :=
  let w := s.pwr
  let c := fun i => w.ceilings.getD i 7
  if o = 0 then
    some (flagBit 25 w.meterFault + flagBit 24 w.vtDefault + c 1 * 2 ^ 16 + c 3 * 2 ^ 12 + c 2 * 2 ^ 8 + c 0 * 2 ^ 4)
  else if 0x40 ≤ o ∧ o < 0xB4 then
    let d := (o - 0x40) / 4
    some (match w.doms[d]? with
      | some x => (if hasPoint d && x.state != .off then s.effPoint d else 0) * 2 ^ 16 + x.policy * 2 ^ 8 + x.state.code
      | none => 0)
  else if 0x20000 ≤ o ∧ o < 0x200A0 then some (leNat ((List.range 4).map fun i => BitVec.ofNat 8 (vtByte false (o - 0x20000 + i))))
  else if 0x80010 ≤ o ∧ o < 0x80020 then
    some (match s.dram.towers[(o - 0x80010) / 4]? with
      | some t => t.temp * 2 ^ 16 + flagBit 8 t.refreshX2 + t.state.code
      | none => 0)
  else if 0x80100 ≤ o ∧ o < 0x80200 then
    let core := (o - 0x80100) / 16
    let half := (o - 0x80100) % 8 / 4
    if (o - 0x80100) % 16 < 8 then some (s.bankWord core half fun b => b == .on || b == .opening)
    else some (s.bankWord core half fun b => b == .closing || b == .opening)
  else none

/-! ### TIME (R351) -/

/-- The state of the time base as TIME_STATE numbers it. -/
def TimeMode.code : TimeMode → Nat
  | .free => 0
  | .tracking => 1
  | .holdover => 2

/-- The TIME registers that the store does not hold. -/
def State.viewTime (s : State) (o : Nat) : Option Nat :=
  let t := s.time
  if o = 0x10 then some (flagBit 4 t.coarse + flagBit 3 t.slew.isSome + flagBit 2 t.inSync + t.mode.code) else none

/-! ### QUEUE (R246, R247) -/

/-- QUEUE_STATUS of a bound queue. -/
def State.queueStatus (s : State) (q : Nat) : Nat :=
  let x := s.queue q
  let pend := s.waitsFor 7 fun k => decide (2 ^ 30 ≤ k) && (k - 2 ^ 30) / 64 == q
  match s.bindOf q with
  | none => 0xF0000
  | some b =>
    let runs := (s.comp.parts[b.part]?.bind (·.job)).any fun j => j.queue == q
    let st := if runs then 3 else if x.susp.isSome then 4 else if !s.qEn q then 0 else if s.headWaits b.part q then 5
      else if x.head = x.tail then 1 else 2
    flagBit 24 pend + b.port * 2 ^ 20 + b.part * 2 ^ 16 + flagBit 8 x.phase + st

/-- QUEUE_PART_STATUS of a partition. -/
def State.partStatus (s : State) (p : Nat) : Nat := match s.part p, s.comp.parts[p]? with
  | some e, some x =>
    let hosts := ((homesOf e).filter (s.hostUp e)).length
    let st := if !x.granted then 4 else if hosts = 0 then 5
      else match x.job with
        | some j => if s.ward.state == .holding && (j.targets.all fun t => !t.cmdOpen && t.phase == .fresh) then 3 else 2
        | none => if s.ward.state == .holding then 3 else 1
    (match x.job with | some j => j.queue | none => 0) * 2 ^ 16 + hosts * 2 ^ 11 + flagBit 7 (s.displaced p) + st
  | _, _ => 0

/-- A word of QUEUE_PART_MAP. -/
def State.mapWord (s : State) (p half : Nat) : Nat :=
  let m := (s.comp.parts.getD p .empty).map
  ((List.range 8).map fun i => unit4 (m.getD (8 * half + i) none) * 2 ^ (4 * i)).sum

/-- The QUEUE registers that the store does not hold. -/
def State.viewQueue (s : State) (port o : Nat) : Option Nat :=
  let q := s.selected port
  if o = 0x18 then some ((s.queue q).tail % 2 ^ 16 * 2 ^ 16 + (s.queue q).head % 2 ^ 16)
  else if o = 0x1C then some (s.queueStatus q)
  else if 0x1000 ≤ o ∧ o < 0x1200 then
    let p := (o - 0x1000) / 0x40
    match (o - 0x1000) % 0x40 with
    | 0 => some (s.partStatus p)
    | 4 => some (s.mapWord p 0)
    | 8 => some (s.mapWord p 1)
    | _ => none
  else none

/-! ### ING and VDEC (R280, R281) -/

/-- ING_PORT_STATUS. -/
def State.camStatus (s : State) (n : Nat) : Nat :=
  let c := s.cam n
  c.last % 2 ^ 16 * 2 ^ 16 + c.gear % 8 * 2 ^ 8 + flagBit 1 c.inFrame + b2n (c.gear != 0)

/-- ING_RING_STATUS. -/
def State.ringStatus (s : State) (p : Nat) : Nat :=
  let r := s.ring p
  let count : (BufSt → Bool) → Nat := fun f => (r.bufs.filter f).length % 256
  count (fun b => match b with | .complete _ _ => true | _ => false) * 2 ^ 24 +
  count (fun b => match b with | .claimed _ => true | _ => false) * 2 ^ 16 +
  count (fun b => b == .free) * 2 ^ 8 + flagBit 1 (r.stopped || (s.comp.parts.getD p .empty).remapDue) + b2n r.cfgErr

/-- The windows of its ring in which a stream has a sample. -/
def State.openWindows (s : State) (st : Nat) : Nat := match s.ringOf st with
  | some p => ((s.ring p).wins.filter fun w => !w.closed && w.samples.any fun x => x.stream == st).length
  | none => 0

/-- The ING registers that the store does not hold. -/
def State.viewIng (s : State) (o : Nat) : Option Nat :=
  if o < 0x10000 then (if o % 0x1000 = 0xC then some (s.camStatus (o / 0x1000)) else none)
  else if o < 0x30000 then
    let n := (o - 0x10000) / 0x2000
    let busy := s.ing.cams.any fun c => c.inFrame && (match c.route with | some (p, _) => p == n | none => false)
    if (o - 0x10000) % 0x2000 = 0x20 then some (b2n (s.ing.pipeErr.getD n false) + flagBit 1 busy) else none
  else if o < 0x50000 then
    let c := s.scat ((o - 0x40000) / 0x1000)
    if (o - 0x40000) % 0x1000 = 0xA0 then some (c.reason % 2 ^ 16 + flagBit 16 c.resync.isSome) else none
  else if o < 0x60000 then
    let st := (o - 0x50000) / 0x100
    if (o - 0x50000) % 0x100 = 8 then
      some ((s.ing.streams.getD st ⟨0, 0, false⟩).last % 2 ^ 16 + s.openWindows st % 256 * 2 ^ 16)
    else none
  else if o < 0x70000 then (if o % 0x100 = 0x24 then some (s.ringStatus ((o - 0x60000) / 0x100)) else none)
  else
    let p := (o - 0x70000) / 0x100
    if o % 0x100 = 0x10 then some ((s.ring p).reqNo % 2 ^ s.depLog p) else none

/-- The VDEC registers that the store does not hold. -/
def State.viewVdec (s : State) (o : Nat) : Option Nat :=
  if o = 0x8000C then some ((s.ing.cache.map fun c => c.2.units).sum)
  else if o = 0x80010 then some s.ing.cache.length
  else if o = 0x80014 then some (s.cacheMiB * 16)
  else if o < 0x40000 ∧ o % 0x1000 = 0x18 then
    let v := s.vdec (o / 0x1000)
    some (v.reason % 2 ^ 16 * 2 ^ 16 + v.state % 8)
  else none

/-! ### Engines and cores (R126, R185, R217, R218) -/

/-- A step of the target is in progress. -/
def TargetSt.inStep (x : TargetSt) : Bool := x.phase != .fresh && x.phase != .waitHead

/-- STATE reads 4 in an engine or a core, 'held for Ward apply' (R126, R185, R217). -/
def State.wardHolds (s : State) : Bool := s.ward.state == .holding

/-- NCE_STATUS. With steps of several partitions at the engine, PARTITION is the lowest one with a step in progress, STATE 3 that
one waits. Log entry 36. -/
def State.nceStatus (s : State) (e : Nat) : Nat :=
  let busy := (List.range 8).filter fun p => (s.tgt p (16 + e)).any TargetSt.inStep
  let waits := (List.range 8).any fun p => (s.tgt p (16 + e)).any fun x => (x.waits p).isSome
  let open' := (List.range 8).any fun p => (s.tgt p (16 + e)).any fun x => x.cmdOpen
  let st := if !s.domOn 8 then 0 else if waits then 3 else if open' then 2 else if s.wardHolds then 4 else 1
  unit4 busy.head? * 2 ^ 8 + s.comp.nceGranule.getD e 0 * 2 ^ 4 + st

/-- A word of NCE_PLAN. -/
def State.planWord (s : State) (half : Nat) : Nat :=
  ((List.range 8).map fun i => unit4 (s.granuleOwner (8 * half + i)) * 2 ^ (4 * i)).sum

/-- ATTN_STATUS. -/
def State.attnStatus (s : State) (q : Nat) : Nat :=
  let staged := ((s.kv.engines.getD q ⟨.zero, [], [], []⟩).slots.filter Option.isSome).length
  let own := s.partOfEngine q
  let swaps := own.any fun p => (s.ctxs p).any fun x => x.2.moves q
  let runs := own.any fun p => match s.part p, s.comp.parts[p]?.bind (·.job) with
    | some e, some j => j.targets.any fun x => x.inStep && s.engineOf e ((s.hostOf p x.id).getD 0) == some q &&
        (x.steps.head?.any fun b => decide (0x20 ≤ hOp b.2) && decide (hOp b.2 ≤ 0x23))
    | _, _ => false
  let st := if s.unitOos (16 + q) then 5 else if !s.domOn (9 + q) then 0 else if swaps then 3 else if runs then 2
    else if s.wardHolds then 4 else 1
  staged * 2 ^ 16 + unit4 own * 2 ^ 8 + st

/-- A context's state as ATTN_CTXQ_STATE numbers it. -/
def CtxState.code : CtxState → Nat
  | .free => 0
  | .open' => 1
  | .swappingOut => 2
  | .swapped => 3
  | .swappingIn => 4
  | .lost => 5

/-- The pool registers of a partition that the store does not hold (R218); `r` is what the store answers. -/
def State.viewPool (s : State) (p o r : Nat) : Option Nat :=
  let sel := s.rv (poolKey p 0x1C)
  let c := s.ctx p (sel % 2 ^ 14)
  let lane := (c.bind fun x => x.lanes[field sel 16 12]?)
  let pages : (PageAt → Bool) → Nat := fun f => match c with
    | some x => (x.pageList.filter fun y => f y.2.2).length
    | none => 0
  match o with
  | 0 => some (r + flagBit 30 (s.waitsFor 11 fun k => decide (poolKey p 0 ≤ k) && decide (k ≤ poolKey p 0xC)))
  | 0x14 => some (match s.part p with | some e => s.freeCount p e | none => 0)
  | 0x18 => some (s.swapSlots p - ((s.ctxs p).map fun x => x.2.swapUsed.length).sum)
  | 0x20 => some (match c with | some x => x.prio % 256 * 2 ^ 24 + flagBit 8 x.pin + x.state.code | none => 0)
  | 0x24 => some (pages fun x => match x with | .swapped _ _ => false | _ => true)
  | 0x28 => some (pages fun x => match x with | .swapped _ _ => true | _ => false)
  | 0x34 => some (match lane with | some l => l.tent % 32 * 2 ^ 24 + l.fill % 2 ^ 19 | none => 0)
  | _ => none

/-- The logical core that a physical core holds now, and whether it is half of a hinged pair. -/
def State.coreNow (s : State) (n : Nat) : Option Nat × Bool := match (s.partOfCore n).bind s.part with
  | some e =>
    let h := if e.hinged then n / 2 * 2 else n
    ((s.comp.cores[h]?).bind (·.loaded), e.hinged)
  | none => (none, false)

/-- CORE_ID. -/
def State.coreId (s : State) (n : Nat) : Nat :=
  unit4 (s.partOfCore n) * 2 ^ 16 + unit4 (s.coreNow n).1 * 2 ^ 12 + n / 8 * 2 ^ 8 + n / 4 % 4 * 2 ^ 4 + n

/-- A domain is OFF. -/
def State.domOff (s : State) (d : Nat) : Bool := match s.pwr.doms[d]? with
  | some x => x.state == .off
  | none => true

/-- CORE_STATUS. -/
def State.coreStatus (s : State) (n : Nat) : Nat :=
  let now := s.coreNow n
  let job := (s.partOfCore n).bind fun p => s.comp.parts[p]?.bind (·.job)
  let tgt := (s.partOfCore n).bind fun p => now.1.bind fun i => s.tgt p i
  let opened := tgt.any fun x => x.cmdOpen
  let waits := (s.partOfCore n).any fun p => tgt.any fun x => (x.waits p).isSome
  let drain := opened && (s.held || job.any fun j => j.stopping || j.suspending)
  let st := if s.unitOos n then 5 else if s.domOff (13 + n) then 0 else if waits then 3 else if opened then 2
    else if s.wardHolds then 4 else 1
  st * 2 ^ 4 + flagBit 2 now.2 + flagBit 1 drain + b2n (s.unitLapsed n)

/-! ### CTL, CAN, T1S, ETH (R309, R327, R331, R352) -/

/-- A channel's state as CTL_CH_STATUS numbers it. -/
def ChanState.code : ChanState → Nat
  | .disabled => 0
  | .stopped => 1
  | .running => 2
  | .identifying => 3
  | .failed => 4

/-- ROLE of a channel. -/
def State.role (s : State) (c : Nat) : Nat :=
  if (s.chan c).solo then 3 else match s.partnerOf c with
    | none => 0
    | some _ => if s.leaderOf c = c then 1 else 2

/-- CTL_CH_STATUS. -/
def State.chanStatus (s : State) (c : Nat) : Nat :=
  (s.chan (s.leaderOf c)).flags % 16 * 2 ^ 16 + s.role c * 2 ^ 8 + flagBit 3 (s.chan (s.leaderOf c)).cfgErr +
    (s.chan c).state.code

/-- The number of channels in a state that a predicate picks. -/
def State.countChans (s : State) (f : ChanState → Bool) : Nat := (s.ctl.chans.filter fun c => f c.state).length

/-- The CTL registers that the store does not hold. -/
def State.viewCtl (s : State) (o : Nat) : Option Nat :=
  if o = 0 then
    some (s.countChans (· != .disabled) * 2 ^ 24 + s.countChans (fun x => x == .running || x == .identifying) * 2 ^ 16 +
      s.countChans (· == .failed) * 2 ^ 8)
  else if 0x100 ≤ o ∧ o < 0x400 then
    let c := s.chan (s.leaderOf ((o - 0x100) / 0x20))
    let j := (o - 0x100) % 0x20 / 4
    some (if j < 4 then c.sp.words.getD j 0 % 2 ^ 32 else (tsWords c.sp.ts).getD (j - 4) 0)
  else if 0x10000 ≤ o ∧ o < 0x28000 ∧ o % 0x1000 = 8 then some (s.chanStatus ((o - 0x10000) / 0x1000))
  else none

/-- The CAN registers that the store does not hold. -/
def State.viewCan (s : State) (o : Nat) : Option Nat :=
  let n := o / 0x20000
  let d := o % 0x20000
  let c := s.canOf n
  if d = 0x20 then
    some (c.tdcv % 256 * 2 ^ 24 + flagBit 18 c.safe.isSome +
      flagBit 17 (s.waitsFor 13 fun k => decide (canKey n 0 ≤ k) && decide (k < canKey n 0x20000)) + flagBit 16 c.cfgErr +
      c.lastErr % 16 * 2 ^ 4 + c.state % 8)
  else if d = 0x2C then some (min c.rxErr 255 * 2 ^ 16 + c.txErr % 2 ^ 9)
  else if 0x10000 ≤ d ∧ d < 0x14000 ∧ d % 0x80 = 0x14 then some (s.objStatus n ((d - 0x10000) / 0x80))
  else none

/-- The registers of ETH and T1S that the store does not hold. Log entry 65. -/
def State.viewEth (s : State) (o : Nat) : Option Nat :=
  if o < 0x40000 then
    let e := s.ethOf (o / 0x10000)
    if o % 0x10000 = 4 then some (flagBit 4 e.link + flagBit 3 e.master + e.speed % 8) else none
  else
    let q := (o - 0x80000) / 0x10000
    let d := o % 0x10000
    let t := s.t1sOf q
    let head := t.rxFifo.headD []
    if d = 0x14 then
      some (flagBit 2 t.beaconSeen + flagBit 1 t.plcaActive + b2n (s.t1sOn q && (!s.t1sPlca q || t.plcaActive)))
    else if d = 0x20 then some (if t.rxFifo.isEmpty then 0 else 2 ^ 31 + head.length % 2 ^ 11)
    else if d = 0x2C then some (b2n t.tx.isSome)
    else if 0x800 ≤ d ∧ d < 0xE00 then some (wordOf head ((d - 0x800) / 4))
    else none

/-! ### The read -/

/-- A view of a register of a block, where it has one: `off` in BAR0, `r` what the store answers. Log entry 13. -/
def State.viewOf (s : State) (port off r : Nat) : Option Nat :=
  let o := off % 0x100000
  match off / 0x100000 with
  | 0 => s.viewGlobal port o
  | 1 => s.viewWard o
  | 2 => s.viewSafe o r
  | 3 => s.viewSec o
  | 4 => s.viewPwr o
  | 5 => s.viewTime o
  | 6 => s.viewPci port o
  | 7 => s.viewQueue port o
  | 8 => s.viewIng o
  | 9 => s.viewVdec o
  | 10 =>
    if o < 0x200 then (if o % 0x100 = 0 then some (s.nceStatus (o / 0x100)) else none)
    else if o = 0x200 ∨ o = 0x204 then some (s.planWord ((o - 0x200) / 4)) else none
  | 11 =>
    if 0x30000 ≤ o ∧ o < 0x30200 then s.viewPool ((o - 0x30000) / 0x40) ((o - 0x30000) % 0x40) r
    else if o % 0x40000 = 0 then some (s.attnStatus (o / 0x40000)) else none
  | 12 => s.viewCtl o
  | 13 => s.viewCan o
  | 14 => s.viewEth o
  | 15 => none
  | n => match o with
    | 0 => some (s.coreId (n - 16))
    | 4 => some (s.coreStatus (n - 16))
    | _ => none

/-- A port may read a register (R126, R218, R246, R247, R364): where it may not, a read returns 0. Log entry 15. -/
def State.mayRead (s : State) (port : Nat) (r : Row) (ix : List Nat) (off : Nat) : Bool := match r.rule with
  | .core => off % 0x100000 == 0 || s.mayWrite port r ix off     -- CORE_ID is read from every port
  | .queue => (s.bindOf (s.selected port)).any fun b => b.port == port
  | .part => if off / 0x100000 = 7 ∨ off / 0x100000 = 11 then s.bound (ix.headD 0) port else true
  | .window => ix.getD 1 0 / 64 == port
  | _ => true

/-- The offset whose value a read of a channel's register returns: the leader's, but for the follower's own status and
events (R304). Log entry 15. -/
def State.readOff (s : State) (off : Nat) : Nat :=
  if 0xC10000 ≤ off ∧ off < 0xC28000 then
    let c := (off - 0xC10000) / 0x1000
    let d := off % 0x1000
    if d = 8 ∨ d = 0xC ∨ d = 0x10 then off else chKey (s.leaderOf c) d
  else off

/-- The offset is a register of a control channel that is not enabled: it reads 0 (R308). Log entry 15. -/
def State.chanOff (s : State) (off : Nat) : Bool :=
  decide (0xC10000 ≤ off) && decide (off < 0xC28000) && (s.chanEntry ((off - 0xC10000) / 0x1000)).isNone

/-- What the register store answers a read (R10, R11, R370): a counter from the port's holding set, the shadow of an RWL
register, 0 for a write-only one, else the value in force. -/
def State.stored (s : State) (port : Nat) (r : Row) (off : Nat) : Nat :=
  let k := s.regKey port r off
  if r.counter then
    let held := (s.ports.getD port .reset).holding
    (alGet held (off / 8 * 8)).getD 0 / 2 ^ (off % 8 * 8) % 2 ^ 32
  else match r.acc with
    | .wo => 0
    | .rwl => s.regs.shadow k
    | _ => s.rv k

/-- The value that a read of one DWORD of BAR0 returns; none where the location is reserved (R12, R361). Log entry 13. -/
def State.readReg (s : State) (port off : Nat) : Option Nat :=
  match rowAt off with
  | none => none
  | some (r, ix) =>
    if !s.phaseOk off || !s.mayRead port r ix off || s.chanOff off then some 0
    else
      let o := s.readOff off
      let v := s.stored port r o
      some ((s.viewOf port o v).getD v)

/-- A read request of several DWORDs (R359): only in the head frame of a T1S port, within the payload size in force; none where it
is malformed. Log entry 13. -/
def State.readRegs (s : State) (port off n : Nat) : Option (List Nat) :=
  let inWin := (List.range 4).any fun q => decide (0xE80800 + 0x10000 * q ≤ off) && decide (off + 4 * n ≤ 0xE80E00 + 0x10000 * q)
  if n = 1 ∨ (off % 4 = 0 ∧ 4 * n ≤ 128 * 2 ^ (s.pciCfg port).payload.val ∧ inWin = true) then
    (List.range n).mapM fun i => s.readReg port (off + 4 * i)
  else none

end Sys2Proof.Machine
end

