-- ==== Sys2Proof/Safety.lean ====
section
/-!
DEFINITION. The words of the claims: what a run that goes on is, when an access of a port arrives, what a command leaves
unchanged, the invariants of the states that a run keeps.
-/
namespace Sys2Proof.Safety
open Sys2Proof.Machine

/-- The answer is a next state. -/
def goesOn (r : Host.Outcome State Fault Refusal) : Prop := ∃ t, r = .next t

/-- `n` steps from a state all answer a next state. -/
def safeRun : Nat → State → Prop
  | 0, _ => True
  | n + 1, s => ∃ t, step s = .next t ∧ safeRun n t

/-! ### Accesses of a port -/

/-- The port exists, the module is powered and not parked, the link is up, PERST_N does not hold the port and its function is in D0,
so that its accesses arrive (R353, R355, R446, R453, R480). -/
def arrives (s : State) (p : Port) : Prop := s.reach p = true

/-- The port exists, and the module is powered and not parked, so that events of its link reach it (R353, R446, R453). -/
def linked (s : State) (p : Port) : Prop := p.val < s.nPorts ∧ s.alive = true

/-- A write of the port arrives at the block of an offset, which takes writes in this phase of start-up (R448). -/
def admits (s : State) (p : Port) (off : Nat) : Prop := arrives s p ∧ s.phaseOk off = true

/-- A write of the configuration master arrives (R57, R448). -/
def admitsMaster (s : State) (p : Port) (off : Nat) : Prop := admits s p off ∧ p.val = s.master

/-- The port by which a command arrives. -/
def sender : Instr → Option Port
  | .begin p | .chunk p | .finish p | .abort p | .wardCmdUnknown p _ | .doorbell p _ _ _ | .bar2Read p _ _
  | .bar4Read p _ _ | .bar4Write p _ _ | .malformedAccess p _ _ | .reservedLocationAccess p _ _ _ | .registerWrite ⟨p, _, _, _⟩
  | .eventRegisterW1c ⟨p, _, _, _⟩ | .latchGo p _ | .snapshot p _ | .retrain p _ | .linkTrainingComplete p _ _ | .portReset p _
  | .linkUp ⟨p, _⟩ | .buserrLogClear p | .buserrCountClear p | .safeMemCounterClear p | .safeMemLogClear p | .queueReset p
  | .canObjReq p _ _ | .canObjAbort p _ _ | .canObjClear p _ _ | .canObjStatusRead p _ _ | .lastWordRead p _ _
  | .canInitSet p _ _ | .canInitClear p _ | .pop p _ _ | .t1sTxGo p _ _ | .ethTxTail p _ _ | .step p | .release p
  | .cciGo p _ _ | .vdecStrTail p _ _ | .evict p | .clear p | .ingDepTail p _ _ | .resume p _ | .enter p _
  | .attestationGo p _ | .mbBegin p | .mbChunk p | .mbAbort p | .enrol p | .fwUpdate p | .measurementGo p _ => some p
  | _ => none

/-- The commands by which the module loses or regains power, parks or wakes (R446, R455, R456, R465). -/
def powerCommand : Instr → Bool
  | .powerGood _ _ | .wake _ _ | .powerStageShutdown | .parked | .wakeUpPattern _ => true
  | _ => false

/-- The commands that end a self-test of PD1 to PD28, whose logic is then reset (R449). -/
def selfTestEnd : Instr → Bool
  | .lbistComplete _ _ | .keyOffLbistComplete _ => true
  | _ => false

/-! ### Invariants -/

/-- The deadbolt (R383, R385, R452): its pins run only in the state RUNNING, and the states RUNNING and SAFE exist only under
a drive image. -/
def DeadboltInv (s : State) : Prop :=
  (s.safe.heartbeat = true → s.safe.state = 1) ∧ (s.safe.state = 1 ∨ s.safe.state = 2 → s.drive = true)

/-- The image is one that passes the validation, read from bytes that passed it (R48, R49). -/
def Accepted (i : Image) : Prop := ∃ b w, validate b w = none ∧ i = parseImage b

/-- The loader (R51): the image in force and the image held for the switch have passed validation; an image is held exactly
in HOLDING, and there only beside an image in force. -/
def LoaderInv (s : State) : Prop :=
  (∀ i, s.ward.image = some i → Accepted i) ∧ (∀ i, s.ward.cand = some i → Accepted i) ∧
  (s.ward.cand.isSome = true ↔ s.ward.state = .holding) ∧ (s.ward.state = .holding → s.ward.image.isSome = true)

/-! ### Frames -/

/-- The ports are those before but for the error status of one (R361). -/
def onlyAer (s t : State) (p : Nat) : Prop :=
  ∀ q, t.ports[q]? = s.ports[q]?.map fun x => if q = p then { x with aer := (t.ports.getD p .reset).aer } else x

/-- The state is that before but for the registers of the PCI block, the outputs and the error status of a port. -/
def onlyPci (s t : State) (p : Nat) : Prop :=
  t = { s with ports := t.ports, regs := { s.regs with pci := t.regs.pci }, out := t.out } ∧ onlyAer s t p

/-- The registers of the PCI block but those of a port are unchanged, and every shadow and capture. -/
def otherPorts (s t : State) (p : Nat) : Prop :=
  (∀ k, k / 2 ^ 26 ≠ p + 1 → t.rv k = s.rv k) ∧ t.regs.pci.shadows = s.regs.pci.shadows ∧ t.regs.pci.caps = s.regs.pci.caps

/-- A bus error has been counted and logged on a port (R361): PCI_BUSERR_COUNT saturates; the log takes the error where it
was clear and keeps its earlier one otherwise; nothing but that port's registers of the PCI block and messages is touched. -/
def busErrorOn (s t : State) (p bar kind off : Nat) : Prop :=
  t.rv (portKey p 0x600038) = min (s.rv (portKey p 0x600038) + 1) 0xFFFFFFFF ∧
  (tbit (s.rv (portKey p 0x600020)) 31 = false →
    t.rv (portKey p 0x600020) = (2 ^ 31 + bar * 2 ^ 16 + kind) % 2 ^ 32 ∧ t.rv (portKey p 0x600024) = off % 2 ^ 32 ∧
    t.rv (portKey p 0x600028) = off / 2 ^ 32 % 16 ∧ tbit (t.rv (portKey p 0x600010)) 0 = true) ∧
  (tbit (s.rv (portKey p 0x600020)) 31 = true →
    t.rv (portKey p 0x600020) = s.rv (portKey p 0x600020) ∧ t.rv (portKey p 0x600024) = s.rv (portKey p 0x600024)) ∧
  onlyPci s t p ∧ otherPorts s t p

/-- The towers as an access to a range of device addresses leaves them (R153): one that serves a byte of it and stood in SELF_REFRESH
is ACTIVE, and none changes otherwise. -/
def towersServe (s t : State) (addr len : Nat) : Prop :=
  t.dram.towers.length = s.dram.towers.length ∧
  (∀ (k : Nat) (x y : TowerSt), s.dram.towers[k]? = some x → t.dram.towers[k]? = some y → y = x ∨ y = x.serve) ∧
  ∀ i, i < len → s.towersIn ≠ [] → ∀ y, t.dram.towers[s.towerOf (addr + i)]? = some y → y.state ≠ .selfRefresh

/-- The DRAM holds the same bytes and the same poison: nothing was stored. -/
def sameDram (s t : State) : Prop := t.dram.mem = s.dram.mem ∧ t.dram.poison = s.dram.poison

/-- The registers of every block but one (by its 1 MiB slot of BAR0) and of PCI, whose log and messages an event may
touch, are unchanged. -/
def otherBlocks (slot : Nat) (s t : State) : Prop :=
  ∀ n, n ≤ 15 → n ≠ slot → n ≠ 6 → t.regs.blk n = s.regs.blk n

/-- Nothing but what the ingest blocks reach is changed: their state and registers, DRAM, queues that wait for a batch, age
monitors, messages, counts of what they read and write, and, where captures apply, LATCH_DONE; of the island's registers those that
log memory errors. -/
def onlyIngest (s t : State) : Prop :=
  t = { s with ing := t.ing, dram := t.dram, comp := t.comp, kv := t.kv, safe := t.safe, out := t.out, fresh := t.fresh,
               regs := { s.regs with global := t.regs.global, ing := t.regs.ing, vdec := t.regs.vdec, pci := t.regs.pci,
                                     sec := t.regs.sec, pwr := t.regs.pwr, attn := t.regs.attn, safe := t.regs.safe } } ∧
  t.safe.state = s.safe.state ∧ t.safe.heartbeat = s.safe.heartbeat

/-- A sample of a stream whose source has ended it and whose last slot byte is still to be written. -/
def dueSample (st : Nat) (x : SampleSt) : Bool := x.stream == st && x.closed && !x.complete

/-- The first window with such a sample that is open and whose close instant has not passed (R267). -/
def dueWindow (s : State) (p st : Nat) : Option WindowSt :=
  (s.ring p).wins.find? fun w => s.winLive p w && w.samples.any (dueSample st)

/-! ### Numbers -/

/-- The distance of a value from n units of a format (R76). -/
def gap (f : Fmt) (n : Int) (v : Dy) : Dy := Dy.abs (Dy.add ⟨n, f.qe⟩ ⟨-v.m, v.e⟩)

/-! ### Jobs and steps -/

/-- The job that runs in a partition. -/
def runningJob (s : State) (p : Nat) : Option Job := (s.comp.parts[p]?).bind (·.job)

/-- The state on which a step has its effect: the one before its command, where its effect was held; else the state in which it
has started, its checks and its header WAIT, where it has one, behind it (R97, R98, R102). -/
def effectOn (z : State) (c : StepCtx) (check : State → StepCtx → Nat) (s : State) : Prop :=
  (c.tgt.phase = .started ∧ s = z) ∨
  (c.tgt.phase = .ready ∧ s = z.startStep c) ∨
  (c.tgt.phase = .fresh ∧ worse (headerCheck c.part c.b) (check ((z.openCommand c).startStep c) c) = 0 ∧
    ((hWait c.b = false ∧ s = (z.openCommand c).startStep c) ∨
     (hWait c.b = true ∧ ∃ y, (z.openCommand c).tryTake c.p c.t (catchKey c.p (hCblk c.b) (hWaitIx c.b)) 1 = some y ∧
       s = y.startStep c)))

/-- The effect of a step is over with a status; its end (STEP_END) comes next. -/
def stepDone (s t : State) (c : StepCtx) (status : Nat) : Prop :=
  ∃ x wrote, s.tgt c.p c.t = some x ∧ t.tgt c.p c.t = some { x with phase := .done status wrote }

/-- No bank refuses or holds an access to the extents of a logical core's scratchpad, in a pair of either, and nothing in it is
poisoned (R125, R139, R155). -/
def padReady (s : State) (p t : Nat) (xs : List Ext) : Prop :=
  (s.padOf p t).poison = [] ∧ (∀ a ∈ s.padsOf p t, a.poison = []) ∧ s.padHeld p t xs = false ∧ (s.padOf p t).refused xs = 0

/-- Of the partitions' jobs nothing has changed but one target. -/
def onlyTgt (s t : State) (p i : Nat) : Prop := ∃ f : TargetSt → TargetSt, t.comp.parts = (s.modTgt p i f).comp.parts

/-- What a step did: its effect is over with a status, its own scratchpad holds what it wrote, in order, over what it held
before, and no core but its own, in a pair its two, and nothing but the cores and the step's own target, has changed. -/
def wroteParts (s t : State) (c : StepCtx) (status : Nat) (parts : List (Nat × List Byte)) : Prop :=
  stepDone s t c status ∧ onlyTgt s t c.p c.t ∧
  t.padOf c.p c.t = parts.foldl (fun p x => p.write (s.weights c.core) x.1 x.2) (s.padOf c.p c.t) ∧
  (∀ n, n ∉ s.coresOf c.p c.t → t.comp.cores[n]? = s.comp.cores[n]?) ∧
  t = { s with comp := { s.comp with cores := t.comp.cores, parts := t.comp.parts }, fresh := t.fresh }

/-- A command that runs one step of a target: the target, the steps that it is for, the checks of such a step. -/
def stepOf : Instr → Option (Nat × Nat × (List Byte → Bool) × (State → StepCtx → Nat))
  | .matmul p t _ => some (p, t, (fun b => hOp b == 0x01), mmCheck)
  | .vector p t _ => some (p, t, (fun b => hOp b == 0x03), vecCheck)
  | .fft2d p t _ => some (p, t, (fun b => hOp b == 0x04), fftCheck)
  | .catchPost p t _ => some (p, t, isCatch 0, catchCheck)
  | .catchWait p t => some (p, t, isCatch 1, catchCheck)
  | .catchSet p t _ => some (p, t, isCatch 2, catchCheck)
  | .resetBlock p t _ => some (p, t, isCatch 3, catchCheck)
  | .spFill p t _ => some (p, t, (fun b => hOp b == 0x30), fillCheck)
  | .spCopy p t _ => some (p, t, (fun b => hOp b == 0x31), copyCheck)
  | .dma p t _ => some (p, t, (fun b => hOp b == 0x32), dmaCheck)
  | .bankClose p t => some (p, t, (fun b => hOp b == 0x33 && leAt b 8 1 == 0), bankCheck)
  | .bankOpen p t => some (p, t, (fun b => hOp b == 0x33 && leAt b 8 1 == 1), bankCheck)
  | .tagCheck p t => some (p, t, (fun b => hOp b == 0x34 && leAt b 8 1 == 0), tagCheckFields)
  | .tagSet p t => some (p, t, (fun b => hOp b == 0x34 && leAt b 8 1 == 1), tagCheckFields)
  | .conv p t _ => some (p, t, (fun b => hOp b == 0x10), convCheck)
  | .fconv p t _ => some (p, t, (fun b => hOp b == 0x11), fconvCheck)
  | .pool p t _ => some (p, t, (fun b => hOp b == 0x12), poolCheck)
  | .nceConv p t _ => some (p, t, (fun b => hOp b == 0x18), nceCheck)
  | .setpt p t _ => some (p, t, (fun b => hOp b == 0x40), setptCheck)
  | .attn p t _ => some (p, t, (fun b => hOp b == 0x20), attnCheck)
  | .kvAppend p t _ => some (p, t, (fun b => hOp b == 0x21), kvAppendCheck)
  | .kvMap p t _ => some (p, t, (fun b => hOp b == 0x22), kvMapCheck)
  | .kvCtxOpen p t _ => some (p, t, isCtxOp 0, ctxOpenCheck)
  | .kvCtxClose p t _ => some (p, t, isCtxOp 1, ctxOpCheck)
  | .kvCtxTruncate p t _ => some (p, t, isCtxOp 2, ctxTruncateCheck)
  | .kvCtxAccept p t _ => some (p, t, isCtxOp 3, ctxAcceptCheck)
  | .kvCtxFlush p t _ => some (p, t, isCtxOp 4, ctxOpCheck)
  | .kvCtxSetPrio p t _ => some (p, t, isCtxOp 5, ctxOpCheck)
  | .kvCtxPrefetch p t _ => some (p, t, isCtxOp 6, ctxOpCheck)
  | _ => none

/-- The step that a command runs has its effect now: the state before the command, the state on which the effect takes place, the
step. -/
def readyStep (i : Instr) (z s : State) (c : StepCtx) : Prop :=
  ∃ p t pick check, stepOf i = some (p, t, pick, check) ∧ z.stepAt p t pick = some c ∧ effectOn z c check s

/-- A step of the attention chapter has its engine free and is the first in its line (R191, R429). -/
def engineReady (s : State) (c : StepCtx) : Prop :=
  ∃ q, s.engineOf c.part c.core = some q ∧ s.engineFree q = true ∧ ∀ u, (s.engineLine c.p q).head? = some u → u = c.t

/-- A step of the attention chapter may have its effect now on a context that is open and wholly in DRAM or staging; it has met
no uncorrected error before. -/
def ctxReady (i : Instr) (z s : State) (c : StepCtx) (k : CtxSt) : Prop :=
  readyStep i z s c ∧ engineReady s c ∧ s.ctx c.p (ctxField c.b) = some k ∧ k.state = .open' ∧ k.swappedPages = [] ∧
  c.tgt.ueMet = false

/-- The key-value formats and the head dimension of a context are ones that OPEN takes (R196). -/
def plainCtx (k : CtxSt) : Prop := kvFmt k.kFmt = true ∧ kvFmt k.vFmt = true ∧ k.d ≤ 256

/-- The page table agrees with the records on every page that these hold, and has a place for each (R195). -/
def tableOk (s : State) (p c : Nat) (k : CtxSt) : Prop :=
  ∀ g ∈ k.pageList, s.entryOk s.dram.mem p c g.1 g.2.1 = true ∧ g.2.1 < k.maxPos / 64

/-- A page slot can be had at once: no request and no page that comes back stands before, and n is the lowest free one (R209,
R212). -/
def slotReady (s : State) (p : Nat) (e : PartEntry) (n : Nat) : Prop :=
  s.slotQueue p = [] ∧ s.returning p = none ∧ 1 ≤ s.freeCount p e ∧ (s.freeSlots p e).head? = some n

/-- The bytes of DRAM outside some ranges of device addresses are unchanged. -/
def dramOnly (s t : State) (xs : List Ext) : Prop :=
  ∀ a, (∀ e ∈ xs, a < e.lo ∨ e.lo + e.len ≤ a) → t.dram.mem.read a = s.dram.mem.read a

/-- A ring whose next window leaves without a batch: the buffer that it had taken is free again. -/
def ringDrops (r : RingSt) : RingSt :=
  let out := fun (w : WindowSt) => w.k == r.nextWin && !w.closed
  { r with wins := r.wins.filter fun w => !out w, nextWin := r.nextWin + 1
           bufs := ((r.wins.filter out).filterMap (·.buf)).foldl (fun l b => l.set b .free) r.bufs }

/-- A decoder stream that has reset for a reason: it holds no reference memory and awaits a random access point (R259). -/
def vdecAnew (v : VdecSt) (why : Nat) : VdecSt :=
  { v with state := 1, reason := why, refBytes := 0, corruptChain := false, seq := none, units := [] }

/-- The logic of the tested domains is reset (R449): the mailbox, the loader and the engine's operations, the partitions and the
cores, the cache, the ingest blocks, the channels and the island's part in PD1 start anew; the firmware, the recovered key, the
flash, the DRAM, the power state and the time counter stand, and so does a hard cause. -/
def logicAnew (s t : State) : Prop :=
  t.ward = .reset ∧ t.sec = { s.sec with mb := .reset, engine := [] } ∧ (∃ n, t.comp = .reset n) ∧ (∃ n, t.kv = .reset n) ∧
  t.ing = .reset ∧ t.ctl = .reset ∧ t.safe = { SafeSt.reset with hard := s.safe.hard } ∧ t.dram = s.dram ∧ t.pwr = s.pwr ∧
  t.time.tb = s.time.tb

/-- The cache is the same but for the lines of steps that stand at the engines. -/
def sameCache (s t : State) : Prop :=
  t.kv.pools = s.kv.pools ∧ t.kv.order = s.kv.order ∧
  (t.kv.engines.map fun x => { x with line := [] }) = s.kv.engines.map fun x => { x with line := [] }

end Sys2Proof.Safety
end

