-- ==== Sys2Proof/Certificates/Slice0/Obligations.lean ====
section
/-!
DEFINITION. What is claimed of the block: the statements for the provers.
-/
section
open Sys2Proof Sys2Proof.Machine Sys2Proof.Safety

/-! ### The machine -/

/-- A step runs the command at the front of the queue on the state with the queue's rest. On an empty queue a step is one tick of
the time clock where the module is powered, and nothing otherwise: the time base moves on, and each domain that has demand notes the
instant. The tick is the model's own (log entry 8). -/
def Obligations.StepRunsFrontOrTicks : Prop :=
  (∀ (c : Instr) (rest : List Instr) (s : State), step { s with pending := c :: rest } = exec c { s with pending := rest }) ∧
  (∀ s : State, s.pending = [] →
     step s = .next (if s.boot.powered then ({ s with time := s.time.tick s.addend }).noteDemand else s))

/-- Every command, whatever its operands, answers a next state: no rule of the spec stops the block. A command that comes from a port
that does not exist does not reach the module and changes nothing. The model's choices in it: log entries 6, 7. -/
def Obligations.EveryCommandGoesOn : Prop :=
  ∀ (c : Instr) (s : State),
    (∃ t, exec c s = .next t) ∧ (∀ p, sender c = some p → s.nPorts ≤ p.val → exec c s = .next s)

/-- No command touches the queue: the commands that wait are those that waited, so that commands are executed in the order in which
they reach the block. The queue of waiting commands is the model's own (log entry 83). -/
def Obligations.QueueIsFirstInFirstOut : Prop :=
  (∀ (c : Instr) (s t : State), exec c s = .next t → t.pending = s.pending) ∧
  ∀ (c : Instr) (rest : List Instr) (s t : State), step { s with pending := c :: rest } = .next t → t.pending = rest

/-- What reset leaves: every register at the reset value of its table, no image in force, the loader IDLE, both deadbolt
pins low, no fault recorded, the time base at zero, the module not ready; and the invariants of the block hold.
The model's choices in it: log entries 4, 90, 91. -/
def Obligations.ResetState : Prop :=
  (∀ k, State.reset.rv k = resetOf k % 2 ^ 32) ∧ State.reset.ward.image = none ∧ State.reset.ward.state = .idle ∧
  State.reset.safe.heartbeat = false ∧ State.reset.safe.flog = [] ∧ State.reset.time.tb = 0 ∧
  State.reset.boot.ready = false ∧ DeadboltInv State.reset ∧ LoaderInv State.reset

/-- The deadbolt's pins run only in the state RUNNING, which exists, as SAFE does, only under a drive image: every step
keeps it, from every state. -/
def Obligations.DeadboltInvariant : Prop :=
  ∀ s t : State, DeadboltInv s → step s = .next t → DeadboltInv t

/-- Only images that have passed the validation are ever held or in force: every step keeps it, from every state. -/
def Obligations.LoaderInvariant : Prop :=
  ∀ s t : State, LoaderInv s → step s = .next t → LoaderInv t

/-- The image in force changes in three ways only: the end of a validation puts the first image in force, the switch puts
the held image in force, and a loss of power, or the reset that ends a self-test of the loader's domain, leaves none. The model's
choices in it: log entry 71. -/
def Obligations.ImageChangesOnlyBySwitch : Prop :=
  ∀ (c : Instr) (s t : State), exec c s = .next t → t.ward.image ≠ s.ward.image →
    (∃ ok, c = .validationDone ok ∧ s.ward.image = none ∧ ∃ i, t.ward.image = some i ∧ Accepted i) ∨
    (∃ l, c = .switch l ∧ s.ward.state = .holding ∧ t.ward.image = s.ward.cand) ∨
    ((powerCommand c = true ∨ selfTestEnd c = true) ∧ t.ward.image = none)

/-- No command, no loss of power and no start-up ever lowers an anti-rollback counter. -/
def Obligations.CountersNeverDecrease : Prop :=
  ∀ (c : Instr) (s t : State), exec c s = .next t →
    ∀ n, s.sec.counters.getD n 0 ≤ t.sec.counters.getD n 0

/-- The state of the deadbolt, its pins, the cause and the count of the safe state change only by the commands of the
safe state, the guard, RESUME, a change of the image in force, key-off, the loss of the reference oscillator or of power, or the
reset that ends a self-test of the island's domain. A plain register write does so only as a write of one DWORD to SAFE_CMD. The
model's choices in it: log entry 71. -/
def Obligations.SafeStateChangesOnlyByItsCommands : Prop :=
  ∀ (c : Instr) (s t : State), exec c s = .next t →
    (t.safe.state ≠ s.safe.state ∨ t.safe.heartbeat ≠ s.safe.heartbeat ∨ t.safe.cause ≠ s.safe.cause ∨
      t.safe.entryCnt ≠ s.safe.entryCnt) →
    c = .safeStateEntry ∨ c = .guardTimeout ∨ c = .islandLockstepTrip ∨ c = .referenceOscillatorStop ∨
    (∃ p v, c = .resume p v) ∨ (∃ w, c = .registerWrite w ∧ w.more = [] ∧ w.off = 0x200004) ∨ (∃ ok, c = .validationDone ok) ∨ (∃ l, c = .switch l) ∨
    c = .keyOff ∨ powerCommand c = true ∨ selfTestEnd c = true

/-! ### The Ward loader -/

/-- BEGIN with an acceptable length, where the loader is IDLE or RECEIVING and the module is ready: staging and coverage clear,
WARD_TOTAL_LEN and the port are recorded, the state is RECEIVING, and nothing else changes. In VALIDATING and HOLDING BEGIN
is refused with REFUSED and the loader unchanged, and in every state before the module is ready; an unacceptable length leaves IDLE,
nothing staged and 0x0605. CHUNK within bounds starts a copy; when the copy is done its bytes stand in the staging area at
WARD_CHUNK_OFF, every other staged byte is as it was, the range is covered, and BUSY is clear; without a copy in progress its end
changes nothing. CHUNK out of bounds copies nothing and reports 0x0602; CHUNK while BUSY is refused with REFUSED. Section 0xFF and
offset 0 of the statuses are the model's choice (log entry 20), as are the instant at which the aperture is read (log entry 21) and
that BEGIN before readiness leaves the loader unchanged (log entry 22). -/
def Obligations.WardStagesAnImage : Prop :=
  (∀ (s : State) (p : Port), admits s p 0x100000 → s.boot.ready = true →
     ((s.ward.state = .idle ∨ s.ward.state = .receiving) → totalOk (s.rv 0x100004) = true →
       exec (.begin p) s = .next { s with ward := { s.ward with
         state := .receiving, busy := false, staging := .zero, covered := [], beginPort := p.val, total := s.rv 0x100004 } }) ∧
     ((s.ward.state = .validating ∨ s.ward.state = .holding) →
       ∃ t, exec (.begin p) s = .next t ∧ t.ward = s.ward ∧ t.rv 0x100014 = s.rv 0x100014 ∧ t.rv 0x100030 = (s.rv 0x100030 ||| 4) % 2 ^ 32) ∧
     ((s.ward.state = .idle ∨ s.ward.state = .receiving) → totalOk (s.rv 0x100004) = false →
       ∃ t, exec (.begin p) s = .next t ∧ t.ward.state = .idle ∧ t.ward.covered = [] ∧ t.ward.staging = .zero ∧
         t.ward.image = s.ward.image ∧ t.rv 0x100014 = 0x0605 * 2 ^ 16 + 0xFF00)) ∧
  (∀ (s : State) (p : Port), admits s p 0x100000 → s.boot.ready = false →
     ∃ t, exec (.begin p) s = .next t ∧ t.ward = s.ward ∧ t.rv 0x100014 = s.rv 0x100014 ∧
       t.rv 0x100030 = (s.rv 0x100030 ||| 4) % 2 ^ 32) ∧
  (∀ (s : State) (p : Port), admits s p 0x100000 → s.ward.state = .receiving →
     (s.ward.busy = true →
       ∃ t, exec (.chunk p) s = .next t ∧ t.ward = s.ward ∧ t.rv 0x100014 = s.rv 0x100014 ∧
         t.rv 0x100030 = (s.rv 0x100030 ||| 4) % 2 ^ 32) ∧
     (s.ward.busy = false → chunkOk (s.rv 0x100008) (s.rv 0x10000C) s.ward.total = false →
       ∃ t, exec (.chunk p) s = .next t ∧ t.ward = s.ward ∧ t.rv 0x100014 = 0x0602 * 2 ^ 16 + 0xFF00 ∧ t.rv 0x100018 = 0 ∧
         t.rv 0x100030 = (s.rv 0x100030 ||| 2) % 2 ^ 32)) ∧
  (∀ (s : State) (p : Port), admits s p 0x100000 → s.ward.state = .receiving → s.ward.busy = false →
     chunkOk (s.rv 0x100008) (s.rv 0x10000C) s.ward.total = true →
     ∃ t u, exec (.chunk p) s = .next t ∧ t = { s with ward := { s.ward with busy := true, chunk := (s.rv 0x100008, s.rv 0x10000C) } } ∧
       exec .chunkCopyDone t = .next u ∧ u.ward.busy = false ∧ u.ward.covered = s.ward.covered ++ [(s.rv 0x100008, s.rv 0x10000C)] ∧
       (∀ i, i < s.rv 0x10000C → u.ward.staging.read (s.rv 0x100008 + i) = s.ward.aperture.read i) ∧
       (∀ a, a < s.rv 0x100008 ∨ s.rv 0x100008 + s.rv 0x10000C ≤ a → u.ward.staging.read a = s.ward.staging.read a) ∧
       u = { s with ward := u.ward }) ∧
  (∀ s : State, exec .chunkCopyDone s = .next (if s.ward.busy then { s with ward := { s.ward with
     busy := false, staging := s.ward.staging.writeBytes s.ward.chunk.1 (s.ward.aperture.readBytes 0 s.ward.chunk.2),
     covered := s.ward.covered ++ [s.ward.chunk] } } else s))

/-- FINISH on a complete staging area starts the validation; on an incomplete one the loader is IDLE with 0x0603. ABORT
while RECEIVING discards the staging area. FINISH, ABORT and CHUNK in any other state, and an undefined command code in
every state, are refused: REFUSED is set and the loader and WARD_ERROR are unchanged.
The model's choices in it: log entries 20, 21. -/
def Obligations.WardFinishAbortAndRefusals : Prop :=
  ∀ (s : State) (p : Port), admits s p 0x100000 →
    (s.ward.state = .receiving → s.ward.busy = false → fullyCovered s.ward.covered s.ward.total = true → s.sec.engine = [] →
      exec (.finish p) s = .next { s with ward := { s.ward with state := .validating }, sec := { s.sec with engine := [.validate] } }) ∧
    (s.ward.state = .receiving → s.ward.busy = false → fullyCovered s.ward.covered s.ward.total = false →
      ∃ t, exec (.finish p) s = .next t ∧ t.ward.state = .idle ∧ t.ward.image = s.ward.image ∧
        t.rv 0x100014 = 0x0603 * 2 ^ 16 + 0xFF00) ∧
    (s.ward.state = .receiving →
      exec (.abort p) s = .next { s with ward := { s.ward with state := .idle, staging := .zero, covered := [], busy := false } }) ∧
    (∀ c, ((c = .finish p ∨ c = .abort p ∨ c = .chunk p) ∧ s.ward.state ≠ .receiving) ∨
        (∃ v : Word, c = .wardCmdUnknown p v ∧ (v.toNat % 8 = 0 ∨ 5 ≤ v.toNat % 8)) →
      ∃ t, exec c s = .next t ∧ t.ward = s.ward ∧ t.sec = s.sec ∧ t.rv 0x100014 = s.rv 0x100014 ∧
        t.rv 0x100030 = (s.rv 0x100030 ||| 4) % 2 ^ 32)

/-- The end of a validation. An image that fails has no effect: the loader is IDLE, the image in force is unchanged, and
WARD_ERROR gives the status, the section and the offset of the first failure. An image that passes is in force at once
where none was in force; otherwise it is held for the switch. The model's choices in it: log entries 12, 20, 25, 30. -/
def Obligations.WardValidation : Prop :=
  ∀ (s : State) (ok : Bool) (rest : List SecOp), s.boot.refOsc = true → s.sec.engine = .validate :: rest → s.ward.state = .validating →
    let b := s.ward.staging.readBytes 0 s.ward.total
    (∀ f, validate b (s.wardInputs b ok) = some f →
      ∃ t, exec (.validationDone ok) s = .next t ∧ t.ward.state = .idle ∧ t.ward.image = s.ward.image ∧ t.ward.cand = s.ward.cand ∧
        t.rv 0x100014 = (f.status * 2 ^ 16 + f.sect * 2 ^ 8) % 2 ^ 32 ∧ t.rv 0x100018 = f.offset % 2 ^ 32 ∧
        t.comp = s.comp ∧ t.dram = s.dram ∧ t.kv = s.kv ∧ t.ctl = s.ctl ∧ t.safe = s.safe) ∧
    (validate b (s.wardInputs b ok) = none → s.ward.image = none →
      ∃ t, exec (.validationDone ok) s = .next t ∧ t.ward.state = .idle ∧ t.ward.image = some (parseImage b)) ∧
    (validate b (s.wardInputs b ok) = none → s.ward.image.isSome = true →
      ∃ t, exec (.validationDone ok) s = .next t ∧ t.ward.state = .holding ∧ t.ward.image = s.ward.image ∧
        t.ward.cand = some (parseImage b))

/-- The switch, when every running job waits at its command boundaries: the held image is in force, the loader is IDLE,
every catch is cleared, no partition runs a job, the cache is empty; buses, links and the time base are untouched. The
release of the hold drops the held image and leaves the image in force, the security engine and the deadbolt alone.
The model's choices in it: log entries 25, 26, 27, 28, 29, 45. -/
def Obligations.WardSwitchAndRelease : Prop :=
  ∀ (s : State) (i : Image), s.ward.state = .holding → s.ward.cand = some i →
    (∀ l, s.allHeld = true → ∃ t, exec (.switch l) s = .next t ∧ t.ward.image = some i ∧ t.ward.cand = none ∧
      t.ward.state = .idle ∧ t.comp.catches = [] ∧ (∀ q ∈ t.comp.parts, q.job = none) ∧ t.ing.cache = [] ∧
      t.can = s.can ∧ t.t1s = s.t1s ∧ t.eth = s.eth ∧ t.time = s.time ∧ t.ports = s.ports ∧ t.boot = s.boot) ∧
    (∃ t, exec .holdRelease s = .next t ∧ t.ward.image = s.ward.image ∧ t.ward.cand = none ∧ t.ward.state = .idle ∧
      t.sec = s.sec ∧ t.safe.state = s.safe.state ∧ t.can = s.can ∧ t.time = s.time)

/-! ### Host ports and registers -/

/-- Accesses that are bus errors: every read of BAR2 (KIND 4), a malformed access to BAR0 (KIND 4), an access to a reserved
or unimplemented location (KIND 1 for a read, 2 for a write). Each is counted and logged, a read is also answered with a
Completer Abort, and nothing but the port's PCI registers changes. Where BUSERR is an enabled event that had not been set, the
vector of the port's PCI source is sent: its message, or its pending bit where the vector or the function is masked. The model's
choices in it: log entries 9, 16. -/
def Obligations.BusErrors : Prop :=
  ∀ (s : State) (p : Port), arrives s p →
    (∀ off len, ∃ t, exec (.bar2Read p off len) s = .next t ∧ busErrorOn s t p 2 4 off ∧ t.out.getLast? = some (.readAbort p)) ∧
    (∀ off, ∃ t, exec (.malformedAccess p off true) s = .next t ∧ busErrorOn s t p 0 4 off) ∧
    (∀ off, ∃ t, exec (.malformedAccess p off false) s = .next t ∧ busErrorOn s t p 0 4 off ∧
      t.out.getLast? = some (.readAbort p)) ∧
    (∀ off, off % 4 = 0 → rowAt off = none →
      (∃ t, exec (.reservedLocationAccess p 0 off true) s = .next t ∧ busErrorOn s t p 0 2 off) ∧
      (∃ t, exec (.reservedLocationAccess p 0 off false) s = .next t ∧ busErrorOn s t p 0 1 off ∧
        t.out.getLast? = some (.readAbort p))) ∧
    (∀ off v, tbit (s.rv (portKey p 0x600020)) 31 = false → tbit (s.rv (portKey p 0x600010)) 0 = false →
      tbit (s.rv (portKey p 0x600014)) 0 = true → (s.pciCfg p).msixEnable = true → v = field (s.rv (portKey p 0x600098)) 0 11 →
      ∃ t, exec (.malformedAccess p off true) s = .next t ∧
        ((s.pciCfg p).msixMask = false → tbit (s.rv (msixKey p v 12)) 0 = false →
          t.out = s.out ++ [.msi p v (s.rv (msixKey p v 0) + 2 ^ 32 * s.rv (msixKey p v 4)) (s.rv (msixKey p v 8))]) ∧
        ((s.pciCfg p).msixMask = true ∨ tbit (s.rv (msixKey p v 12)) 0 = true →
          t.out = s.out ∧ tbit (t.rv (pbaKey p v)) (v % 32) = true))

/-- A write to BAR4 through a segment stores its bytes at the segment's place in the partition's DRAM and nowhere else; a
read answers the bytes that stand there and changes no byte of memory. A tower that serves either and stood in SELF_REFRESH is
ACTIVE; no other change comes to a tower. A read that meets poison says so, and is logged as an uncorrected error. Outside every
enabled segment both are bus errors of KIND 6 and touch no memory.
The model's choices in it: log entry 34. -/
def Obligations.Bar4ReachesOnlyItsSegment : Prop :=
  ∀ (s : State) (p : Port) (off : Nat), arrives s p →
    (∀ (d : List Byte) q x base size, s.segment p off d.length true = some (q, x) → s.dramOf q = some (base, size) →
      ∃ t, exec (.bar4Write p off d) s = .next t ∧
        (∀ i (h : i < d.length), t.dram.mem.read (base + x + i) = d[i]) ∧
        (∀ a, a < base + x ∨ base + x + d.length ≤ a → t.dram.mem.read a = s.dram.mem.read a) ∧
        towersServe s t (base + x) d.length ∧ t = { s with dram := t.dram, regs := { s.regs with pwr := t.regs.pwr } }) ∧
    (∀ len q x base size, s.segment p off len false = some (q, x) → s.dramOf q = some (base, size) →
      s.placePoisoned q (.dram x) len = false →
      ∃ t, exec (.bar4Read p off len) s = .next t ∧
        t.out = s.out ++ [.readData p ((List.range len).map fun i => s.dram.mem.read (base + x + i)) false] ∧
        towersServe s t (base + x) len ∧ t.dram.mem = s.dram.mem ∧ t.dram.poison = s.dram.poison ∧
        t = { s with out := t.out, dram := t.dram, regs := { s.regs with pwr := t.regs.pwr } }) ∧
    (∀ len q x base size, s.segment p off len false = some (q, x) → s.dramOf q = some (base, size) →
      s.placePoisoned q (.dram x) len = true →
      ∃ t, exec (.bar4Read p off len) s = .next t ∧ tbit (t.rv 0x2400A0) 31 = true ∧
        .readData p ((List.range len).map fun i => s.dram.mem.read (base + x + i)) true ∈ t.out) ∧
    (∀ d : List Byte, s.segment p off d.length true = none →
      ∃ t, exec (.bar4Write p off d) s = .next t ∧ busErrorOn s t p 4 6 off) ∧
    (∀ len, s.segment p off len false = none →
      ∃ t, exec (.bar4Read p off len) s = .next t ∧ busErrorOn s t p 4 6 off ∧ t.out.getLast? = some (.readAbort p))

/-- The rules of a register write, in their order: a misaligned write is a bus error of KIND 4, a write to no register KIND
2, before readiness outside GLOBAL, WARD, SEC and PCI KIND 3; a write that the block's rule forbids is a bus error of KIND 3,
whatever the register's access code; an allowed write to a read-only register changes nothing. A request of more than one DWORD is a
bus error of KIND 4 where it is not aligned, does not lie in an aperture that takes longer requests, or exceeds the payload size,
and one bus error of KIND 3 where it is forbidden; one to the loader's aperture stores its DWORDs there in order, and nothing else.
A read of no register is a bus error, here none; a register reads 0 in a block that is not ready and where the block's rule forbids
the port to read it, as a port reads the queue, partition, pool and core registers of what is bound to it alone; where the register is
no view of the state, an RWL register reads as its shadow, and after a snapshot the two words of a counter outside the control
channels read as its value at the snapshot's instant. The model's choices in it: log entries 9, 13, 14, 15. -/
def Obligations.RegisterWriteRules : Prop :=
  (∀ (s : State) (w : RegWrite), arrives s w.port →
    (w.more ≠ [] →
      (s.wideOk w.port w.off (w.more.length + 1) = false →
        ∃ t, exec (.registerWrite w) s = .next t ∧ busErrorOn s t w.port 0 4 w.off) ∧
      (s.wideOk w.port w.off (w.more.length + 1) = true → s.allows w.port w.off = false →
        ∃ t, exec (.registerWrite w) s = .next t ∧ busErrorOn s t w.port 0 3 w.off) ∧
      (s.wideOk w.port w.off (w.more.length + 1) = true → w.off < 0x120000 →
        ∃ t, exec (.registerWrite w) s = .next t ∧
          (∀ i v, (w.value :: w.more)[i]? = some v →
            t.ward.aperture.readBytes (w.off - 0x110000 + 4 * i) 4 = natLe 4 v.toNat) ∧
          (∀ a, a + 0x110000 < w.off ∨ w.off + 4 * (w.more.length + 1) ≤ a + 0x110000 →
            t.ward.aperture.read a = s.ward.aperture.read a) ∧
          t = { s with ward := { s.ward with aperture := t.ward.aperture } })) ∧
    (w.more = [] → w.off % 4 ≠ 0 → ∃ t, exec (.registerWrite w) s = .next t ∧ busErrorOn s t w.port 0 4 w.off) ∧
    (w.more = [] → w.off % 4 = 0 → rowAt w.off = none →
      ∃ t, exec (.registerWrite w) s = .next t ∧ busErrorOn s t w.port 0 2 w.off) ∧
    (∀ r ix, w.more = [] → w.off % 4 = 0 → rowAt w.off = some (r, ix) →
      (s.phaseOk w.off = false ∨ s.mayWrite w.port r ix (s.regKey w.port r w.off) = false ∨ s.ownedObject w.off = true →
        ∃ t, exec (.registerWrite w) s = .next t ∧ busErrorOn s t w.port 0 3 w.off) ∧
      (s.phaseOk w.off = true → s.mayWrite w.port r ix (s.regKey w.port r w.off) = true → s.ownedObject w.off = false →
        r.acc = .ro → exec (.registerWrite w) s = .next s))) ∧
  (∀ (s : State) (p : Port) (off : Nat),
    (rowAt off = none → s.readReg p off = none) ∧
    (∀ r ix, rowAt off = some (r, ix) →
      (s.phaseOk off = false → s.readReg p off = some 0) ∧
      (r.rule = .queue → ((s.bindOf (s.selected p)).any fun b => b.port == p.val) = false → s.readReg p off = some 0) ∧
      (r.rule = .part → (off / 0x100000 = 7 ∨ off / 0x100000 = 11) → s.bound (ix.headD 0) p = false → s.readReg p off = some 0) ∧
      (r.rule = .core → off % 0x100000 ≠ 0 → ((s.partOfCore (ix.headD 0)).any fun x => s.bound x p) = false → s.readReg p off = some 0) ∧
      (s.phaseOk off = true → s.mayRead p r ix off = true → s.chanOff off = false → r.acc = .rwl → r.counter = false →
        s.viewOf p (s.readOff off) (s.regs.shadow (s.regKey p r (s.readOff off))) = none →
        s.readReg p off = some (s.regs.shadow (s.regKey p r (s.readOff off)))))) ∧
  (∀ (s : State) (p : Port) (v : Word) (off : Nat) r ix r' ix', admits s p 0x20 → tbit v.toNat 0 = true → p.val < s.ports.length →
    off % 8 = 0 → (off < 0xC10000 ∨ 0xC28000 ≤ off) → rowAt off = some (r, ix) → rowAt (off + 4) = some (r', ix') →
    r.counter = true → r'.counter = true → s.phaseOk off = true → s.mayRead p r ix off = true → s.mayRead p r' ix' (off + 4) = true →
    (∀ (y : State) x, y.viewOf p off x = none ∧ y.viewOf p (off + 4) x = none) →
    ∃ t c, exec (.snapshot p v) s = .next t ∧ c = (alGet s.counterList off).getD 0 ∧
      t.readReg p off = some (c % 2 ^ 32) ∧ t.readReg p (off + 4) = some (c / 2 ^ 32 % 2 ^ 32))

/-- A write of one DWORD that is allowed to an RWL register outside CAN_CTL and VDEC_STR_CFG reaches its shadow alone: the shadow takes
the value written, masked to the register's fields; every other shadow, every value in force, the pending captures and all else
stay. A write of ones to an event register clears those bits and no other, by either command. -/
def Obligations.BufferedAndClearingWrites : Prop :=
  ∀ (s : State) (w : RegWrite) r ix, arrives s w.port → w.more = [] → w.off % 4 = 0 → rowAt w.off = some (r, ix) →
    s.phaseOk w.off = true → s.mayWrite w.port r ix (s.regKey w.port r w.off) = true → s.ownedObject w.off = false →
    (r.acc = .rwl → ¬(slotOf w.off = 13 ∧ w.off % 0x20000 = 0) → ¬(slotOf w.off = 9 ∧ w.off < 0x940000 ∧ w.off % 0x1000 = 0) →
      ∃ t, exec (.registerWrite w) s = .next t ∧
        t.regs.shadow (s.regKey w.port r w.off) = r.fix (w.value.toNat &&& r.mask) % 2 ^ 32 ∧
        (∀ k, k ≠ s.regKey w.port r w.off → t.regs.shadow k = s.regs.shadow k) ∧ (∀ k, t.rv k = s.rv k) ∧
        (∀ b, b < 16 → (t.regs.blk b).caps = (s.regs.blk b).caps ∧ (t.regs.blk b).counters = (s.regs.blk b).counters) ∧
        t = { s with regs := t.regs }) ∧
    (r.acc = .w1c → r.fix = id → (w.off < 0x640000 ∨ 0x650000 ≤ w.off) →
      ∃ t, exec (.registerWrite w) s = .next t ∧ exec (.eventRegisterW1c w) s = .next t ∧
        (∀ i, i < 32 → tbit (t.rv (s.regKey w.port r w.off)) i =
          (tbit (s.rv (s.regKey w.port r w.off)) i && !(tbit w.value.toNat i && tbit r.mask i))) ∧
        t = { s with regs := t.regs, out := t.out })

/-- LATCH_GO, whatever it captures, goes on and changes registers alone, no value of an RWL register in force among them; one
that captures nothing still ends with LATCH_DONE; a mask of zero does nothing at all. LATCH_APPLY of any group and
instance goes on: it leaves memory, jobs, contexts, the loader and the security engine as they were. A register whose shadow
differs has its capture taken (stated of every block but the control engine's, where the check of a bank may drop it). A capture
that its instance's boundary finds applies: the value captured is in force, and the capture is no longer pending. Stated of the
groups whose apply has no further effect (MSI-X windows, queues, pools), and of the banks and controls of a channel without an entry,
which apply in one action; a channel whose domain is not ON applies its controls, and its bank 2 µs after the LATCH_GO, with the
checks of its boundary. An instance that is not at its boundary (a queue with a job, a pool with a context on its way, a camera port
that can take a Frame Start, a scatter engine that can begin a sweep, a decoder stream that can begin a picture) changes nothing. A
snapshot gives the port the values of every counter and of TIME_NOW at one instant, counts it, and stamps it; no other port's holding
set and nothing else changes; one whose TAKE bit is clear does nothing. The model's choices in it: log entries 18, 19. -/
def Obligations.LatchesAndSnapshots : Prop :=
  ((∀ (s : State) (p : Port), admits s p 0x10 → exec (.latchGo p 0) s = .next s) ∧
   (∀ (s : State) (p : Port) (m : Word), admits s p 0x10 →
     ∃ t, exec (.latchGo p m) s = .next t ∧ t = { s with regs := t.regs, out := t.out } ∧
       ∀ k r ix, rowAt (keyOff k) = some (r, ix) → r.acc = .rwl → (keyOff k < 0x640000 ∨ 0x650000 ≤ keyOff k) → t.rv k = s.rv k) ∧
   (∀ (s : State) (p : Port) (m : Word), admits s p 0x10 → m ≠ 0#32 →
     (∀ b, b < 16 → ((s.regs.blk b).liveKeys.filterMap fun k => s.captureOf p m.toNat k) = []) →
     ∃ t, exec (.latchGo p m) s = .next t ∧ tbit (t.rv (portKey p 0x40)) 0 = true ∧ t = { s with regs := t.regs, out := t.out }) ∧
   (∀ (s : State) (p : Port) (m : Word) (b : Nat) k c, admits s p 0x10 → m ≠ 0#32 → b < 16 → b ≠ 12 →
     k ∈ (s.regs.blk b).liveKeys → min (slotOf k) 15 = b → s.captureOf p m.toNat k = some c →
     ∃ t, exec (.latchGo p m) s = .next t ∧ c ∈ (t.regs.blk b).caps) ∧
   (∀ (s : State) (g : Fin 32) (i : Nat), ∃ t, exec (.latchApply g i) s = .next t ∧ t.dram = s.dram ∧ t.comp = s.comp ∧
     t.kv = s.kv ∧ t.ward = s.ward ∧ t.sec = s.sec ∧ t.safe.state = s.safe.state ∧ t.ports = s.ports) ∧
   (∀ (s : State) (g : Fin 32) (i : Nat), (g.val = 2 ∨ g.val = 3) → i < 24 → (s.chanEntry i).isNone →
     ((s.regs.blk 12).caps.map fun c => c.key).Nodup →
     ∃ t, exec (.latchApply g i) s = .next t ∧
       (∀ c ∈ (s.regs.blk 12).caps, slotOf c.key = 12 → c.isOf 2 i = true ∨ c.isOf 3 i = true → t.rv c.key = c.value.toNat) ∧
       (∀ c ∈ (t.regs.blk 12).caps, c.isOf 2 i = false ∧ c.isOf 3 i = false) ∧ t = { s with regs := t.regs, out := t.out }) ∧
   (∀ (s : State) (g : Fin 32) (i : Nat), (g.val = 2 ∨ g.val = 3) → i < 24 → (s.chanEntry i).isSome → s.domOn 5 = false →
     ∃ t, exec (.latchApply g i) s = .next t ∧
       (∀ c ∈ (t.regs.blk 12).caps, c ∈ (s.regs.blk 12).caps ∧ (c.isOf 3 i = true → s.time.elapsed ≤ c.taken) ∧
         (c.isOf 2 i = true → s.time.elapsed < c.taken + 2000))) ∧
   (∀ (s : State) (i : Nat),
     (i < 16 → s.camOn i = true → exec (.latchApply 4 i) s = .next s) ∧
     (s.scatOn i = true → exec (.latchApply 6 i) s = .next s) ∧
     (s.vdecIdle i = false → exec (.latchApply 7 i) s = .next s)) ∧
   ∀ (s : State) (g : Fin 32) (c : Capture), (g.val = 1 ∨ g.val = 8 ∨ g.val = 12) →
     (s.regs.blk (slotOfGroup g)).caps = [c] → groupOf c.key = g → slotOf c.key = slotOfGroup g →
     (keyOff c.key < 0x640000 ∨ 0x650000 ≤ keyOff c.key) →
     (((g.val = 8 → s.queueIdle (instOf c.key) = true) ∧ (g.val = 12 → s.poolIdle (instOf c.key) = true)) →
       ∃ t, exec (.latchApply g (instOf c.key)) s = .next t ∧ t.rv c.key = c.value.toNat ∧
         (t.regs.blk (slotOfGroup g)).caps = [] ∧ t = { s with regs := t.regs, out := t.out }) ∧
     ((g.val = 8 ∧ s.queueIdle (instOf c.key) = false) ∨ (g.val = 12 ∧ s.poolIdle (instOf c.key) = false) →
       exec (.latchApply g (instOf c.key)) s = .next s)) ∧
  (∀ (s : State) (p : Port) (v : Word), admits s p 0x20 →
     (tbit v.toNat 0 = false → exec (.snapshot p v) s = .next s) ∧
     (tbit v.toNat 0 = true → p.val < s.ports.length →
       ∃ t, exec (.snapshot p v) s = .next t ∧
         t.ports[p.val]? = s.ports[p.val]?.map (fun x => { x with holding := s.counterList }) ∧
         (∀ q, q ≠ p.val → t.ports[q]? = s.ports[q]?) ∧
         t.rv (portKey p 0x24) = (s.rv (portKey p 0x24) + 1) % 2 ^ 32 ∧ t.rv (portKey p 0x28) = s.now % 1000000000 ∧
         t.rv (portKey p 0x2C) = s.now / 1000000000 % 2 ^ 32 ∧ t.rv (portKey p 0x30) = s.now / 1000000000 / 2 ^ 32 % 2 ^ 16 ∧
         (∀ k, k ∉ [portKey p 0x24, portKey p 0x28, portKey p 0x2C, portKey p 0x30] → t.rv k = s.rv k) ∧
         t = { s with ports := t.ports,
                      regs := { s.regs with global := { s.regs.global with vals := t.regs.global.vals } } }))

/-- Links: RETRAIN starts a training on a link that is up; the end of a training at a width and speed the port has sets them,
with RETRAINED; the link comes up, and the function stands as the host configures it; none of it while PERST_N holds the port. A
reset of the port's own state puts its registers at their reset values, takes the port's pending bits from the captures and leaves
every other register, shadow and capture, the other ports and every other block as they were; the end of PERST_N frees the port;
while the module has no power only the level of PERST_N is kept. PCI_BUSERR_CLR clears the log or the count, and only that. The
model's choices in it: log entries 16, 31, 32. -/
def Obligations.LinksAndPortResets : Prop :=
  ∀ (s : State) (p : Port) (x : PortSt), s.ports[p.val]? = some x →
    (∀ v : Word, admits s p 0x60000C → tbit v.toNat 0 = true →
      exec (.retrain p v) s = .next { s with ports := s.ports.set p { x with training := true } }) ∧
    (∀ cfg, linked s p →
      (x.perst = true → exec (.linkUp ⟨p, cfg⟩) s = .next s) ∧
      (x.perst = false → ∃ t, exec (.linkUp ⟨p, cfg⟩) s = .next t ∧
        t.ports = s.ports.set p { x with up := true, cfg := cfg } ∧
        t = { s with ports := t.ports, regs := { s.regs with pci := t.regs.pci }, out := t.out } ∧
        (cfg.msixEnable = false ∨ cfg.msixMask = true → t.out = s.out ∧ t.regs = s.regs))) ∧
    (∀ width speed, linked s p → (width = 1 ∨ width = 2 ∨ width = 4 ∨ width = 8 ∨ width = 16) → width ≤ s.fullWidth p →
      1 ≤ speed → speed ≤ s.rv (portKey p 0x600008) % 8 → (s.regs.pci.caps.any fun c => c.key == portKey p 0x600008) = false →
      (x.perst = true → exec (.linkTrainingComplete p width speed) s = .next s) ∧
      (x.perst = false → ∃ t y, exec (.linkTrainingComplete p width speed) s = .next t ∧ t.ports[p.val]? = some y ∧ y.width = width ∧
        y.speed = speed ∧ y.training = false ∧ y.up = x.up ∧ tbit (t.rv (portKey p 0x600010)) 1 = true)) ∧
    (∀ kind, linked s p → kind ≠ .perstEnd → ∃ t, exec (.portReset p kind) s = .next t ∧
      (∀ q, q ≠ p.val → t.ports[q]? = s.ports[q]?) ∧
      (∀ y, t.ports[p.val]? = some y → y.holding = [] ∧ (kind ≠ .flr → y.up = false) ∧ (kind = .flr → y.up = x.up) ∧
        y.cfg = {} ∧ y.aer = 0 ∧ y.perst = (kind == .perst || x.perst)) ∧
      (∀ k, portOwn p k = true → t.rv k = resetOf k % 2 ^ 32 ∧ t.regs.shadow k = resetOf k % 2 ^ 32) ∧
      (∀ k, portOwn p k = false → t.rv k = s.rv k ∧ t.regs.shadow k = s.regs.shadow k) ∧
      (∀ b, b < 16 → (t.regs.blk b).counters = (s.regs.blk b).counters ∧
        (t.regs.blk b).caps = (s.regs.blk b).caps.map fun c => { c with ports := c.ports.filter (· != p.val) }) ∧
      t = { s with regs := t.regs, ports := t.ports }) ∧
    (linked s p → exec (.portReset p .perstEnd) s = .next { s with ports := s.ports.set p { x with perst := false } }) ∧
    (∀ kind, s.alive = false → p.val < s.nPorts →
      exec (.portReset p kind) s = .next { s with ports := s.ports.set p { x with perst := heldAfter kind x } }) ∧
    (admits s p 0x60003C → ∃ t, exec (.buserrLogClear p) s = .next t ∧
      (∀ o ∈ [0x600020, 0x600024, 0x600028, 0x60002C, 0x600030, 0x600034], t.rv (portKey p o) = 0) ∧
      (∀ k, (∀ o ∈ [0x600020, 0x600024, 0x600028, 0x60002C, 0x600030, 0x600034], k ≠ portKey p o) → t.rv k = s.rv k) ∧
      t = { s with regs := { s.regs with pci := { s.regs.pci with vals := t.regs.pci.vals } } }) ∧
    (admits s p 0x60003C → ∃ t, exec (.buserrCountClear p) s = .next t ∧ t.rv (portKey p 0x600038) = 0 ∧
      (∀ k, k ≠ portKey p 0x600038 → t.rv k = s.rv k) ∧
      t = { s with regs := { s.regs with pci := { s.regs.pci with vals := t.regs.pci.vals } } })

/-! ### Queues and jobs -/

/-- A doorbell that its binding and its ring admit sets the queue's tail, and nothing else. One of the wrong size, alignment
or value, or to a queue whose RESET is pending, raises BAD_DOORBELL and leaves every tail. One to a queue that is not bound
to the port is a bus error of KIND 5. A read of BAR2, at any offset and of any length, is a bus error of KIND 4. -/
def Obligations.DoorbellSetsTheTail : Prop :=
  ∀ (s : State) (p : Port) (off size : Nat) (v : BitVec 64), arrives s p → off < 0x80000 →
    (∀ b, s.bindOf (off / 8) = some b → b.port = p.val → size = 8 → off % 8 = 0 → v.toNat < 2 ^ s.qLog (off / 8) →
      (s.queue (off / 8)).resetPend = false →
      ∃ t, exec (.doorbell p off size v) s = .next t ∧ t.queue (off / 8) = { s.queue (off / 8) with tail := v.toNat } ∧
        (∀ q, q ≠ off / 8 → t.queue q = s.queue q) ∧ t = { s with comp := { s.comp with queues := t.comp.queues } }) ∧
    (∀ b, s.bindOf (off / 8) = some b → b.port = p.val →
      (size ≠ 8 ∨ off % 8 ≠ 0 ∨ 2 ^ s.qLog (off / 8) ≤ v.toNat ∨ (s.queue (off / 8)).resetPend = true) →
      ∃ t, exec (.doorbell p off size v) s = .next t ∧ tbit (t.rv (queueKey (off / 8) 0x24)) 0 = true ∧
        t = { s with regs := { s.regs with queue := t.regs.queue } }) ∧
    ((∀ b, s.bindOf (off / 8) = some b → b.port ≠ p.val) →
      ∃ t, exec (.doorbell p off size v) s = .next t ∧ busErrorOn s t p 2 5 off) ∧
    (∀ o len, ∃ t, exec (.bar2Read p o len) s = .next t ∧ busErrorOn s t p 2 4 o ∧ t.out.getLast? = some (.readAbort p))

/-- The scheduler starts the job at the head of the queue it takes, once its descriptor has been read and has passed its
checks: the job runs, its queue is the last served, no queue changes, and the partition's domains are in demand; a job that asks for
a batch claims the oldest complete one of the partition's ring, and only its buffer changes. A job in a host's ring that asks for a
batch, while its own ring has none complete, waits with its descriptor read; nothing else changes. A suspended job of the queue that
is taken resumes where its delivery stood. The model's choices in it: log entries 6, 42, 95. -/
def Obligations.JobStartsAtTheHead : Prop :=
  ∀ (s : State) (p : PartIx) (e : PartEntry) (x : PartSt) (q : Nat) (b : BindEntry) (r : HostReply),
    s.part p = some e → s.comp.parts[p.val]? = some x → s.nextQueue p = some q → s.bindOf q = some b → x.job = none →
    x.remapDue = false → x.granted = true → s.held = false → s.boot.ready = true → s.hostInService e = true →
    (∀ (d : List Byte), (s.queue q).susp = none → (s.queue q).read = none → r.dramCe = [] →
      s.fetchPlace p ((ringPlace b.ringLoc (s.qBase q 8)).plus (64 * (s.queue q).head)) 64 r = (d, 0) → s.descCheck p d = 0 →
      let j := Job.start q d (s.degraded p) (s.modelled p) s.now s.comp.nextJob
      (tbit (leAt d 1 1) 2 = false →
        ∃ t, exec (.jobStart p r) s = .next t ∧ t.comp.parts[p.val]? = some { x with job := some j, lastServed := q } ∧
          (∀ n, n ≠ p.val → t.comp.parts[n]? = s.comp.parts[n]?) ∧ sameDram s t ∧
          t = { s with comp := { s.comp with parts := t.comp.parts, nextJob := s.comp.nextJob + 1 }, dram := t.dram,
                       pwr := { s.pwr with doms := t.pwr.doms }, regs := { s.regs with pwr := t.regs.pwr } }) ∧
      (∀ k ts, tbit (leAt d 1 1) 2 = true → (s.ing.rings.getD p .reset).oldest = some (k, ts) →
        ∃ t, exec (.jobStart p r) s = .next t ∧
          t.comp.parts[p.val]? = some { x with job := some { j with batch := some k, batchTs := some ts }, lastServed := q } ∧
          t.ing.rings = s.ing.rings.set p { s.ing.rings.getD p .reset with
            bufs := (s.ing.rings.getD p .reset).bufs.set k (.claimed ts) } ∧
          (∀ n, n ≠ p.val → t.comp.parts[n]? = s.comp.parts[n]?) ∧ sameDram s t ∧
          t = { s with comp := { s.comp with parts := t.comp.parts, nextJob := s.comp.nextJob + 1 }, dram := t.dram,
                       ing := { s.ing with rings := t.ing.rings }, pwr := { s.pwr with doms := t.pwr.doms },
                       regs := { s.regs with pwr := t.regs.pwr } }) ∧
      (tbit (leAt d 1 1) 2 = true → (s.ing.rings.getD p .reset).oldest = none → b.ringLoc ≠ 0 →
        ∃ t, exec (.jobStart p r) s = .next t ∧ t.queue q = { s.queue q with read := some d } ∧
          (∀ n, n ≠ q → t.queue n = s.queue n) ∧ t = { s with comp := { s.comp with queues := t.comp.queues } })) ∧
    (∀ j, (s.queue q).susp = some j → j.stopping = false →
      ∃ t k, exec (.jobStart p r) s = .next t ∧ runningJob t p = some k ∧ k.queue = j.queue ∧ k.desc = j.desc ∧
        k.suspending = false ∧ k.dispatch = j.dispatch ∧ k.serial = j.serial ∧ k.batch = j.batch ∧ k.raised = j.raised ∧
        t.queue q = { s.queue q with susp := none } ∧ (∀ n, n ≠ q → t.queue n = s.queue n) ∧
        (∀ n, n ≠ p.val → t.comp.parts[n]? = s.comp.parts[n]?) ∧ t.dram = s.dram)

/-- The dispatcher delivers the next step of a running job in the chain's order: a step whose SEQ is its index counts as
delivered to its target, and delivery goes on after it; one whose SEQ is another stops the job with 0x0630; one whose target holds
256 steps is not delivered; a step that a check or the host's answer keeps from being read stops the job with that code. Where no job of the partition
delivers, or all of its chain has been delivered, nothing changes. The model's choices in it: log entries 6, 42. -/
def Obligations.StepsAreDeliveredInOrder : Prop :=
  ∀ (s : State) (p : PartIx) (r : HostReply), r.dramCe = [] → r.dramUe = [] →
    (∀ (x : PartSt) (j : Job) (b : List Byte) (code : Nat),
      s.comp.parts[p.val]? = some x → x.job = some j → j.halted = false → j.stopping = false → j.suspending = false →
      j.chainSent = false → s.fetchPlace p ((chainPlace j.desc).plus (64 * j.nextStep)) 64 r = (b, code) →
      (code = 0 → hSeq b = j.nextStep % 2 ^ 24 → (∀ y ∈ j.targets, y.id = targetOf b → y.steps.length < 256) →
        ∃ t k, exec (.stepDelivery p r) s = .next t ∧ runningJob t p = some k ∧ k.dispatch = j.nextStep + 1 ∧
          targetOf b ∈ k.owners ∧ k.raised = j.raised ∧ t.comp.queues = s.comp.queues ∧ sameDram s t) ∧
      (code = 0 → hSeq b ≠ j.nextStep % 2 ^ 24 →
        ∃ t k, exec (.stepDelivery p r) s = .next t ∧ runningJob t p = some k ∧ k.stopping = true ∧
          ⟨0x0630, 31, 0xFFFFFFFF⟩ ∈ k.raised ∧ t.comp.queues = s.comp.queues ∧ sameDram s t) ∧
      (∀ y, code = 0 → hSeq b = j.nextStep % 2 ^ 24 → j.targets.find? (fun y => y.id == targetOf b) = some y →
        256 ≤ y.steps.length → exec (.stepDelivery p r) s = .next s) ∧
      (code ≠ 0 → code ≠ 0x0311 → code ≠ 0x0313 →
        ∃ t k, exec (.stepDelivery p r) s = .next t ∧ runningJob t p = some k ∧ k.stopping = true ∧
          ⟨code, 31, 0xFFFFFFFF⟩ ∈ k.raised ∧ t.comp.queues = s.comp.queues ∧ sameDram s t)) ∧
    ((∀ j, runningJob s p = some j → j.halted = true ∨ j.stopping = true ∨ j.suspending = true ∨ j.chainSent = true) →
      exec (.stepDelivery p r) s = .next s)

/-- A running job: a slice that expires with a rival suspends it at its boundaries; once there it leaves the partition with
PREEMPTED, its progress kept in its queue, and counts; JOB_TMO stops it with 0x0632. A job all of whose steps have been
delivered and whose targets have finished completes: its queue's head moves on by one, its phase inverts where the head
wraps, the partition is free, the completion counts, and where the completion ring lies in DRAM the record stands at the
head's place, and no other byte of DRAM changes. The model's choices in it: log entries 6, 87. -/
def Obligations.JobsLeaveTheirPartition : Prop :=
  (∀ (s : State) (p : PartIx) (x : PartSt) (j : Job), s.comp.parts[p.val]? = some x → x.job = some j →
     ((∃ q ∈ s.readyQueues p, q ≠ j.queue ∧ s.qPrio j.queue ≤ s.qPrio q) → j.stopping = false → s.held = false →
       ∃ t k, exec (.sliceExpiry p) s = .next t ∧ runningJob t p = some k ∧ k.suspending = true ∧ k.queue = j.queue ∧
         t.comp.queues = s.comp.queues ∧ t.dram = s.dram) ∧
     (j.suspending = true → j.stopping = false → j.chainSent = false → (∀ y ∈ j.targets, y.idle = true) →
       ∃ t, exec (.jobSuspended p) s = .next t ∧ t.comp.parts[p.val]? = some { x with job := none } ∧
         t.queue j.queue = { s.queue j.queue with susp := some { j with preempted := true } } ∧
         (∀ q, q ≠ j.queue → t.queue q = s.queue q) ∧ t.ctr (qpKey p 0x18) = (s.ctr (qpKey p 0x18) + 1) % two64 ∧
         t.dram = s.dram) ∧
     (leAt j.desc 0x24 4 ≠ 0 →
       ∃ t k, exec (.jobTimeout p) s = .next t ∧ runningJob t p = some k ∧ k.stopping = true ∧
         ⟨0x0632, 31, 0xFFFFFFFF⟩ ∈ k.raised ∧ t.comp.queues = s.comp.queues ∧ t.dram = s.dram)) ∧
  (∀ (s : State) (p : PartIx) (x : PartSt) (j : Job) (b : BindEntry) (base size : Nat), s.comp.parts[p.val]? = some x →
     x.job = some j → j.stopping = false → j.suspending = false → j.chainSent = true → (∀ y ∈ j.targets, y.idle = true) →
     s.bindOf j.queue = some b → b.ringLoc = 0 → (s.queue j.queue).resetPend = false → s.dramOf p = some (base, size) →
     s.qBase j.queue 0x10 + 32 * (s.queue j.queue).head + 32 ≤ size →
     ∃ t, exec (.jobComplete p) s = .next t ∧ runningJob t p = none ∧
       (t.queue j.queue).head = ((s.queue j.queue).head + 1) % 2 ^ s.qLog j.queue ∧
       (t.queue j.queue).phase = ((s.queue j.queue).phase ^^ ((t.queue j.queue).head == 0)) ∧
       (∀ q, q ≠ j.queue → t.queue q = s.queue q) ∧ t.ctr (qpKey p 0x10) = (s.ctr (qpKey p 0x10) + 1) % two64 ∧
       (let o := base + s.qBase j.queue 0x10 + 32 * (s.queue j.queue).head
        (∀ i (h : i < (j.record (s.queue j.queue).phase).length),
           t.dram.mem.read (o + i) = (j.record (s.queue j.queue).phase)[i]) ∧
        ∀ a, a < o ∨ o + 32 ≤ a → t.dram.mem.read a = s.dram.mem.read a))

/-- RESET of a queue: one that holds no running job is empty at once; one whose job runs stops that job and waits for it. From a
port to which the selected queue is not bound it is a bus error of KIND 3. A re-map that is due, with no job running, maps
the logical cores and grants the DRAM by the units in service alone, and counts. A host that switches logical cores keeps
both scratchpads: the one that leaves is parked as it stands, the one that comes has its parked bytes; no core but the host, or
the pair, changes.
The model's choices in it: log entries 43, 44. -/
def Obligations.QueueResetAndRemap : Prop :=
  (∀ (s : State) (p : Port), admits s p 0x700020 →
     (∀ b, s.bindOf (s.selected p) = some b → b.port = p.val →
       ((∀ j, runningJob s b.part = some j → j.queue ≠ s.selected p) →
         ∃ t, exec (.queueReset p) s = .next t ∧ t.queue (s.selected p) = .empty ∧
           (∀ q, q ≠ s.selected p → t.queue q = s.queue q) ∧ t.comp.parts = s.comp.parts ∧ t.dram = s.dram) ∧
       (∀ j, runningJob s b.part = some j → j.queue = s.selected p →
         ∃ t k, exec (.queueReset p) s = .next t ∧ t.queue (s.selected p) = { s.queue (s.selected p) with resetPend := true } ∧
           runningJob t b.part = some k ∧ k.stopping = true ∧ t.dram = s.dram)) ∧
     ((∀ b, s.bindOf (s.selected p) = some b → b.port ≠ p.val) →
       ∃ t, exec (.queueReset p) s = .next t ∧ busErrorOn s t p 0 3 0x700020)) ∧
  ((∀ (s : State) (p : PartIx) (i : Image) (e : PartEntry) (x : PartSt), s.ward.image = some i → s.part p = some e →
     s.comp.parts[p.val]? = some x → x.remapDue = true → x.job = none →
     ∃ t y, exec (.remap p) s = .next t ∧ t.comp.parts[p.val]? = some y ∧ y.map = s.mapping e ∧
       (y.granted, y.base) = s.grantOf i p ∧ y.remapDue = false ∧ y.remapped = true ∧ y.dramLost = false ∧ y.job = none ∧
       (∀ n, n ≠ p.val → t.comp.parts[n]? = s.comp.parts[n]?) ∧
       t.rv (qpKey p 0xC) = (s.rv (qpKey p 0xC) + 1) % 2 ^ 32 ∧ tbit (t.rv (qpKey p 0x20)) 0 = true ∧ t.dram = s.dram) ∧
   ∀ (s : State) (h : CoreIx) (i : Fin 16) (p : Nat) (c : CoreSt) (pad : Pad), s.partOfCore h = some p →
     s.comp.cores[h.val]? = some c → alGet c.parks i = some pad →
     (∀ j y, c.loaded = some j → s.tgt p j = some y → y.cmdOpen = false ∨ (y.waits p).isSome = true) →
     ((lcoresAt (s.comp.parts.getD p .empty).map h).filter fun k => some k != c.loaded && s.parkReady p k).head? = some i.val →
     ∃ t n, exec (.parkSwitch h i) s = .next t ∧ t.comp.cores[h.val]? = some n ∧ n.loaded = some i.val ∧ n.pad = pad ∧
       (∀ j, c.loaded = some j → alGet n.parks j = some c.pad) ∧
       (∀ m, m ∉ s.coresOf p i → t.comp.cores[m]? = s.comp.cores[m]?) ∧
       t = { s with comp := { s.comp with cores := t.comp.cores } })

/-! ### Steps -/

/-- A command for a step that may not run now changes nothing. A step that fails a check ends with the code of that check, and
a step whose header WAIT finds no count waits: neither has any effect on memory, contexts, setpoints or catches. Stated of the
checks as a step meets them that begins; one that a held effect or a taken wait resumes has passed them.
The model's choices in it: log entries 6, 87. -/
def Obligations.RefusedAndWaitingSteps : Prop :=
  ∀ (i : Instr) (p t : Nat) pick check (s : State), stepOf i = some (p, t, pick, check) →
    (s.stepAt p t pick = none → exec i s = .next s) ∧
    ∀ c, s.stepAt p t pick = some c → c.tgt.phase = .fresh →
      (∀ code, worse (headerCheck c.part c.b) (check ((s.openCommand c).startStep c) c) = code → code ≠ 0 →
        ∃ u y, exec i s = .next u ∧ u.tgt p t = some y ∧ y.phase = .done code false ∧ u.dram = s.dram ∧
          u.kv = s.kv ∧ u.comp.catches = s.comp.catches ∧ u.comp.cores = s.comp.cores ∧ u.ctl = s.ctl) ∧
      (worse (headerCheck c.part c.b) (check ((s.openCommand c).startStep c) c) = 0 → hWait c.b = true →
        c.job.stopping = false → s.catchAt (catchKey p (hCblk c.b) (hWaitIx c.b)) = 0 →
        ∃ u y, exec i s = .next u ∧ u.tgt p t = some y ∧ y.phase = .waitHead ∧ u.dram = s.dram ∧ u.kv = s.kv ∧
          u.comp.catches = s.comp.catches ∧ u.comp.cores = s.comp.cores ∧ u.ctl = s.ctl)

/-- CATCH steps. POST adds its count to one catch, up to 65535, where it ends with 0x0342; SET sets it; RESET_BLOCK clears the
catches of its block; WAIT takes its count where the catch holds it and no earlier target waits, and waits otherwise, but in a
job that stops, where its command ends. No other catch changes, nor anything but catches and the step's target. A pair that
differs posts nothing. Waiters. After a post the first waiter in target order is served where the count suffices, and none is
where it does not; a wait that times out ends its step with 0x0341 and takes no count; a wait abandoned because its job is being
suspended or a Ward hold stands leaves its command to run again from its first step. The model's choices in it: log entries 35,
87. -/
def Obligations.CatchStepsAndWaiters : Prop :=
  (∀ (z s : State) (p : PartIx) (t : TargetIx) (c : StepCtx),
     (∀ m, readyStep (.catchPost p t m) z s c →
       ((m && c.part.hinged) = false → ∃ u, exec (.catchPost p t m) z = .next u ∧
         u.catchAt c.catch' = min (s.catchAt c.catch' + leAt c.b 0x0A 2) 65535 ∧
         (∀ k, k ≠ c.catch' → u.catchAt k = s.catchAt k) ∧
         stepDone s u c (if 65535 < s.catchAt c.catch' + leAt c.b 0x0A 2 then 0x0342 else 0) ∧ onlyTgt s u p t ∧
         u = { s with comp := { s.comp with catches := u.comp.catches, parts := u.comp.parts } }) ∧
       ((m && c.part.hinged) = true → ∃ u, exec (.catchPost p t m) z = .next u ∧ stepDone s u c 0x0403 ∧ onlyTgt s u p t ∧
         u = { s with comp := { s.comp with parts := u.comp.parts } })) ∧
     (∀ m, readyStep (.catchSet p t m) z s c → (m && c.part.hinged) = false →
       ∃ u, exec (.catchSet p t m) z = .next u ∧ u.catchAt c.catch' = leAt c.b 0x0A 2 ∧
         (∀ k, k ≠ c.catch' → u.catchAt k = s.catchAt k) ∧ stepDone s u c 0 ∧ onlyTgt s u p t ∧
         u = { s with comp := { s.comp with catches := u.comp.catches, parts := u.comp.parts } }) ∧
     (∀ m, readyStep (.resetBlock p t m) z s c → (m && c.part.hinged) = false →
       ∃ u, exec (.resetBlock p t m) z = .next u ∧
         (∀ k, u.catchAt k = if k / 64 = 8 * p.val + hCblk c.b then 0 else s.catchAt k) ∧ stepDone s u c 0 ∧
         onlyTgt s u p t ∧
         u = { s with comp := { s.comp with catches := u.comp.catches, parts := u.comp.parts } }) ∧
     (readyStep (.catchWait p t) z s c →
       (leAt c.b 0x0A 2 ≤ s.catchAt c.catch' ∧ (∀ v ∈ s.waiters p c.catch', t.val ≤ v) →
         ∃ u, exec (.catchWait p t) z = .next u ∧ u.catchAt c.catch' = s.catchAt c.catch' - leAt c.b 0x0A 2 ∧
           (∀ k, k ≠ c.catch' → u.catchAt k = s.catchAt k) ∧ stepDone s u c 0 ∧ onlyTgt s u p t ∧
           u = { s with comp := { s.comp with catches := u.comp.catches, parts := u.comp.parts } }) ∧
       (s.catchAt c.catch' < leAt c.b 0x0A 2 ∨ (∃ v ∈ s.waiters p c.catch', v < t.val) →
         ∃ u x, exec (.catchWait p t) z = .next u ∧ s.tgt p t = some x ∧ onlyTgt s u p t ∧
           (c.job.stopping = false → u.tgt p t = some { x with phase := .catchWait (leAt c.b 0x0A 2) }) ∧
           (c.job.stopping = true → ∃ y, u.tgt p t = some y ∧ y.cmdOpen = false ∧ y.steps = []) ∧
           u = { s with comp := { s.comp with parts := u.comp.parts } }))) ∧
  ((∀ (s : State) (blk ix : Fin 64) (w : Nat) (l : List Nat) (x : TargetSt) (k v : Nat),
     s.waiters (blk.val / 8) (blk.val * 64 + ix.val) = w :: l → s.tgt (blk.val / 8) w = some x →
     x.waits (blk.val / 8) = some (k, v) →
     (v ≤ s.catchAt (blk.val * 64 + ix.val) →
       ∃ u, exec (.catchServe blk ix) s = .next u ∧
         u.tgt (blk.val / 8) w = some { x with phase := if x.phase = .waitHead then .ready else .done 0 false } ∧
         u.catchAt (blk.val * 64 + ix.val) ≤ s.catchAt (blk.val * 64 + ix.val) - v ∧
         (l = [] → u.catchAt (blk.val * 64 + ix.val) = s.catchAt (blk.val * 64 + ix.val) - v) ∧
         (∀ j, j ≠ blk.val * 64 + ix.val → u.catchAt j = s.catchAt j) ∧
         (∀ y, y ∉ w :: l → u.tgt (blk.val / 8) y = s.tgt (blk.val / 8) y) ∧
         u = { s with comp := { s.comp with catches := u.comp.catches, parts := u.comp.parts } }) ∧
     (s.catchAt (blk.val * 64 + ix.val) < v → exec (.catchServe blk ix) s = .next s)) ∧
   ∀ (s : State) (p : PartIx) (t : TargetIx) (x : TargetSt), s.tgt p t = some x → (x.waits p).isSome = true →
     (∃ u, exec (.catchWaitTimeout p t) s = .next u ∧ u.tgt p t = some { x with phase := .done 0x0341 false } ∧
       onlyTgt s u p t ∧ u = { s with comp := { s.comp with parts := u.comp.parts } }) ∧
     ∀ j, runningJob s p = some j → (j.suspending = true ∨ s.held = true) →
       (∀ y ∈ j.targets, y.cmdOpen = false ∨ (y.waits p).isSome = true) →
       ∃ u k, exec (.catchWaitAbandon p t) s = .next u ∧
         u.tgt p t = some { x with steps := [], phase := .fresh, cmdOpen := false, skip := 0, resume := x.cmdStart,
                                   stopped := j.suspending } ∧
         (∀ y, y ≠ t.val → u.tgt p y = s.tgt p y) ∧ runningJob u p = some k ∧ k.dispatch = min j.dispatch x.cmdStart ∧
         u = { s with comp := { s.comp with parts := u.comp.parts } })

/-- The end of a step posts the header POST where its status does not stop the job, and no other catch changes; the job carries
the step's code, and the instant where the step or its POST has written anything; no memory changes. The model's choices in it:
log entry 87. -/
def Obligations.StepEndPostsAndRaises : Prop :=
  ∀ (s : State) (p : PartIx) (t : TargetIx) (e : PartEntry) (x : TargetSt) (j : Job) (st idx : Nat) (wrote : Bool) (b : List Byte)
    (a d v : Nat),
    s.part p = some e → runningJob s p = some j → s.tgt p t = some x → x.phase = .done st wrote → x.steps.head? = some (idx, b) →
    st ≠ 0x0403 →
    ∃ u k, exec (.stepEnd p t false a d v) s = .next u ∧ runningJob u p = some k ∧
      k.lastWrite = (if wrote = true ∨ (hPost b = true ∧ isStopping st = false) then s.now else j.lastWrite) ∧
      (∀ n, u.catchAt n = if (hPost b && !isStopping st) = true ∧ n = catchKey p (hCblk b) (hPostIx b)
        then min (s.catchAt n + 1) 65535 else s.catchAt n) ∧
      (st ≠ 0 → (hPost b = false ∨ isStopping st = true ∨ s.catchAt (catchKey p (hCblk b) (hPostIx b)) < 65535) →
        ⟨st, t.val, idx⟩ ∈ k.raised) ∧
      (∀ r ∈ j.raised, r ∈ k.raised) ∧ u.dram = s.dram ∧ u.kv = s.kv

/-- SP_FILL repeats the low bytes of its pattern over its range; SP_COPY of one row copies its bytes; no other byte of the
scratchpad, no core but the step's own, in a pair its two, no other target and no other memory changes. A DMA step of one row that meets no error
moves its bytes: from the partition's DRAM to the core's scratchpad, and from the scratchpad to DRAM, where no byte outside the
row changes. A host read that finds no answer ends its step with 0x0312; one that a context's swap-in waits for loses the context
and ends the step that asked for it. The model's choices in it: log entries 1, 33, 35, 87. -/
def Obligations.CopiesMoveTheirBytes : Prop :=
  (∀ (z s : State) (p : PartIx) (t : TargetIx) (c : StepCtx), t.val < 16 →
     (∀ a n, readyStep (.spFill p t {}) z s c → a = leAt c.b 8 4 → n = leAt c.b 0x0C 4 →
       s.padHeld p t [⟨a, n⟩] = false → (s.padOf p t).reach a n = (n, 0) →
       ∃ u, exec (.spFill p t {}) z = .next u ∧ stepDone s u c 0 ∧
         (∀ i, i < n → (u.padOf p t).byte (a + i) = BitVec.ofNat 8 (leAt c.b 0x14 4 / 256 ^ (i % 2 ^ leAt c.b 0x10 1))) ∧
         (∀ x, x < a ∨ a + n ≤ x → (u.padOf p t).byte x = (s.padOf p t).byte x) ∧
         (∀ m, m ∉ s.coresOf p t → u.comp.cores[m]? = s.comp.cores[m]?) ∧ onlyTgt s u p t ∧
         u = { s with comp := { s.comp with cores := u.comp.cores, parts := u.comp.parts } }) ∧
     (∀ a d n, readyStep (.spCopy p t {}) z s c → a = leAt c.b 8 4 → d = leAt c.b 0x0C 4 → n = leAt c.b 0x10 4 →
       leAt c.b 0x14 2 = 1 → padReady s p t [⟨a, n⟩, ⟨d, n⟩] → (s.padOf p t).reach a n = (n, 0) → (s.padOf p t).reach d n = (n, 0) →
       ∃ u, exec (.spCopy p t {}) z = .next u ∧ stepDone s u c 0 ∧
         (∀ i, i < n → (u.padOf p t).byte (d + i) = (s.padOf p t).byte (a + i)) ∧
         (∀ x, x < d ∨ d + n ≤ x → (u.padOf p t).byte x = (s.padOf p t).byte x) ∧
         (∀ m, m ∉ s.coresOf p t → u.comp.cores[m]? = s.comp.cores[m]?) ∧ onlyTgt s u p t ∧
         u = { s with comp := { s.comp with cores := u.comp.cores, parts := u.comp.parts } })) ∧
  (∀ (z s : State) (p : PartIx) (t : TargetIx) (c : StepCtx) (base size : Nat), t.val < 16 → s.dramOf p = some (base, size) →
     (readyStep (.dma p t {}) z s c → leAt c.b 0x20 2 = 1 → leAt c.b 0x22 2 = 1 → dmaSealed c.b = false →
       s.dram.poison = [] → s.dmaLost c = false →
       (∀ o, dmaSpace c.b false = 1 → dmaSpace c.b true = 0 → s.dmaDram c false = some o →
         padReady s p t [dmaExt c.b true] →
         (s.padOf p t).reach (dmaOff c.b true) (dmaRow c.b) = (dmaRow c.b, 0) →
         ∃ u, exec (.dma p t {}) z = .next u ∧ stepDone s u c 0 ∧
           (∀ i, i < dmaRow c.b → (u.padOf p t).byte (dmaOff c.b true + i) = s.dram.mem.read (base + o + i)) ∧
           (∀ x, x < dmaOff c.b true ∨ dmaOff c.b true + dmaRow c.b ≤ x → (u.padOf p t).byte x = (s.padOf p t).byte x) ∧
           (∀ m, m ∉ s.coresOf p t → u.comp.cores[m]? = s.comp.cores[m]?) ∧ onlyTgt s u p t ∧ sameDram s u) ∧
       (∀ o, dmaSpace c.b false = 0 → dmaSpace c.b true = 1 → s.dmaDram c true = some o →
         padReady s p t [dmaExt c.b false] →
         (s.padOf p t).reach (dmaOff c.b false) (dmaRow c.b) = (dmaRow c.b, 0) →
         ∃ u, exec (.dma p t {}) z = .next u ∧ stepDone s u c 0 ∧
           (∀ i, i < dmaRow c.b → u.dram.mem.read (base + o + i) = (s.padOf p t).byte (dmaOff c.b false + i)) ∧
           (∀ x, x < base + o ∨ base + o + dmaRow c.b ≤ x → u.dram.mem.read x = s.dram.mem.read x) ∧
           u.dram.poison = [] ∧ onlyTgt s u p t ∧ u.comp.cores = s.comp.cores)) ∧
     (z.stepAt p t (fun b => hOp b == 0x32 && dmaSpace b false == 2) = some c → effectOn z c dmaCheck s →
       ∃ u, exec (.hostReadTimeout p t) z = .next u ∧ stepDone s u c 0x0312 ∧ onlyTgt s u p t ∧ u.dram = s.dram ∧
         u.comp.cores = s.comp.cores)) ∧
  (∀ (s : State) (p : PartIx) (t : TargetIx) (x : TargetSt) (k : Nat) (q : CtxSt), s.tgt p t = some x → x.phase = .swapWait k →
     s.returning p = some k → s.ctx p k = some q → q.asker = some t.val → x.isClose = false →
     ∃ u y, exec (.hostReadTimeout p t) s = .next u ∧ u.tgt p t = some { x with phase := .done 0x0312 x.wrote } ∧
       u.ctx p k = some y ∧ y.state = .lost)

/-- Banks and tags. CLOSE turns banks that are ON or opening to closing, OPEN turns closing ones back to ON and OFF ones to
opening, and the step waits until every selected bank is there; a closing bank becomes OFF, an opening one ON and full of
zeros, and the bytes of the others stay. TAG SET writes the tag; TAG CHECK skips its SKIP steps exactly on a match, and in a pair
whose tags differ ends with 0x0403. The scrubber of a core whose domain is on reads the words of the weight-resident region in
turn: one that reads clean moves it alone; a corrected error counts for its core; an uncorrected one counts, and sets the core's
tag to 0. Stated while the core stays in service, below the limits of R398. The model's choices in it: log entries 33, 35, 74,
87. -/
def Obligations.BanksTagsAndScrubber : Prop :=
  ((∀ (z s : State) (p : PartIx) (t : TargetIx) (c : StepCtx) (x : TargetSt), t.val < 16 → s.tgt p t = some x →
     (readyStep (.bankClose p t) z s c →
       ∃ u, exec (.bankClose p t) z = .next u ∧ onlyTgt s u p t ∧
         (∀ i, (u.padOf p t).banks[i]? =
           if i ∈ bankSel c.b then ((s.padOf p t).banks[i]?).map BankSt.close else (s.padOf p t).banks[i]?) ∧
         u.tgt p t = some { x with phase := if u.banksOver p t c.b = true then .done 0 false else .bankWait } ∧
         u = { s with comp := { s.comp with cores := u.comp.cores, parts := u.comp.parts } }) ∧
     (readyStep (.bankOpen p t) z s c →
       ∃ u, exec (.bankOpen p t) z = .next u ∧ onlyTgt s u p t ∧
         (∀ i, (u.padOf p t).banks[i]? =
           if i ∈ bankSel c.b then ((s.padOf p t).banks[i]?).map BankSt.open' else (s.padOf p t).banks[i]?) ∧
         (∀ a, (u.padOf p t).byte a = (s.padOf p t).byte a) ∧
         u.tgt p t = some { x with phase := if u.banksOver p t c.b = true then .done 0 false else .bankWait } ∧
         u = { s with comp := { s.comp with cores := u.comp.cores, parts := u.comp.parts } }) ∧
     (readyStep (.tagSet p t) z s c →
       ∃ u, exec (.tagSet p t) z = .next u ∧ stepDone s u c 0 ∧ onlyTgt s u p t ∧ u.padOf p t = { s.padOf p t with tag := leAt c.b 0x0C 4 } ∧
         u = { s with comp := { s.comp with cores := u.comp.cores, parts := u.comp.parts } }) ∧
     (readyStep (.tagCheck p t) z s c →
       ((∀ a ∈ s.padsOf p t, a.tag = (s.padOf p t).tag) →
         ∃ u, exec (.tagCheck p t) z = .next u ∧ onlyTgt s u p t ∧
           u.tgt p t = some { x with
             phase := .done 0 false, skip := if (s.padOf p t).tag = leAt c.b 0x0C 4 then leAt c.b 9 1 else x.skip } ∧
           u = { s with comp := { s.comp with parts := u.comp.parts } }) ∧
       (∀ a b, a ∈ s.padsOf p t → b ∈ s.padsOf p t → a.tag = leAt c.b 0x0C 4 → b.tag ≠ leAt c.b 0x0C 4 →
         ∃ u, exec (.tagCheck p t) z = .next u ∧ onlyTgt s u p t ∧
           u.tgt p t = some { x with phase := .done 0x0403 false } ∧
           u = { s with comp := { s.comp with parts := u.comp.parts } }))) ∧
   ∀ (s : State) (n : CoreIx) (b : Fin 64) (c : CoreSt), s.comp.cores[n.val]? = some c →
     (c.pad.banks[b.val]? = some .closing →
       ∃ u d, exec (.bankOff n b) s = .next u ∧ u.comp.cores[n.val]? = some d ∧ d.pad.banks[b.val]? = some .off ∧
         (∀ a, a / bankBytes ≠ b.val → d.pad.byte a = c.pad.byte a) ∧ (∀ m, m ≠ n.val → u.comp.cores[m]? = s.comp.cores[m]?)) ∧
     (c.pad.banks[b.val]? = some .opening →
       ∃ u d, exec (.bankOn n b) s = .next u ∧ u.comp.cores[n.val]? = some d ∧ d.pad.banks[b.val]? = some .on ∧
         (∀ a, d.pad.byte a = if a / bankBytes = b.val then 0#8 else c.pad.byte a) ∧
         (∀ m, m ≠ n.val → u.comp.cores[m]? = s.comp.cores[m]?))) ∧
  (∀ (s : State) (n : CoreIx) (w : Nat) (c : CoreSt), s.comp.cores[n.val]? = some c →
     (s.domOn (13 + n) = false ∨ w ≠ s.scrubAt n → ∀ r, exec (.scrub n w r) s = .next s) ∧
     (s.domOn (13 + n) = true → w = s.scrubAt n → 32 * w < s.weights n → c.pad.poison = [] → c.pad.bankAt (32 * w) = .on →
       exec (.scrub n w .clean) s = .next (s.setScrub n (w + 1)) ∧
       ((s.recentErrors (100 + n) 1).2 < 1000 →
         ∃ u, exec (.scrub n w .corrected) s = .next u ∧
           u.rv (0x240000 + 4 * n) = min (s.rv (0x240000 + 4 * n) + 1) 0xFFFFFFFF ∧ u.comp = (s.setScrub n (w + 1)).comp) ∧
       ((s.recentErrors (200 + n) 1).2 < 3 →
         ∃ u d, exec (.scrub n w .uncorrected) s = .next u ∧
           u.rv (0x240040 + 4 * n) = min (s.rv (0x240040 + 4 * n) + 1) 0xFFFFFFFF ∧ u.comp.cores[n.val]? = some d ∧
           d.pad.tag = 0 ∧ d.scrubPos = w + 1 ∧ (∀ a, d.pad.byte a = c.pad.byte a))))

/-! ### Arrays, convolutions, pooling -/

/-- MATMUL, VECTOR and FFT2D steps that meet no error write exactly their results to their core's scratchpad, computed from the
bytes that stood there before, with the status of the conditions met. The model's choices in it: log entries 1, 35, 38, 39, 87. -/
def Obligations.ArrayStepsWriteTheirResults : Prop :=
  ∀ (z s : State) (p : PartIx) (t : TargetIx) (c : StepCtx), t.val < 16 →
    (∀ x rows parts, readyStep (.matmul p t {}) z s c → x = mmBody c.b →
      rows = x.rows (s.padOf p t).bytes c.job.seed →
      parts = outParts x.ar x.post x.o x.os x.fmap (outBytes x.ar x.post rows) rows →
      padReady s p t (x.ins ++ partExts parts) →
      ∃ u, exec (.matmul p t {}) z = .next u ∧ wroteParts s u c (rowsStatus rows) parts) ∧
    (∀ b x, readyStep (.vector p t {}) z s c → b = vecOf (s.padOf p t).bytes c.b →
      x = (vecProg b).run c.job.seed (s.fresh + 1) (s.padOf p t) → x.code = 0 →
      padReady s p t ((vecProg b).reads (leAt c.b 8 4) b.length ++ partExts x.stores) →
      ∃ u, exec (.vector p t {}) z = .next u ∧ wroteParts s u c x.cond.status x.stores) ∧
    (∀ i n body, readyStep (.fft2d p t {}) z s c → i = leAt c.b 8 4 → n = leAt c.b 0x10 2 →
      body = ((List.range n).flatMap fun k => tileBytes (fft2d (leAt c.b 0x12 1 == 0) (sgn 8 (leAt c.b 0x13 1))
        (tileOf ((s.padOf p t).bytes (i + 32768 * k) 32768)))) →
      padReady s p t [⟨i, 32768 * n⟩, ⟨leAt c.b 0x0C 4, body.length⟩] →
      ∃ u, exec (.fft2d p t {}) z = .next u ∧ wroteParts s u c 0 [(leAt c.b 0x0C 4, body)])

/-- CONV, FCONV and POOL: a step of an empty output ends with 0x0011 and writes nothing; any other that meets no error writes
its outputs to its core's scratchpad, and FCONV also its work area, whose contents are then open.
The model's choices in it: log entries 1, 2, 35, 87. -/
def Obligations.ConvolutionStepsWriteTheirResults : Prop :=
  ∀ (z s : State) (p : PartIx) (t : TargetIx) (c : StepCtx) (x : SwBody), t.val < 16 → x = swBody c.b →
    (x.empty = true →
      (readyStep (.conv p t {}) z s c → ∃ u, exec (.conv p t {}) z = .next u ∧ wroteParts s u c 0x0011 []) ∧
      (readyStep (.fconv p t {}) z s c → ∃ u, exec (.fconv p t {}) z = .next u ∧ wroteParts s u c 0x0011 []) ∧
      (readyStep (.pool p t {}) z s c → ∃ u, exec (.pool p t {}) z = .next u ∧ wroteParts s u c 0x0011 [])) ∧
    (x.empty = false →
      (∀ rows parts, readyStep (.conv p t {}) z s c →
        rows = (SwMap.mk x (s.padOf p t).bytes false).convRows c.job.seed →
        parts = outParts x.ar x.post x.o x.os x.fmap (outBytes x.ar x.post rows) rows →
        padReady s p t (x.pixReads false ++ x.wExts ++ partExts parts) →
        ∃ u, exec (.conv p t {}) z = .next u ∧ wroteParts s u c (rowsStatus rows) parts) ∧
      (∀ rows parts, readyStep (.pool p t {}) z s c →
        rows = x.outs.map ((SwMap.mk x (s.padOf p t).bytes false).poolRow c.job.seed) →
        parts = outParts x.ar 0 x.o x.os x.fmap (outBytes x.ar 0 rows) rows →
        padReady s p t (x.pixReads false ++ partExts parts) →
        ∃ u, exec (.pool p t {}) z = .next u ∧ wroteParts s u c (rowsStatus rows) parts) ∧
      (∀ rows parts, readyStep (.fconv p t {}) z s c →
        rows = (SwMap.mk x (s.padOf p t).bytes false).fconvRows c.job.seed →
        parts = outParts x.ar x.post x.o x.os x.fmap (outBytes x.ar x.post rows) rows →
        padReady s p t (x.pixReads false ++ x.spectraExts ++ [⟨x.sw, x.work.len⟩] ++ partExts parts) →
        ∃ u work, exec (.fconv p t {}) z = .next u ∧ work.length = x.work.len ∧
          wroteParts s u c (rowsStatus rows) ((x.sw, work) :: parts)))

/-- NCE_CONV: on an engine out of service the step ends with 0x0404, with an empty output 0x0011, where a tower of the partition is
lost 0x0313, and none touches memory; any other that meets no error writes exactly its outputs, computed from the bytes that stood
in DRAM before, where these overlap neither an operand nor one another, and leaves every core and every other byte of DRAM as it
was. A granule of an engine moves on, modulo 16, and goes to its owner where that has a step ready. The model's choices in it: log
entries 1, 34, 36, 87. -/
def Obligations.NarrowChannelEngines : Prop :=
  (∀ (z s : State) (p : PartIx) (t : TargetIx) (c : StepCtx) (x : SwBody), readyStep (.nceConv p t {}) z s c →
    x = (swBody c.b).inBytes →
    (s.unitOos (20 + (t.val - 16)) = true →
      ∃ u, exec (.nceConv p t {}) z = .next u ∧ stepDone s u c 0x0404 ∧ onlyTgt s u p t ∧
        u = { s with comp := { s.comp with parts := u.comp.parts } }) ∧
    (s.unitOos (20 + (t.val - 16)) = false → x.empty = true →
      ∃ u, exec (.nceConv p t {}) z = .next u ∧ stepDone s u c 0x0011 ∧ onlyTgt s u p t ∧
        u = { s with comp := { s.comp with parts := u.comp.parts } }) ∧
    (s.unitOos (20 + (t.val - 16)) = false → x.empty = false → (s.comp.parts.getD p .empty).dramLost = true →
      ∃ u, exec (.nceConv p t {}) z = .next u ∧ stepDone s u c 0x0313 ∧ onlyTgt s u p t ∧
        u = { s with comp := { s.comp with parts := u.comp.parts } }) ∧
    (∀ base size rows body parts reads outs, s.unitOos (20 + (t.val - 16)) = false → x.empty = false →
      (s.comp.parts.getD p .empty).dramLost = false → s.dram.poison = [] → s.dramOf p = some (base, size) →
      rows = (SwMap.mk x (s.dramReader c {}) x.bit54).convRows c.job.seed →
      body = (if x.bit55 = true then
          packRows (fmtD x.ar.outFmt).width ((chunksOf x.ow rows.length rows).map fun l => l.flatMap OutRow.codes)
        else outBytes x.ar x.post rows) →
      parts = outParts x.ar x.post x.o x.os x.fmap body rows →
      s.mapExts p c.job (x.pixReads x.bit54 ++ x.wExts) = some reads → s.mapExts p c.job (partExts parts) = some outs →
      ∃ u, exec (.nceConv p t {}) z = .next u ∧ stepDone s u c (rowsStatus rows) ∧ u.comp.cores = s.comp.cores ∧
        onlyTgt s u p t ∧
        (extsMeet outs reads = false → selfMeet outs = false → ∀ y ∈ parts, ∀ o i b, s.dramMap p c.job y.1 y.2.length = some o →
          y.2[i]? = some b → u.dram.mem.read (base + o + i) = b) ∧
        (∀ a, (∀ e ∈ outs, a < base + e.lo ∨ base + e.lo + e.len ≤ a) → u.dram.mem.read a = s.dram.mem.read a))) ∧
  ∀ (s : State) (e : Fin 2) (g : Nat), g = (s.comp.nceGranule.getD e 0 + 1) % 16 →
    ∃ u, exec (.nceGranule e) s = .next u ∧ u.comp.nceGranule = s.comp.nceGranule.set e g ∧
      (∀ q, s.granuleOwner g = some q → s.nceReady q e = true → u.comp.nceHolder = s.comp.nceHolder.set e (some q) ∧
        u.comp.nceTurn = s.comp.nceTurn) ∧
      ((∀ q, q < 8 → s.nceReady q e = false) → u.comp.nceHolder = s.comp.nceHolder.set e none) ∧
      u = { s with comp := { s.comp with nceGranule := u.comp.nceGranule, nceTurn := u.comp.nceTurn, nceHolder := u.comp.nceHolder } }

/-- With ROUND = 0 read-out converts to nearest, whatever the seed and the profile; so converted, a value within the range of a format
becomes the representable value closest to it, and of two that are equally close the one whose least significant stored bit is 0. -/
def Obligations.ConversionRoundsToNearestEven : Prop :=
  (∀ (w seed base gsz : Nat) (accs : List Acc), tbit w 23 = false →
    let ar := Arith.ofNat w
    let r := readOutRow ar seed base gsz accs
    r.1 = accs.zipIdx.map fun p =>
      readOut (fmtD ar.outFmt) (if ar.outExp = 0xFF then r.2.getD (p.2 / gsz) 127 else ar.outExp) .nearest ar.accLsb p.1) ∧
  ∀ (k : Nat) (f : Fmt) (v : Dy), fmtOf k = some f → Dy.le ⟨f.minN, f.qe⟩ v = true → Dy.le v ⟨f.maxN, f.qe⟩ = true →
    ∃ n, f.decode (f.convert .nearest v).1 = .num n ∧ (f.convert .nearest v).2 = false ∧
      ∀ c m, c < 2 ^ f.width → f.decode c = .num m →
        Dy.le (gap f n v) (gap f m v) = true ∧
        (Dy.le (gap f m v) (gap f n v) = true → m ≠ n → (f.convert .nearest v).1 % 2 = 0)

/-! ### The key-value cache and attention -/

/-- KV_CTX steps. OPEN makes a FREE context with the geometry of its step and a page table of zeros; SET_PRIO changes its
priority alone; CLOSE frees it; TRUNCATE leaves LEN committed positions and no tentative one in every lane; ACCEPT of an empty
path drops the tentative positions, and ACCEPT of one node moves its row to the first tentative position and commits it; PREFETCH
and FLUSH of a context that is wholly resident change nothing in the cache, and FLUSH of a staged page gives it the lowest free page
slot with the rows present. Each on a context that is open and wholly there, whose page table agrees with its records, at the head
of its engine's line. The model's choices in it: log entries 40, 41, 87. -/
def Obligations.ContextSteps : Prop :=
  ∀ (z s : State) (p : PartIx) (t : TargetIx) (c : StepCtx) (base size : Nat), s.dram.poison = [] →
    s.dramOf p = some (base, size) →
    (∀ pl, readyStep (.kvCtxOpen p t {}) z s c → engineReady s c → c.tgt.ueMet = false → s.kv.pools[p.val]? = some pl →
      ∃ u k, exec (.kvCtxOpen p t {}) z = .next u ∧ stepDone s u c 0 ∧ u.ctx p (ctxField c.b) = some k ∧ k.state = .open' ∧
        k.prio = leAt c.b 9 1 ∧ k.d = leAt c.b 0x0E 2 ∧ k.maxPos = leAt c.b 0x14 4 ∧ k.ptAddr = leAt c.b 0x18 8 ∧
        k.lanes = List.replicate (leAt c.b 0x0C 2) ⟨0, 0, []⟩ ∧
        (∀ n, n ≠ ctxField c.b → u.ctx p n = s.ctx p n) ∧
        (∀ i, i < tableBytes c.b → u.dram.mem.read (base + leAt c.b 0x18 8 + i) = 0#8) ∧
        dramOnly s u [⟨base + leAt c.b 0x18 8, tableBytes c.b⟩]) ∧
    (∀ k, ctxReady (.kvCtxSetPrio p t {}) z s c k →
      ∃ u, exec (.kvCtxSetPrio p t {}) z = .next u ∧ stepDone s u c 0 ∧
        u.ctx p (ctxField c.b) = some { k with prio := leAt c.b 9 1 } ∧ (∀ n, n ≠ ctxField c.b → u.ctx p n = s.ctx p n) ∧
        u.dram = s.dram) ∧
    (∀ k, ctxReady (.kvCtxClose p t {}) z s c k →
      ∃ u, exec (.kvCtxClose p t {}) z = .next u ∧ stepDone s u c 0 ∧ u.ctx p (ctxField c.b) = none ∧
        (∀ n, n ≠ ctxField c.b → u.ctx p n = s.ctx p n) ∧ u.dram = s.dram) ∧
    (∀ k, ctxReady (.kvCtxTruncate p t {}) z s c k → tableOk s p (ctxField c.b) k →
      ∃ u y, exec (.kvCtxTruncate p t {}) z = .next u ∧ stepDone s u c 0 ∧ u.ctx p (ctxField c.b) = some y ∧
        y.lanes.length = k.lanes.length ∧ (∀ l ∈ y.lanes, l.fill = leAt c.b 0x20 4 ∧ l.tent = 0) ∧ y.prio = k.prio ∧
        (∀ n, n ≠ ctxField c.b → u.ctx p n = s.ctx p n) ∧
        dramOnly s u [⟨base + k.ptAddr, 8 * (k.lanes.length * (k.maxPos / 64))⟩]) ∧
    (∀ k, ctxReady (.kvCtxAccept p t {}) z s c k → tableOk s p (ctxField c.b) k →
      (leAt c.b 0x13 1 = 0 →
        ∃ u y, exec (.kvCtxAccept p t {}) z = .next u ∧ stepDone s u c 0 ∧ u.ctx p (ctxField c.b) = some y ∧
          y.lanes.length = k.lanes.length ∧
          (∀ (i : Nat) (l l' : LaneSt), k.lanes[i]? = some l → y.lanes[i]? = some l' → l'.fill = l.fill ∧ l'.tent = 0) ∧
          (∀ n, n ≠ ctxField c.b → u.ctx p n = s.ctx p n) ∧
          dramOnly s u [⟨base + k.ptAddr, 8 * (k.lanes.length * (k.maxPos / 64))⟩]) ∧
      (∀ a l n m, pathOf c.b = [a] → k.lanes = [l] → plainCtx k → (∀ g ∈ l.pages, 64 * g.1 < l.fill + 1) →
        k.page 0 ((l.fill + a) / 64) = some (.resident n) → k.page 0 (l.fill / 64) = some (.resident m) →
        ∃ u y, exec (.kvCtxAccept p t {}) z = .next u ∧ stepDone s u c 0 ∧ u.ctx p (ctxField c.b) = some y ∧
          y.lanes = [{ l with fill := l.fill + 1, tent := 0 }] ∧
          (∀ x ∈ (k.rowPlaces ((l.fill + a) % 64)).zip (k.rowPlaces (l.fill % 64)), ∀ i, i < x.2.2 →
            u.dram.mem.read (base + c.part.slotAt m + x.2.1 + i) = s.dram.mem.read (base + c.part.slotAt n + x.1.1 + i)) ∧
          dramOnly s u ((k.rowPlaces (l.fill % 64)).map fun x => ⟨base + c.part.slotAt m + x.1, x.2⟩))) ∧
    (∀ k, ctxReady (.kvCtxPrefetch p t {}) z s c k →
      ∃ u, exec (.kvCtxPrefetch p t {}) z = .next u ∧ stepDone s u c 0 ∧ sameCache s u ∧ u.dram = s.dram) ∧
    (∀ k, ctxReady (.kvCtxFlush p t {}) z s c k →
      (k.stagedPages = [] →
        ∃ u, exec (.kvCtxFlush p t {}) z = .next u ∧ stepDone s u c 0 ∧ sameCache s u ∧ u.dram = s.dram) ∧
      (∀ l g q j n x w, k.stagedPages = [(l, g, q, j)] → k.page l g = some (.staged q j) → plainCtx k →
        tableOk s p (ctxField c.b) k → k.entryAt l g + 8 ≤ c.part.poolBase → slotReady s p c.part n →
        s.kv.engines[q]? = some x → x.slots[j]? = some (some w) →
        ∃ u y v, exec (.kvCtxFlush p t {}) z = .next u ∧ stepDone s u c 0 ∧ u.ctx p (ctxField c.b) = some y ∧
          y.page l g = some (.resident n) ∧ u.kv.engines[q]? = some v ∧ v.slots[j]? = some none ∧
          (∀ i, i < 64 → tbit w.rows i = true → ∀ r ∈ k.rowPlaces i, ∀ o, o < r.2 →
            u.dram.mem.read (base + c.part.slotAt n + r.1 + o) = x.staging.read (0x10000 * j + r.1 + o)) ∧
          dramOnly s u [⟨base + c.part.slotAt n, 0x10000⟩, ⟨base + k.entryAt l g, 8⟩]))

/-- KV_MAP of one unmapped page gives it the lowest free page slot; KV_APPEND of one row into a resident page stores the row there
and lengthens its lane by one position; ATTN writes the attention of its query rows to the core's scratchpad. No other byte of DRAM
changes, but for the page table's entry and the bytes of a page newly mapped. Each on an open context whose page table agrees with
its records, at the head of its engine's line. The model's choices in it: log entries 40, 41, 87. -/
def Obligations.AttentionSteps : Prop :=
  ∀ (z s : State) (p : PartIx) (t : TargetIx) (c : StepCtx) (k : CtxSt) (base size : Nat), t.val < 16 → s.dram.poison = [] →
    s.dramOf p = some (base, size) →
    (∀ g y n, ctxReady (.kvMap p t {}) z s c k → leAt c.b 0x0C 2 = 1 → 0 < leAt c.b 0x14 4 →
      g = leAt c.b 0x10 4 / 64 → (leAt c.b 0x10 4 + leAt c.b 0x14 4 - 1) / 64 = g → k.lanes[leAt c.b 0x0A 2]? = some y →
      alGet y.pages g = none → s.entryOk s.dram.mem p (ctxField c.b) (leAt c.b 0x0A 2) g = true → slotReady s p c.part n →
      ∃ u x, exec (.kvMap p t {}) z = .next u ∧ stepDone s u c 0 ∧ u.ctx p (ctxField c.b) = some x ∧
        x.page (leAt c.b 0x0A 2) g = some (.resident n) ∧
        (∀ l h, (l, h) ≠ (leAt c.b 0x0A 2, g) → x.page l h = k.page l h) ∧
        dramOnly s u [⟨base + c.part.slotAt n, 0x10000⟩, ⟨base + k.entryAt (leAt c.b 0x0A 2) g, 8⟩]) ∧
    (∀ l n pos, ctxReady (.kvAppend p t {}) z s c k → leAt c.b 0x1C 1 = 1 → leAt c.b 0x1D 1 = 1 → leAt c.b 0x1E 1 = 0 →
      pos = leAt c.b 0x20 4 → plainCtx k → padReady s p t (appendExts c.b k) → k.lanes[leAt c.b 0x1A 2]? = some l →
      k.page (leAt c.b 0x1A 2) (pos / 64) = some (.resident n) →
      s.entryOk s.dram.mem p (ctxField c.b) (leAt c.b 0x1A 2) (pos / 64) = true →
      ∃ u x, exec (.kvAppend p t {}) z = .next u ∧ stepDone s u c 0 ∧ u.ctx p (ctxField c.b) = some x ∧
        x.lanes = k.lanes.set (leAt c.b 0x1A 2) { l with fill := l.fill + 1 } ∧ u.comp.cores = s.comp.cores ∧
        (∀ r ∈ (k.rowPlaces (pos % 64)).zip (appendRow (s.padOf p t) c.b k 0), ∀ i b, i < r.1.2 → r.2[i]? = some b →
          u.dram.mem.read (base + c.part.slotAt n + r.1.1 + i) = b) ∧
        dramOnly s u ((k.rowPlaces (pos % 64)).map fun x => ⟨base + c.part.slotAt n + x.1, x.2⟩)) ∧
    (∀ x l rows, ctxReady (.attn p t {}) z s c k → x = atBody c.b → k.lanes[x.lane]? = some l →
      rows = s.attnRows {} c x k l → (∀ q ∈ s.kv.engines, q.poison = []) →
      (∀ g ∈ x.pages (s.padOf p t).bytes l, s.entryOk s.dram.mem p (ctxField c.b) x.lane g.1 = true) →
      padReady s p t (x.ins ++ partExts (x.parts rows)) → s.padHeld p t (x.ins ++ x.outs) = false →
      ∃ u, exec (.attn p t {}) z = .next u ∧ stepDone s u c (rowsStatus rows) ∧
        u.padOf p t = (x.parts rows).foldl (fun q y => q.write (s.weights c.core) y.1 y.2) (s.padOf p t) ∧
        (∀ n, n ∉ s.coresOf p t → u.comp.cores[n]? = s.comp.cores[n]?) ∧ sameDram s u)

/-- Swapping. A page of a leaving context goes to the lowest free swap slot, sealed under its context's generation, by a write
through the swap window, and its records name that slot; a page of a returning one stands in DRAM, in a slot held for it, once its
seal holds; the last one opens the context. Of the DRAM nothing else changes but the page table's entry. A failed host read loses
the context. Where no context of the partition leaves, or none comes back, nothing changes. The model's choices in it: log entries
1, 40. -/
def Obligations.SwappedPagesMove : Prop :=
  (∀ (s : State) (p : PartIx) (env : StepEnv), (s.leaving p = none → exec (.swapOutPageDone p env) s = .next s) ∧
    (s.returning p = none → exec (.swapInPageDone p env) s = .next s)) ∧
  ∀ (s : State) (p : PartIx) (e : PartEntry) (c : Nat) (k : CtxSt) (env : StepEnv) (base size : Nat), s.part p = some e →
    s.ctx p c = some k → s.dramOf p = some (base, size) →
    (∀ l g slot rest n, s.leaving p = some c → k.residentPages = (l, g, slot) :: rest → env = {} → s.dram.poison = [] →
      s.entryOk s.dram.mem p c l g = true → s.freeSwap p = some n →
      s.windowCheck p (s.swapWin p) (s.swapBase p n) 0x11000 false false = 0 →
      ∃ u z, exec (.swapOutPageDone p env) s = .next u ∧ u.ctx p c = some z ∧ z.page l g = some (.swapped n k.gen) ∧
        z.state = (if rest.isEmpty = true then .swapped else k.state) ∧
        .hostWrite (s.swapWin p / 64) (s.winAddr p (s.swapWin p) (s.swapBase p n))
          (s.sealPage p c l g k.gen (s.dram.mem.readBytes (base + e.slotAt slot) 0x10000)).1 ∈ u.out ∧
        dramOnly s u [⟨base + k.entryAt l g, 8⟩]) ∧
    (∀ l g n gen rest slot held, s.returning p = some c → k.swappedPages = (l, g, n, gen) :: rest → k.heldSlots = slot :: held →
      s.entryOk (s.dramRead env) p c l g = true →
      s.windowCheck p (s.swapWin p) (s.swapBase p n) 0x11000 true false = 0 →
      (env.hostFail = true →
        ∃ u z, exec (.swapInPageDone p env) s = .next u ∧ u.ctx p c = some z ∧ z.state = .lost ∧ dramOnly s u []) ∧
      (env.hostFail = false →
        ∃ u z, exec (.swapInPageDone p env) s = .next u ∧ u.ctx p c = some z ∧
          (s.openPage p c l g gen env.host = none → z.state = .lost ∧ dramOnly s u []) ∧
          ∀ page, s.openPage p c l g gen env.host = some page → z.page l g = some (.resident slot) ∧
            z.heldSlots = held ∧ z.state = (if rest.isEmpty = true then .open' else k.state) ∧
            (k.entryAt l g + 8 ≤ e.poolBase → ∀ i b, page[i]? = some b → u.dram.mem.read (base + e.slotAt slot + i) = b) ∧
            dramOnly s u [⟨base + e.slotAt slot, page.length⟩, ⟨base + k.entryAt l g, 8⟩]))

/-! ### The control engine -/

/-- A sample. At an instant that is no tick n of the grid with n mod D = φ mod D, with PD5 off, while the sample before is still in
progress, or on a channel that does not run and has nothing to apply, nothing happens. At a boundary, with no capture to apply, a
channel that meets no fault counts the sample and leaves the state words, output words and flags that its law gives from the
snapshot. A unit that reports an error in a channel without a partner makes it FAILED, and no frame goes out; a difference within a
pair makes both identify their fault, with the sample withheld and the state words kept as they stood before it; while they do,
further samples are withheld too, the last eight of them. The model's choices in it: log entries 6, 54, 55. -/
def Obligations.SamplesAtTheirBoundaries : Prop :=
  ∀ (s : State) (c : ChanIx) (f : LawFault),
    ((s.onGrid = false ∨ s.domOn 5 = false ∨ s.sampling c = true ∨ s.leaderOf c ≠ c ∨
        ∀ e, s.chanEntry c = some e → e.divider ≠ 0 →
          s.now / 5000 % e.divider ≠ s.rv (chKey c 0) % 2 ^ 16 % e.divider) → exec (.sample c f) s = .next s) ∧
    ((∀ x ∈ s.regs.ctl.caps, x.isOf 2 c = false ∧ x.isOf 3 c = false) →
      (s.chanRuns c = false → exec (.sample c f) s = .next s) ∧
      ∀ n, s.boundary c = some n → s.leaderOf c = c → s.sampling c = false → c.val < s.ctl.chans.length → s.chanRuns c = true →
        ((s.chan c).state ≠ .identifying →
          (∃ u, exec (.sample c .none) s = .next u ∧ u.ctr (chKey c 0x20) = (s.ctr (chKey c 0x20) + 1) % two64 ∧
            (∀ i v, i < 32 → (s.evalSample c (s.snapshot' c n (s.chan c).initDue)).1.s[i]? = some v →
              u.rv (chKey c (0x100 + 4 * i)) = unsgn 32 v) ∧
            (∀ i v, i < 8 → (s.evalSample c (s.snapshot' c n (s.chan c).initDue)).1.outw[i]? = some v →
              u.rv (chKey c (0x180 + 4 * i)) = unsgn 32 v) ∧
            (u.chan c).flags = (s.evalSample c (s.snapshot' c n (s.chan c).initDue)).1.flags.bits) ∧
          (s.partnerOf c = none → ∀ b, ∃ u, exec (.sample c (.error true b)) s = .next u ∧ (u.chan c).state = .failed ∧
            u.can = s.can ∧ u.t1s = s.t1s ∧ u.eth = s.eth ∧ tbit (u.rv (chKey c 0xC)) 7 = true) ∧
          (∀ q, s.partnerOf c = some q → q ≠ c → q < s.ctl.chans.length → (s.chan c).solo = false → (s.chan q).solo = false →
            (s.chan c).state ≠ .failed → (s.chan q).state ≠ .failed →
            ∃ u, exec (.sample c .differ) s = .next u ∧ (u.chan c).state = .identifying ∧ (u.chan q).state = .identifying ∧
              (u.chan c).withheld = [s.snapshot' c n (s.chan c).initDue] ∧ (u.chan c).kept = s.stateWords c ∧
              u.can = s.can ∧ u.t1s = s.t1s ∧ u.eth = s.eth ∧
              tbit (u.rv (chKey c 0xC)) 5 = true)) ∧
        ((s.chan c).state = .identifying →
          ∃ u, exec (.sample c f) s = .next u ∧ u.can = s.can ∧ u.t1s = s.t1s ∧ u.eth = s.eth ∧
            (u.chan c).withheld = ((s.chan c).withheld ++ [s.snapshot' c n (s.chan c).initDue]).drop
              ((s.chan c).withheld.length + 1 - 8)))

/-- The end of a fault identification: where both units fail, or neither, both channels of the pair are FAILED and the pair is
lost; where one fails, its channel is FAILED and the other runs solo, with TAKEOVER, as far as RUN still stands. The model's
choices in it: log entry 54. -/
def Obligations.PairsFailOrTakeOver : Prop :=
  ∀ (s : State) (ch : ChanIx) (c a b : Nat), c = s.leaderOf ch → (s.chan c).state = .identifying → s.members c = [a, b] →
    a ≠ b → a < s.ctl.chans.length → b < s.ctl.chans.length → c = a →
    (∀ x, ∃ u, exec (.faultIdentificationDone ch x x) s = .next u ∧ (u.chan a).state = .failed ∧ (u.chan b).state = .failed ∧
      a ∈ u.safe.pairLost ∧ u.can = s.can ∧ u.t1s = s.t1s ∧ u.eth = s.eth) ∧
    (∃ u, exec (.faultIdentificationDone ch true false) s = .next u ∧ (u.chan a).state = .failed ∧
      (u.chan b).state = (if tbit (s.rv (chKey c 0)) 31 = true then .running else .stopped) ∧ (u.chan b).solo = true ∧
      (u.chan a).withheld = [] ∧ tbit (u.rv (chKey c 0xC)) 6 = true) ∧
    ∃ u, exec (.faultIdentificationDone ch false true) s = .next u ∧ (u.chan b).state = .failed ∧
      (u.chan a).state = (if tbit (s.rv (chKey c 0)) 31 = true then .running else .stopped) ∧ (u.chan a).solo = true ∧
      (u.chan a).withheld = [] ∧ tbit (u.rv (chKey c 0xC)) 6 = true

/-- Setpoints and SENT inputs. A SETPT step that meets no error gives the selected words of the leader's entry, and its timestamp,
leaves the other words, and keeps the entry before for a sample that starts in the same instant; one of a pair whose copies differ
ends with 0x0403 and writes no entry. A SENT frame that passes its checks counts and replaces the input words that name its port in
every channel in use; one with the wrong number of pulses, a calibration out of range or a wrong CRC counts as bad and replaces
none; with PD5 off it is not received. The model's choices in it: log entries 3, 56, 57. -/
def Obligations.SetpointsAndSentInputs : Prop :=
  (∀ (z s : State) (p : PartIx) (t : TargetIx) (c : StepCtx) (x : ChanSt), t.val < 16 →
    readyStep (.setpt p t {}) z s c → padReady s p t [⟨leAt c.b 8 4, 16⟩] →
    s.ctl.chans[s.leaderOf (leAt c.b 0x0C 1)]? = some x →
    (∃ u y, exec (.setpt p t {}) z = .next u ∧ stepDone s u c 0 ∧ u.ctl.chans[s.leaderOf (leAt c.b 0x0C 1)]? = some y ∧
      (∀ k, k < 4 → y.sp.words[k]? = some (if tbit (leAt c.b 0x0D 1) k = true
        then leAt ((s.padOf p t).bytes (leAt c.b 8 4) 16) (4 * k) 4 else x.sp.words.getD k 0)) ∧
      y.sp.ts = (if c.job.srcTs = 0 then s.now else s.fullTs c.job.srcTs) ∧ y.sp.written = s.time.elapsed ∧
      y.spBefore = (if x.sp.written < s.time.elapsed then x.sp else x.spBefore) ∧ y.ins = x.ins ∧
      (∀ n, n ≠ s.leaderOf (leAt c.b 0x0C 1) → u.ctl.chans[n]? = s.ctl.chans[n]?)) ∧
    (c.part.hinged = true → ∃ u, exec (.setpt p t { mismatch := true }) z = .next u ∧ stepDone s u c 0x0403 ∧ u.ctl = s.ctl)) ∧
  ∀ (s : State) (p : Fin 16) (x : SentSt) (cfg : Nat) (l : List Nat),
    (s.domOn 5 = false → exec (.sentFrame p l) s = .next s) ∧
    (s.domOn 5 = true → (∀ y ∈ s.regs.ctl.caps, y.isOf 3 (24 + p) = false) → s.ctl.sents[p.val]? = some x →
    cfg = s.rv (0xC00800 + 0x20 * p) → tbit cfg 31 = true → 1 ≤ field cfg 24 3 → field cfg 24 3 ≤ 6 → 300 ≤ cfg % 2 ^ 16 →
    cfg % 2 ^ 16 ≤ 9000 →
    ((sentCalOk (cfg % 2 ^ 16) x.lastCal (l.headD 0) = false ∨ l.length ≠ field cfg 24 3 + 3 ∨ sentNibbles l = none ∨
        ∃ d, sentNibbles l = some d ∧
          sentCrc (tbit cfg 29) ((d.drop 1).take (field cfg 24 3)) ≠ d.getD (field cfg 24 3 + 1) 16) →
      ∃ u, exec (.sentFrame p l) s = .next u ∧ u.ctr (0xC00810 + 0x20 * p) = (s.ctr (0xC00810 + 0x20 * p) + 1) % two64 ∧
        u.ctl.chans = s.ctl.chans) ∧
    (∀ d, sentCalOk (cfg % 2 ^ 16) x.lastCal (l.headD 0) = true → l.length = field cfg 24 3 + 3 → sentNibbles l = some d →
      sentCrc (tbit cfg 29) ((d.drop 1).take (field cfg 24 3)) = d.getD (field cfg 24 3 + 1) 16 →
      ∃ u, exec (.sentFrame p l) s = .next u ∧ u.ctr (0xC00808 + 0x20 * p) = (s.ctr (0xC00808 + 0x20 * p) + 1) % two64 ∧
        ∀ c k, c < s.ctl.chans.length → k < 16 → s.leaderOf c = c → (s.chanEntry c).isSome = true →
          field (s.inSrc c k) 28 4 = 1 → field (s.inSrc c k) 24 4 = p.val →
          (u.chan c).ins[k]? = some (some ⟨inputField (s.inFmt c k)
            (((d.drop 1).take (field cfg 24 3)).foldl (fun a n => 16 * a + n) 0), s.now, s.time.elapsed⟩)))

/-! ### CAN -/

/-- Reception into message objects. A frame that becomes valid is counted. One that no object takes is counted as unmatched and
changes no object. One taken by an object that is neither locked nor NEW is stored: NEW, its format, its length, its
identifier, its data. A locked object holds it. A frame of a source that feeds input words is taken by them at its CRC.
Reading a message object. Reading its status returns it and locks an object that is NEW; reading the last word of a locked
object, or a lock's timeout, ends the lock: NEW clears where no frame is held. CLEAR drops what the object holds.
The model's choices in it: log entry 58. -/
def Obligations.CanObjectsReceiveAndLock : Prop :=
  (∀ (s : State) (n : CanIx) (x : CanSt) (f : CanFrame) (sof : Stamp), s.can[n.val]? = some x → s.domOn 4 = true →
     (x.state = 2 ∨ x.state = 3) → s.canFmt n f.kind = true →
     (s.objMatch n f = none →
       ∃ u y, exec (.canFrameStored n f sof) s = .next u ∧ u.can[n.val]? = some y ∧ y.objs = x.objs ∧
         u.ctr (canKey n 0x40) = (s.ctr (canKey n 0x40) + 1) % two64 ∧
         u.ctr (canKey n 0x58) = (s.ctr (canKey n 0x58) + 1) % two64) ∧
     (∀ i o, s.objMatch n f = some i → s.canObj n i = o →
       (o.locked = false → o.new = false →
         ∃ u, exec (.canFrameStored n f sof) s = .next u ∧ (u.canObj n i).new = true ∧ (u.canObj n i).rfmt = f.kind ∧
           (u.canObj n i).len = f.data.length ∧ (u.canObj n i).seq = (o.seq + 1) % 256 ∧
           u.getData n i f.data.length = f.data ∧ u.rv (canObjKey n i 0x2C) = canWord f ∧
           u.ctr (canKey n 0x40) = (s.ctr (canKey n 0x40) + 1) % two64 ∧ (∀ j, j ≠ i → u.canObj n j = s.canObj n j)) ∧
       (o.locked = true →
         ∃ u, exec (.canFrameStored n f sof) s = .next u ∧ (∀ j, j ≠ i → u.canObj n j = s.canObj n j) ∧
           u.canObj n i = { o with
             overrun := o.overrun || o.held.isSome,
             held := if (o.held.isSome && tbit (s.objCfg n i) 15) = true then o.held else some (f, s.canStamp n sof) })) ∧
     (∀ i c k, s.objMatch n f = some i → s.domOn 5 = true → c < s.ctl.chans.length → k < 16 → s.leaderOf c = c →
       (s.chanEntry c).isSome = true →
       field (s.inSrc c k) 28 4 = 3 → field (s.inSrc c k) 24 4 = n.val → field (s.inSrc c k) 16 8 = i →
       ∃ u, exec (.framePassesCrc n f) s = .next u ∧
         (u.chan c).ins[k]? = some (some ⟨inputField (s.inFmt c k)
           (inputWindow (s.inFmt c k) (field (s.inSrc c k) 0 16) f.data), s.now, s.time.elapsed⟩) ∧
         u = { s with ctl := u.ctl })) ∧
  (∀ (s : State) (p : Port) (n : CanIx) (i : Fin 128) (x : CanSt) (o : CanObjSt), s.can[n.val]? = some x → s.canObj n i = o →
     (admits s p (canObjKey n i 0x14) → o.new = true →
       exec (.canObjStatusRead p n i) s = .next { s with
         can := s.can.set n (x.modObj i fun o => { o with locked := true }),
         out := s.out ++ [.readData p (natLe 4 (s.objStatus n i)) false] }) ∧
     (admits s p (canObjKey n i 0x14) → o.new = false →
       exec (.canObjStatusRead p n i) s = .next { s with out := s.out ++ [.readData p (natLe 4 (s.objStatus n i)) false] }) ∧
     (admits s p (s.lastWord n i) → o.locked = true → o.held = none →
       exec (.lastWordRead p n i) s = .next { s with
         can := s.can.set n (x.modObj i fun o => { o with locked := false, new := false }),
         out := s.out ++ [.readData p (natLe 4 (s.rv (s.lastWord n i))) false] }) ∧
     (o.locked = true → o.held = none →
       ∃ u, exec (.lockTimeout n i) s = .next u ∧ u.canObj n i = { o with locked := false, new := false } ∧
         (∀ j, j ≠ i.val → u.canObj n j = s.canObj n j) ∧ tbit (u.rv (canKey n 0x24)) 6 = true) ∧
     (admits s p (canObjKey n i 0x18) → p.val = s.master → s.engineOwned n i = false →
       ∃ u, exec (.canObjClear p n i) s = .next u ∧
         u.canObj n i = { o with held := none, locked := false, new := false, overrun := false } ∧
         (∀ j, j ≠ i.val → u.canObj n j = s.canObj n j) ∧ u = { s with can := u.can }))

/-- Sending. REQ of a send object with a length that its format allows makes it pending, with that length, in a CAN FD frame rounded
up to one that the format has; any other length is refused with an event; ABORT of one that is not
on the bus ends that; a free controller with no capture to apply chooses the safe-state frame first, else a frame that no pending
frame outranks; a frame that loses arbitration stays pending unless ONESHOT or an ABORT ends it; a frame sent goes out, counts, and
its object is no longer pending; one whose delay compensation fails is an error, and is not sent; an instant that is a whole
multiple of REF_PERIOD makes one more reference message due, once. The model's choices in it: log entries 6, 59, 61, 62. -/
def Obligations.CanObjectsSend : Prop :=
  ∀ (s : State) (p : Port) (n : CanIx) (x : CanSt), s.can[n.val]? = some x →
    (∀ i : Fin 128, admits s p (canObjKey n i 0x18) → p.val = s.master → s.engineOwned n i = false →
      (∀ len max l, (s.objHeads n).contains i.val = true → s.objSends n i = true → (s.canObj n i).pending = false →
        len = s.rv (canObjKey n i 0x28) % 2 ^ 10 →
        ((s.objFmt n i = 0 ∧ max = 8 ∧ l = len) ∨ (s.objFmt n i = 1 ∧ max = 64 ∧ l = canFdUp len) ∨
          (s.objFmt n i = 2 ∧ max = 64 * (s.objSpan n i + 1) ∧ l = len)) →
        (len ≤ max → (s.objFmt n i = 2 → 1 ≤ len) →
          ∃ u, exec (.canObjReq p n i) s = .next u ∧ (u.canObj n i).pending = true ∧ (u.canObj n i).len = l ∧
            (u.canObj n i).reqLen = len ∧ (∀ j, j ≠ i.val → u.canObj n j = s.canObj n j) ∧ u = { s with can := u.can }) ∧
        (max < len ∨ (s.objFmt n i = 2 ∧ len = 0) →
          ∃ u, exec (.canObjReq p n i) s = .next u ∧ u.can = s.can ∧ tbit (u.rv (canKey n 0x24)) 12 = true)) ∧
      ((s.canObj n i).pending = true → x.sel ≠ some (.obj i) →
        ∃ u, exec (.canObjAbort p n i) s = .next u ∧ (u.canObj n i).pending = false ∧
          (∀ j, j ≠ i.val → u.canObj n j = s.canObj n j) ∧ u = { s with can := u.can })) ∧
    (s.domOn 4 = false → exec (.transmitSelection n) s = .next s) ∧
    (s.domOn 4 = true → (∀ y ∈ s.regs.can.caps, canOfKey y.key ≠ n) →
      (x.state = 2 ∨ x.state = 3) → s.canListen n = false → x.sel = none → x.stopDue = false →
      exec (.transmitSelection n) s = .next { s with can := s.can.set n { x with sel := s.canNext n } } ∧
      (x.safe.isSome = true → s.canNext n = some .safe) ∧
      ∀ i f, i < s.objLimit n → s.objFrame n i = some f → s.canFmt n f.kind = true →
        ∃ c g, s.canNext n = some c ∧ s.selFrame n c = some g ∧ (c = .safe ∨ canRank g ≤ canRank f)) ∧
    (∀ i, s.domOn 4 = true → (x.state = 2 ∨ x.state = 3) → x.sel = some (.obj i) → (s.canObj n i).engNext = none →
      (s.canObj n i).noRetry = false →
      ∃ u y, exec (.arbitrationLost n) s = .next u ∧ u.can[n.val]? = some y ∧ y.sel = none ∧
        (u.canObj n i).pending = ((s.canObj n i).pending &&
          !(tbit (s.objCfg n i) 13 && (s.canObj n i).engFrame.isNone)) ∧
        (∀ j, j ≠ i → u.canObj n j = s.canObj n j) ∧ u = { s with can := u.can }) ∧
    (∀ i f sof t, s.domOn 4 = true → (x.state = 2 ∨ x.state = 3) → x.sel = some (.obj i) → s.objFrame n i = some f → f.kind ≠ 2 →
      i < 128 → (s.canObj n i).engNext = none →
      ((t.any fun d => s.tdcFails n f.kind f.brs d.val) = false →
        ∃ u, exec (.canFrameSent n sof t) s = .next u ∧ .can n f ∈ u.out ∧ (u.canObj n i).pending = false ∧
          u.ctr (canKey n 0x48) = (s.ctr (canKey n 0x48) + 1) % two64 ∧
          u.rv (canObjKey n i 0x1C) = s.canStamp n sof % 1000000000 ∧ (∀ j, j ≠ i → u.canObj n j = s.canObj n j)) ∧
      ((t.any fun d => s.tdcFails n f.kind f.brs d.val) = true →
        ∃ u, exec (.canFrameSent n sof t) s = .next u ∧ u.ctr (canKey n 0x48) = s.ctr (canKey n 0x48) ∧
          u.ctr (canKey n 0x50) = (s.ctr (canKey n 0x50) + 1) % two64 ∧ tbit (u.rv (canKey n 0x24)) 11 = true)) ∧
    (s.domOn 4 = true → s.canRef n = true → s.onRefPeriod n = true → x.refAt ≠ some s.time.elapsed →
      ∃ u y, exec (.referenceMessage n) s = .next u ∧ u.can[n.val]? = some y ∧ y.refDue = x.refDue + 1 ∧ y.objs = x.objs ∧
        u = { s with can := u.can, fresh := u.fresh }) ∧
    (s.domOn 4 = false ∨ s.canRef n = false ∨ s.onRefPeriod n = false ∨ x.refAt = some s.time.elapsed →
      exec (.referenceMessage n) s = .next s)

/-- Errors and recovery. An error while sending adds 8 to the transmit error counter, one while receiving 1 or 8 to the receive
error counter; the controller is bus-off above 255 and error passive from 128. Recovery, integration and a protocol exception
move it as the rules say; a dominant timeout releases the bus and changes nothing else; a wake-up pattern sets WOKE of a
controller that has WAKE_EN while PD4 is off or the module is parked, and a parked module begins to wake with the straps as they
are; on any other it does nothing. INIT. Written as 1 it stops a controller that is on its bus at the end of the frame in
progress, any other at once. Written as 0, with timing that passes the checks, it starts integration with
the error counters at 0; with timing that fails them the controller stays in INIT with CFG_ERR. From a port that is not the
configuration master it is a bus error. The model's choices in it: log entries 60, 61, 72. -/
def Obligations.CanErrorsRecoveryAndInit : Prop :=
  (∀ (s : State) (n : CanIx) (x : CanSt) (lane cfgm : Fin 4), s.can[n.val]? = some x →
     (s.domOn 4 = true → (x.state = 2 ∨ x.state = 3) → x.stopDue = false → ∀ k e,
       ∃ u y, exec (.canError n k e none) s = .next u ∧ u.can[n.val]? = some y ∧ y.lastErr = e.val ∧
         u.ctr (canKey n 0x50) = (s.ctr (canKey n 0x50) + 1) % two64 ∧
         y.txErr = (if k = .transmitter then x.txErr + 8 else x.txErr) ∧
         y.rxErr = (if k = .receiver then min 255 (x.rxErr + 1)
           else if k = .receiverDominant then min 255 (x.rxErr + 8) else x.rxErr) ∧
         (255 < y.txErr → y.state = 4 ∨ y.state = 5) ∧
         (y.txErr ≤ 255 → y.state = if 128 ≤ y.txErr ∨ 128 ≤ y.rxErr then 3 else 2)) ∧
     (s.domOn 4 = true → x.state = 5 → ∃ u, exec (.busOffRecovery n) s = .next u ∧
       u.can[n.val]? = some { x with state := 2, txErr := 0, rxErr := 0 } ∧ tbit (u.rv (canKey n 0x24)) 4 = true) ∧
     (s.domOn 4 = true → x.state = 1 → exec (.busIntegrationDone n) s = .next { s with
       can := s.can.set n { x with state := if 128 ≤ x.txErr ∨ 128 ≤ x.rxErr then 3 else 2 } }) ∧
     (s.domOn 4 = true → (x.state = 2 ∨ x.state = 3) → tbit (s.canCtl n) 29 = true → x.stopDue = false →
       ∃ u, exec (.protocolException n) s = .next u ∧ u.can[n.val]? = some { x with state := 1 } ∧
         u.ctr (canKey n 0x60) = (s.ctr (canKey n 0x60) + 1) % two64) ∧
     exec (.transmitDominantTimeout n) s = .next (s.emit (.dominantOff n)) ∧
     (s.boot.powered = true → s.wakeEn n = true →
       (s.boot.keyOff = .parked →
         ∃ u, exec (.wakeUpPattern ⟨n, lane, cfgm⟩) s = .next u ∧ tbit (u.rv (canKey n 0x38)) 30 = true ∧
           u.boot.wakeStart = true ∧ u.boot.keyOff = .none ∧ u.boot.laneCfg = lane ∧ u.boot.cfgmSel = cfgm) ∧
       (∀ d, s.boot.keyOff ≠ .parked → s.pwr.doms[4]? = some d → d.state = .off →
         ∃ u, exec (.wakeUpPattern ⟨n, lane, cfgm⟩) s = .next u ∧ tbit (u.rv (canKey n 0x38)) 30 = true ∧
           u = { s with regs := { s.regs with can := u.regs.can } })) ∧
     (s.boot.powered = false ∨ s.wakeEn n = false ∨
         (s.boot.keyOff ≠ .parked ∧ ∃ d, s.pwr.doms[4]? = some d ∧ d.state ≠ .off) →
       exec (.wakeUpPattern ⟨n, lane, cfgm⟩) s = .next s)) ∧
  (∀ (s : State) (p : Port) (n : CanIx) (x : CanSt), s.can[n.val]? = some x →
     (admitsMaster s p (canKey n 0) →
       (∀ busy, s.domOn 4 = true → (x.state = 2 ∨ x.state = 3) → (x.sel.isSome = true ∨ busy = true) →
         ∃ u, exec (.canInitSet p n busy) s = .next u ∧ u.can[n.val]? = some { x with stopDue := true } ∧
           tbit (u.rv (canKey n 0)) 0 = true) ∧
       (x.state ≠ 0 → x.sel = none →
         ∃ u, exec (.canInitSet p n false) s = .next u ∧ u.can[n.val]? = some { x with state := 0, sel := none, stopDue := false } ∧
           tbit (u.rv (canKey n 0)) 0 = true) ∧
       (x.state = 0 → s.canTimingOk n = true →
         ∃ u, exec (.canInitClear p n) s = .next u ∧
           u.can[n.val]? = some { x with state := 1, cfgErr := false, txErr := 0, rxErr := 0 } ∧
           tbit (u.rv (canKey n 0)) 0 = false) ∧
       (x.state = 0 → s.canTimingOk n = false →
         ∃ u, exec (.canInitClear p n) s = .next u ∧ u.can[n.val]? = some { x with cfgErr := true } ∧
           tbit (u.rv (canKey n 0)) 0 = true ∧ tbit (u.rv (canKey n 0x24)) 8 = true)) ∧
     (admits s p (canKey n 0) → p.val ≠ s.master →
       (∃ u, exec (.canInitClear p n) s = .next u ∧ busErrorOn s u p 0 3 (canKey n 0)) ∧
       ∀ busy, ∃ u, exec (.canInitSet p n busy) s = .next u ∧ busErrorOn s u p 0 3 (canKey n 0)))

/-! ### 10BASE-T1S and Ethernet ports -/

/-- 10BASE-T1S. A frame for the host joins the receive FIFO where it fits, and POP takes the oldest out; GO takes a frame of a length
in range from the transmit window unless one waits. Where PLCA is off one frame is sent, a command frame before a PTP frame, a PTP
frame, with its second step behind it, before the host's; one that meets a collision is counted and tried again; under PLCA an opportunity sends a frame and its burst. A beacon makes
PLCA active where the port takes part; where beacons cease a port that is not the coordinator leaves PLCA, with PLCA_LOST.
The model's choices in it: log entries 63, 64, 65, 89. -/
def Obligations.T1sPortsCarryFrames : Prop :=
  ∀ (s : State) (p : Port) (q : Fin 4) (x : T1sSt), s.t1s[q.val]? = some x →
    (∀ f, s.t1sOn q = true → (∀ y ∈ s.regs.ctl.caps, groupOf y.key ≠ 3) → s.ptpTakes (4 + q) f = false →
      s.netfFirst (4 + q) f = none →
      macTakes (s.rv (t1sKey q 0xC)) (s.rv (t1sKey q 0x10)) (tbit (s.rv (t1sKey q 0)) 29) f = true →
      x.fill + f.length ≤ 32768 →
      ∃ u, exec (.t1sFrameReceived q f true) s = .next u ∧ u.t1s[q.val]? = some { x with rxFifo := x.rxFifo ++ [f] } ∧
        u.ctr (t1sKey q 0x40) = (s.ctr (t1sKey q 0x40) + 1) % two64 ∧ tbit (u.rv (t1sKey q 0x18)) 0 = true) ∧
    (∀ f, exec (.t1sFrameReceived q f false) s = .next s) ∧
    (∀ v : Word, admitsMaster s p (t1sKey q 0x24) →
      (tbit v.toNat 0 = true → exec (.pop p q v) s = .next { s with t1s := s.t1s.set q { x with rxFifo := x.rxFifo.tail } }) ∧
      (tbit v.toNat 0 = false → exec (.pop p q v) s = .next s)) ∧
    (∀ v : Word, admitsMaster s p (t1sKey q 0x28) →
      (tbit v.toNat 31 = true → x.tx = none → 60 ≤ field v.toNat 0 11 → field v.toNat 0 11 ≤ 1518 →
        exec (.t1sTxGo p q v) s = .next { s with
          t1s := s.t1s.set q { x with tx := some (s.t1sWindow q (field v.toNat 0 11)) } }) ∧
      (tbit v.toNat 31 = false ∨ x.tx.isSome = true ∨ field v.toNat 0 11 < 60 ∨ 1518 < field v.toNat 0 11 →
        exec (.t1sTxGo p q v) s = .next s)) ∧
    (∀ c l, s.t1sOn q = false → exec (.transmitOpportunity ⟨q, c, l⟩) s = .next s) ∧
    (∀ st, s.t1sOn q = true → tbit (s.rv (t1sKey q 0)) 30 = false →
      (∀ f l, x.cmds = f :: l → ∃ u, exec (.transmitOpportunity ⟨q, false, st⟩) s = .next u ∧ u.out = s.out ++ [.t1s q f.2] ∧
        u.t1s[q.val]? = some { x with cmds := l, attempts := 0 } ∧ u.time = s.time ∧
        u.ctr (t1sKey q 0x48) = (s.ctr (t1sKey q 0x48) + 1) % two64) ∧
      (∀ y m l, x.cmds = [] → s.time.ptp[4 + q.val]? = some y → y.queue = m :: l →
        ∃ u f z, exec (.transmitOpportunity ⟨q, false, st⟩) s = .next u ∧ u.out = s.out ++ [.ptp (4 + q) f] ∧
          f.kind = m.kind ∧ f.seq = m.seq ∧ u.t1s[q.val]? = some { x with attempts := 0 } ∧ u.time.ptp[4 + q.val]? = some z ∧
          (z.queue = l ∨ ∃ n, z.queue = n :: l ∧ n.kind = m.kind + 1 ∧ n.seq = m.seq) ∧
          u.ctr (t1sKey q 0x48) = (s.ctr (t1sKey q 0x48) + 1) % two64) ∧
      (∀ f, x.cmds = [] → s.ptpWaits (4 + q) = false → x.tx = some f →
        ∃ u, exec (.transmitOpportunity ⟨q, false, st⟩) s = .next u ∧ .t1s q f ∈ u.out ∧
          u.t1s[q.val]? = some { x with tx := none, attempts := 0 } ∧
          u.ctr (t1sKey q 0x48) = (s.ctr (t1sKey q 0x48) + 1) % two64) ∧
      (s.t1sWaits q = true → x.attempts < 15 →
        ∃ u, exec (.transmitOpportunity ⟨q, true, st⟩) s = .next u ∧ u.out = s.out ∧
          u.t1s[q.val]? = some { x with attempts := x.attempts + 1 } ∧
          u.ctr (t1sKey q 0x58) = (s.ctr (t1sKey q 0x58) + 1) % two64)) ∧
    (∀ c st, s.t1sOn q = true → s.t1sPlca q = true → x.plcaActive = true → 1 + s.t1sBurst q ≤ x.cmds.length →
      ∃ u, exec (.transmitOpportunity ⟨q, c, st⟩) s = .next u ∧
        u.out = s.out ++ (x.cmds.take (1 + s.t1sBurst q)).map (fun f => Out.t1s q f.2) ∧
        u.t1s[q.val]? = some { x with cmds := x.cmds.drop (1 + s.t1sBurst q) } ∧
        u.ctr (t1sKey q 0x48) = (s.ctr (t1sKey q 0x48) + (1 + s.t1sBurst q)) % two64) ∧
    (s.t1sOn q = true → tbit (s.rv (t1sKey q 0)) 30 = true →
      (∃ u, exec (.beacon ⟨q, false⟩) s = .next u ∧
        u.t1s[q.val]? = some { x with plcaActive := u.t1sPlca q, beaconSeen := true } ∧ u.can = s.can ∧ u.eth = s.eth) ∧
      (x.plcaActive = true → field (s.rv (t1sKey q 4)) 24 8 ≠ 0 →
        ∃ u, exec (.beacon ⟨q, true⟩) s = .next u ∧ u.t1s[q.val]? = some { x with plcaActive := false } ∧
          tbit (u.rv (t1sKey q 0x18)) 2 = true))

/-- Ethernet. A port that is off or down receives nothing; a frame with a wrong FCS is counted; a frame for the host goes to the
head slot of the receive ring, whose head moves on, and its bytes stand in the slot after the 16 bytes of its header. A command
frame leaves before the frames of the transmit ring; a frame of the ring leaves, and the ring's head moves on. TX_TAIL is what
its write says. The link comes up as negotiated and goes down, with LINK. The model's choices in it: log entries 63, 64. -/
def Obligations.EthernetPortsCarryFrames : Prop :=
  ∀ (s : State) (p : Port) (e : Fin 4) (x : EthSt), s.eth[e.val]? = some x →
    (∀ f ok d, s.ethOn e = false → exec (.ethFrameReceived e f ok d) s = .next s) ∧
    (∀ f d, s.ethOn e = true → ∃ u, exec (.ethFrameReceived e f false d) s = .next u ∧
      u.ctr (ethKey e 0x58) = (s.ctr (ethKey e 0x58) + 1) % two64 ∧ u.dram = s.dram ∧ u.ctl = s.ctl ∧ u.ing = s.ing) ∧
    (∀ f d o base size, s.ethOn e = true → (∀ y ∈ s.regs.ctl.caps, groupOf y.key ≠ 3) → beAt f 12 2 ≠ 0x8100 →
      f.length ≤ 1518 → (etherType f).1 ≠ 0x8808 →
      s.ptpTakes e f = false → s.netfFirst e f = none → s.scatTakes e f = none →
      macTakes (s.rv (ethKey e 8)) (s.rv (ethKey e 0xC)) (tbit (s.ethCfg e) 27) f = true →
      s.rv (ethKey e 0x24) ≠ s.rv (ethKey e 0x20) → s.ethSlot e 0x18 (s.rv (ethKey e 0x24)) = .dram o →
      s.dramOf (s.ethPart e) = some (base, size) → o + 16 + f.length ≤ size →
      ∃ u, exec (.ethFrameReceived e f true d) s = .next u ∧
        u.rv (ethKey e 0x24) = (s.rv (ethKey e 0x24) + 1) % 65536 ∧
        (∀ i (h : i < f.length), u.dram.mem.read (base + o + 16 + i) = f[i]) ∧
        (∀ a, a < base + o ∨ base + o + 16 + f.length ≤ a → u.dram.mem.read a = s.dram.mem.read a) ∧
        tbit (u.rv (ethKey e 0x10)) 1 = true) ∧
    (∀ v : Word, admitsMaster s p (ethKey e 0x30) →
      ∃ u, exec (.ethTxTail p e v) s = .next u ∧ u.rv (ethKey e 0x30) = v.toNat % 65536 ∧
        (∀ k, k ≠ ethKey e 0x30 → u.rv k = s.rv k) ∧ u = { s with regs := { s.regs with eth := u.regs.eth } }) ∧
    (s.ethOn e = true →
      (∀ f l st r, x.cmds = f :: l → ∃ u, exec (.ethFrameSent e st r) s = .next u ∧ u.out = s.out ++ [.eth e f.2] ∧
        u.eth[e.val]? = some { x with cmds := l } ∧ u.ctr (ethKey e 0x48) = (s.ctr (ethKey e 0x48) + 1) % two64) ∧
      (∀ st r h b, x.cmds = [] → s.ptpWaits e = false → s.rv (ethKey e 0x34) ≠ s.rv (ethKey e 0x30) →
        s.fetchPlace (s.ethPart e) (s.ethSlot e 0x28 (s.rv (ethKey e 0x34))) 16 r = (h, 0) → 60 ≤ leAt h 0 2 → leAt h 0 2 ≤ 1522 →
        s.fetchPlace (s.ethPart e) (s.ethSlot e 0x28 (s.rv (ethKey e 0x34))) (16 + leAt h 0 2) r = (b, 0) →
        tbit (byteAt h 2).toNat 0 = false →
        ∃ u, exec (.ethFrameSent e st r) s = .next u ∧ .eth e (b.drop 16) ∈ u.out ∧
          u.rv (ethKey e 0x34) = (s.rv (ethKey e 0x34) + 1) % 65536 ∧ u.eth = s.eth)) ∧
    (∀ m (v : Fin 5), s.domOn 4 = true → tbit (s.ethCfg e) 31 = true → tbit (s.ethCfg e) 30 = true → x.link = false →
      tbit (field (s.ethCfg e) 16 5) v = true →
      ∃ u, exec (.ethLinkChange e true m v) s = .next u ∧
        u.eth[e.val]? = some { x with link := true, master := m, speed := v } ∧ tbit (u.rv (ethKey e 0x10)) 0 = true) ∧
    (∀ m (v : Fin 5), x.link = true → ∃ u, exec (.ethLinkChange e false m v) s = .next u ∧
      u.eth[e.val]? = some { x with link := false, master := false, speed := 0 } ∧
      u.ctr (ethKey e 0x68) = (s.ctr (ethKey e 0x68) + 1) % two64)

/-! ### The time base, PTP, pulse generators -/

/-- The time base. STEP in FREE moves the counter by Δ at once and counts; in the other states a Δ within THR slews, and a
greater one is a JUMP that moves nothing; under the servo, or during a slew, STEP is refused. RELEASE leaves FREE except
under a drive image. A slew ends once nothing is left; three Sync intervals without a usable Sync leave TRACKING for
HOLDOVER; a rate that is off for the first time is cause 0x0418. Pulse generators: an armed generator that has edges left
makes its leading edge at its time, on its pin where the pin is enabled, with its polarity, and counts it; the trailing edge ends
the pulse WIDTH later; before their times neither does anything. The model's choices in it: log entries 10, 67. -/
def Obligations.TimeBaseAndPulses : Prop :=
  (∀ (s : State) (p : Port),
     (admitsMaster s p 0x500014 →
       (s.servoOn = false → s.time.slew = none →
         (s.time.mode = .free →
           ∃ u, exec (.step p) s = .next u ∧ u.time.tb = tbAdd s.time.tb (s.stepDelta * 2 ^ 28) ∧ u.time.mode = .tracking ∧
             u.ctr (timeKey 0x68) = (s.ctr (timeKey 0x68) + 1) % two64) ∧
         (s.time.mode ≠ .free → s.stepDelta.natAbs ≤ s.jumpThr →
           exec (.step p) s = .next { s with time := { s.time with slew := some (s.stepDelta * 2 ^ 28) } }) ∧
         (s.time.mode ≠ .free → s.jumpThr < s.stepDelta.natAbs →
           ∃ u, exec (.step p) s = .next u ∧ u.time = s.time ∧ tbit (u.rv (timeKey 0x30)) 2 = true)) ∧
       (s.servoOn = true ∨ s.time.slew.isSome = true →
         ∃ u, exec (.step p) s = .next u ∧ u.time = s.time ∧ tbit (u.rv (timeKey 0x30)) 4 = true) ∧
       (s.drive = false →
         exec (.release p) s = .next { s with time := { s.time with mode := .free, slew := none, inSync := false } }) ∧
       (s.drive = true → ∃ u, exec (.release p) s = .next u ∧ u.time = s.time ∧ tbit (u.rv (timeKey 0x30)) 4 = true)) ∧
     (s.time.slew = some 0 → ∃ u, exec .slewEnd s = .next u ∧ u.time = { s.time with slew := none } ∧
       tbit (u.rv (timeKey 0x30)) 1 = true) ∧
     (s.time.slew ≠ some 0 → exec .slewEnd s = .next s) ∧
     (s.servoOn = false ∨ s.time.mode ≠ .tracking → exec .syncLost s = .next s) ∧
     (s.servoOn = true → s.time.mode = .tracking → ∃ u, exec .syncLost s = .next u ∧ u.time.mode = .holdover ∧
       u.time.inSync = false ∧ u.time.tb = s.time.tb ∧ tbit (u.rv (timeKey 0x30)) 3 = true) ∧
     exec (.timeRateCheck false) s = .next { s with pwr := { s.pwr with rateBad := false } } ∧
     (∃ u, exec (.timeRateCheck true) s = .next u ∧ u.pwr = { s.pwr with rateBad := true } ∧ u.time = s.time ∧
       (s.pwr.rateBad = false → ⟨2, 0xFF, 0x0418, s.now⟩ ∈ u.safe.flog))) ∧
  (∀ (s : State) (g : Fin 8) (x : PulseSt), s.time.pulse[g.val]? = some x →
     (s.edgeDue g x.nextEdge = false → exec (.pulseLeadingEdge g) s = .next s) ∧
     (x.high = false ∨ s.widthDone g x = false → exec (.pulseTrailingEdge g) s = .next s) ∧
     (s.domOn 4 = true → s.edgeDue g x.nextEdge = true → x.armed = true → x.high = false →
       (if s.rv (pgKey g 0x10) = 0 then x.nextEdge < 1 else s.rv (pgKey g 0x18) = 0 ∨ x.nextEdge < s.rv (pgKey g 0x18)) →
       ∃ u, exec (.pulseLeadingEdge g) s = .next u ∧
         (∃ y, y = { x with nextEdge := x.nextEdge + 1, high := true, since := s.time.elapsed,
                            level := if tbit (s.rv (pgKey g 0)) 30 = true then !tbit (s.rv (pgKey g 0)) 29 else x.level } ∧
           u.time = { s.time with pulse := s.time.pulse.set g y }) ∧
         u.ctr (pgKey g 0x20) = (s.ctr (pgKey g 0x20) + 1) % two64 ∧
         (tbit (s.rv (pgKey g 0)) 30 = true → .pulse g (!tbit (s.rv (pgKey g 0)) 29) ∈ u.out)) ∧
     (x.high = true → s.widthDone g x = true → exec (.pulseTrailingEdge g) s =
       let y : PulseSt := { x with high := false, level := if tbit (s.rv (pgKey g 0)) 30 = true then tbit (s.rv (pgKey g 0)) 29 else x.level }
       .next { s with
       time := { s.time with pulse := s.time.pulse.set g y },
       out := if tbit (s.rv (pgKey g 0)) 30 = true then s.out ++ [.pulse g (tbit (s.rv (pgKey g 0)) 29)] else s.out }))

/-- PTP. A Sync of another domain, or one whose Follow_Up is late, is discarded; a two-step Sync waits; a usable one gives an offset
of at most half the wrap, and in FREE under the servo the time base takes it in one step and tracks from the nominal addend. A
delay exchange sets the link delay from its stamps, which the third failure in a row makes invalid. Announce changes no role. A
Sync, an Announce, a delay request, the answer to one join the messages that wait, each with its own sequence number; on an
Ethernet port with no command frame waiting the first of them leaves, a two-step Sync or Pdelay_Resp with its follow-up right
behind it. A stamp is one within the port's accuracy of the instant. Nothing comes or goes on a port that is off or down. The
model's choices in it: log entries 6, 10, 66, 96. -/
def Obligations.PtpMessages : Prop :=
  (∀ (s : State) (q : PtpIx), s.ptpUp q = false →
    (∀ ing dom src o c two, exec (.sync q ing dom src o c two) s = .next s) ∧
    (∀ o c i, exec (.followUp q o c i) s = .next s) ∧ (∀ r, exec (.delayExchange q r) s = .next s) ∧
    (∀ i d n k, exec (.delayRequestReceived q i d n k) s = .next s) ∧ exec (.announce q) s = .next s ∧
    (∀ o, exec (.syncTransmit q o) s = .next s) ∧ exec (.announceTransmit q) s = .next s ∧ exec (.delayRequestTransmit q) s = .next s) ∧
  (∀ (s : State) (e : Fin 4) (x : PtpSt) (m : PtpMsg) (l : List PtpMsg) (st g : Stamp) (r : HostReply),
    s.ethOn e = true → g = s.stampOf e 0 st → (s.ethOf e).cmds = [] → s.time.ptp[e.val]? = some x → x.queue = m :: l →
    (m.kind = 0 → ∃ u, exec (.ethFrameSent e st r) s = .next u ∧
      u.ctr (ptpKey e 0x28) = (s.ctr (ptpKey e 0x28) + 1) % two64 ∧ u.eth = s.eth ∧
      (tbit (s.rv (ptpKey e 0)) 30 = true →
        u.out = s.out ++ [.ptp e (s.ptpFrame e m ⟨(s.egressStamp e g).ns, 0⟩ 0)] ∧
        u.time = { s.time with ptp := s.time.ptp.set e { x with queue := l } }) ∧
      (tbit (s.rv (ptpKey e 0)) 30 = false → u.out = s.out ++ [.ptp e (s.ptpFrame e m m.stamp 0)] ∧
        u.time = { s.time with ptp := s.time.ptp.set e { x with queue := ⟨1, m.seq, s.egressStamp e g, 0⟩ :: l } })) ∧
    (m.kind = 1 ∨ m.kind = 2 ∨ m.kind = 4 ∨ m.kind = 5 → ∃ u, exec (.ethFrameSent e st r) s = .next u ∧
      u.out = s.out ++ [.ptp e (s.ptpFrame e m m.stamp m.corr)] ∧
      u.time = { s.time with ptp := s.time.ptp.set e { x with queue := l } }) ∧
    (m.kind = 3 → ∃ u, exec (.ethFrameSent e st r) s = .next u ∧
      (tbit (s.rv (ptpKey e 0)) 30 = true →
        u.out = s.out ++ [.ptp e (s.ptpFrame e m ⟨0, 0⟩ (m.corr + ptpDiff (fineNs (s.egressStamp e g)) (fineNs m.stamp)))] ∧
        u.time = { s.time with ptp := s.time.ptp.set e { x with queue := l } }) ∧
      (tbit (s.rv (ptpKey e 0)) 30 = false → u.out = s.out ++ [.ptp e (s.ptpFrame e m m.stamp 0)] ∧
        u.time = { s.time with ptp := s.time.ptp.set e { x with queue := ⟨4, m.seq, s.egressStamp e g, m.corr⟩ :: l } })) ∧
    (m.kind = 6 ∨ m.kind = 7 → ∃ u, exec (.ethFrameSent e st r) s = .next u ∧
      u.out = s.out ++ [.ptp e (s.ptpFrame e m ⟨0, 0⟩ 0)] ∧
      u.time = { s.time with ptp := s.time.ptp.set e { x with queue := l, request := some (fineNs (s.egressStamp e g)) } })) ∧
  ∀ (s : State) (q : PtpIx) (x : PtpSt), s.ptpUp q = true → s.time.ptp[q.val]? = some x →
    (∀ ing dom src o c two, dom ≠ s.ptpDomain q → ∃ u, exec (.sync q ing dom src o c two) s = .next u ∧ u.time = s.time ∧
      u.ctr (ptpKey q 0x30) = (s.ctr (ptpKey q 0x30) + 1) % two64) ∧
    (∀ ing src o c, ∃ u, exec (.sync q ing (s.ptpDomain q) src o c true) s = .next u ∧
      u.time = { s.time with ptp := s.time.ptp.set q { x with wait := some ⟨fineNs (s.stampOf q 0 ing), c⟩ } }) ∧
    (∀ ing src o c d, x.delay = some d → s.ptpRole q = 1 → field (s.rv (timeKey 0x28)) 16 3 = q.val → s.servoOn = true →
      s.time.mode = .free →
      let th := s.syncTheta q (fineNs (s.stampOf q 0 ing)) (syncMaster o c) d
      2 * th.natAbs ≤ nsWrap * 65536 ∧
      ∃ u, exec (.sync q ing (s.ptpDomain q) src o c false) s = .next u ∧ u.time.tb = tbAdd s.time.tb (-(th * 4096)) ∧
        u.time.mode = .tracking ∧ u.rv (timeKey 0x20) = addendNominal) ∧
    (∀ w o c, x.wait = some w → ∃ u, exec (.followUp q o c false) s = .next u ∧ u.time.tb = s.time.tb ∧
      u.time = { s.time with ptp := s.time.ptp.set q { x with wait := none } } ∧
      u.ctr (ptpKey q 0x30) = (s.ctr (ptpKey q 0x30) + 1) % two64) ∧
    (∀ w o c d, x.wait = some w → x.delay = some d → s.ptpRole q = 1 → field (s.rv (timeKey 0x28)) 16 3 = q.val →
      s.servoOn = false →
      ∃ u, exec (.followUp q o c true) s = .next u ∧ u.time.tb = s.time.tb ∧
        u.rv (timeKey 0x2C) = satNs (s.syncTheta q w.ingress (syncMaster o (w.corr + c)) d)) ∧
    (∀ r t d, x.request = some t → s.meanDelay q x t r = some d → ∃ u, exec (.delayExchange q (some r)) s = .next u ∧
      u.time = { s.time with ptp := s.time.ptp.set q { x with delay := some d, misses := 0, request := none } } ∧
      u.rv (ptpKey q 0xC) = min (d / 65536).toNat 0xFFFFFFFE) ∧
    (∀ r, x.request = none → exec (.delayExchange q (some r)) s = .next s) ∧
    (2 ≤ x.misses → ∃ u, exec (.delayExchange q none) s = .next u ∧ u.rv (ptpKey q 0xC) = 0xFFFFFFFF ∧
      u.time = { s.time with ptp := s.time.ptp.set q { x with delay := none, misses := x.misses + 1, request := none } }) ∧
    (∀ i n k, (s.ptpPeer q = true ∨ s.ptpRole q = 0) →
      exec (.delayRequestReceived q i (s.ptpDomain q) n k) s = .next { s with
        time := { s.time with
          ptp := s.time.ptp.set q { x with
            queue := x.queue ++ [⟨if s.ptpPeer q = true then 3 else 2, n, adjusted (s.stampOf q 0 i) (s.ingressAdj q), k⟩] } } }) ∧
    exec (.announce q) s = .next { s with
      time := { s.time with ptp := s.time.ptp.set q { x with announces := x.announces + 1 } } } ∧
    (∀ o, s.ptpRole q = 0 → exec (.syncTransmit q o) s = .next { s with
      time := { s.time with
        ptp := s.time.ptp.set q { x with queue := x.queue ++ [⟨0, x.syncSeq, o, 0⟩], syncSeq := (x.syncSeq + 1) % 65536 } } }) ∧
    (s.ptpRole q = 0 → exec (.announceTransmit q) s = .next { s with
      time := { s.time with
        ptp := s.time.ptp.set q { x with queue := x.queue ++ [⟨5, x.announceSeq, ⟨0, 0⟩, 0⟩], announceSeq := (x.announceSeq + 1) % 65536 } } }) ∧
    (s.ptpPeer q = true ∨ s.ptpRole q ≠ 0 → exec (.delayRequestTransmit q) s = .next { s with
      time := { s.time with
        ptp := s.time.ptp.set q { x with queue := x.queue ++ [⟨if s.ptpPeer q = true then 7 else 6, x.delaySeq, ⟨0, 0⟩, 0⟩],
                                         delaySeq := (x.delaySeq + 1) % 65536 } } })

/-! ### Ingest -/

/-- Camera ports. A Frame Start of the accepted channel begins a frame, whose sample takes the next number of its stream; its
lines are counted and passed on, a damaged one as zeros with 0x0103; a Frame End closes it, with 0x0101 where lines are
missing, as LINE_TMO does; the loss of the link closes it with 0x0112; the first status raised stands. Packets outside a
frame are ORPHAN, those of another channel OTHER. One CCI transaction runs at a time, GO clearing at its end. Point-cloud
sweeps. A datagram whose SWEEP field is new ends the sweep in progress and begins one with its points; one of the same sweep
adds to it; MAX_POINTS ends it with 0x0012, further points dropped; a malformed one ends it with 0x010A and begins a
resynchronisation, whose datagrams are dropped until the field changes; SWEEP_TMO ends it.
The model's choices in it: log entries 47, 48, 51. -/
def Obligations.SensorSources : Prop :=
  (∀ (s : State) (p : Port) (n : Fin 16) (x : CamSt), s.ing.cams[n.val]? = some x →
     (s.camOn n = true → x.inFrame = false → (∀ y ∈ s.regs.ing.caps, groupOf y.key ≠ 4) →
       (∀ no st, ∃ u, exec (.frameStart n (s.camVc n) no st) s = .next u ∧
         u.ing.cams[n.val]? = some { x with
           inFrame := true, lines := 0, frameStatus := 0, route := (s.pipeOf n).bind fun p => (s.streamOf 2 p).map fun a => (p, a) } ∧
         ∀ q a r y, s.pipeOf n = some q → s.streamOf 2 q = some a → s.ringOf a = some r → s.ing.streams[a]? = some y →
           u.ing.streams[a]? = some { y with nextSeq := (y.nextSeq + 1) % 2 ^ 32, cut := false }) ∧
       (∀ no st vc, vc ≠ s.camVc n → ∃ u, exec (.frameStart n vc no st) s = .next u ∧ u.ing = s.ing ∧
         u.ctr (camKey n 0x38) = (s.ctr (camKey n 0x38) + 1) % two64) ∧
       (∀ l, knownDt (s.camDt n) = true → ∃ u, exec (.line n (s.camVc n) (s.camDt n) l .none) s = .next u ∧ u.ing = s.ing ∧
         u.ctr (camKey n 0x30) = (s.ctr (camKey n 0x30) + 1) % two64) ∧
       (∃ u, exec (.frameEnd n (s.camVc n)) s = .next u ∧ u.ing = s.ing ∧
         u.ctr (camKey n 0x30) = (s.ctr (camKey n 0x30) + 1) % two64)) ∧
     (s.camOn n = true → x.inFrame = true →
       (∀ l e, knownDt (s.camDt n) = true → x.lines < s.camH n → e ≠ .ecc →
         let bad : Bool := e == .crc || l.length != lineComps (s.camDt n) (s.camW n)
         ∃ u, exec (.line n (s.camVc n) (s.camDt n) l e) s = .next u ∧
           u.ing.cams[n.val]? = some { x with lines := x.lines + 1,
                                              frameStatus := if bad && x.frameStatus == 0 then 0x0103 else x.frameStatus } ∧
           ∀ q a y ls, x.route = some (q, a) → s.sending a = some y → y.data = .lines ls →
             u.sending a = some { y with data := .lines (ls ++ [if bad then List.replicate (lineComps (s.camDt n) (s.camW n)) 0
               else l]) }) ∧
       (∃ u, exec (.frameEnd n (s.camVc n)) s = .next u ∧
         u.ing.cams[n.val]? = some { x with inFrame := false, last := (if x.frameStatus ≠ 0 then x.frameStatus
           else if x.lines < s.camH n then 0x0101 else 0) } ∧
         u.ctr (camKey n 0x20) = (s.ctr (camKey n 0x20) + 1) % two64 ∧ tbit (u.rv (camKey n 0x10)) 0 = true)) ∧
     (x.inFrame = true →
       (∃ u, exec (.lineTmoExpiry n) s = .next u ∧
         u.ing.cams[n.val]? = some { x with inFrame := false, last := if x.frameStatus ≠ 0 then x.frameStatus else 0x0101 } ∧
         u.ctr (camKey n 0x28) = (s.ctr (camKey n 0x28) + 1) % two64) ∧
       (exec (.portFifoOverflow n) s = .next { s with ing := { s.ing with
         cams := s.ing.cams.set n { x with frameStatus := if x.frameStatus = 0 then 0x0104 else x.frameStatus } } }) ∧
       (x.gear ≠ 0 → ∃ u, exec (.cameraLinkLost n) s = .next u ∧ tbit (u.rv (camKey n 0x10)) 2 = true ∧
         u.ing.cams[n.val]? = some { x with gear := 0, inFrame := false,
                                            last := if x.frameStatus ≠ 0 then x.frameStatus else 0x0112 })) ∧
     (∀ g : Fin 5, ∃ u, exec (.cameraLinkLock n g) s = .next u ∧ tbit (u.rv (camKey n 0x10)) 2 = true ∧
       u.ing = { s.ing with cams := s.ing.cams.set n { x with gear := g + 1 } }) ∧
     (admits s p (camKey n 0x18) → (∃ q, s.camOwner n = some q ∧ s.bound q p = true) → ∀ v : Word,
       (tbit (s.rv (camKey n 0x18)) 31 = true → exec (.cciGo p n v) s = .next s) ∧
       (tbit (s.rv (camKey n 0x18)) 31 = false → tbit v.toNat 31 = true → ∃ u, exec (.cciGo p n v) s = .next u ∧
         u.ing = { s.ing with cams := s.ing.cams.set n { x with cci := true } } ∧ tbit (u.rv (camKey n 0x18)) 31 = true ∧
         u.out = s.out ++ [.cci n (field v.toNat 16 7) (field v.toNat 0 16) (tbit v.toNat 30) (s.rv (camKey n 0x1C) % 256)])) ∧
     (x.cci = true → ∀ r, ∃ u, exec (.cciDone n r) s = .next u ∧ tbit (u.rv (camKey n 0x18)) 31 = false ∧
       tbit (u.rv (camKey n 0x18)) 29 = r.isNone ∧ u.ing = { s.ing with cams := s.ing.cams.set n { x with cci := false } } ∧
       ∀ b, r = some b → tbit (s.rv (camKey n 0x18)) 30 = true → u.rv (camKey n 0x1C) = b.toNat) ∧
     (∀ c u, (∃ vc no st, c = .frameStart n vc no st) ∨ (∃ vc dt l e, c = .line n vc dt l e) ∨ (∃ vc, c = .frameEnd n vc) ∨
         c = .lineTmoExpiry n ∨ c = .portFifoOverflow n ∨ c = .cameraLinkLost n ∨ (∃ g, c = .cameraLinkLock n g) ∨
         (∃ v, c = .cciGo p n v) ∨ (∃ r, c = .cciDone n r) →
       exec c s = .next u → onlyIngest s u ∧ u.dram = s.dram ∧ u.comp = s.comp ∧ u.ing.vdecs = s.ing.vdecs ∧
         u.ing.scats = s.ing.scats ∧ u.ing.cache = s.ing.cache ∧
         ∀ m : Nat, m ≠ n.val → u.ing.cams[m]? = s.ing.cams[m]?)) ∧
  (∀ (s : State) (e : Fin 4) (b : List Byte) (st : Fin 11) (x : ScatSt) (a : Nat),
     s.ing.scats[e.val]? = some x → s.scatStream e = some a → (∀ y ∈ s.regs.ing.caps, groupOf y.key ≠ 6) →
     let sw := leAt b (s.rv (scatKey e 0x1C) / 2 ^ 16) 2
     (s.scatOn e = false → exec (.udpDatagram e b st) s = .next s) ∧
     (s.scatOn e = true → x.resync = some sw → ∃ u, exec (.udpDatagram e b st) s = .next u ∧ u.ing = s.ing ∧
       u.ctr (scatKey e 0xB0) = (s.ctr (scatKey e 0xB0) + 1) % two64) ∧
     (s.scatOn e = true → x.resync ≠ some sw →
       (s.scatCount e b = none → ∃ u, exec (.udpDatagram e b st) s = .next u ∧
         u.ing.scats[e.val]? = some { x with sweep := none, resync := some sw, reason := 0x010A } ∧
         u.ctr (scatKey e 0xB0) = (s.ctr (scatKey e 0xB0) + 1) % two64) ∧
       (∀ m, s.scatCount e b = some m → m < s.maxPoints e → x.sweep.map (·.1) ≠ some sw →
         ∃ u, exec (.udpDatagram e b st) s = .next u ∧
           u.ing.scats[e.val]? = some { x with sweep := some (sw, m), resync := none } ∧
           u.ctr (scatKey e 0xA8) = (s.ctr (scatKey e 0xA8) + m) % two64 ∧
           ∀ r y, s.ringOf a = some r → s.ing.streams[a]? = some y →
             u.ing.streams[a]? = some { y with nextSeq := (y.nextSeq + 1) % 2 ^ 32, cut := false }) ∧
       (∀ m had, s.scatCount e b = some m → x.sweep = some (sw, had) →
         (had + m < s.maxPoints e → ∃ u, exec (.udpDatagram e b st) s = .next u ∧
           u.ing.scats[e.val]? = some { x with sweep := some (sw, had + m), resync := none } ∧
           u.ctr (scatKey e 0xA8) = (s.ctr (scatKey e 0xA8) + m) % two64) ∧
         (had < s.maxPoints e → s.maxPoints e ≤ had + m → ∃ u, exec (.udpDatagram e b st) s = .next u ∧
           u.ing.scats[e.val]? = some { sweep := some (sw, s.maxPoints e), resync := none, reason := 0x0012 } ∧
           u.ctr (scatKey e 0xB0) = (s.ctr (scatKey e 0xB0) + (had + m - s.maxPoints e)) % two64))) ∧
     (x.sweep.isSome = true → ∃ u, exec (.sweepTmoExpiry e) s = .next u ∧
       u.ing.scats[e.val]? = some { x with sweep := none }) ∧
     (∀ c u, c = .udpDatagram e b st ∨ c = .sweepTmoExpiry e → exec c s = .next u →
       onlyIngest s u ∧ u.dram = s.dram ∧ u.comp = s.comp ∧ u.ing.cams = s.ing.cams ∧ u.ing.vdecs = s.ing.vdecs ∧
         ∀ m : Nat, m ≠ e.val → u.ing.scats[m]? = s.ing.scats[m]?))

/-- Alignment windows. The last slot byte of a sample stands in its slot of the window's buffer and completes it; one that is not
admissible leaves no byte. A window does not close before its time; at its close every stream counts its outcome, a slot that is
not admitted is zeros, no other byte changes, and the next window is due; a stream without a sample is MISSING; a skipped window,
or one of a ring with a placement fault, only leaves and frees its buffer, as does one of a stopped ring, which counts as skipped.
The batch record then stands at the start of the buffer, and the batch is complete. Under a placement fault no sample completes and
no batch is emitted.
The model's choices in it: log entries 6, 47, 49, 50. -/
def Obligations.SamplesAndBatches : Prop :=
  ∀ (s : State) (p : PartIx) (r : RingSt), s.ing.rings[p.val]? = some r →
    (r.cfgErr = true → ∀ c, (c = .batchComplete p ∨ ∃ st : Fin 64, c = .sampleComplete st ∧ s.ringOf st = some p.val) →
      ∃ u, exec c s = .next u ∧ u.dram = s.dram ∧ u.ing = s.ing ∧ ∀ k, u.ctr k = s.ctr k) ∧
    (∀ (st : Fin 64) w x bytes n, r.cfgErr = false → s.ringOf st = some p.val → dueWindow s p st = some w → w.samples.find? (dueSample st) = some x →
      x.data = .rows bytes n →
      ∃ u, exec (.sampleComplete st) s = .next u ∧ u.ing.streams = s.ing.streams ∧
        u.ing.rings[p.val]? = some { r with wins := r.wins.map fun y => if y.k = w.k ∧ y.closed = false then
          { y with samples := y.samples.map fun z => if z.seq = x.seq ∧ z.stream = st.val then { z with complete := true, rows := n }
            else z } else y } ∧
        (∀ b base size, w.buf = some b → admissible x.status = true → s.dramOf p = some (base, size) →
          let at' := base + (s.ringBase p + b * s.ringStride p + s.slotOff st)
          (∀ i (h : i < bytes.length), u.dram.mem.read (at' + i) = bytes[i]) ∧
          ∀ a, a < at' ∨ at' + bytes.length ≤ a → u.dram.mem.read a = s.dram.mem.read a) ∧
        (admissible x.status = false → u.dram = s.dram)) ∧
    (s.ringWindows p = false ∨ tdiff s.now (s.winClose p r.nextWin) < 0 → exec (.windowClose p) s = .next s) ∧
    (s.ringWindows p = true → 0 ≤ tdiff s.now (s.winClose p r.nextWin) → r.waiting = [] →
      (r.cfgErr = true → ∃ u, exec (.windowClose p) s = .next u ∧ u.dram = s.dram ∧
        u.ing.rings[p.val]? = some (ringDrops r)) ∧
      (r.cfgErr = false → r.stopped = true → ∃ u, exec (.windowClose p) s = .next u ∧ u.dram = s.dram ∧
        u.ctr (ringKey p 0x40) = (s.ctr (ringKey p 0x40) + 1) % two64 ∧ tbit (u.rv (ringKey p 0x28)) 2 = true ∧
        u.ing.rings[p.val]? = some (ringDrops r)) ∧
      (r.cfgErr = false → r.stopped = false →
        (∀ w, r.openWin r.nextWin = some w → w.buf = none → ∃ u, exec (.windowClose p) s = .next u ∧ u.dram = s.dram ∧
          u.ing.streams = s.ing.streams ∧ u.ing.rings[p.val]? = some (ringDrops r)) ∧
        (∀ w b, r.openWin r.nextWin = some w → w.buf = some b → ∃ u, exec (.windowClose p) s = .next u ∧
          (∃ y, u.ing.rings[p.val]? = some y ∧ y.nextWin = r.nextWin + 1 ∧ y.openWin r.nextWin = none ∧ y.bufs = r.bufs) ∧
          (∀ st ∈ s.streamsOf p, let o := slotOutcome (w.of st)
            u.ctr (asKey st (outcomeCounter o)) = (s.ctr (asKey st (outcomeCounter o)) + 1) % two64 ∧
            (∀ x, s.ing.streams[st]? = some x → (u.ing.streams[st]?.map (·.last)) = some o.1) ∧
            (∀ base size i, s.dramOf p = some (base, size) → o.2 = false → i < s.slotSize st →
              u.dram.mem.read (base + (s.ringBase p + b * s.ringStride p + s.slotOff st) + i) = 0)) ∧
          ∀ base size, s.dramOf p = some (base, size) →
            dramOnly s u (((s.streamsOf p).filter fun st => !(slotOutcome (w.of st)).2).map fun st =>
              ⟨base + (s.ringBase p + b * s.ringStride p + s.slotOff st), s.slotSize st⟩)) ∧
        (r.openWin r.nextWin = none → r.frees ≠ [] → (∀ y ∈ s.regs.ing.caps, s.ringGroup p y = false) → ∃ u, exec (.windowClose p) s = .next u ∧
          (∀ st ∈ s.streamsOf p, u.ctr (asKey st 0x18) = (s.ctr (asKey st 0x18) + 1) % two64)))) ∧
    (∀ w b base size, r.cfgErr = false → r.wins.find? (·.closed) = some w → w.buf = some b → s.dramOf p = some (base, size) →
      ∃ u, exec (.batchComplete p) s = .next u ∧
        (∀ i (h : i < w.record.length), u.dram.mem.read (base + (s.ringBase p + b * s.ringStride p) + i) = w.record[i]) ∧
        (∀ a, a < base + (s.ringBase p + b * s.ringStride p) ∨
            base + (s.ringBase p + b * s.ringStride p) + w.record.length ≤ a → u.dram.mem.read a = s.dram.mem.read a) ∧
        u.ing.rings[p.val]? = some { r with wins := r.wins.filter fun y => !(y.k == w.k && y.closed),
                                            bufs := r.bufs.set b (.complete w.k w.srcTs) } ∧
        u.ctr (ringKey p 0x30) = (s.ctr (ringKey p 0x30) + 1) % two64 ∧ tbit (u.rv (ringKey p 0x28)) 0 = true ∧
        ∀ m x, w.srcTs ≠ 0 → alGet s.safe.mons m = some x → s.monBind m = .ring p →
          alGet u.safe.mons m = some { x with ts := s.fullTs w.srcTs }) ∧
    (∀ c u, ((∃ st, c = .sampleComplete st) ∨ c = .windowClose p ∨ c = .batchComplete p) → exec c s = .next u →
      onlyIngest s u ∧ u.ing.cams = s.ing.cams ∧ u.ing.scats = s.ing.scats ∧ u.ing.vdecs = s.ing.vdecs)

/-- The depot assembler. The request ring's tail is what its write says. A batch begins with BATCH_SIZE requests and a free buffer;
once every sample is in the cache, or after MISS_TMO, its slots are written, no other byte, and it waits to be complete. Cache:
EVICT and CLEAR take out what no batch under construction reads, and mark what one reads, which leaves once it is complete. The model's choices in it: log entry 53. -/
def Obligations.DepotBatches : Prop :=
  ∀ (s : State) (p : PartIx) (port : Port) (r : RingSt), s.ing.rings[p.val]? = some r →
    (∀ v : Word, admits s port (depKey p 0xC) → s.bound p port = true →
      ∃ u, exec (.ingDepTail port p v) s = .next u ∧ u.rv (depKey p 0xC) = v.toNat % 65536 ∧
        (∀ k, k ≠ depKey p 0xC → u.rv k = s.rv k) ∧ u = { s with regs := { s.regs with ing := u.regs.ing } }) ∧
    (s.depOn p = true →
      (∀ reply b a, (∀ y ∈ s.regs.ing.caps, s.ringGroup p y = false) →
        s.depWin p = none → r.frees ≠ [] → 1 ≤ s.depSize p → s.depSize p ≤ 64 → s.depSize p ≤ s.depWaiting p →
        s.depRead p reply = (b, 0, a) → s.depHits ⟨r.batchNo, none, false, [], false, b, 0⟩ = false →
        ∃ u buf, exec (.depotBatchBuild p reply) s = .next u ∧ buf ∈ r.frees ∧
          u.ing.rings[p.val]? = some { r with
            bufs := r.bufs.set buf .filling, wins := r.wins ++ [⟨r.batchNo, some buf, false, [], false, b, 0⟩],
            batchNo := r.batchNo + 1 }) ∧
      (∀ w buf base size, s.depWin p = some w → w.buf = some buf → s.dramOf p = some (base, size) →
        ∀ c, (c = .missTmoExpiry p ∨ s.depHits w = true ∧ ∃ reply, c = .depotBatchBuild p reply) →
        ∃ u, exec c s = .next u ∧
          (∃ y, u.ing.rings[p.val]? = some y ∧ y.reqNo = (r.reqNo + w.record.length / 64) % 2 ^ 32 ∧ y.bufs = r.bufs ∧
            ∃ z ∈ y.wins, z.k = w.k ∧ z.closed = true) ∧
          (∀ i, i < w.record.length / 64 →
            let d := (s.depSlot p (sliceAt w.record (64 * i) 64) (s.fresh + i)).1
            d.length ≤ s.rv (depKey p 0x18) → ∀ j (h : j < d.length),
              u.dram.mem.read (base + (s.ringBase p + buf * s.ringStride p + s.rv (depKey p 0x14) + i * s.rv (depKey p 0x18)) + j) =
                d[j]) ∧
          dramOnly s u ((List.range (w.record.length / 64)).map fun i =>
            ⟨base + (s.ringBase p + buf * s.ringStride p + s.rv (depKey p 0x14) + i * s.rv (depKey p 0x18)),
              (s.depSlot p (sliceAt w.record (64 * i) 64) (s.fresh + i)).1.length⟩))) ∧
    (admitsMaster s port 0x980000 →
      (∃ u, exec (.evict port) s = .next u ∧ u = { s with ing := { s.ing with cache := u.ing.cache } } ∧
        (∀ id, id ≠ s.cacheId → alGet u.ing.cache id = alGet s.ing.cache id) ∧
        (s.building.contains s.cacheId = false → alGet u.ing.cache s.cacheId = none) ∧
        (s.building.contains s.cacheId = true →
          alGet u.ing.cache s.cacheId = (alGet s.ing.cache s.cacheId).map fun e => { e with doomed := true })) ∧
      (∃ u, exec (.clear port) s = .next u ∧ u = { s with ing := { s.ing with cache := u.ing.cache } } ∧
        (s.building = [] → u.ing.cache = []) ∧
        ∀ id, alGet u.ing.cache id =
          if s.building.contains id = true then (alGet s.ing.cache id).map fun e => { e with doomed := true } else none)) ∧
    (∀ c u, ((∃ reply, c = .depotBatchBuild p reply) ∨ c = .missTmoExpiry p) → exec c s = .next u →
      onlyIngest s u ∧ u.ing.cams = s.ing.cams ∧ u.ing.scats = s.ing.scats ∧ u.ing.vdecs = s.ing.vdecs ∧
        u.ing.cache = s.ing.cache)

/-- Decoders. TAIL is what its write says. A descriptor that is read moves HEAD on; bad fields give 0x010B, data that cannot be read
the status of their read, both written back with no picture; a picture beyond the budget resets the stream with 0x0109, one of too
few bytes with 0x010A; a raw picture waits for its output; without a random access point a stream that has reset decodes nothing; a
unit that decodes queues its pictures, and an error makes the chain corrupt. A descriptor of KIND 2 outputs the pictures that wait,
resets the stream and writes their number back. The first picture that waits leaves, to the cache or its alignment stream, and the
last one of a descriptor writes its status and count back. The model's choices in it: log entry 52. -/
def Obligations.DecoderStreams : Prop :=
  ∀ (s : State) (p : Port) (st : Fin 64) (v : VdecSt), s.ing.vdecs[st.val]? = some v →
    (∀ (q : Nat) (x : Word), admits s p (vdecKey st 0x10) → s.vdecOwner st = some q → s.bound q p = true →
      ∃ u, exec (.vdecStrTail p st x) s = .next u ∧ u.rv (vdecKey st 0x10) = x.toNat % 65536 ∧
        (∀ k, k ≠ vdecKey st 0x10 → u.rv k = s.rv k) ∧ u = { s with regs := { s.regs with vdec := u.regs.vdec } }) ∧
    (∀ desc data refs, s.vdecDue st = none →
      exec (.accessUnit st desc data refs) s = .next s ∧ exec (.endOfStream st desc) s = .next s) ∧
    (∀ q desc b, (∀ y ∈ s.regs.vdec.caps, y.isOf 7 st = false) → s.vdecDue st = some q →
      s.fetchPlace q (placeOf (s.vdecAddr st)) 64 desc = (b, 0) →
      (∀ data refs status, (auCheck b ≠ 0 ∧ status = 0x010B ∨ auCheck b = 0 ∧ leAt b 0 1 = 1 ∧ status ≠ 0 ∧
          ∃ bytes, s.fetchPlace q (placeOf (leAt b 8 8)) (leAt b 4 4) data = (bytes, status)) →
        ∃ u, exec (.accessUnit st desc data refs) s = .next u ∧ u.ing = s.ing ∧
          u.rv (vdecKey st 0x14) = (s.vdecHead st + 1) % 2 ^ s.vdecLog st ∧
          u.rv (vdecKey st 0x1C) = leAt b 0x20 4 % 2 ^ 32 ∧ tbit (u.rv (vdecKey st 0x20)) 0 = true ∧
          ∀ o base size, placeOf (s.vdecAddr st) = .dram o → s.dramOf q = some (base, size) →
            (∀ i, i < 8 → u.dram.mem.read (base + (o + 0x38) + i) = (natLe 2 status ++ natLe 2 0 ++ natLe 4 1).getD i 0) ∧
            dramOnly s u [⟨base + (o + 0x38), 8⟩]) ∧
      (∀ data refs bytes, auCheck b = 0 → leAt b 0 1 = 1 → s.fetchPlace q (placeOf (leAt b 8 8)) (leAt b 4 4) data = (bytes, 0) →
        (s.codec st = 4 →
          let w := leAt b 0x24 2
          let h := leAt b 0x26 2
          let fits := s.dimsOk st w h
          let enough := w * h * [2, 4, 3, 6].getD (field (s.rv (vdecKey st 0)) 8 2) 0 ≤ 2 * leAt b 4 4
          (∀ why, (fits = false ∧ why = 0x0109 ∨ fits = true ∧ ¬ enough ∧ why = 0x010A) →
            ∃ u, exec (.accessUnit st desc data refs) s = .next u ∧ tbit (u.rv (vdecKey st 0x20)) 2 = true ∧
              u.ing.vdecs[st.val]? = some (vdecAnew v why)) ∧
          (fits = true → enough →
            ∃ u, exec (.accessUnit st desc data refs) s = .next u ∧
              u.rv (vdecKey st 0x14) = (s.vdecHead st + 1) % 2 ^ s.vdecLog st ∧
              u.ing.vdecs[st.val]? = some { v with
                state := 2,
                queue := v.queue ++ [⟨rawPicture (field (s.rv (vdecKey st 0)) 8 2) w h bytes, 0,
                  if leAt b 0x10 8 = 0 then s.now else s.fullTs (leAt b 0x10 8), leAt b 0x20 4,
                  if tbit (leAt b 1 1) 0 then some (leAt b 0x18 8) else none, s.vdecAddr st, some 1,
                  s.stageWords (vdecKey st 0x100), s.streamOf 3 st, q⟩] })) ∧
        (s.codec st ≠ 4 →
          let d := s.decoded st bytes refs
          (∀ h, d.seq = some h → s.seqCheck st h ≠ 0 → ∃ u, exec (.accessUnit st desc data refs) s = .next u ∧
            u.ing.vdecs[st.val]? = some (vdecAnew v (s.seqCheck st h))) ∧
          ((∀ h, d.seq = some h → s.seqCheck st h = 0) → v.state ≠ 2 → (d.begins = false ∨ d.seq = none) → ∃ u, exec (.accessUnit st desc data refs) s = .next u ∧
            u.ing.vdecs[st.val]? = some { v with state := 1 } ∧ u.rv (vdecKey st 0x1C) = leAt b 0x20 4 % 2 ^ 32) ∧
          ((∀ h, d.seq = some h → s.seqCheck st h = 0) → (v.state = 2 ∨ d.begins = true ∧ d.seq.isSome = true) →
            ∃ u y, exec (.accessUnit st desc data refs) s = .next u ∧ u.ing.vdecs[st.val]? = some y ∧ y.state = 2 ∧
              y.units = v.units ++ [bytes] ∧ (d.error = true → y.corruptChain = true) ∧
              (d.error = false → v.corruptChain = false → y.corruptChain = false) ∧
              (d.seq = none → y.seq = v.seq ∧ y.refBytes = v.refBytes) ∧
              (∀ h, d.seq = some h → y.seq = some h ∧ y.refBytes = seqNeeds h) ∧
              ∀ h, y.seq = some h → y.queue.length = v.queue.length + d.pics.length ∧
                ∀ x ∈ d.pics, ∃ z ∈ y.queue, z.pic = seqPicture h x ∧ z.owner = q ∧ z.route = s.streamOf 3 st))) ∧
      (auCheck b = 0 → leAt b 0 1 = 2 →
        (∀ data refs, exec (.accessUnit st desc data refs) s = .next s) ∧
        ∃ u, exec (.endOfStream st desc) s = .next u ∧ tbit (u.rv (vdecKey st 0x20)) 2 = true ∧
          u.rv (vdecKey st 0x14) = (s.vdecHead st + 1) % 2 ^ s.vdecLog st ∧ u.rv (vdecKey st 0x1C) = leAt b 0x20 4 % 2 ^ 32 ∧
          u.ctr (vdecKey st 0x28) = (s.ctr (vdecKey st 0x28) + v.queue.length) % two64 ∧
          u.ing.cache = (v.queue.foldl (fun t x => match x.sampleId with
            | some id => (t.cacheInsert id x).2
            | none => t) s).ing.cache ∧
          (∀ o base size, placeOf (s.vdecAddr st) = .dram o → s.dramOf q = some (base, size) → ∀ i, i < 8 →
            u.dram.mem.read (base + (o + 0x38) + i) = (natLe 2 0 ++ natLe 2 v.queue.length ++ natLe 4 1).getD i 0) ∧
          u.ing.vdecs[st.val]? = some (vdecAnew { v with queue := [] } 0))) ∧
    (v.queue = [] → exec (.pictureDone st) s = .next s) ∧
    (∀ x l, v.queue = x :: l → ∃ u, exec (.pictureDone st) s = .next u ∧
      u.ing.vdecs[st.val]? = some { v with queue := l } ∧ u.ctr (vdecKey st 0x28) = (s.ctr (vdecKey st 0x28) + 1) % two64 ∧
      (∀ id, x.sampleId = some id → alGet s.ing.cache id = none →
        (s.ing.cache.map fun c => c.2.units).sum + x.pic.units ≤ s.cacheMiB * 16 →
        alGet u.ing.cache id = some ⟨x.pic, x.ts, x.status, x.pic.units, false⟩) ∧
      (∀ id, x.sampleId = some id → ((alGet s.ing.cache id).isSome = true ∨
        s.cacheMiB * 16 < (s.ing.cache.map fun c => c.2.units).sum + x.pic.units) → u.ing.cache = s.ing.cache) ∧
      (∀ a r y, x.sampleId = none → x.route = some a → s.ringOf a = some r → s.ing.streams[a]? = some y →
        u.ing.streams[a]? = some { y with nextSeq := (y.nextSeq + 1) % 2 ^ 32, cut := false }) ∧
      (∀ n o base size, x.lastOf = some n → placeOf x.wbAddr = .dram o → s.dramOf x.owner = some (base, size) → o + 64 ≤ size →
        let status := match x.sampleId with
          | some id => (s.cacheInsert id x).1
          | none => x.status
        u.rv (vdecKey st 0x1C) = x.tag % 2 ^ 32 ∧ tbit (u.rv (vdecKey st 0x20)) 0 = true ∧
        (∀ i, i < 8 → u.dram.mem.read (base + (o + 0x38) + i) = (natLe 2 status ++ natLe 2 n ++ natLe 4 1).getD i 0) ∧
        dramOnly s u [⟨base + (o + 0x38), 8⟩])) ∧
    (∀ c u, ((∃ desc data refs, c = .accessUnit st desc data refs) ∨ (∃ desc, c = .endOfStream st desc) ∨ c = .pictureDone st) →
      exec c s = .next u → onlyIngest s u ∧ u.ing.cams = s.ing.cams ∧ u.ing.scats = s.ing.scats ∧ u.comp = s.comp ∧
        ∀ m : Nat, m ≠ st.val → u.ing.vdecs[m]? = s.ing.vdecs[m]?)

/-! ### Safety -/

/-- The safety island. An evaluation, which takes place on a multiple of 1 µs, ages every active monitor, and the first one to exceed its limit where it escalates makes the
entry due; the entry takes the first cause and its instant, stops the heartbeat, counts, and makes the safe-state frame pending;
the frame repeats while the safe state lasts. ENTER, with a record of the instant, and a readback that differs are causes, and
ENTER from a port that may not write the SAFE block is a bus error; a kick restarts the guard's time, and
the guard acts at once, with a safe-state frame of its own cause. The loss of the oscillator stops the heartbeat and leaves the time
base coarse and FREE, and without it the island neither evaluates nor kicks.
The model's choices in it: log entries 6, 75, 79, 81, 86. -/
def Obligations.SafetyIsland : Prop :=
  ∀ (s : State) (p : Port),
    (s.drive = false ∨ s.boot.refOsc = false ∨ s.onMicro = false → exec .ageEvaluation s = .next s) ∧
    (s.drive = true → s.boot.refOsc = true → s.onMicro = true → (∀ y ∈ s.regs.safe.caps, groupOf y.key ≠ 15) → ∃ u, exec .ageEvaluation s = .next u ∧ u.safe.state = s.safe.state ∧ u.safe.heartbeat = s.safe.heartbeat ∧
      ∀ m x, m < 256 → alGet s.safe.mons m = some x →
        let age := tdiff s.now x.ts
        let late := decide ((s.monLimit m * 1000 : Nat) < age)
        alGet u.safe.mons m = some { x with
          exceeded := late, caused := late && (x.caused || s.esc m), age := if age < 0 then 0 else min (age.toNat / 1000) 0xFFFFFFFF } ∧
        (late = true → x.caused = false → s.esc m = true → s.safe.state = 1 → s.safe.entryDue = none →
          u.safe.entryDue = some (0, s.now))) ∧
    (s.safe.entryDue = none → exec .safeStateEntry s = .next s) ∧
    (s.safe.state ≠ 1 → exec .safeStateEntry s = .next { s with safe := { s.safe with entryDue := none } }) ∧
    (∀ c ts, s.safe.entryDue = some (c, ts) → s.safe.state = 1 → ∃ u, exec .safeStateEntry s = .next u ∧
      u.safe = { s.safe with state := 2, cause := c, entryTs := ts, entryCnt := (s.safe.entryCnt + 1) % 2 ^ 32, repeatNo := 0,
                             entryDue := none, heartbeat := false } ∧
      tbit (u.rv 0x200020) 0 = true ∧ (s.safe.heartbeat = true → .deadbolt false ∈ u.out) ∧
      ∀ i e x, s.ward.image = some i → i.safety = some e → s.can[e.safeCan]? = some x →
        u.can[e.safeCan]? = some { x with safe := some (safeFrame e c ts 0) }) ∧
    (s.safe.state ≠ 2 → exec .safeFrameRepeat s = .next s) ∧
    (s.safe.state = 2 → ∃ u, exec .safeFrameRepeat s = .next u ∧
      u.safe = { s.safe with repeatNo := (s.safe.repeatNo + 1) % 256 } ∧
      ∀ i e x, s.ward.image = some i → i.safety = some e → s.can[e.safeCan]? = some x →
        u.can[e.safeCan]? = some { x with
          safe := some (safeFrame e s.safe.cause s.safe.entryTs ((s.safe.repeatNo + 1) % 256)) }) ∧
    (s.safe.heartbeat = true → ∃ u, exec (.deadboltReadback true) s = .next u ∧ 5 ∈ u.safe.hard ∧
      ⟨2, 0xFF, 0x0415, s.now⟩ ∈ u.safe.flog) ∧
    exec (.deadboltReadback false) s = .next s ∧
    (∀ v : Word, admits s p 0x200004 →
      (s.isSafetyPort p = true → ∃ u, exec (.enter p v) s = .next u ∧ ⟨2, 0xFF, 0x0414, s.now⟩ ∈ u.safe.flog ∧
        u.safe.state = s.safe.state ∧ u.safe.heartbeat = s.safe.heartbeat ∧
        ((s.drive = false ∨ s.safe.state ≠ 1 ∨ s.safe.entryDue ≠ none) → u.safe.entryDue = s.safe.entryDue)) ∧
      (s.isSafetyPort p = false → ∃ u, exec (.enter p v) s = .next u ∧ busErrorOn s u p 0 3 0x200004)) ∧
    exec .guardKick s = .next (if s.boot.refOsc = true then { s with safe := { s.safe with lastKick := s.time.safeClk } } else s) ∧
    (∀ c k, c = .guardTimeout ∧ k = 7 ∨ c = .islandLockstepTrip ∧ k = 6 → ∃ u, exec c s = .next u ∧
      u.safe.heartbeat = false ∧ k ∈ u.safe.hard ∧ ⟨2, 0xFF, 0x0410 + k, s.now⟩ ∈ u.safe.flog ∧
      (s.drive = true → s.safe.state = 1 → s.safe.entryDue = none →
        u.safe.state = 2 ∧ u.safe.cause = k ∧ u.safe.entryTs = s.now ∧ u.safe.entryCnt = (s.safe.entryCnt + 1) % 2 ^ 32) ∧
      ∀ i e x, s.ward.image = some i → i.safety = some e → s.can[e.safeCan]? = some x →
        u.can[e.safeCan]? = some { x with safe := some (safeFrame e k s.now 0) }) ∧
    (∃ u, exec .referenceOscillatorStop s = .next u ∧ u.safe.heartbeat = false ∧ u.boot = { s.boot with refOsc := false } ∧
      u.pwr = { s.pwr with oscLost := true } ∧ u.time = { s.time with coarse := true, mode := .free, inSync := false } ∧
      (s.pwr.oscLost = false → ⟨2, 0xFF, 0x0418, s.now⟩ ∈ u.safe.flog)) ∧
    (admits s p 0x2400C0 →
      (∃ u, exec (.safeMemCounterClear p) s = .next u ∧ u = { s with regs := { s.regs with safe := u.regs.safe } } ∧
        (∀ i, i < 40 → u.rv (0x240000 + 4 * i) = 0) ∧ ∀ k, k < 0x240000 ∨ 0x2400A0 ≤ k → u.rv k = s.rv k) ∧
      (∃ u, exec (.safeMemLogClear p) s = .next u ∧ u = { s with regs := { s.regs with safe := u.regs.safe } } ∧
        (∀ i, i < 6 → u.rv (0x2400A0 + 4 * i) = 0) ∧ ∀ k, k < 0x2400A0 ∨ 0x2400B8 ≤ k → u.rv k = s.rv k)) ∧
    (∀ c u, c ∈ [Instr.ageEvaluation, .safeStateEntry, .safeFrameRepeat, .deadboltReadback true, .guardKick, .guardTimeout,
        .islandLockstepTrip] → exec c s = .next u →
      u = { s with safe := u.safe, out := u.out, can := u.can,
                   regs := { s.regs with global := u.regs.global, safe := u.regs.safe, pci := u.regs.pci } })

/-- ENTER in SAFE_CMD, whatever the value written, makes the entry into the safe state due with cause 0x0414 where the state is
RUNNING and no other cause came first, and the module then enters it with that cause. It takes no KEY. -/
def Obligations.EnterIsACause : Prop :=
  ∀ (s : State) (p : Port) (v : Word), admits s p 0x200004 → s.isSafetyPort p = true → s.drive = true → s.safe.state = 1 →
    s.safe.entryDue = none →
    ∃ u w, exec (.enter p v) s = .next u ∧ u.safe.entryDue = some (4, s.now) ∧
      exec .safeStateEntry u = .next w ∧ w.safe.state = 2 ∧ w.safe.cause = 4

/-- RESUME leaves the safe state, with its key and with no cause standing, and arms the deadbolt after readiness under a drive image
with the time base out of FREE; else it is refused and nothing of the island changes.
The model's choices in it: log entry 80. -/
def Obligations.ResumeLeavesTheSafeState : Prop :=
  ∀ (s : State) (p : Port) (v : Word), admits s p 0x200004 → s.isSafetyPort p = true →
    (s.safe.state = 2 → field v.toNat 16 16 = s.safe.entryCnt % 2 ^ 16 → s.anyStanding = false →
      ∃ u, exec (.resume p v) s = .next u ∧ u.safe = { s.safe with state := 1, heartbeat := true } ∧
        .deadbolt true ∈ u.out ∧ tbit (u.rv 0x200020) 1 = true ∧ u.can = s.can) ∧
    (s.safe.state = 0 → s.drive = true → s.boot.ready = true → s.time.mode ≠ .free →
      field v.toNat 16 16 = s.safe.entryCnt % 2 ^ 16 → s.anyStanding = false →
      exec (.resume p v) s = .next { s with safe := { s.safe with state := 1, heartbeat := true }, out := s.out ++ [.deadbolt true] }) ∧
    (s.safe.state ≠ 2 ∧ s.safe.state ≠ 0 ∨ field v.toNat 16 16 ≠ s.safe.entryCnt % 2 ^ 16 ∨ s.anyStanding = true ∨
        s.safe.state = 0 ∧ (s.drive = false ∨ s.time.mode = .free ∨ s.boot.ready = false) →
      ∃ u, exec (.resume p v) s = .next u ∧ u.safe = s.safe ∧ tbit (u.rv 0x200020) 7 = true)

/-- Test keys. At the end of an interval a tested unit that has not passed lapses, which is the cause 0x0411 where the plan says so,
and the next plan begins with every unit untested; a unit that stays lapsed is that cause as soon as a plan says so. A slot reserves
its core and wakes its domain; a granule that may start runs, with banks 62 and 63 of a core open; one is abandoned for a
safety-relevant step that is ready, and leaves those banks as the test does; a match counts and the last one passes the unit and ends
its lapse; a first mismatch runs it again and a second one takes the unit out of service with 0x0420. A pair that is identified loses
the cores that fail, and both after a third transient in 1 s. The model's choices in it: log entries 6, 27, 46. -/
def Obligations.TestKeys : Prop :=
  ∀ (s : State) (n : UnitIx) (t : TestSt), s.safe.units[n.val]? = some t →
    (s.safe.running = false ∨ s.boot.refOsc = false → exec .intervalEnd s = .next s) ∧
    (s.safe.running = true → s.boot.refOsc = true → ∃ u, exec .intervalEnd s = .next u ∧ u.safe.interval = (s.safe.interval + 1) % 2 ^ 32 ∧
      u.safe.plan = s.safe.nextPlan ∧ u.safe.running = s.safe.nextPlan.isSome ∧
      u.safe.units[n.val]? = some { t with
        enabled := planTests s.safe.nextPlan n && !t.oos, doneGranules := 0, running := false, mismatched := false, passed := false,
        inSlot := false, lapsed := (t.lapsed || (t.enabled && !t.oos && !t.passed)) && planTests s.safe.nextPlan n && !t.oos,
        opened := if t.running = true then [] else t.opened } ∧
      (t.enabled = true → t.oos = false → t.passed = false → t.lapsed = false → tbit (u.rv 0x200020) 3 = true ∧
        ∀ e, s.safe.plan = some e → e.lapsePolicy = 1 → s.drive = true → s.safe.state = 1 →
          s.safe.entryDue = none → u.safe.entryDue = some (1, s.now)) ∧
      (t.lapsed = true → t.oos = false → planTests s.safe.nextPlan n = true → lapseIsCause s.safe.plan = false →
        lapseIsCause s.safe.nextPlan = true → s.drive = true → s.safe.state = 1 → s.safe.entryDue = none →
        u.safe.entryDue = some (1, s.now))) ∧
    (∀ (h : n.val < 16) d, s.safe.running = true → t.enabled = true → s.pwr.doms[13 + n.val]? = some d →
      exec (.slotStart ⟨n.val, h⟩) s = .next { s with
        safe := { s.safe with units := s.safe.units.set n { t with inSlot := true } }
        pwr := { s.pwr with doms := s.pwr.doms.set (13 + n.val) d.wake } }) ∧
    (∀ h : n.val < 16, exec (.slotEnd ⟨n.val, h⟩) s = .next { s with
      safe := { s.safe with units := s.safe.units.set n { t with inSlot := false } } }) ∧
    (s.granuleDue n = false → exec (.granuleStart n) s = .next s) ∧
    (s.granuleDue n = true → 16 ≤ n.val → exec (.granuleStart n) s = .next { s with
      safe := { s.safe with units := s.safe.units.set n { t with running := true, opened := [] } } }) ∧
    (∀ c, s.granuleDue n = true → n.val < 16 → s.comp.cores[n.val]? = some c → exec (.granuleStart n) s = .next { s with
      safe := { s.safe with
        units := s.safe.units.set n { t with running := true, opened := testBanks.filter fun b => c.pad.banks.getD b .on == .off } }
      comp := { s.comp with cores := s.comp.cores.set n { c with pad := c.pad.openTest } } }) ∧
    (s.safetyReady n = false ∨ t.running = false → exec (.granuleAbandon n) s = .next s) ∧
    (s.safetyReady n = true → t.running = true →
      (16 ≤ n.val → exec (.granuleAbandon n) s = .next { s with
        safe := { s.safe with units := s.safe.units.set n { t with running := false, opened := [] } } }) ∧
      (∀ c, n.val < 16 → s.comp.cores[n.val]? = some c → exec (.granuleAbandon n) s = .next { s with
        safe := { s.safe with units := s.safe.units.set n { t with running := false, opened := [] } }
        comp := { s.comp with cores := s.comp.cores.set n { c with pad := c.pad.afterTest t.opened s.fresh } }
        fresh := s.fresh + 1 })) ∧
    (t.running = false → ∀ b, exec (.granuleDone n b) s = .next s) ∧
    (t.running = true →
      (∃ u, exec (.granuleDone n false) s = .next u ∧ u.safe = { s.safe with units := s.safe.units.set n { t with
          running := false, opened := [], mismatched := false, doneGranules := min (t.doneGranules + 1) (granulesOf n)
          passed := t.passed || decide (granulesOf n ≤ t.doneGranules + 1)
          lapsed := t.lapsed && !decide (granulesOf n ≤ t.doneGranules + 1) } } ∧ u.rv 0x210080 = s.rv 0x210080) ∧
      (t.mismatched = false → ∃ u, exec (.granuleDone n true) s = .next u ∧
        u.safe = { s.safe with units := s.safe.units.set n { t with running := false, opened := [], mismatched := true } } ∧
        u.rv 0x210080 = min (s.rv 0x210080 + 1) 0xFFFFFFFF) ∧
      (t.mismatched = true → t.oos = false → ∃ u, exec (.granuleDone n true) s = .next u ∧
        (u.safe.units[n.val]?.map (·.oos)) = some true ∧ ⟨1, n.val, 0x0420, s.now⟩ ∈ u.safe.flog ∧
        tbit (u.rv 0x200020) 4 = true ∧ tbit (u.rv 0x200020) 6 = true ∧ u.safe.state = s.safe.state)) ∧
    (∀ (k : Fin 8), n.val / 2 = k.val →
      (s.safe.identifying.contains k.val = false → ∀ e o, exec (.pairIdentificationDone k e o) s = .next s) ∧
      (s.safe.identifying.contains k.val = true → t.oos = false →
        (∀ e o, (if n.val % 2 = 0 then e else o) = true → ∃ u, exec (.pairIdentificationDone k e o) s = .next u ∧
          (u.safe.units[n.val]?.map (·.oos)) = some true ∧ u.safe.identifying.contains k.val = false) ∧
        (s.safe.transients = [] → ∃ u, exec (.pairIdentificationDone k false false) s = .next u ∧
          u.safe.units = s.safe.units ∧ u.safe.transients = [(k.val, s.time.safeClk)] ∧
          ⟨0, 2 * k.val, 0x0421, s.now⟩ ∈ u.safe.flog) ∧
        (∀ a b, s.safe.transients = [(k.val, a), (k.val, b)] → s.time.safeClk ≤ a + 1000000000 →
          s.time.safeClk ≤ b + 1000000000 → ∃ u, exec (.pairIdentificationDone k false false) s = .next u ∧
            (u.safe.units[n.val]?.map (·.oos)) = some true)))

/-! ### Security -/

/-- The mailbox, from the configuration master. BEGIN with an acceptable length starts a new staging; a chunk within bounds is
copied to its place, and each ends with its status and MB_DONE; ABORT discards; ENROL and FW_UPDATE on a complete staging make the mailbox busy, on an incomplete one
they end with REFUSED; a command while it is busy is refused and the staging stands. The end of ENROL and of FW_UPDATE. A
record that passes its checks puts its key into its slot, or erases it, and raises the enrolment counter; one that fails
changes no slot and no counter. A package that passes goes to the bank that does not run, which is preferred from then on;
one that fails changes no bank. The advance behind a switch raises the counter of its profile, never lowering it; where the
write fails the counter is its old value or its new one, unknown until it is read, and WARD_ERROR reports 0x0002. A package whose
checks have come to counter 0 waits its turn behind what came to the engine earlier. Without the root key no record is judged, and
without the reference oscillator the engine does nothing. The model's choices in it: log entries 20, 21, 68, 69. -/
def Obligations.MailboxAndTrust : Prop :=
  (∀ (s : State) (p : Port), admitsMaster s p 0x300200 →
     (s.sec.mb.state ≠ 2 →
       (s.rv 0x300204 % 8 = 0 → 8 ≤ s.rv 0x300204 → s.rv 0x300204 ≤ 4194304 →
         ∃ u, exec (.mbBegin p) s = .next u ∧ tbit (u.rv (portKey s.master 0x300004)) 1 = true ∧
           u.sec = { s.sec with mb := { s.sec.mb with
             state := 1, status := 0, total := s.rv 0x300204, staging := .zero, covered := [], busyCopy := false } }) ∧
       (s.rv 0x300204 % 8 ≠ 0 ∨ s.rv 0x300204 < 8 ∨ 4194304 < s.rv 0x300204 → ∃ u, exec (.mbBegin p) s = .next u ∧
         u.sec.mb.state = 0 ∧ u.sec.mb.covered = [] ∧ u.sec.mb.status = 0x0605 ∧ tbit (u.rv (portKey s.master 0x300004)) 1 = true)) ∧
     (s.sec.mb.state = 1 → s.sec.mb.busyCopy = false →
       (chunkOk (s.rv 0x300208) (s.rv 0x30020C) s.sec.mb.total = true →
         ∃ u w, exec (.mbChunk p) s = .next u ∧
           u = { s with sec := { s.sec with mb := { s.sec.mb with busyCopy := true, chunk := (s.rv 0x300208, s.rv 0x30020C) } } } ∧
           (s.boot.refOsc = true → exec .mbChunkCopyDone u = .next w) ∧ w.sec.mb.busyCopy = false ∧ w.sec.mb.status = 0 ∧
           w.sec.mb.covered = s.sec.mb.covered ++ [(s.rv 0x300208, s.rv 0x30020C)] ∧
           (∀ i, i < s.rv 0x30020C → w.sec.mb.staging.read (s.rv 0x300208 + i) = s.sec.mb.aperture.read i) ∧
           (∀ a, a < s.rv 0x300208 ∨ s.rv 0x300208 + s.rv 0x30020C ≤ a → w.sec.mb.staging.read a = s.sec.mb.staging.read a) ∧
           w = { s with sec := w.sec, out := w.out, fresh := w.fresh,
                        regs := { s.regs with sec := w.regs.sec, pci := w.regs.pci } }) ∧
       (chunkOk (s.rv 0x300208) (s.rv 0x30020C) s.sec.mb.total = false →
         ∃ u, exec (.mbChunk p) s = .next u ∧ u.sec = { s.sec with mb := { s.sec.mb with status := 0x0602 } }) ∧
       (∃ u, exec (.mbAbort p) s = .next u ∧ u.sec.mb.state = 0 ∧ u.sec.mb.covered = [] ∧ u.sec.mb.status = 0 ∧
         u.sec.slots = s.sec.slots ∧ u.sec.banks = s.sec.banks) ∧
       (s.sec.mb.total = 160 → fullyCovered s.sec.mb.covered 160 = true →
         ∃ u, exec (.enrol p) s = .next u ∧ u.sec.mb = { s.sec.mb with state := 2 } ∧
           u.sec.engine.length = s.sec.engine.length + 1 ∧ u.sec.engine.getLast? = some (.enrol s.master) ∧ u.regs = s.regs) ∧
       (fullyCovered s.sec.mb.covered s.sec.mb.total = false → ∀ c, c = .enrol p ∨ c = .fwUpdate p →
         ∃ u, exec c s = .next u ∧ u.sec = { s.sec with mb := { s.sec.mb with state := 0, status := 0x0520 } }) ∧
       (s.sec.mb.total = leNat (s.sec.mb.staging.readBytes 8 4) → fullyCovered s.sec.mb.covered s.sec.mb.total = true →
         exec (.fwUpdate p) s = .next { s with sec := { s.sec with mb := { s.sec.mb with state := 2 } } })) ∧
     (s.sec.mb.state = 2 → ∀ c, c ∈ [Instr.mbBegin p, .mbChunk p, .mbAbort p, .enrol p, .fwUpdate p] →
       ∃ u, exec c s = .next u ∧ u.sec = { s.sec with mb := { s.sec.mb with status := 0x0520 } } ∧
         tbit (u.rv (portKey s.master 0x300004)) 1 = true ∧ u.ward = s.ward ∧ u.safe = s.safe)) ∧
  (∀ s : State, (s.boot.refOsc = false ∨ s.sec.mb.busyCopy = false → exec .mbChunkCopyDone s = .next s) ∧
     (s.boot.refOsc = true → s.sec.mb.busyCopy = true → ∃ u, exec .mbChunkCopyDone s = .next u ∧
       tbit (u.rv (portKey s.master 0x300004)) 1 = true ∧ u.sec = { s.sec with mb := { s.sec.mb with
         busyCopy := false, staging := s.sec.mb.staging.writeBytes s.sec.mb.chunk.1 (s.sec.mb.aperture.readBytes 0 s.sec.mb.chunk.2),
         covered := s.sec.mb.covered ++ [s.sec.mb.chunk], status := 0 } })) ∧
  (∀ s : State,
     (s.boot.refOsc = false → ∀ c, (c = .attestationDone ∨ (∃ x, c = .enrolComplete x) ∨ (∃ x, c = .fwUpdateComplete x) ∨
       ∃ x, c = .antiRollbackAdvance x) → exec c s = .next s) ∧
     (s.sec.puf ≠ 1 → ∀ ok w, exec (.enrolComplete ⟨ok, w⟩) s = .next s ∧ exec (.fwUpdateComplete ok) s = .next s)) ∧
  (∀ s : State, s.boot.refOsc = true →
     (∀ q rest ok w, s.sec.engine = .enrol q :: rest → s.sec.puf = 1 →
       let b := s.sec.mb.bytes
       (s.sec.enrolCheck b ok ≠ 0 → ∃ u, exec (.enrolComplete ⟨ok, w⟩) s = .next u ∧ u.sec.slots = s.sec.slots ∧
         u.sec.counters = s.sec.counters ∧ u.sec.banks = s.sec.banks ∧ u.sec.mb.state = 0 ∧
         u.sec.mb.status = s.sec.enrolCheck b ok) ∧
       (s.sec.enrolCheck b ok = 0 → ∃ u, exec (.enrolComplete ⟨ok, w⟩) s = .next u ∧
         u.sec.slots = s.sec.slots.set (leAt b 5 1 - 1)
           (if leAt b 4 1 = 1 then some (leAt b 0x20 32, leAt b 0x40 32) else none) ∧
         (∀ x, s.sec.counters[3]? = some x → u.sec.counters = s.sec.counters.set 3 (max x (leAt b 8 4 % 2 ^ 32)) ∨
           (w = false ∧ u.sec.counters = s.sec.counters)) ∧ (w = false → 3 ∈ u.sec.unknown) ∧
         u.sec.banks = s.sec.banks ∧ u.sec.mb.state = 0 ∧ u.sec.mb.status = 0)) ∧
     (∀ ok, s.sec.mb.state = 2 → s.sec.enrolling = false → s.sec.puf = 1 →
       let b := s.sec.mb.bytes
       let pass := s.sec.fwCheck b ok = 0
       let turn := s.sec.engine = [] ∨ readsCounter (s.sec.fwCheck b ok) = false ∨ s.sec.engine.head? = some .firmware
       (¬turn → s.sec.engine.contains .firmware = false → ∃ u, exec (.fwUpdateComplete ok) s = .next u ∧ u.sec.mb = s.sec.mb ∧
         u.sec.banks = s.sec.banks ∧ u.sec.engine.length = s.sec.engine.length + 1 ∧ u.sec.engine.getLast? = some .firmware) ∧
       (¬turn → s.sec.engine.contains .firmware = true → exec (.fwUpdateComplete ok) s = .next s) ∧
       (turn → ∃ u, exec (.fwUpdateComplete ok) s = .next u ∧ u.sec.mb.state = 0 ∧ u.sec.mb.status = s.sec.fwCheck b ok ∧
         u.sec.bank = s.sec.bank ∧ u.sec.counters = s.sec.counters ∧ u.sec.slots = s.sec.slots ∧
         (pass → u.sec.banks = s.sec.banks.set (1 - s.sec.bank) (some b) ∧ u.sec.preferred = 1 - s.sec.bank) ∧
         (¬pass → u.sec.banks = s.sec.banks ∧ u.sec.preferred = s.sec.preferred))) ∧
     (∀ c v x, s.sec.engine = [.advance c v] → s.sec.counters[c]? = some x →
       (∃ u, exec (.antiRollbackAdvance true) s = .next u ∧ u.sec.counters = s.sec.counters.set c (max x (v % 2 ^ 32)) ∧
         u.sec.engine = [] ∧ u.ward = s.ward) ∧
       (∃ u, exec (.antiRollbackAdvance false) s = .next u ∧ c ∈ u.sec.unknown ∧ u.ward = s.ward ∧
         (u.sec.counters = s.sec.counters ∨ u.sec.counters = s.sec.counters.set c (max x (v % 2 ^ 32))) ∧
         u.rv 0x100014 = 0x0002 * 2 ^ 16)))

/-- Attestation and measurements. GO captures the report of the port where the engine is free; a port whose report is under way, or a
module without its root key or its firmware, is refused; the report that is done stands in the port's registers, signed under the
identity key, with its event. A
measurement extends the register of a partition that the port is bound to by SM3 of the old value and the new one, and counts.
The model's choices in it: log entries 2, 3, 70. -/
def Obligations.AttestationAndMeasurement : Prop :=
  ∀ (s : State) (p : Port),
    (admits s p 0x300120 → ∀ v : Word,
      (v.toNat % 2 = 0 → exec (.attestationGo p v) s = .next s) ∧
      (v.toNat % 2 = 1 → tbit (s.rv (portKey p 0x300124)) 0 = true ∨ s.sec.puf ≠ 1 ∨ s.sec.fwRunning = false →
        ∃ u, exec (.attestationGo p v) s = .next u ∧ u.sec = s.sec ∧ field (u.rv (portKey p 0x300124)) 16 16 = 0x0520) ∧
      (v.toNat % 2 = 1 → tbit (s.rv (portKey p 0x300124)) 0 = false → s.sec.puf = 1 → s.sec.fwRunning = true →
        ∃ u, exec (.attestationGo p v) s = .next u ∧ u.rv (portKey p 0x300124) = 1 ∧
          u.sec = { s.sec with engine := u.sec.engine } ∧ u.sec.engine.length = s.sec.engine.length + 1 ∧
          u.sec.engine.getLast? = some (.attest p (if s.sec.engine = [] then s.report p else [])))) ∧
    (∀ q rep rest, s.boot.refOsc = true → s.sec.engine = .attest q rep :: rest → rep.length = 640 → ∃ u, exec .attestationDone s = .next u ∧
      u.rv (portKey q 0x300124) = 2 ∧ tbit (u.rv (portKey q 0x300004)) 0 = true ∧
      (∀ i, i < 160 → u.rv (portKey q (0x330000 + 4 * i)) = leAt rep (4 * i) 4) ∧
      (∀ i, i < 8 →
        let sig := identitySign rep ((List.range 8).map fun j => Config.freeNat (s.fresh + j))
        u.rv (portKey q (0x330280 + 4 * i)) = sig.1 / 2 ^ (32 * i) % 2 ^ 32 ∧
        u.rv (portKey q (0x3302A0 + 4 * i)) = sig.2 / 2 ^ (32 * i) % 2 ^ 32) ∧ u.sec.engine.length = rest.length ∧
      u.sec.counters = s.sec.counters ∧ u.ward = s.ward) ∧
    ((∀ q rep, s.sec.engine.head? ≠ some (.attest q rep)) → exec .attestationDone s = .next s) ∧
    (admits s p 0x300320 → ∀ v : Word, s.bound (field v.toNat 0 3) p = true →
      let k := 0x300400 + 0x20 * field v.toNat 0 3
      (tbit v.toNat 31 = false → exec (.measurementGo p v) s = .next s) ∧
      (tbit v.toNat 31 = true → ∃ u, exec (.measurementGo p v) s = .next u ∧
        (∀ i, i < 8 → u.rv (k + 4 * i) = leAt (sm3 (s.regBytes k 8 ++ s.regBytes (portKey p 0x300300) 8)) (4 * i) 4) ∧
        u.rv (0x300500 + 4 * field v.toNat 0 3) = (s.rv (0x300500 + 4 * field v.toNat 0 3) + 1) % 2 ^ 32 ∧
        (∀ n, n < 8 → n ≠ field v.toNat 0 3 → ∀ i, i < 8 → u.rv (0x300400 + 0x20 * n + 4 * i) = s.rv (0x300400 + 0x20 * n + 4 * i)) ∧
        u = { s with regs := { s.regs with sec := u.regs.sec } })) ∧
    (∀ v : Word, admits s p 0x300320 → s.bound (field v.toNat 0 3) p = false →
      ∃ u, exec (.measurementGo p v) s = .next u ∧ busErrorOn s u p 0 3 0x300320)

/-! ### Start-up and power -/

/-- Start-up. Power good leaves every domain reset, the straps sampled, and where no write was in progress the flash's banks, counters
and slots as they were, and no counter lower in any case; the root key is recovered; the boot ROM starts the preferred bank where its
package passes, the other where only that one passes, and neither where none does, and raises the counter behind it; both need the
reference oscillator; LBIST ends with the records of its failures and the logic of the tested domains reset, memory BIST with its
own and every tested location at 0, the domains that a start-up leaves off being off again; ready follows where all of this has come
about and no key-off has stopped it, with the records and 0x0427 in the fault log and the towers active.
The model's choices in it: log entries 4, 69, 71, 90. -/
def Obligations.StartUp : Prop :=
  ∀ s : State,
    (∀ a b : Fin 4, ∃ u, exec (.powerGood a b) s = .next u ∧ u.boot.ready = false ∧ u.boot.powered = true ∧
      u.boot.laneCfg = a ∧ u.boot.cfgmSel = b ∧ u.regs = .empty ∧ u.ward = .reset ∧ u.safe = .reset ∧ u.time = .reset ∧
      (s.sec.engine = [] → s.sec.mb.state ≠ 2 →
        u.sec.counters = s.sec.counters ∧ u.sec.slots = s.sec.slots ∧ u.sec.banks = s.sec.banks) ∧
      (∀ i v w : Nat, s.sec.counters[i]? = some v → u.sec.counters[i]? = some w → v ≤ w) ∧
      u.sec.preferred = s.sec.preferred ∧ u.sec.fwRunning = false ∧ u.pending = s.pending ∧
      (∀ (q : Nat) (x : PortSt), s.ports[q]? = some x → u.ports[q]? = some { PortSt.reset with perst := x.perst }) ∧
      (s.safe.heartbeat = true → .deadbolt false ∈ u.out)) ∧
    (∀ ok, s.alive = true → s.sec.puf = 0 → s.boot.refOsc = true →
      exec (.pufRecovery ok) s = .next { s with sec := { s.sec with puf := if ok then 1 else 2 } }) ∧
    (s.boot.refOsc = false → ∀ c, ((∃ ok, c = .pufRecovery ok) ∨ ∃ x y, c = .firmwareBoot x y) → exec c s = .next s) ∧
    (s.alive = true → exec .referenceOscillatorRunning s = .next { s with
      boot := { s.boot with refOsc := true }, time := { s.time with coarse := false }, pwr := { s.pwr with oscLost := false } }) ∧
    (s.alive = true → s.boot.refOsc = true → s.sec.puf = 1 → s.sec.fwRunning = false → s.sec.romOnly = false → ∀ c w fa fb f,
      f = (fun bank : Nat => if bank = 0 then fa else fb) →
      let a := s.sec.preferred
      (∀ x, s.sec.bankFw a c f = some x → ∃ u, exec (.firmwareBoot ⟨c, w⟩ ⟨fa, fb⟩) s = .next u ∧ u.sec.fwRunning = true ∧
        u.sec.bank = a ∧ u.sec.fallback = false ∧ u.sec.fwVersion = x.1 ∧ u.sec.fwSecver = x.2.1 ∧ u.sec.fwDigest = x.2.2 ∧
        ∀ y, s.sec.counters[0]? = some y → w = true → u.sec.counters = s.sec.counters.set 0 (max y x.2.1)) ∧
      (∀ x, s.sec.bankFw a c f = none → s.sec.bankFw (1 - a) c f = some x → ∃ u, exec (.firmwareBoot ⟨c, w⟩ ⟨fa, fb⟩) s = .next u ∧
        u.sec.fwRunning = true ∧ u.sec.bank = 1 - a ∧ u.sec.fallback = true ∧ u.sec.fwVersion = x.1) ∧
      (s.sec.bankFw a c f = none → s.sec.bankFw (1 - a) c f = none → ∃ u, exec (.firmwareBoot ⟨c, w⟩ ⟨fa, fb⟩) s = .next u ∧
        u.sec.fwRunning = false ∧ u.sec.romOnly = true ∧ u.pwr.doms = s.pwr.doms)) ∧
    (s.alive = true → s.sec.fwRunning = true → s.boot.lbistDone = false → s.boot.keyOff = .none → ∀ l m : List DomIx,
      ∃ u, exec (.lbistComplete l m) s = .next u ∧ u.boot.lbistDone = true ∧ logicAnew s u ∧ u.ports = s.ports ∧
        (if s.boot.wakeStart = true then u.can = s.can ∧ u.t1s = s.t1s ∧ u.eth = s.eth
          else u.can = State.reset.can ∧ u.t1s = State.reset.t1s ∧ u.eth = State.reset.eth) ∧
        (∀ d : DomIx, d.val ≠ 0 → d.val ≠ 4 → d ∈ l → ⟨0, domUnit d, 0x0428, s.now⟩ ∈ u.boot.records) ∧
        ∀ d : DomIx, d.val ≠ 0 → d.val ≠ 4 → d ∈ m → ⟨0, domUnit d, 0x0429, s.now⟩ ∈ u.boot.records) ∧
    (s.alive = true → s.boot.lbistDone = true → s.boot.mbistDone = false → s.boot.keyOff = .none → ∀ l,
      ∃ u, exec (.memoryBistComplete l) s = .next u ∧ u.boot.mbistDone = true ∧ (∀ a, u.dram.mem.read a = 0) ∧
        u.dram.poison = [] ∧ (∀ n ∈ l, bistUnit n = true → ⟨0, n, 0x042A, s.now⟩ ∈ u.boot.records) ∧
        u.comp = { s.comp with cores := u.comp.cores } ∧
        (∀ c ∈ u.comp.cores, c.pad.cells = [] ∧ c.pad.poison = [] ∧ ∀ f ∈ c.pad.fills, f = .zero) ∧
        (∀ e ∈ u.kv.engines, e.staging = .zero ∧ e.poison = []) ∧ (∀ k, isCanData k = true → u.rv k = 0) ∧
        ∀ (d : Nat) x, 5 ≤ d → u.pwr.doms[d]? = some x → x.state = .off) ∧
    (s.alive = true → s.sec.puf = 1 → s.sec.fwRunning = true → s.boot.lbistDone = true → s.boot.mbistDone = true →
      s.boot.refOsc = true → s.boot.ready = false → s.boot.keyOff = .none →
      ∃ u, exec .ready s = .next u ∧ u.boot.ready = true ∧ (∀ x ∈ u.dram.towers, x.state = .active) ∧
        u.dram.mem = s.dram.mem ∧ ⟨0, 0xFF, 0x0427, s.now⟩ ∈ u.safe.flog ∧
        ((s.boot.keyOffRecords ++ s.boot.records).length ≤ 62 →
          ∀ r ∈ s.boot.keyOffRecords ++ s.boot.records, r ∈ u.safe.flog)) ∧
    (s.alive = true → (s.sec.fwRunning = false ∨ s.boot.lbistDone = false ∨ s.boot.mbistDone = false ∨ s.boot.refOsc = false ∨
        s.boot.keyOff ≠ .none) →
      exec .ready s = .next s)

/-- Key-off, parking and wake. Key-off stops the heartbeat, leaves the deadbolt in state 0, stops the channels and takes no job; once
no job runs LBIST tests the domains, and their logic is reset; with its results kept the module parks with PD0 alone powered, keeping
the time counter, coarse, and the CAN registers that the wake needs; then only a wake, by WAKE or a bus, power good or the loss of
power leaves that state. The power stage's shutdown leaves nothing powered, and the flash as it was. The model's choices in it: log entry 72. -/
def Obligations.KeyOffParksAndWakes : Prop :=
  ∀ s : State,
    (s.alive = true → s.boot.keyOff = .none → ∃ u, exec .keyOff s = .next u ∧ u.boot.keyOff = .holding ∧
      u.safe.state = 0 ∧ u.safe.heartbeat = false ∧ (∀ c ∈ u.ctl.chans, c.state ≠ .running ∧ c.state ≠ .identifying) ∧
      u.can = s.can ∧ u.time = s.time ∧ u.ward = s.ward) ∧
    (s.boot.keyOff ≠ .none → exec .keyOff s = .next s ∧ ∀ p r, exec (.jobStart p r) s = .next s) ∧
    (∀ c t, exec c s = .next t → s.boot.keyOff = .parked → t.boot.keyOff ≠ .parked →
      (∃ a b, c = .wake a b ∨ c = .powerGood a b) ∨ (∃ w, c = .wakeUpPattern w) ∨ c = .powerStageShutdown) ∧
    (s.boot.keyOff = .holding →
      ((∀ q ∈ s.comp.parts, q.job = none) →
        exec .keyOffLbistStart s = .next { s with boot := { s.boot with keyOff := .lbist, ready := false } }) ∧
      ((∃ q ∈ s.comp.parts, q.job ≠ none) → exec .keyOffLbistStart s = .next s)) ∧
    (s.boot.keyOff = .lbist → ∀ l : List DomIx, ∃ u, exec (.keyOffLbistComplete l) s = .next u ∧ logicAnew s u ∧
      u.boot.keyOff = .lbistDone ∧ ∀ r, r ∈ u.boot.keyOffRecords ↔
        ∃ d ∈ l, d.val ≠ 0 ∧ r = ⟨0, domUnit d, 0x042B, s.now⟩) ∧
    (s.boot.keyOff ≠ .lbistDone → exec .parked s = .next s) ∧
    (s.boot.keyOff = .lbistDone → ∃ u, exec .parked s = .next u ∧ u.boot.keyOff = .parked ∧ u.alive = false ∧
      (∀ (d : Nat) x, u.pwr.doms[d]? = some x → x.state = if d = 0 then .on else .off) ∧
      u.time.tb = s.time.tb ∧ u.time.coarse = true ∧ u.boot.keyOffRecords = s.boot.keyOffRecords ∧
      (s.sec.engine = [] → s.sec.mb.state ≠ 2 → u.sec.counters = s.sec.counters) ∧ u.ward.image = none ∧
      ∀ n : CanIx, tbit (s.rv (canKey n 0x38)) 31 = true → u.rv (canKey n 0x38) = s.rv (canKey n 0x38) ∧
        u.rv (canKey n 0) = s.rv (canKey n 0)) ∧
    (∀ a b : Fin 4, s.boot.powered = true → s.boot.keyOff = .parked → ∃ u, exec (.wake a b) s = .next u ∧
      u.boot.keyOff = .none ∧ u.alive = true ∧ u.boot.ready = false ∧ u.boot.laneCfg = a ∧ u.boot.cfgmSel = b ∧
      u.time.tb = s.time.tb ∧ u.boot.keyOffRecords = s.boot.keyOffRecords ∧
      (s.sec.engine = [] → s.sec.mb.state ≠ 2 → u.sec.counters = s.sec.counters)) ∧
    (∀ a b : Fin 4, s.boot.keyOff ≠ .parked → exec (.wake a b) s = .next s) ∧
    (∃ u, exec .powerStageShutdown s = .next u ∧ u.boot.powered = false ∧ u.alive = false ∧ u.safe.heartbeat = false ∧
      u.ward.image = none ∧ (s.sec.engine = [] → s.sec.mb.state ≠ 2 →
        u.sec.counters = s.sec.counters ∧ u.sec.banks = s.sec.banks ∧ u.sec.slots = s.sec.slots) ∧
      (s.safe.heartbeat = true → .deadbolt false ∈ u.out))

/-- Power domains. Demand wakes a domain of policy 0 under an image; a wake that is complete leaves it ON at its effective point,
counted, and a core's activation banks that are ON zero-filled, the pulse pins at rest as POL says with PD4, the SENT supplies on with
PD5; a domain that has had no demand for RET_IDLE retains, its core losing
the activation banks only; one goes OFF under policy 2 once its units are idle, and a core or an engine after OFF_IDLE in RETAIN
without demand; it loses everything, and the catches once every core is off; a unit moves one point at a time. A tower in SELF_REFRESH keeps its
contents. The model's choices in it: log entry 74. -/
def Obligations.PowerDomains : Prop :=
  ∀ (s : State) (d : DomIx) (x : DomSt), s.pwr.doms[d.val]? = some x →
    (s.hasDemand d = false ∨ s.alive = false → exec (.demand d) s = .next s) ∧
    (s.hasDemand d = true → s.alive = true → x.policy = 0 → s.ward.image.isSome = true → exec (.demand d) s = .next { s with pwr := { s.pwr with
      doms := s.pwr.doms.set d (if x.state = .on ∨ x.state = .waking then x else
        { x with state := .waking, fromOff := x.state == .off }) } }) ∧
    (x.policy ≠ 0 → exec (.demand d) s = .next s) ∧
    (∀ l, x.state ≠ .waking → exec (.wakeComplete ⟨d, l⟩) s = .next s) ∧
    (∀ l, x.state = .waking → ∃ u, exec (.wakeComplete ⟨d, l⟩) s = .next u ∧
      u.pwr = { s.pwr with doms := s.pwr.doms.set d { x with state := .on, fromOff := false, point := s.effPoint d } } ∧
      u.ctr (0x410200 + 8 * d) = (s.ctr (0x410200 + 8 * d) + 1) % two64 ∧ u.dram = s.dram ∧
      (d.val = 5 → .sentSup true ∈ u.out) ∧
      (d.val = 4 → ∀ g y, g < 8 → s.time.pulse[g]? = some y → y.high = false →
        u.time.pulse[g]? = some { y with level := s.restLevel g }) ∧
      (d.val ≠ 4 → u.time = s.time) ∧
      (∀ c, 13 ≤ d.val → s.comp.cores[d.val - 13]? = some c → s.actBank (d.val - 13) ≤ 64 → ∃ e, u.comp.cores[d.val - 13]? = some e ∧
        (∀ a, s.actBank (d.val - 13) * 0x80000 ≤ a → a < 64 * 0x80000 →
          (x.fromOff = true ∨ c.pad.banks.getD (a / 0x80000) .on = .on) → e.pad.byte a = 0) ∧
        (x.fromOff = false → ∀ a, a < s.actBank (d.val - 13) * 0x80000 → e.pad.byte a = c.pad.byte a) ∧
        (x.fromOff = true → (∀ a, a < 64 * 0x80000 → e.pad.byte a = 0) ∧ e.pad.banks = List.replicate 64 .on ∧ e.pad.tag = 0))) ∧
    (s.hasDemand d = true ∨ s.time.elapsed < x.demandAt + s.retIdle → exec (.retainEntry d) s = .next s) ∧
    (x.state = .on → x.policy = 0 → d.val ≠ 0 → s.ward.image.isSome = true → (13 ≤ d.val → s.bankMoves (d.val - 13) = false) →
      s.hasDemand d = false → x.demandAt + s.retIdle ≤ s.time.elapsed →
      ∃ u, exec (.retainEntry d) s = .next u ∧
        u.pwr = { s.pwr with doms := s.pwr.doms.set d { x with state := .retain, retainAt := s.time.elapsed } } ∧
        (∀ c, 13 ≤ d.val → s.comp.cores[d.val - 13]? = some c → s.actBank (d.val - 13) ≤ 64 → ∃ e, u.comp.cores[d.val - 13]? = some e ∧
          e.pad.tag = c.pad.tag ∧ e.pad.banks = c.pad.banks ∧
          ∀ a, a < s.actBank (d.val - 13) * 0x80000 → e.pad.byte a = c.pad.byte a)) ∧
    (x.state ≠ .on → exec (.retainEntry d) s = .next s) ∧
    (x.policy = 2 ∧ s.domIdle d = false ∨ x.policy = 0 ∧ (s.hasDemand d = true ∨ x.state ≠ .retain) →
      exec (.offEntry d) s = .next s) ∧
    ((x.policy = 2 ∧ (x.state = .on ∨ x.state = .retain) ∧ s.domIdle d = true ∨
        x.policy = 0 ∧ x.state = .retain ∧ 9 ≤ d.val ∧ s.offIdle ≠ 0 ∧ s.hasDemand d = false ∧ x.retainAt + s.offIdle ≤ s.time.elapsed) →
      d.val ≠ 0 → (9 ≤ d.val → d.val < 13 → s.stages (d.val - 9) = false) →
      ∃ u, exec (.offEntry d) s = .next u ∧ u.pwr = { s.pwr with doms := s.pwr.doms.set d { x with state := .off, point := 0 } } ∧
        (∀ c, 13 ≤ d.val → s.comp.cores[d.val - 13]? = some c → ∃ e, u.comp.cores[d.val - 13]? = some e ∧ e.pad.tag = 0 ∧
          e.pad.cells = [] ∧ e.pad.banks = List.replicate 64 .off) ∧
        ((∀ n : Nat, n < 16 → ∀ y, u.pwr.doms[13 + n]? = some y → y.state = .off) → u.comp.catches = [])) ∧
    (x.state = .off → exec (.offEntry d) s = .next s) ∧
    (8 ≤ d.val → exec (.pointStepDone d) s = .next { s with pwr := { s.pwr with
      doms := s.pwr.doms.set d { x with point := if x.point < s.effPoint d then x.point + 1
                                        else if s.effPoint d < x.point then x.point - 1 else x.point } } }) ∧
    (∀ (t : Fin 4) y, s.dram.towers[t.val]? = some y →
      (tbit (s.rv 0x480000) 16 = true → y.state = .active → exec (.selfRefreshEntry t) s = .next { s with
        dram := { s.dram with towers := s.dram.towers.set t { y with state := .selfRefresh } } }) ∧
      (tbit (s.rv 0x480000) 16 = false → exec (.selfRefreshEntry t) s = .next s) ∧
      (y.state = .selfRefresh → exec (.selfRefreshExit t) s = .next { s with
        dram := { s.dram with towers := s.dram.towers.set t { y with state := .active } } }))

/-- The governor, the supply monitors and the meter. Above the cap the cap ceiling falls by one; ten calm evaluations in a row raise
it by one, OP7 at most; a die at its throttle temperature loses a point, and one at 125 °C or above stands at OP0, which is the
cause 0x0418 when it is new. A monitor that trips is that cause, once. Stretched cycles of a droop count for their core. An interval
adds its energy to the module's counter, each job's share to the job, running or suspended, and to its partition, and what no job
receives to PWR_UNATTR; the interval of a meter that fails counts as 0, which leaves the module's counter, and those of the partitions
and the jobs without an energy model, as they were. The model's choices in it: log entries 1, 75, 81. -/
def Obligations.GovernorAndMeter : Prop :=
  ∀ (s : State),
    (∀ (w v : Nat) (temps towers : List Nat) (ceil calm : Nat), (∀ y ∈ s.regs.pwr.caps, groupOf y.key ≠ 14) →
      s.pwr.ceilings[0]? = some ceil → s.pwr.calm[0]? = some calm →
      let cap := s.rv 0x400010 * 10
      ∃ u, exec (.governorEvaluation w v temps towers) s = .next u ∧
        (cap < w → u.pwr.ceilings[0]? = some (ceil - 1) ∧ u.pwr.calm[0]? = some 0) ∧
        (w * 100 ≤ 95 * cap → w ≤ cap → u.pwr.calm[0]? = some (min (calm + 1) 10) ∧
          u.pwr.ceilings[0]? = some (if 9 ≤ calm then min (ceil + 1) 7 else ceil)) ∧
        (w ≤ cap → 95 * cap < w * 100 → u.pwr.ceilings[0]? = some ceil ∧ u.pwr.calm[0]? = some 0) ∧
        (∀ i, i < 3 → 189 ≤ temps.getD i 0 → u.pwr.ceilings[i + 1]? = some 0 ∧ u.pwr.hot[i]? = some true) ∧
        (∀ i x, i < 3 → s.pwr.ceilings[i + 1]? = some x → temps.getD i 0 < 189 → s.rv 0x400020 + 64 ≤ temps.getD i 0 →
          u.pwr.ceilings[i + 1]? = some (x - 1)) ∧
        ((∃ i, i < 3 ∧ 189 ≤ temps.getD i 0 ∧ s.pwr.hot.getD i false = false) → ⟨2, 0xFF, 0x0418, s.now⟩ ∈ u.safe.flog) ∧
        u.rv 0x400014 = v % 65536 * 65536 + w % 65536 ∧ u.pwr.doms = s.pwr.doms ∧ u.comp = s.comp ∧ u.dram.mem = s.dram.mem) ∧
    (∀ f, (s.pwr.supply.contains f = true → exec (.supplyMonitorTrip f) s = .next s) ∧
      (s.pwr.supply.contains f = false → ∃ u, exec (.supplyMonitorTrip f) s = .next u ∧
        u.pwr = { s.pwr with supply := s.pwr.supply ++ [f] } ∧ tbit (u.rv 0x400004) 5 = true ∧
        ⟨2, 0xFF, 0x0418, s.now⟩ ∈ u.safe.flog) ∧
      exec (.supplyMonitorClear f) s = .next { s with pwr := { s.pwr with supply := s.pwr.supply.filter (· != f) } }) ∧
    (∀ n : CoreIx,
      exec (.droopDetect n) s = .next { s with pwr := { s.pwr with drooping := s.pwr.drooping.set n true } } ∧
      ∀ k, (s.pwr.drooping[n.val]? = some true → ∃ u, exec (.droopEnd n k) s = .next u ∧
        u.ctr (0x410100 + 8 * n) = (s.ctr (0x410100 + 8 * n) + k) % two64 ∧
        u.pwr = { s.pwr with drooping := s.pwr.drooping.set n false }) ∧
      (s.pwr.drooping[n.val]? = some false → exec (.droopEnd n k) s = .next s)) ∧
    (∀ e ok l, s.pwr.partNj.length = 8 →
      let energy := if ok = true then e else 0
      let shares := s.shares energy l
      let of := fun (f : (Nat × Nat) × Nat → Bool) => ((shares.filter f).map (·.2)).sum
      let rest := s.pwr.unattr + (energy - (shares.map (·.2)).sum)
      ∃ u, exec (.meteringInterval e ok l) s = .next u ∧ u.pwr.meterFault = !ok ∧
        (ok = false → s.pwr.meterFault = false → tbit (u.rv 0x400004) 1 = true) ∧
        u.ctr 0x410000 = (s.ctr 0x410000 + (s.pwr.modNj + energy) / 1000) % two64 ∧ u.pwr.modNj = (s.pwr.modNj + energy) % 1000 ∧
        u.ctr 0x410008 = (s.ctr 0x410008 + rest / 1000) % two64 ∧ u.pwr.unattr = rest % 1000 ∧
        (∀ p, p < 8 → (∃ x ∈ shares, x.1.1 = p) →
          let n := s.pwr.partNj.getD p 0 + of fun x => x.1.1 == p
          u.ctr (0x410040 + 8 * p) = (s.ctr (0x410040 + 8 * p) + n / 1000) % two64 ∧ u.pwr.partNj.getD p 0 = n % 1000) ∧
        (∀ p, p < 8 → (∀ x ∈ shares, x.1.1 ≠ p) →
          u.ctr (0x410040 + 8 * p) = s.ctr (0x410040 + 8 * p) ∧ u.pwr.partNj.getD p 0 = s.pwr.partNj.getD p 0) ∧
        (∀ p j, runningJob s p = some j →
          runningJob u p = some { j with energy := j.energy + of fun x => x.1.2 == j.serial }) ∧
        (∀ q ∈ s.comp.queues, ∀ j, q.2.susp = some j → ∃ r ∈ u.comp.queues, r.1 = q.1 ∧
          r.2.susp = some { j with energy := j.energy + of fun x => x.1.2 == j.serial }) ∧
        (ok = false → s.pwr.modNj < 1000 → (s.ctr 0x410000 < two64 → u.ctr 0x410000 = s.ctr 0x410000) ∧
          ∀ p, p < 8 → s.modelled p = false → s.pwr.partNj.getD p 0 < 1000 →
            (s.ctr (0x410040 + 8 * p) < two64 → u.ctr (0x410040 + 8 * p) = s.ctr (0x410040 + 8 * p)) ∧
            ∀ j, runningJob s p = some j → (∀ a ∈ l, a.job = j.serial → a.part.val = p) → runningJob u p = some j))

end
end

