-- ==== Sys2Proof/Laws/Exec.lean ====
section
/-!
SUPPORT. The meaning of each command, by its definition: what `exec` runs.
-/

set_option Elab.async false

namespace Sys2Proof.Machine

theorem exec_begin port s : exec (.begin port) s = execBegin port s := rfl
theorem exec_chunk port s : exec (.chunk port) s = execChunk port s := rfl
theorem exec_chunkCopyDone s : exec (.chunkCopyDone) s = execChunkCopyDone s := rfl
theorem exec_finish port s : exec (.finish port) s = execFinish port s := rfl
theorem exec_abort port s : exec (.abort port) s = execAbort port s := rfl
theorem exec_wardCmdUnknown port value s : exec (.wardCmdUnknown port value) s = execWardCmdUnknown port value s := rfl
theorem exec_validationDone counterOk s : exec (.validationDone counterOk) s = execValidationDone counterOk s := rfl
theorem exec_switch lawFails s : exec (.switch lawFails) s = execSwitch lawFails s := rfl
theorem exec_holdRelease s : exec (.holdRelease) s = execHoldRelease s := rfl
theorem exec_antiRollbackAdvance ok s : exec (.antiRollbackAdvance ok) s = execAntiRollbackAdvance ok s := rfl
theorem exec_doorbell port off size value s : exec (.doorbell port off size value) s = execDoorbell port off size value s := rfl
theorem exec_bar2Read port off len s : exec (.bar2Read port off len) s = execBar2Read port off len s := rfl
theorem exec_bar4Read port off len s : exec (.bar4Read port off len) s = execBar4Read port off len s := rfl
theorem exec_bar4Write port off data s : exec (.bar4Write port off data) s = execBar4Write port off data s := rfl
theorem exec_malformedAccess port off write s : exec (.malformedAccess port off write) s = execMalformedAccess port off write s := rfl
theorem exec_reservedLocationAccess port bar off write s : exec (.reservedLocationAccess port bar off write) s = execReservedLocationAccess port bar off write s := rfl
theorem exec_registerWrite w s : exec (.registerWrite w) s = execRegisterWrite w s := rfl
theorem exec_eventRegisterW1c w s : exec (.eventRegisterW1c w) s = execEventRegisterW1c w s := rfl
theorem exec_latchGo port mask s : exec (.latchGo port mask) s = execLatchGo port mask s := rfl
theorem exec_latchApply slot index s : exec (.latchApply slot index) s = execLatchApply slot index s := rfl
theorem exec_snapshot port value s : exec (.snapshot port value) s = execSnapshot port value s := rfl
theorem exec_retrain port value s : exec (.retrain port value) s = execRetrain port value s := rfl
theorem exec_linkTrainingComplete port width speed s : exec (.linkTrainingComplete port width speed) s = execLinkTrainingComplete port width speed s := rfl
theorem exec_portReset port kind s : exec (.portReset port kind) s = execPortReset port kind s := rfl
theorem exec_linkUp link s : exec (.linkUp link) s = execLinkUp link s := rfl
theorem exec_buserrLogClear port s : exec (.buserrLogClear port) s = execBuserrLogClear port s := rfl
theorem exec_buserrCountClear port s : exec (.buserrCountClear port) s = execBuserrCountClear port s := rfl
theorem exec_safeMemCounterClear port s : exec (.safeMemCounterClear port) s = execSafeMemCounterClear port s := rfl
theorem exec_safeMemLogClear port s : exec (.safeMemLogClear port) s = execSafeMemLogClear port s := rfl
theorem exec_jobStart part desc s : exec (.jobStart part desc) s = execJobStart part desc s := rfl
theorem exec_stepDelivery part step s : exec (.stepDelivery part step) s = execStepDelivery part step s := rfl
theorem exec_sliceExpiry part s : exec (.sliceExpiry part) s = execSliceExpiry part s := rfl
theorem exec_jobSuspended part s : exec (.jobSuspended part) s = execJobSuspended part s := rfl
theorem exec_jobTimeout part s : exec (.jobTimeout part) s = execJobTimeout part s := rfl
theorem exec_jobComplete part s : exec (.jobComplete part) s = execJobComplete part s := rfl
theorem exec_queueReset port s : exec (.queueReset port) s = execQueueReset port s := rfl
theorem exec_remap part s : exec (.remap part) s = execRemap part s := rfl
theorem exec_parkSwitch core lcore s : exec (.parkSwitch core lcore) s = execParkSwitch core lcore s := rfl
theorem exec_matmul part target env s : exec (.matmul part target env) s = execMatmul part target env s := rfl
theorem exec_vector part target env s : exec (.vector part target env) s = execVector part target env s := rfl
theorem exec_fft2d part target env s : exec (.fft2d part target env) s = execFft2d part target env s := rfl
theorem exec_catchPost part target mismatch s : exec (.catchPost part target mismatch) s = execCatchPost part target mismatch s := rfl
theorem exec_catchWait part target s : exec (.catchWait part target) s = execCatchWait part target s := rfl
theorem exec_catchSet part target mismatch s : exec (.catchSet part target mismatch) s = execCatchSet part target mismatch s := rfl
theorem exec_resetBlock part target mismatch s : exec (.resetBlock part target mismatch) s = execResetBlock part target mismatch s := rfl
theorem exec_catchServe block index s : exec (.catchServe block index) s = execCatchServe block index s := rfl
theorem exec_catchWaitTimeout part target s : exec (.catchWaitTimeout part target) s = execCatchWaitTimeout part target s := rfl
theorem exec_catchWaitAbandon part target s : exec (.catchWaitAbandon part target) s = execCatchWaitAbandon part target s := rfl
theorem exec_stepEnd part target mismatch active dpu vec s : exec (.stepEnd part target mismatch active dpu vec) s = execStepEnd part target mismatch active dpu vec s := rfl
theorem exec_spFill part target env s : exec (.spFill part target env) s = execSpFill part target env s := rfl
theorem exec_spCopy part target env s : exec (.spCopy part target env) s = execSpCopy part target env s := rfl
theorem exec_dma part target env s : exec (.dma part target env) s = execDma part target env s := rfl
theorem exec_bankClose part target s : exec (.bankClose part target) s = execBankClose part target s := rfl
theorem exec_bankOpen part target s : exec (.bankOpen part target) s = execBankOpen part target s := rfl
theorem exec_bankOff core bank s : exec (.bankOff core bank) s = execBankOff core bank s := rfl
theorem exec_bankOn core bank s : exec (.bankOn core bank) s = execBankOn core bank s := rfl
theorem exec_tagCheck part target s : exec (.tagCheck part target) s = execTagCheck part target s := rfl
theorem exec_tagSet part target s : exec (.tagSet part target) s = execTagSet part target s := rfl
theorem exec_scrub core word result s : exec (.scrub core word result) s = execScrub core word result s := rfl
theorem exec_conv part target env s : exec (.conv part target env) s = execConv part target env s := rfl
theorem exec_fconv part target env s : exec (.fconv part target env) s = execFconv part target env s := rfl
theorem exec_pool part target env s : exec (.pool part target env) s = execPool part target env s := rfl
theorem exec_nceConv part target env s : exec (.nceConv part target env) s = execNceConv part target env s := rfl
theorem exec_nceGranule engine s : exec (.nceGranule engine) s = execNceGranule engine s := rfl
theorem exec_attn part target env s : exec (.attn part target env) s = execAttn part target env s := rfl
theorem exec_kvAppend part target env s : exec (.kvAppend part target env) s = execKvAppend part target env s := rfl
theorem exec_kvMap part target env s : exec (.kvMap part target env) s = execKvMap part target env s := rfl
theorem exec_kvCtxOpen part target env s : exec (.kvCtxOpen part target env) s = execKvCtxOpen part target env s := rfl
theorem exec_kvCtxClose part target env s : exec (.kvCtxClose part target env) s = execKvCtxClose part target env s := rfl
theorem exec_kvCtxTruncate part target env s : exec (.kvCtxTruncate part target env) s = execKvCtxTruncate part target env s := rfl
theorem exec_kvCtxAccept part target env s : exec (.kvCtxAccept part target env) s = execKvCtxAccept part target env s := rfl
theorem exec_kvCtxFlush part target env s : exec (.kvCtxFlush part target env) s = execKvCtxFlush part target env s := rfl
theorem exec_kvCtxSetPrio part target env s : exec (.kvCtxSetPrio part target env) s = execKvCtxSetPrio part target env s := rfl
theorem exec_kvCtxPrefetch part target env s : exec (.kvCtxPrefetch part target env) s = execKvCtxPrefetch part target env s := rfl
theorem exec_swapOutPageDone part env s : exec (.swapOutPageDone part env) s = execSwapOutPageDone part env s := rfl
theorem exec_swapInPageDone part env s : exec (.swapInPageDone part env) s = execSwapInPageDone part env s := rfl
theorem exec_setpt part target env s : exec (.setpt part target env) s = execSetpt part target env s := rfl
theorem exec_sample ch fault s : exec (.sample ch fault) s = execSample ch fault s := rfl
theorem exec_faultIdentificationDone ch leaderFails followerFails s : exec (.faultIdentificationDone ch leaderFails followerFails) s = execFaultIdentificationDone ch leaderFails followerFails s := rfl
theorem exec_sentFrame port pulses s : exec (.sentFrame port pulses) s = execSentFrame port pulses s := rfl
theorem exec_framePassesCrc can frame s : exec (.framePassesCrc can frame) s = execFramePassesCrc can frame s := rfl
theorem exec_canFrameStored can frame sof s : exec (.canFrameStored can frame sof) s = execCanFrameStored can frame sof s := rfl
theorem exec_canFrameSent can sof tdcv s : exec (.canFrameSent can sof tdcv) s = execCanFrameSent can sof tdcv s := rfl
theorem exec_arbitrationLost can s : exec (.arbitrationLost can) s = execArbitrationLost can s := rfl
theorem exec_canError can kind lastErr tdc s : exec (.canError can kind lastErr tdc) s = execCanError can kind lastErr tdc s := rfl
theorem exec_transmitSelection can s : exec (.transmitSelection can) s = execTransmitSelection can s := rfl
theorem exec_canObjReq port can obj s : exec (.canObjReq port can obj) s = execCanObjReq port can obj s := rfl
theorem exec_canObjAbort port can obj s : exec (.canObjAbort port can obj) s = execCanObjAbort port can obj s := rfl
theorem exec_canObjClear port can obj s : exec (.canObjClear port can obj) s = execCanObjClear port can obj s := rfl
theorem exec_canObjStatusRead port can obj s : exec (.canObjStatusRead port can obj) s = execCanObjStatusRead port can obj s := rfl
theorem exec_lastWordRead port can obj s : exec (.lastWordRead port can obj) s = execLastWordRead port can obj s := rfl
theorem exec_lockTimeout can obj s : exec (.lockTimeout can obj) s = execLockTimeout can obj s := rfl
theorem exec_canInitSet port can busy s : exec (.canInitSet port can busy) s = execCanInitSet port can busy s := rfl
theorem exec_canInitClear port can s : exec (.canInitClear port can) s = execCanInitClear port can s := rfl
theorem exec_busIntegrationDone can s : exec (.busIntegrationDone can) s = execBusIntegrationDone can s := rfl
theorem exec_busOffRecovery can s : exec (.busOffRecovery can) s = execBusOffRecovery can s := rfl
theorem exec_transmitDominantTimeout can s : exec (.transmitDominantTimeout can) s = execTransmitDominantTimeout can s := rfl
theorem exec_wakeUpPattern can s : exec (.wakeUpPattern can) s = execWakeUpPattern can s := rfl
theorem exec_referenceMessage can s : exec (.referenceMessage can) s = execReferenceMessage can s := rfl
theorem exec_t1sFrameReceived q frame fcsOk s : exec (.t1sFrameReceived q frame fcsOk) s = execT1sFrameReceived q frame fcsOk s := rfl
theorem exec_transmitOpportunity chance s : exec (.transmitOpportunity chance) s = execTransmitOpportunity chance s := rfl
theorem exec_beacon event s : exec (.beacon event) s = execBeacon event s := rfl
theorem exec_pop port q value s : exec (.pop port q value) s = execPop port q value s := rfl
theorem exec_t1sTxGo port q value s : exec (.t1sTxGo port q value) s = execT1sTxGo port q value s := rfl
theorem exec_ethFrameReceived e frame fcsOk off s : exec (.ethFrameReceived e frame fcsOk off) s = execEthFrameReceived e frame fcsOk off s := rfl
theorem exec_ethTxTail port e value s : exec (.ethTxTail port e value) s = execEthTxTail port e value s := rfl
theorem exec_ethFrameSent e stamp slot s : exec (.ethFrameSent e stamp slot) s = execEthFrameSent e stamp slot s := rfl
theorem exec_ethLinkChange e up master speed s : exec (.ethLinkChange e up master speed) s = execEthLinkChange e up master speed s := rfl
theorem exec_step port s : exec (.step port) s = execStep port s := rfl
theorem exec_release port s : exec (.release port) s = execRelease port s := rfl
theorem exec_sync q ingress domain src origin corr twoStep s : exec (.sync q ingress domain src origin corr twoStep) s = execSync q ingress domain src origin corr twoStep s := rfl
theorem exec_followUp q origin corr inTime s : exec (.followUp q origin corr inTime) s = execFollowUp q origin corr inTime s := rfl
theorem exec_delayExchange q reply s : exec (.delayExchange q reply) s = execDelayExchange q reply s := rfl
theorem exec_delayRequestReceived q ingress domain seq corr s : exec (.delayRequestReceived q ingress domain seq corr) s = execDelayRequestReceived q ingress domain seq corr s := rfl
theorem exec_announce q s : exec (.announce q) s = execAnnounce q s := rfl
theorem exec_syncTransmit q origin s : exec (.syncTransmit q origin) s = execSyncTransmit q origin s := rfl
theorem exec_announceTransmit q s : exec (.announceTransmit q) s = execAnnounceTransmit q s := rfl
theorem exec_delayRequestTransmit q s : exec (.delayRequestTransmit q) s = execDelayRequestTransmit q s := rfl
theorem exec_syncLost s : exec (.syncLost) s = execSyncLost s := rfl
theorem exec_slewEnd s : exec (.slewEnd) s = execSlewEnd s := rfl
theorem exec_timeRateCheck bad s : exec (.timeRateCheck bad) s = execTimeRateCheck bad s := rfl
theorem exec_pulseLeadingEdge g s : exec (.pulseLeadingEdge g) s = execPulseLeadingEdge g s := rfl
theorem exec_pulseTrailingEdge g s : exec (.pulseTrailingEdge g) s = execPulseTrailingEdge g s := rfl
theorem exec_frameStart cam vc frameNo off s : exec (.frameStart cam vc frameNo off) s = execFrameStart cam vc frameNo off s := rfl
theorem exec_line cam vc dt data err s : exec (.line cam vc dt data err) s = execLine cam vc dt data err s := rfl
theorem exec_frameEnd cam vc s : exec (.frameEnd cam vc) s = execFrameEnd cam vc s := rfl
theorem exec_lineTmoExpiry cam s : exec (.lineTmoExpiry cam) s = execLineTmoExpiry cam s := rfl
theorem exec_portFifoOverflow cam s : exec (.portFifoOverflow cam) s = execPortFifoOverflow cam s := rfl
theorem exec_cameraLinkLost cam s : exec (.cameraLinkLost cam) s = execCameraLinkLost cam s := rfl
theorem exec_cciGo port cam value s : exec (.cciGo port cam value) s = execCciGo port cam value s := rfl
theorem exec_cciDone cam reply s : exec (.cciDone cam reply) s = execCciDone cam reply s := rfl
theorem exec_sampleComplete stream s : exec (.sampleComplete stream) s = execSampleComplete stream s := rfl
theorem exec_windowClose ring s : exec (.windowClose ring) s = execWindowClose ring s := rfl
theorem exec_batchComplete ring s : exec (.batchComplete ring) s = execBatchComplete ring s := rfl
theorem exec_vdecStrTail port stream value s : exec (.vdecStrTail port stream value) s = execVdecStrTail port stream value s := rfl
theorem exec_accessUnit stream desc data dec s : exec (.accessUnit stream desc data dec) s = execAccessUnit stream desc data dec s := rfl
theorem exec_endOfStream stream desc s : exec (.endOfStream stream desc) s = execEndOfStream stream desc s := rfl
theorem exec_pictureDone stream s : exec (.pictureDone stream) s = execPictureDone stream s := rfl
theorem exec_evict port s : exec (.evict port) s = execEvict port s := rfl
theorem exec_clear port s : exec (.clear port) s = execClear port s := rfl
theorem exec_udpDatagram scat payload off s : exec (.udpDatagram scat payload off) s = execUdpDatagram scat payload off s := rfl
theorem exec_sweepTmoExpiry scat s : exec (.sweepTmoExpiry scat) s = execSweepTmoExpiry scat s := rfl
theorem exec_ingDepTail port ring value s : exec (.ingDepTail port ring value) s = execIngDepTail port ring value s := rfl
theorem exec_depotBatchBuild ring reply s : exec (.depotBatchBuild ring reply) s = execDepotBatchBuild ring reply s := rfl
theorem exec_missTmoExpiry ring s : exec (.missTmoExpiry ring) s = execMissTmoExpiry ring s := rfl
theorem exec_ageEvaluation s : exec (.ageEvaluation) s = execAgeEvaluation s := rfl
theorem exec_safeStateEntry s : exec (.safeStateEntry) s = execSafeStateEntry s := rfl
theorem exec_safeFrameRepeat s : exec (.safeFrameRepeat) s = execSafeFrameRepeat s := rfl
theorem exec_resume port value s : exec (.resume port value) s = execResume port value s := rfl
theorem exec_enter port value s : exec (.enter port value) s = execEnter port value s := rfl
theorem exec_deadboltReadback mismatch s : exec (.deadboltReadback mismatch) s = execDeadboltReadback mismatch s := rfl
theorem exec_guardKick s : exec (.guardKick) s = execGuardKick s := rfl
theorem exec_guardTimeout s : exec (.guardTimeout) s = execGuardTimeout s := rfl
theorem exec_islandLockstepTrip s : exec (.islandLockstepTrip) s = execIslandLockstepTrip s := rfl
theorem exec_referenceOscillatorStop s : exec (.referenceOscillatorStop) s = execReferenceOscillatorStop s := rfl
theorem exec_intervalEnd s : exec (.intervalEnd) s = execIntervalEnd s := rfl
theorem exec_slotStart unit s : exec (.slotStart unit) s = execSlotStart unit s := rfl
theorem exec_granuleStart unit s : exec (.granuleStart unit) s = execGranuleStart unit s := rfl
theorem exec_granuleDone unit mismatch s : exec (.granuleDone unit mismatch) s = execGranuleDone unit mismatch s := rfl
theorem exec_granuleAbandon unit s : exec (.granuleAbandon unit) s = execGranuleAbandon unit s := rfl
theorem exec_pairIdentificationDone pair evenFails oddFails s : exec (.pairIdentificationDone pair evenFails oddFails) s = execPairIdentificationDone pair evenFails oddFails s := rfl
theorem exec_attestationGo port value s : exec (.attestationGo port value) s = execAttestationGo port value s := rfl
theorem exec_attestationDone s : exec (.attestationDone) s = execAttestationDone s := rfl
theorem exec_mbBegin port s : exec (.mbBegin port) s = execMbBegin port s := rfl
theorem exec_mbChunk port s : exec (.mbChunk port) s = execMbChunk port s := rfl
theorem exec_mbChunkCopyDone s : exec (.mbChunkCopyDone) s = execMbChunkCopyDone s := rfl
theorem exec_mbAbort port s : exec (.mbAbort port) s = execMbAbort port s := rfl
theorem exec_enrol port s : exec (.enrol port) s = execEnrol port s := rfl
theorem exec_enrolComplete counter s : exec (.enrolComplete counter) s = execEnrolComplete counter s := rfl
theorem exec_fwUpdate port s : exec (.fwUpdate port) s = execFwUpdate port s := rfl
theorem exec_fwUpdateComplete counterOk s : exec (.fwUpdateComplete counterOk) s = execFwUpdateComplete counterOk s := rfl
theorem exec_measurementGo port value s : exec (.measurementGo port value) s = execMeasurementGo port value s := rfl
theorem exec_powerGood laneCfg cfgmSel s : exec (.powerGood laneCfg cfgmSel) s = execPowerGood laneCfg cfgmSel s := rfl
theorem exec_referenceOscillatorRunning s : exec (.referenceOscillatorRunning) s = execReferenceOscillatorRunning s := rfl
theorem exec_pufRecovery ok s : exec (.pufRecovery ok) s = execPufRecovery ok s := rfl
theorem exec_firmwareBoot counter factory s : exec (.firmwareBoot counter factory) s = execFirmwareBoot counter factory s := rfl
theorem exec_lbistComplete fails invalid s : exec (.lbistComplete fails invalid) s = execLbistComplete fails invalid s := rfl
theorem exec_memoryBistComplete fails s : exec (.memoryBistComplete fails) s = execMemoryBistComplete fails s := rfl
theorem exec_ready s : exec (.ready) s = execReady s := rfl
theorem exec_keyOff s : exec (.keyOff) s = execKeyOff s := rfl
theorem exec_keyOffLbistStart s : exec (.keyOffLbistStart) s = execKeyOffLbistStart s := rfl
theorem exec_keyOffLbistComplete fails s : exec (.keyOffLbistComplete fails) s = execKeyOffLbistComplete fails s := rfl
theorem exec_parked s : exec (.parked) s = execParked s := rfl
theorem exec_wake laneCfg cfgmSel s : exec (.wake laneCfg cfgmSel) s = execWake laneCfg cfgmSel s := rfl
theorem exec_supplyMonitorTrip source s : exec (.supplyMonitorTrip source) s = execSupplyMonitorTrip source s := rfl
theorem exec_powerStageShutdown s : exec (.powerStageShutdown) s = execPowerStageShutdown s := rfl
theorem exec_governorEvaluation power voltage temps towers s : exec (.governorEvaluation power voltage temps towers) s = execGovernorEvaluation power voltage temps towers s := rfl
theorem exec_demand dom s : exec (.demand dom) s = execDemand dom s := rfl
theorem exec_wakeComplete woken s : exec (.wakeComplete woken) s = execWakeComplete woken s := rfl
theorem exec_retainEntry dom s : exec (.retainEntry dom) s = execRetainEntry dom s := rfl
theorem exec_offEntry dom s : exec (.offEntry dom) s = execOffEntry dom s := rfl
theorem exec_pointStepDone dom s : exec (.pointStepDone dom) s = execPointStepDone dom s := rfl
theorem exec_droopDetect core s : exec (.droopDetect core) s = execDroopDetect core s := rfl
theorem exec_droopEnd core cycles s : exec (.droopEnd core cycles) s = execDroopEnd core cycles s := rfl
theorem exec_meteringInterval energy selfCheckOk activity s : exec (.meteringInterval energy selfCheckOk activity) s = execMeteringInterval energy selfCheckOk activity s := rfl
theorem exec_selfRefreshEntry tower s : exec (.selfRefreshEntry tower) s = execSelfRefreshEntry tower s := rfl
theorem exec_selfRefreshExit tower s : exec (.selfRefreshExit tower) s = execSelfRefreshExit tower s := rfl
theorem exec_protocolException can s : exec (.protocolException can) s = execProtocolException can s := rfl
theorem exec_cameraLinkLock cam gear s : exec (.cameraLinkLock cam gear) s = execCameraLinkLock cam gear s := rfl
theorem exec_slotEnd unit s : exec (.slotEnd unit) s = execSlotEnd unit s := rfl
theorem exec_supplyMonitorClear source s : exec (.supplyMonitorClear source) s = execSupplyMonitorClear source s := rfl
theorem exec_hostReadTimeout part target s : exec (.hostReadTimeout part target) s = execHostReadTimeout part target s := rfl

end Sys2Proof.Machine
end

