-- ==== Sys2Proof/Laws/State.lean ====
section
/-!
SUPPORT. The laws of the plain updates of the state: what each leaves unchanged, field by field.
-/

set_option Elab.async false

namespace Sys2Proof.Machine

@[simp] theorem State.setReg_pending (s : State) (k v : Nat) : (s.setReg k v).pending = s.pending := rfl
@[simp] theorem State.setReg_fresh (s : State) (k v : Nat) : (s.setReg k v).fresh = s.fresh := rfl
@[simp] theorem State.setReg_out (s : State) (k v : Nat) : (s.setReg k v).out = s.out := rfl
@[simp] theorem State.setReg_ports (s : State) (k v : Nat) : (s.setReg k v).ports = s.ports := rfl
@[simp] theorem State.setReg_boot (s : State) (k v : Nat) : (s.setReg k v).boot = s.boot := rfl
@[simp] theorem State.setReg_ward (s : State) (k v : Nat) : (s.setReg k v).ward = s.ward := rfl
@[simp] theorem State.setReg_sec (s : State) (k v : Nat) : (s.setReg k v).sec = s.sec := rfl
@[simp] theorem State.setReg_pwr (s : State) (k v : Nat) : (s.setReg k v).pwr = s.pwr := rfl
@[simp] theorem State.setReg_safe (s : State) (k v : Nat) : (s.setReg k v).safe = s.safe := rfl
@[simp] theorem State.setReg_time (s : State) (k v : Nat) : (s.setReg k v).time = s.time := rfl
@[simp] theorem State.setReg_comp (s : State) (k v : Nat) : (s.setReg k v).comp = s.comp := rfl
@[simp] theorem State.setReg_dram (s : State) (k v : Nat) : (s.setReg k v).dram = s.dram := rfl
@[simp] theorem State.setReg_kv (s : State) (k v : Nat) : (s.setReg k v).kv = s.kv := rfl
@[simp] theorem State.setReg_ing (s : State) (k v : Nat) : (s.setReg k v).ing = s.ing := rfl
@[simp] theorem State.setReg_ctl (s : State) (k v : Nat) : (s.setReg k v).ctl = s.ctl := rfl
@[simp] theorem State.setReg_can (s : State) (k v : Nat) : (s.setReg k v).can = s.can := rfl
@[simp] theorem State.setReg_t1s (s : State) (k v : Nat) : (s.setReg k v).t1s = s.t1s := rfl
@[simp] theorem State.setReg_eth (s : State) (k v : Nat) : (s.setReg k v).eth = s.eth := rfl
@[simp] theorem State.setRegs_pending (s : State) (k : Nat) (l : List Nat) : (s.setRegs k l).pending = s.pending := by
  induction l generalizing s k with
  | nil => rfl
  | cons v t ih => exact (ih (s.setReg k v) (k + 4)).trans rfl
@[simp] theorem State.setRegs_fresh (s : State) (k : Nat) (l : List Nat) : (s.setRegs k l).fresh = s.fresh := by
  induction l generalizing s k with
  | nil => rfl
  | cons v t ih => exact (ih (s.setReg k v) (k + 4)).trans rfl
@[simp] theorem State.setRegs_out (s : State) (k : Nat) (l : List Nat) : (s.setRegs k l).out = s.out := by
  induction l generalizing s k with
  | nil => rfl
  | cons v t ih => exact (ih (s.setReg k v) (k + 4)).trans rfl
@[simp] theorem State.setRegs_ports (s : State) (k : Nat) (l : List Nat) : (s.setRegs k l).ports = s.ports := by
  induction l generalizing s k with
  | nil => rfl
  | cons v t ih => exact (ih (s.setReg k v) (k + 4)).trans rfl
@[simp] theorem State.setRegs_boot (s : State) (k : Nat) (l : List Nat) : (s.setRegs k l).boot = s.boot := by
  induction l generalizing s k with
  | nil => rfl
  | cons v t ih => exact (ih (s.setReg k v) (k + 4)).trans rfl
@[simp] theorem State.setRegs_ward (s : State) (k : Nat) (l : List Nat) : (s.setRegs k l).ward = s.ward := by
  induction l generalizing s k with
  | nil => rfl
  | cons v t ih => exact (ih (s.setReg k v) (k + 4)).trans rfl
@[simp] theorem State.setRegs_sec (s : State) (k : Nat) (l : List Nat) : (s.setRegs k l).sec = s.sec := by
  induction l generalizing s k with
  | nil => rfl
  | cons v t ih => exact (ih (s.setReg k v) (k + 4)).trans rfl
@[simp] theorem State.setRegs_pwr (s : State) (k : Nat) (l : List Nat) : (s.setRegs k l).pwr = s.pwr := by
  induction l generalizing s k with
  | nil => rfl
  | cons v t ih => exact (ih (s.setReg k v) (k + 4)).trans rfl
@[simp] theorem State.setRegs_safe (s : State) (k : Nat) (l : List Nat) : (s.setRegs k l).safe = s.safe := by
  induction l generalizing s k with
  | nil => rfl
  | cons v t ih => exact (ih (s.setReg k v) (k + 4)).trans rfl
@[simp] theorem State.setRegs_time (s : State) (k : Nat) (l : List Nat) : (s.setRegs k l).time = s.time := by
  induction l generalizing s k with
  | nil => rfl
  | cons v t ih => exact (ih (s.setReg k v) (k + 4)).trans rfl
@[simp] theorem State.setRegs_comp (s : State) (k : Nat) (l : List Nat) : (s.setRegs k l).comp = s.comp := by
  induction l generalizing s k with
  | nil => rfl
  | cons v t ih => exact (ih (s.setReg k v) (k + 4)).trans rfl
@[simp] theorem State.setRegs_dram (s : State) (k : Nat) (l : List Nat) : (s.setRegs k l).dram = s.dram := by
  induction l generalizing s k with
  | nil => rfl
  | cons v t ih => exact (ih (s.setReg k v) (k + 4)).trans rfl
@[simp] theorem State.setRegs_kv (s : State) (k : Nat) (l : List Nat) : (s.setRegs k l).kv = s.kv := by
  induction l generalizing s k with
  | nil => rfl
  | cons v t ih => exact (ih (s.setReg k v) (k + 4)).trans rfl
@[simp] theorem State.setRegs_ing (s : State) (k : Nat) (l : List Nat) : (s.setRegs k l).ing = s.ing := by
  induction l generalizing s k with
  | nil => rfl
  | cons v t ih => exact (ih (s.setReg k v) (k + 4)).trans rfl
@[simp] theorem State.setRegs_ctl (s : State) (k : Nat) (l : List Nat) : (s.setRegs k l).ctl = s.ctl := by
  induction l generalizing s k with
  | nil => rfl
  | cons v t ih => exact (ih (s.setReg k v) (k + 4)).trans rfl
@[simp] theorem State.setRegs_can (s : State) (k : Nat) (l : List Nat) : (s.setRegs k l).can = s.can := by
  induction l generalizing s k with
  | nil => rfl
  | cons v t ih => exact (ih (s.setReg k v) (k + 4)).trans rfl
@[simp] theorem State.setRegs_t1s (s : State) (k : Nat) (l : List Nat) : (s.setRegs k l).t1s = s.t1s := by
  induction l generalizing s k with
  | nil => rfl
  | cons v t ih => exact (ih (s.setReg k v) (k + 4)).trans rfl
@[simp] theorem State.setRegs_eth (s : State) (k : Nat) (l : List Nat) : (s.setRegs k l).eth = s.eth := by
  induction l generalizing s k with
  | nil => rfl
  | cons v t ih => exact (ih (s.setReg k v) (k + 4)).trans rfl
@[simp] theorem State.bump_pending (s : State) (k n : Nat) : (s.bump k n).pending = s.pending := rfl
@[simp] theorem State.bump_fresh (s : State) (k n : Nat) : (s.bump k n).fresh = s.fresh := rfl
@[simp] theorem State.bump_out (s : State) (k n : Nat) : (s.bump k n).out = s.out := rfl
@[simp] theorem State.bump_ports (s : State) (k n : Nat) : (s.bump k n).ports = s.ports := rfl
@[simp] theorem State.bump_boot (s : State) (k n : Nat) : (s.bump k n).boot = s.boot := rfl
@[simp] theorem State.bump_ward (s : State) (k n : Nat) : (s.bump k n).ward = s.ward := rfl
@[simp] theorem State.bump_sec (s : State) (k n : Nat) : (s.bump k n).sec = s.sec := rfl
@[simp] theorem State.bump_pwr (s : State) (k n : Nat) : (s.bump k n).pwr = s.pwr := rfl
@[simp] theorem State.bump_safe (s : State) (k n : Nat) : (s.bump k n).safe = s.safe := rfl
@[simp] theorem State.bump_time (s : State) (k n : Nat) : (s.bump k n).time = s.time := rfl
@[simp] theorem State.bump_comp (s : State) (k n : Nat) : (s.bump k n).comp = s.comp := rfl
@[simp] theorem State.bump_dram (s : State) (k n : Nat) : (s.bump k n).dram = s.dram := rfl
@[simp] theorem State.bump_kv (s : State) (k n : Nat) : (s.bump k n).kv = s.kv := rfl
@[simp] theorem State.bump_ing (s : State) (k n : Nat) : (s.bump k n).ing = s.ing := rfl
@[simp] theorem State.bump_ctl (s : State) (k n : Nat) : (s.bump k n).ctl = s.ctl := rfl
@[simp] theorem State.bump_can (s : State) (k n : Nat) : (s.bump k n).can = s.can := rfl
@[simp] theorem State.bump_t1s (s : State) (k n : Nat) : (s.bump k n).t1s = s.t1s := rfl
@[simp] theorem State.bump_eth (s : State) (k n : Nat) : (s.bump k n).eth = s.eth := rfl
@[simp] theorem State.emit_pending (s : State) (o : Out) : (s.emit o).pending = s.pending := rfl
@[simp] theorem State.emit_fresh (s : State) (o : Out) : (s.emit o).fresh = s.fresh := rfl
@[simp] theorem State.emit_regs (s : State) (o : Out) : (s.emit o).regs = s.regs := rfl
@[simp] theorem State.emit_ports (s : State) (o : Out) : (s.emit o).ports = s.ports := rfl
@[simp] theorem State.emit_boot (s : State) (o : Out) : (s.emit o).boot = s.boot := rfl
@[simp] theorem State.emit_ward (s : State) (o : Out) : (s.emit o).ward = s.ward := rfl
@[simp] theorem State.emit_sec (s : State) (o : Out) : (s.emit o).sec = s.sec := rfl
@[simp] theorem State.emit_pwr (s : State) (o : Out) : (s.emit o).pwr = s.pwr := rfl
@[simp] theorem State.emit_safe (s : State) (o : Out) : (s.emit o).safe = s.safe := rfl
@[simp] theorem State.emit_time (s : State) (o : Out) : (s.emit o).time = s.time := rfl
@[simp] theorem State.emit_comp (s : State) (o : Out) : (s.emit o).comp = s.comp := rfl
@[simp] theorem State.emit_dram (s : State) (o : Out) : (s.emit o).dram = s.dram := rfl
@[simp] theorem State.emit_kv (s : State) (o : Out) : (s.emit o).kv = s.kv := rfl
@[simp] theorem State.emit_ing (s : State) (o : Out) : (s.emit o).ing = s.ing := rfl
@[simp] theorem State.emit_ctl (s : State) (o : Out) : (s.emit o).ctl = s.ctl := rfl
@[simp] theorem State.emit_can (s : State) (o : Out) : (s.emit o).can = s.can := rfl
@[simp] theorem State.emit_t1s (s : State) (o : Out) : (s.emit o).t1s = s.t1s := rfl
@[simp] theorem State.emit_eth (s : State) (o : Out) : (s.emit o).eth = s.eth := rfl
@[simp] theorem State.modPort_pending (s : State) (p : Nat) (f : PortSt → PortSt) : (s.modPort p f).pending = s.pending := rfl
@[simp] theorem State.modPort_fresh (s : State) (p : Nat) (f : PortSt → PortSt) : (s.modPort p f).fresh = s.fresh := rfl
@[simp] theorem State.modPort_out (s : State) (p : Nat) (f : PortSt → PortSt) : (s.modPort p f).out = s.out := rfl
@[simp] theorem State.modPort_regs (s : State) (p : Nat) (f : PortSt → PortSt) : (s.modPort p f).regs = s.regs := rfl
@[simp] theorem State.modPort_boot (s : State) (p : Nat) (f : PortSt → PortSt) : (s.modPort p f).boot = s.boot := rfl
@[simp] theorem State.modPort_ward (s : State) (p : Nat) (f : PortSt → PortSt) : (s.modPort p f).ward = s.ward := rfl
@[simp] theorem State.modPort_sec (s : State) (p : Nat) (f : PortSt → PortSt) : (s.modPort p f).sec = s.sec := rfl
@[simp] theorem State.modPort_pwr (s : State) (p : Nat) (f : PortSt → PortSt) : (s.modPort p f).pwr = s.pwr := rfl
@[simp] theorem State.modPort_safe (s : State) (p : Nat) (f : PortSt → PortSt) : (s.modPort p f).safe = s.safe := rfl
@[simp] theorem State.modPort_time (s : State) (p : Nat) (f : PortSt → PortSt) : (s.modPort p f).time = s.time := rfl
@[simp] theorem State.modPort_comp (s : State) (p : Nat) (f : PortSt → PortSt) : (s.modPort p f).comp = s.comp := rfl
@[simp] theorem State.modPort_dram (s : State) (p : Nat) (f : PortSt → PortSt) : (s.modPort p f).dram = s.dram := rfl
@[simp] theorem State.modPort_kv (s : State) (p : Nat) (f : PortSt → PortSt) : (s.modPort p f).kv = s.kv := rfl
@[simp] theorem State.modPort_ing (s : State) (p : Nat) (f : PortSt → PortSt) : (s.modPort p f).ing = s.ing := rfl
@[simp] theorem State.modPort_ctl (s : State) (p : Nat) (f : PortSt → PortSt) : (s.modPort p f).ctl = s.ctl := rfl
@[simp] theorem State.modPort_can (s : State) (p : Nat) (f : PortSt → PortSt) : (s.modPort p f).can = s.can := rfl
@[simp] theorem State.modPort_t1s (s : State) (p : Nat) (f : PortSt → PortSt) : (s.modPort p f).t1s = s.t1s := rfl
@[simp] theorem State.modPort_eth (s : State) (p : Nat) (f : PortSt → PortSt) : (s.modPort p f).eth = s.eth := rfl
@[simp] theorem State.modWard_pending (s : State) (f : WardSt → WardSt) : (s.modWard f).pending = s.pending := rfl
@[simp] theorem State.modWard_fresh (s : State) (f : WardSt → WardSt) : (s.modWard f).fresh = s.fresh := rfl
@[simp] theorem State.modWard_out (s : State) (f : WardSt → WardSt) : (s.modWard f).out = s.out := rfl
@[simp] theorem State.modWard_regs (s : State) (f : WardSt → WardSt) : (s.modWard f).regs = s.regs := rfl
@[simp] theorem State.modWard_ports (s : State) (f : WardSt → WardSt) : (s.modWard f).ports = s.ports := rfl
@[simp] theorem State.modWard_boot (s : State) (f : WardSt → WardSt) : (s.modWard f).boot = s.boot := rfl
@[simp] theorem State.modWard_sec (s : State) (f : WardSt → WardSt) : (s.modWard f).sec = s.sec := rfl
@[simp] theorem State.modWard_pwr (s : State) (f : WardSt → WardSt) : (s.modWard f).pwr = s.pwr := rfl
@[simp] theorem State.modWard_safe (s : State) (f : WardSt → WardSt) : (s.modWard f).safe = s.safe := rfl
@[simp] theorem State.modWard_time (s : State) (f : WardSt → WardSt) : (s.modWard f).time = s.time := rfl
@[simp] theorem State.modWard_comp (s : State) (f : WardSt → WardSt) : (s.modWard f).comp = s.comp := rfl
@[simp] theorem State.modWard_dram (s : State) (f : WardSt → WardSt) : (s.modWard f).dram = s.dram := rfl
@[simp] theorem State.modWard_kv (s : State) (f : WardSt → WardSt) : (s.modWard f).kv = s.kv := rfl
@[simp] theorem State.modWard_ing (s : State) (f : WardSt → WardSt) : (s.modWard f).ing = s.ing := rfl
@[simp] theorem State.modWard_ctl (s : State) (f : WardSt → WardSt) : (s.modWard f).ctl = s.ctl := rfl
@[simp] theorem State.modWard_can (s : State) (f : WardSt → WardSt) : (s.modWard f).can = s.can := rfl
@[simp] theorem State.modWard_t1s (s : State) (f : WardSt → WardSt) : (s.modWard f).t1s = s.t1s := rfl
@[simp] theorem State.modWard_eth (s : State) (f : WardSt → WardSt) : (s.modWard f).eth = s.eth := rfl
@[simp] theorem State.modMb_pending (s : State) (f : MailboxSt → MailboxSt) : (s.modMb f).pending = s.pending := rfl
@[simp] theorem State.modMb_fresh (s : State) (f : MailboxSt → MailboxSt) : (s.modMb f).fresh = s.fresh := rfl
@[simp] theorem State.modMb_out (s : State) (f : MailboxSt → MailboxSt) : (s.modMb f).out = s.out := rfl
@[simp] theorem State.modMb_regs (s : State) (f : MailboxSt → MailboxSt) : (s.modMb f).regs = s.regs := rfl
@[simp] theorem State.modMb_ports (s : State) (f : MailboxSt → MailboxSt) : (s.modMb f).ports = s.ports := rfl
@[simp] theorem State.modMb_boot (s : State) (f : MailboxSt → MailboxSt) : (s.modMb f).boot = s.boot := rfl
@[simp] theorem State.modMb_ward (s : State) (f : MailboxSt → MailboxSt) : (s.modMb f).ward = s.ward := rfl
@[simp] theorem State.modMb_pwr (s : State) (f : MailboxSt → MailboxSt) : (s.modMb f).pwr = s.pwr := rfl
@[simp] theorem State.modMb_safe (s : State) (f : MailboxSt → MailboxSt) : (s.modMb f).safe = s.safe := rfl
@[simp] theorem State.modMb_time (s : State) (f : MailboxSt → MailboxSt) : (s.modMb f).time = s.time := rfl
@[simp] theorem State.modMb_comp (s : State) (f : MailboxSt → MailboxSt) : (s.modMb f).comp = s.comp := rfl
@[simp] theorem State.modMb_dram (s : State) (f : MailboxSt → MailboxSt) : (s.modMb f).dram = s.dram := rfl
@[simp] theorem State.modMb_kv (s : State) (f : MailboxSt → MailboxSt) : (s.modMb f).kv = s.kv := rfl
@[simp] theorem State.modMb_ing (s : State) (f : MailboxSt → MailboxSt) : (s.modMb f).ing = s.ing := rfl
@[simp] theorem State.modMb_ctl (s : State) (f : MailboxSt → MailboxSt) : (s.modMb f).ctl = s.ctl := rfl
@[simp] theorem State.modMb_can (s : State) (f : MailboxSt → MailboxSt) : (s.modMb f).can = s.can := rfl
@[simp] theorem State.modMb_t1s (s : State) (f : MailboxSt → MailboxSt) : (s.modMb f).t1s = s.t1s := rfl
@[simp] theorem State.modMb_eth (s : State) (f : MailboxSt → MailboxSt) : (s.modMb f).eth = s.eth := rfl
@[simp] theorem State.modDom_pending (s : State) (d : Nat) (f : DomSt → DomSt) : (s.modDom d f).pending = s.pending := rfl
@[simp] theorem State.modDom_fresh (s : State) (d : Nat) (f : DomSt → DomSt) : (s.modDom d f).fresh = s.fresh := rfl
@[simp] theorem State.modDom_out (s : State) (d : Nat) (f : DomSt → DomSt) : (s.modDom d f).out = s.out := rfl
@[simp] theorem State.modDom_regs (s : State) (d : Nat) (f : DomSt → DomSt) : (s.modDom d f).regs = s.regs := rfl
@[simp] theorem State.modDom_ports (s : State) (d : Nat) (f : DomSt → DomSt) : (s.modDom d f).ports = s.ports := rfl
@[simp] theorem State.modDom_boot (s : State) (d : Nat) (f : DomSt → DomSt) : (s.modDom d f).boot = s.boot := rfl
@[simp] theorem State.modDom_ward (s : State) (d : Nat) (f : DomSt → DomSt) : (s.modDom d f).ward = s.ward := rfl
@[simp] theorem State.modDom_sec (s : State) (d : Nat) (f : DomSt → DomSt) : (s.modDom d f).sec = s.sec := rfl
@[simp] theorem State.modDom_safe (s : State) (d : Nat) (f : DomSt → DomSt) : (s.modDom d f).safe = s.safe := rfl
@[simp] theorem State.modDom_time (s : State) (d : Nat) (f : DomSt → DomSt) : (s.modDom d f).time = s.time := rfl
@[simp] theorem State.modDom_comp (s : State) (d : Nat) (f : DomSt → DomSt) : (s.modDom d f).comp = s.comp := rfl
@[simp] theorem State.modDom_dram (s : State) (d : Nat) (f : DomSt → DomSt) : (s.modDom d f).dram = s.dram := rfl
@[simp] theorem State.modDom_kv (s : State) (d : Nat) (f : DomSt → DomSt) : (s.modDom d f).kv = s.kv := rfl
@[simp] theorem State.modDom_ing (s : State) (d : Nat) (f : DomSt → DomSt) : (s.modDom d f).ing = s.ing := rfl
@[simp] theorem State.modDom_ctl (s : State) (d : Nat) (f : DomSt → DomSt) : (s.modDom d f).ctl = s.ctl := rfl
@[simp] theorem State.modDom_can (s : State) (d : Nat) (f : DomSt → DomSt) : (s.modDom d f).can = s.can := rfl
@[simp] theorem State.modDom_t1s (s : State) (d : Nat) (f : DomSt → DomSt) : (s.modDom d f).t1s = s.t1s := rfl
@[simp] theorem State.modDom_eth (s : State) (d : Nat) (f : DomSt → DomSt) : (s.modDom d f).eth = s.eth := rfl
@[simp] theorem State.modUnit_pending (s : State) (u : Nat) (f : TestSt → TestSt) : (s.modUnit u f).pending = s.pending := rfl
@[simp] theorem State.modUnit_fresh (s : State) (u : Nat) (f : TestSt → TestSt) : (s.modUnit u f).fresh = s.fresh := rfl
@[simp] theorem State.modUnit_out (s : State) (u : Nat) (f : TestSt → TestSt) : (s.modUnit u f).out = s.out := rfl
@[simp] theorem State.modUnit_regs (s : State) (u : Nat) (f : TestSt → TestSt) : (s.modUnit u f).regs = s.regs := rfl
@[simp] theorem State.modUnit_ports (s : State) (u : Nat) (f : TestSt → TestSt) : (s.modUnit u f).ports = s.ports := rfl
@[simp] theorem State.modUnit_boot (s : State) (u : Nat) (f : TestSt → TestSt) : (s.modUnit u f).boot = s.boot := rfl
@[simp] theorem State.modUnit_ward (s : State) (u : Nat) (f : TestSt → TestSt) : (s.modUnit u f).ward = s.ward := rfl
@[simp] theorem State.modUnit_sec (s : State) (u : Nat) (f : TestSt → TestSt) : (s.modUnit u f).sec = s.sec := rfl
@[simp] theorem State.modUnit_pwr (s : State) (u : Nat) (f : TestSt → TestSt) : (s.modUnit u f).pwr = s.pwr := rfl
@[simp] theorem State.modUnit_time (s : State) (u : Nat) (f : TestSt → TestSt) : (s.modUnit u f).time = s.time := rfl
@[simp] theorem State.modUnit_comp (s : State) (u : Nat) (f : TestSt → TestSt) : (s.modUnit u f).comp = s.comp := rfl
@[simp] theorem State.modUnit_dram (s : State) (u : Nat) (f : TestSt → TestSt) : (s.modUnit u f).dram = s.dram := rfl
@[simp] theorem State.modUnit_kv (s : State) (u : Nat) (f : TestSt → TestSt) : (s.modUnit u f).kv = s.kv := rfl
@[simp] theorem State.modUnit_ing (s : State) (u : Nat) (f : TestSt → TestSt) : (s.modUnit u f).ing = s.ing := rfl
@[simp] theorem State.modUnit_ctl (s : State) (u : Nat) (f : TestSt → TestSt) : (s.modUnit u f).ctl = s.ctl := rfl
@[simp] theorem State.modUnit_can (s : State) (u : Nat) (f : TestSt → TestSt) : (s.modUnit u f).can = s.can := rfl
@[simp] theorem State.modUnit_t1s (s : State) (u : Nat) (f : TestSt → TestSt) : (s.modUnit u f).t1s = s.t1s := rfl
@[simp] theorem State.modUnit_eth (s : State) (u : Nat) (f : TestSt → TestSt) : (s.modUnit u f).eth = s.eth := rfl
@[simp] theorem State.setCatch_pending (s : State) (k v : Nat) : (s.setCatch k v).pending = s.pending := rfl
@[simp] theorem State.setCatch_fresh (s : State) (k v : Nat) : (s.setCatch k v).fresh = s.fresh := rfl
@[simp] theorem State.setCatch_out (s : State) (k v : Nat) : (s.setCatch k v).out = s.out := rfl
@[simp] theorem State.setCatch_regs (s : State) (k v : Nat) : (s.setCatch k v).regs = s.regs := rfl
@[simp] theorem State.setCatch_ports (s : State) (k v : Nat) : (s.setCatch k v).ports = s.ports := rfl
@[simp] theorem State.setCatch_boot (s : State) (k v : Nat) : (s.setCatch k v).boot = s.boot := rfl
@[simp] theorem State.setCatch_ward (s : State) (k v : Nat) : (s.setCatch k v).ward = s.ward := rfl
@[simp] theorem State.setCatch_sec (s : State) (k v : Nat) : (s.setCatch k v).sec = s.sec := rfl
@[simp] theorem State.setCatch_pwr (s : State) (k v : Nat) : (s.setCatch k v).pwr = s.pwr := rfl
@[simp] theorem State.setCatch_safe (s : State) (k v : Nat) : (s.setCatch k v).safe = s.safe := rfl
@[simp] theorem State.setCatch_time (s : State) (k v : Nat) : (s.setCatch k v).time = s.time := rfl
@[simp] theorem State.setCatch_dram (s : State) (k v : Nat) : (s.setCatch k v).dram = s.dram := rfl
@[simp] theorem State.setCatch_kv (s : State) (k v : Nat) : (s.setCatch k v).kv = s.kv := rfl
@[simp] theorem State.setCatch_ing (s : State) (k v : Nat) : (s.setCatch k v).ing = s.ing := rfl
@[simp] theorem State.setCatch_ctl (s : State) (k v : Nat) : (s.setCatch k v).ctl = s.ctl := rfl
@[simp] theorem State.setCatch_can (s : State) (k v : Nat) : (s.setCatch k v).can = s.can := rfl
@[simp] theorem State.setCatch_t1s (s : State) (k v : Nat) : (s.setCatch k v).t1s = s.t1s := rfl
@[simp] theorem State.setCatch_eth (s : State) (k v : Nat) : (s.setCatch k v).eth = s.eth := rfl
@[simp] theorem State.modPart_pending (s : State) (p : Nat) (f : PartSt → PartSt) : (s.modPart p f).pending = s.pending := rfl
@[simp] theorem State.modPart_fresh (s : State) (p : Nat) (f : PartSt → PartSt) : (s.modPart p f).fresh = s.fresh := rfl
@[simp] theorem State.modPart_out (s : State) (p : Nat) (f : PartSt → PartSt) : (s.modPart p f).out = s.out := rfl
@[simp] theorem State.modPart_regs (s : State) (p : Nat) (f : PartSt → PartSt) : (s.modPart p f).regs = s.regs := rfl
@[simp] theorem State.modPart_ports (s : State) (p : Nat) (f : PartSt → PartSt) : (s.modPart p f).ports = s.ports := rfl
@[simp] theorem State.modPart_boot (s : State) (p : Nat) (f : PartSt → PartSt) : (s.modPart p f).boot = s.boot := rfl
@[simp] theorem State.modPart_ward (s : State) (p : Nat) (f : PartSt → PartSt) : (s.modPart p f).ward = s.ward := rfl
@[simp] theorem State.modPart_sec (s : State) (p : Nat) (f : PartSt → PartSt) : (s.modPart p f).sec = s.sec := rfl
@[simp] theorem State.modPart_pwr (s : State) (p : Nat) (f : PartSt → PartSt) : (s.modPart p f).pwr = s.pwr := rfl
@[simp] theorem State.modPart_safe (s : State) (p : Nat) (f : PartSt → PartSt) : (s.modPart p f).safe = s.safe := rfl
@[simp] theorem State.modPart_time (s : State) (p : Nat) (f : PartSt → PartSt) : (s.modPart p f).time = s.time := rfl
@[simp] theorem State.modPart_dram (s : State) (p : Nat) (f : PartSt → PartSt) : (s.modPart p f).dram = s.dram := rfl
@[simp] theorem State.modPart_kv (s : State) (p : Nat) (f : PartSt → PartSt) : (s.modPart p f).kv = s.kv := rfl
@[simp] theorem State.modPart_ing (s : State) (p : Nat) (f : PartSt → PartSt) : (s.modPart p f).ing = s.ing := rfl
@[simp] theorem State.modPart_ctl (s : State) (p : Nat) (f : PartSt → PartSt) : (s.modPart p f).ctl = s.ctl := rfl
@[simp] theorem State.modPart_can (s : State) (p : Nat) (f : PartSt → PartSt) : (s.modPart p f).can = s.can := rfl
@[simp] theorem State.modPart_t1s (s : State) (p : Nat) (f : PartSt → PartSt) : (s.modPart p f).t1s = s.t1s := rfl
@[simp] theorem State.modPart_eth (s : State) (p : Nat) (f : PartSt → PartSt) : (s.modPart p f).eth = s.eth := rfl
@[simp] theorem State.modQueue_pending (s : State) (q : Nat) (f : QueueSt → QueueSt) : (s.modQueue q f).pending = s.pending := rfl
@[simp] theorem State.modQueue_fresh (s : State) (q : Nat) (f : QueueSt → QueueSt) : (s.modQueue q f).fresh = s.fresh := rfl
@[simp] theorem State.modQueue_out (s : State) (q : Nat) (f : QueueSt → QueueSt) : (s.modQueue q f).out = s.out := rfl
@[simp] theorem State.modQueue_regs (s : State) (q : Nat) (f : QueueSt → QueueSt) : (s.modQueue q f).regs = s.regs := rfl
@[simp] theorem State.modQueue_ports (s : State) (q : Nat) (f : QueueSt → QueueSt) : (s.modQueue q f).ports = s.ports := rfl
@[simp] theorem State.modQueue_boot (s : State) (q : Nat) (f : QueueSt → QueueSt) : (s.modQueue q f).boot = s.boot := rfl
@[simp] theorem State.modQueue_ward (s : State) (q : Nat) (f : QueueSt → QueueSt) : (s.modQueue q f).ward = s.ward := rfl
@[simp] theorem State.modQueue_sec (s : State) (q : Nat) (f : QueueSt → QueueSt) : (s.modQueue q f).sec = s.sec := rfl
@[simp] theorem State.modQueue_pwr (s : State) (q : Nat) (f : QueueSt → QueueSt) : (s.modQueue q f).pwr = s.pwr := rfl
@[simp] theorem State.modQueue_safe (s : State) (q : Nat) (f : QueueSt → QueueSt) : (s.modQueue q f).safe = s.safe := rfl
@[simp] theorem State.modQueue_time (s : State) (q : Nat) (f : QueueSt → QueueSt) : (s.modQueue q f).time = s.time := rfl
@[simp] theorem State.modQueue_dram (s : State) (q : Nat) (f : QueueSt → QueueSt) : (s.modQueue q f).dram = s.dram := rfl
@[simp] theorem State.modQueue_kv (s : State) (q : Nat) (f : QueueSt → QueueSt) : (s.modQueue q f).kv = s.kv := rfl
@[simp] theorem State.modQueue_ing (s : State) (q : Nat) (f : QueueSt → QueueSt) : (s.modQueue q f).ing = s.ing := rfl
@[simp] theorem State.modQueue_ctl (s : State) (q : Nat) (f : QueueSt → QueueSt) : (s.modQueue q f).ctl = s.ctl := rfl
@[simp] theorem State.modQueue_can (s : State) (q : Nat) (f : QueueSt → QueueSt) : (s.modQueue q f).can = s.can := rfl
@[simp] theorem State.modQueue_t1s (s : State) (q : Nat) (f : QueueSt → QueueSt) : (s.modQueue q f).t1s = s.t1s := rfl
@[simp] theorem State.modQueue_eth (s : State) (q : Nat) (f : QueueSt → QueueSt) : (s.modQueue q f).eth = s.eth := rfl
@[simp] theorem State.modJob_pending (s : State) (p : Nat) (f : Job → Job) : (s.modJob p f).pending = s.pending := rfl
@[simp] theorem State.modJob_fresh (s : State) (p : Nat) (f : Job → Job) : (s.modJob p f).fresh = s.fresh := rfl
@[simp] theorem State.modJob_out (s : State) (p : Nat) (f : Job → Job) : (s.modJob p f).out = s.out := rfl
@[simp] theorem State.modJob_regs (s : State) (p : Nat) (f : Job → Job) : (s.modJob p f).regs = s.regs := rfl
@[simp] theorem State.modJob_ports (s : State) (p : Nat) (f : Job → Job) : (s.modJob p f).ports = s.ports := rfl
@[simp] theorem State.modJob_boot (s : State) (p : Nat) (f : Job → Job) : (s.modJob p f).boot = s.boot := rfl
@[simp] theorem State.modJob_ward (s : State) (p : Nat) (f : Job → Job) : (s.modJob p f).ward = s.ward := rfl
@[simp] theorem State.modJob_sec (s : State) (p : Nat) (f : Job → Job) : (s.modJob p f).sec = s.sec := rfl
@[simp] theorem State.modJob_pwr (s : State) (p : Nat) (f : Job → Job) : (s.modJob p f).pwr = s.pwr := rfl
@[simp] theorem State.modJob_safe (s : State) (p : Nat) (f : Job → Job) : (s.modJob p f).safe = s.safe := rfl
@[simp] theorem State.modJob_time (s : State) (p : Nat) (f : Job → Job) : (s.modJob p f).time = s.time := rfl
@[simp] theorem State.modJob_dram (s : State) (p : Nat) (f : Job → Job) : (s.modJob p f).dram = s.dram := rfl
@[simp] theorem State.modJob_kv (s : State) (p : Nat) (f : Job → Job) : (s.modJob p f).kv = s.kv := rfl
@[simp] theorem State.modJob_ing (s : State) (p : Nat) (f : Job → Job) : (s.modJob p f).ing = s.ing := rfl
@[simp] theorem State.modJob_ctl (s : State) (p : Nat) (f : Job → Job) : (s.modJob p f).ctl = s.ctl := rfl
@[simp] theorem State.modJob_can (s : State) (p : Nat) (f : Job → Job) : (s.modJob p f).can = s.can := rfl
@[simp] theorem State.modJob_t1s (s : State) (p : Nat) (f : Job → Job) : (s.modJob p f).t1s = s.t1s := rfl
@[simp] theorem State.modJob_eth (s : State) (p : Nat) (f : Job → Job) : (s.modJob p f).eth = s.eth := rfl
@[simp] theorem State.modTgt_pending (s : State) (p t : Nat) (f : TargetSt → TargetSt) : (s.modTgt p t f).pending = s.pending := rfl
@[simp] theorem State.modTgt_fresh (s : State) (p t : Nat) (f : TargetSt → TargetSt) : (s.modTgt p t f).fresh = s.fresh := rfl
@[simp] theorem State.modTgt_out (s : State) (p t : Nat) (f : TargetSt → TargetSt) : (s.modTgt p t f).out = s.out := rfl
@[simp] theorem State.modTgt_regs (s : State) (p t : Nat) (f : TargetSt → TargetSt) : (s.modTgt p t f).regs = s.regs := rfl
@[simp] theorem State.modTgt_ports (s : State) (p t : Nat) (f : TargetSt → TargetSt) : (s.modTgt p t f).ports = s.ports := rfl
@[simp] theorem State.modTgt_boot (s : State) (p t : Nat) (f : TargetSt → TargetSt) : (s.modTgt p t f).boot = s.boot := rfl
@[simp] theorem State.modTgt_ward (s : State) (p t : Nat) (f : TargetSt → TargetSt) : (s.modTgt p t f).ward = s.ward := rfl
@[simp] theorem State.modTgt_sec (s : State) (p t : Nat) (f : TargetSt → TargetSt) : (s.modTgt p t f).sec = s.sec := rfl
@[simp] theorem State.modTgt_pwr (s : State) (p t : Nat) (f : TargetSt → TargetSt) : (s.modTgt p t f).pwr = s.pwr := rfl
@[simp] theorem State.modTgt_safe (s : State) (p t : Nat) (f : TargetSt → TargetSt) : (s.modTgt p t f).safe = s.safe := rfl
@[simp] theorem State.modTgt_time (s : State) (p t : Nat) (f : TargetSt → TargetSt) : (s.modTgt p t f).time = s.time := rfl
@[simp] theorem State.modTgt_dram (s : State) (p t : Nat) (f : TargetSt → TargetSt) : (s.modTgt p t f).dram = s.dram := rfl
@[simp] theorem State.modTgt_kv (s : State) (p t : Nat) (f : TargetSt → TargetSt) : (s.modTgt p t f).kv = s.kv := rfl
@[simp] theorem State.modTgt_ing (s : State) (p t : Nat) (f : TargetSt → TargetSt) : (s.modTgt p t f).ing = s.ing := rfl
@[simp] theorem State.modTgt_ctl (s : State) (p t : Nat) (f : TargetSt → TargetSt) : (s.modTgt p t f).ctl = s.ctl := rfl
@[simp] theorem State.modTgt_can (s : State) (p t : Nat) (f : TargetSt → TargetSt) : (s.modTgt p t f).can = s.can := rfl
@[simp] theorem State.modTgt_t1s (s : State) (p t : Nat) (f : TargetSt → TargetSt) : (s.modTgt p t f).t1s = s.t1s := rfl
@[simp] theorem State.modTgt_eth (s : State) (p t : Nat) (f : TargetSt → TargetSt) : (s.modTgt p t f).eth = s.eth := rfl
@[simp] theorem State.setPhase_pending (s : State) (p t idx : Nat) (ph : StepPhase) : (s.setPhase p t idx ph).pending = s.pending := rfl
@[simp] theorem State.setPhase_fresh (s : State) (p t idx : Nat) (ph : StepPhase) : (s.setPhase p t idx ph).fresh = s.fresh := rfl
@[simp] theorem State.setPhase_out (s : State) (p t idx : Nat) (ph : StepPhase) : (s.setPhase p t idx ph).out = s.out := rfl
@[simp] theorem State.setPhase_regs (s : State) (p t idx : Nat) (ph : StepPhase) : (s.setPhase p t idx ph).regs = s.regs := rfl
@[simp] theorem State.setPhase_ports (s : State) (p t idx : Nat) (ph : StepPhase) : (s.setPhase p t idx ph).ports = s.ports := rfl
@[simp] theorem State.setPhase_boot (s : State) (p t idx : Nat) (ph : StepPhase) : (s.setPhase p t idx ph).boot = s.boot := rfl
@[simp] theorem State.setPhase_ward (s : State) (p t idx : Nat) (ph : StepPhase) : (s.setPhase p t idx ph).ward = s.ward := rfl
@[simp] theorem State.setPhase_sec (s : State) (p t idx : Nat) (ph : StepPhase) : (s.setPhase p t idx ph).sec = s.sec := rfl
@[simp] theorem State.setPhase_pwr (s : State) (p t idx : Nat) (ph : StepPhase) : (s.setPhase p t idx ph).pwr = s.pwr := rfl
@[simp] theorem State.setPhase_safe (s : State) (p t idx : Nat) (ph : StepPhase) : (s.setPhase p t idx ph).safe = s.safe := rfl
@[simp] theorem State.setPhase_time (s : State) (p t idx : Nat) (ph : StepPhase) : (s.setPhase p t idx ph).time = s.time := rfl
@[simp] theorem State.setPhase_dram (s : State) (p t idx : Nat) (ph : StepPhase) : (s.setPhase p t idx ph).dram = s.dram := rfl
@[simp] theorem State.setPhase_kv (s : State) (p t idx : Nat) (ph : StepPhase) : (s.setPhase p t idx ph).kv = s.kv := rfl
@[simp] theorem State.setPhase_ing (s : State) (p t idx : Nat) (ph : StepPhase) : (s.setPhase p t idx ph).ing = s.ing := rfl
@[simp] theorem State.setPhase_ctl (s : State) (p t idx : Nat) (ph : StepPhase) : (s.setPhase p t idx ph).ctl = s.ctl := rfl
@[simp] theorem State.setPhase_can (s : State) (p t idx : Nat) (ph : StepPhase) : (s.setPhase p t idx ph).can = s.can := rfl
@[simp] theorem State.setPhase_t1s (s : State) (p t idx : Nat) (ph : StepPhase) : (s.setPhase p t idx ph).t1s = s.t1s := rfl
@[simp] theorem State.setPhase_eth (s : State) (p t idx : Nat) (ph : StepPhase) : (s.setPhase p t idx ph).eth = s.eth := rfl
@[simp] theorem State.modTower_pending (s : State) (t : Nat) (f : TowerSt → TowerSt) : (s.modTower t f).pending = s.pending := rfl
@[simp] theorem State.modTower_fresh (s : State) (t : Nat) (f : TowerSt → TowerSt) : (s.modTower t f).fresh = s.fresh := rfl
@[simp] theorem State.modTower_out (s : State) (t : Nat) (f : TowerSt → TowerSt) : (s.modTower t f).out = s.out := rfl
@[simp] theorem State.modTower_regs (s : State) (t : Nat) (f : TowerSt → TowerSt) : (s.modTower t f).regs = s.regs := rfl
@[simp] theorem State.modTower_ports (s : State) (t : Nat) (f : TowerSt → TowerSt) : (s.modTower t f).ports = s.ports := rfl
@[simp] theorem State.modTower_boot (s : State) (t : Nat) (f : TowerSt → TowerSt) : (s.modTower t f).boot = s.boot := rfl
@[simp] theorem State.modTower_ward (s : State) (t : Nat) (f : TowerSt → TowerSt) : (s.modTower t f).ward = s.ward := rfl
@[simp] theorem State.modTower_sec (s : State) (t : Nat) (f : TowerSt → TowerSt) : (s.modTower t f).sec = s.sec := rfl
@[simp] theorem State.modTower_pwr (s : State) (t : Nat) (f : TowerSt → TowerSt) : (s.modTower t f).pwr = s.pwr := rfl
@[simp] theorem State.modTower_safe (s : State) (t : Nat) (f : TowerSt → TowerSt) : (s.modTower t f).safe = s.safe := rfl
@[simp] theorem State.modTower_time (s : State) (t : Nat) (f : TowerSt → TowerSt) : (s.modTower t f).time = s.time := rfl
@[simp] theorem State.modTower_comp (s : State) (t : Nat) (f : TowerSt → TowerSt) : (s.modTower t f).comp = s.comp := rfl
@[simp] theorem State.modTower_kv (s : State) (t : Nat) (f : TowerSt → TowerSt) : (s.modTower t f).kv = s.kv := rfl
@[simp] theorem State.modTower_ing (s : State) (t : Nat) (f : TowerSt → TowerSt) : (s.modTower t f).ing = s.ing := rfl
@[simp] theorem State.modTower_ctl (s : State) (t : Nat) (f : TowerSt → TowerSt) : (s.modTower t f).ctl = s.ctl := rfl
@[simp] theorem State.modTower_can (s : State) (t : Nat) (f : TowerSt → TowerSt) : (s.modTower t f).can = s.can := rfl
@[simp] theorem State.modTower_t1s (s : State) (t : Nat) (f : TowerSt → TowerSt) : (s.modTower t f).t1s = s.t1s := rfl
@[simp] theorem State.modTower_eth (s : State) (t : Nat) (f : TowerSt → TowerSt) : (s.modTower t f).eth = s.eth := rfl
@[simp] theorem State.modCtx_pending (s : State) (p c : Nat) (f : CtxSt → CtxSt) : (s.modCtx p c f).pending = s.pending := rfl
@[simp] theorem State.modCtx_fresh (s : State) (p c : Nat) (f : CtxSt → CtxSt) : (s.modCtx p c f).fresh = s.fresh := rfl
@[simp] theorem State.modCtx_out (s : State) (p c : Nat) (f : CtxSt → CtxSt) : (s.modCtx p c f).out = s.out := rfl
@[simp] theorem State.modCtx_regs (s : State) (p c : Nat) (f : CtxSt → CtxSt) : (s.modCtx p c f).regs = s.regs := rfl
@[simp] theorem State.modCtx_ports (s : State) (p c : Nat) (f : CtxSt → CtxSt) : (s.modCtx p c f).ports = s.ports := rfl
@[simp] theorem State.modCtx_boot (s : State) (p c : Nat) (f : CtxSt → CtxSt) : (s.modCtx p c f).boot = s.boot := rfl
@[simp] theorem State.modCtx_ward (s : State) (p c : Nat) (f : CtxSt → CtxSt) : (s.modCtx p c f).ward = s.ward := rfl
@[simp] theorem State.modCtx_sec (s : State) (p c : Nat) (f : CtxSt → CtxSt) : (s.modCtx p c f).sec = s.sec := rfl
@[simp] theorem State.modCtx_pwr (s : State) (p c : Nat) (f : CtxSt → CtxSt) : (s.modCtx p c f).pwr = s.pwr := rfl
@[simp] theorem State.modCtx_safe (s : State) (p c : Nat) (f : CtxSt → CtxSt) : (s.modCtx p c f).safe = s.safe := rfl
@[simp] theorem State.modCtx_time (s : State) (p c : Nat) (f : CtxSt → CtxSt) : (s.modCtx p c f).time = s.time := rfl
@[simp] theorem State.modCtx_comp (s : State) (p c : Nat) (f : CtxSt → CtxSt) : (s.modCtx p c f).comp = s.comp := rfl
@[simp] theorem State.modCtx_dram (s : State) (p c : Nat) (f : CtxSt → CtxSt) : (s.modCtx p c f).dram = s.dram := rfl
@[simp] theorem State.modCtx_ing (s : State) (p c : Nat) (f : CtxSt → CtxSt) : (s.modCtx p c f).ing = s.ing := rfl
@[simp] theorem State.modCtx_ctl (s : State) (p c : Nat) (f : CtxSt → CtxSt) : (s.modCtx p c f).ctl = s.ctl := rfl
@[simp] theorem State.modCtx_can (s : State) (p c : Nat) (f : CtxSt → CtxSt) : (s.modCtx p c f).can = s.can := rfl
@[simp] theorem State.modCtx_t1s (s : State) (p c : Nat) (f : CtxSt → CtxSt) : (s.modCtx p c f).t1s = s.t1s := rfl
@[simp] theorem State.modCtx_eth (s : State) (p c : Nat) (f : CtxSt → CtxSt) : (s.modCtx p c f).eth = s.eth := rfl
@[simp] theorem State.modEngine_pending (s : State) (q : Nat) (f : EngineSt → EngineSt) : (s.modEngine q f).pending = s.pending := rfl
@[simp] theorem State.modEngine_fresh (s : State) (q : Nat) (f : EngineSt → EngineSt) : (s.modEngine q f).fresh = s.fresh := rfl
@[simp] theorem State.modEngine_out (s : State) (q : Nat) (f : EngineSt → EngineSt) : (s.modEngine q f).out = s.out := rfl
@[simp] theorem State.modEngine_regs (s : State) (q : Nat) (f : EngineSt → EngineSt) : (s.modEngine q f).regs = s.regs := rfl
@[simp] theorem State.modEngine_ports (s : State) (q : Nat) (f : EngineSt → EngineSt) : (s.modEngine q f).ports = s.ports := rfl
@[simp] theorem State.modEngine_boot (s : State) (q : Nat) (f : EngineSt → EngineSt) : (s.modEngine q f).boot = s.boot := rfl
@[simp] theorem State.modEngine_ward (s : State) (q : Nat) (f : EngineSt → EngineSt) : (s.modEngine q f).ward = s.ward := rfl
@[simp] theorem State.modEngine_sec (s : State) (q : Nat) (f : EngineSt → EngineSt) : (s.modEngine q f).sec = s.sec := rfl
@[simp] theorem State.modEngine_pwr (s : State) (q : Nat) (f : EngineSt → EngineSt) : (s.modEngine q f).pwr = s.pwr := rfl
@[simp] theorem State.modEngine_safe (s : State) (q : Nat) (f : EngineSt → EngineSt) : (s.modEngine q f).safe = s.safe := rfl
@[simp] theorem State.modEngine_time (s : State) (q : Nat) (f : EngineSt → EngineSt) : (s.modEngine q f).time = s.time := rfl
@[simp] theorem State.modEngine_comp (s : State) (q : Nat) (f : EngineSt → EngineSt) : (s.modEngine q f).comp = s.comp := rfl
@[simp] theorem State.modEngine_dram (s : State) (q : Nat) (f : EngineSt → EngineSt) : (s.modEngine q f).dram = s.dram := rfl
@[simp] theorem State.modEngine_ing (s : State) (q : Nat) (f : EngineSt → EngineSt) : (s.modEngine q f).ing = s.ing := rfl
@[simp] theorem State.modEngine_ctl (s : State) (q : Nat) (f : EngineSt → EngineSt) : (s.modEngine q f).ctl = s.ctl := rfl
@[simp] theorem State.modEngine_can (s : State) (q : Nat) (f : EngineSt → EngineSt) : (s.modEngine q f).can = s.can := rfl
@[simp] theorem State.modEngine_t1s (s : State) (q : Nat) (f : EngineSt → EngineSt) : (s.modEngine q f).t1s = s.t1s := rfl
@[simp] theorem State.modEngine_eth (s : State) (q : Nat) (f : EngineSt → EngineSt) : (s.modEngine q f).eth = s.eth := rfl
@[simp] theorem State.modStream_pending (s : State) (st : Nat) (f : StreamSt → StreamSt) : (s.modStream st f).pending = s.pending := rfl
@[simp] theorem State.modStream_fresh (s : State) (st : Nat) (f : StreamSt → StreamSt) : (s.modStream st f).fresh = s.fresh := rfl
@[simp] theorem State.modStream_out (s : State) (st : Nat) (f : StreamSt → StreamSt) : (s.modStream st f).out = s.out := rfl
@[simp] theorem State.modStream_regs (s : State) (st : Nat) (f : StreamSt → StreamSt) : (s.modStream st f).regs = s.regs := rfl
@[simp] theorem State.modStream_ports (s : State) (st : Nat) (f : StreamSt → StreamSt) : (s.modStream st f).ports = s.ports := rfl
@[simp] theorem State.modStream_boot (s : State) (st : Nat) (f : StreamSt → StreamSt) : (s.modStream st f).boot = s.boot := rfl
@[simp] theorem State.modStream_ward (s : State) (st : Nat) (f : StreamSt → StreamSt) : (s.modStream st f).ward = s.ward := rfl
@[simp] theorem State.modStream_sec (s : State) (st : Nat) (f : StreamSt → StreamSt) : (s.modStream st f).sec = s.sec := rfl
@[simp] theorem State.modStream_pwr (s : State) (st : Nat) (f : StreamSt → StreamSt) : (s.modStream st f).pwr = s.pwr := rfl
@[simp] theorem State.modStream_safe (s : State) (st : Nat) (f : StreamSt → StreamSt) : (s.modStream st f).safe = s.safe := rfl
@[simp] theorem State.modStream_time (s : State) (st : Nat) (f : StreamSt → StreamSt) : (s.modStream st f).time = s.time := rfl
@[simp] theorem State.modStream_comp (s : State) (st : Nat) (f : StreamSt → StreamSt) : (s.modStream st f).comp = s.comp := rfl
@[simp] theorem State.modStream_dram (s : State) (st : Nat) (f : StreamSt → StreamSt) : (s.modStream st f).dram = s.dram := rfl
@[simp] theorem State.modStream_kv (s : State) (st : Nat) (f : StreamSt → StreamSt) : (s.modStream st f).kv = s.kv := rfl
@[simp] theorem State.modStream_ctl (s : State) (st : Nat) (f : StreamSt → StreamSt) : (s.modStream st f).ctl = s.ctl := rfl
@[simp] theorem State.modStream_can (s : State) (st : Nat) (f : StreamSt → StreamSt) : (s.modStream st f).can = s.can := rfl
@[simp] theorem State.modStream_t1s (s : State) (st : Nat) (f : StreamSt → StreamSt) : (s.modStream st f).t1s = s.t1s := rfl
@[simp] theorem State.modStream_eth (s : State) (st : Nat) (f : StreamSt → StreamSt) : (s.modStream st f).eth = s.eth := rfl
@[simp] theorem State.modRing_pending (s : State) (p : Nat) (f : RingSt → RingSt) : (s.modRing p f).pending = s.pending := rfl
@[simp] theorem State.modRing_fresh (s : State) (p : Nat) (f : RingSt → RingSt) : (s.modRing p f).fresh = s.fresh := rfl
@[simp] theorem State.modRing_out (s : State) (p : Nat) (f : RingSt → RingSt) : (s.modRing p f).out = s.out := rfl
@[simp] theorem State.modRing_regs (s : State) (p : Nat) (f : RingSt → RingSt) : (s.modRing p f).regs = s.regs := rfl
@[simp] theorem State.modRing_ports (s : State) (p : Nat) (f : RingSt → RingSt) : (s.modRing p f).ports = s.ports := rfl
@[simp] theorem State.modRing_boot (s : State) (p : Nat) (f : RingSt → RingSt) : (s.modRing p f).boot = s.boot := rfl
@[simp] theorem State.modRing_ward (s : State) (p : Nat) (f : RingSt → RingSt) : (s.modRing p f).ward = s.ward := rfl
@[simp] theorem State.modRing_sec (s : State) (p : Nat) (f : RingSt → RingSt) : (s.modRing p f).sec = s.sec := rfl
@[simp] theorem State.modRing_pwr (s : State) (p : Nat) (f : RingSt → RingSt) : (s.modRing p f).pwr = s.pwr := rfl
@[simp] theorem State.modRing_safe (s : State) (p : Nat) (f : RingSt → RingSt) : (s.modRing p f).safe = s.safe := rfl
@[simp] theorem State.modRing_time (s : State) (p : Nat) (f : RingSt → RingSt) : (s.modRing p f).time = s.time := rfl
@[simp] theorem State.modRing_comp (s : State) (p : Nat) (f : RingSt → RingSt) : (s.modRing p f).comp = s.comp := rfl
@[simp] theorem State.modRing_dram (s : State) (p : Nat) (f : RingSt → RingSt) : (s.modRing p f).dram = s.dram := rfl
@[simp] theorem State.modRing_kv (s : State) (p : Nat) (f : RingSt → RingSt) : (s.modRing p f).kv = s.kv := rfl
@[simp] theorem State.modRing_ctl (s : State) (p : Nat) (f : RingSt → RingSt) : (s.modRing p f).ctl = s.ctl := rfl
@[simp] theorem State.modRing_can (s : State) (p : Nat) (f : RingSt → RingSt) : (s.modRing p f).can = s.can := rfl
@[simp] theorem State.modRing_t1s (s : State) (p : Nat) (f : RingSt → RingSt) : (s.modRing p f).t1s = s.t1s := rfl
@[simp] theorem State.modRing_eth (s : State) (p : Nat) (f : RingSt → RingSt) : (s.modRing p f).eth = s.eth := rfl
@[simp] theorem State.setBuf_pending (s : State) (p b : Nat) (x : BufSt) : (s.setBuf p b x).pending = s.pending := rfl
@[simp] theorem State.setBuf_fresh (s : State) (p b : Nat) (x : BufSt) : (s.setBuf p b x).fresh = s.fresh := rfl
@[simp] theorem State.setBuf_out (s : State) (p b : Nat) (x : BufSt) : (s.setBuf p b x).out = s.out := rfl
@[simp] theorem State.setBuf_regs (s : State) (p b : Nat) (x : BufSt) : (s.setBuf p b x).regs = s.regs := rfl
@[simp] theorem State.setBuf_ports (s : State) (p b : Nat) (x : BufSt) : (s.setBuf p b x).ports = s.ports := rfl
@[simp] theorem State.setBuf_boot (s : State) (p b : Nat) (x : BufSt) : (s.setBuf p b x).boot = s.boot := rfl
@[simp] theorem State.setBuf_ward (s : State) (p b : Nat) (x : BufSt) : (s.setBuf p b x).ward = s.ward := rfl
@[simp] theorem State.setBuf_sec (s : State) (p b : Nat) (x : BufSt) : (s.setBuf p b x).sec = s.sec := rfl
@[simp] theorem State.setBuf_pwr (s : State) (p b : Nat) (x : BufSt) : (s.setBuf p b x).pwr = s.pwr := rfl
@[simp] theorem State.setBuf_safe (s : State) (p b : Nat) (x : BufSt) : (s.setBuf p b x).safe = s.safe := rfl
@[simp] theorem State.setBuf_time (s : State) (p b : Nat) (x : BufSt) : (s.setBuf p b x).time = s.time := rfl
@[simp] theorem State.setBuf_comp (s : State) (p b : Nat) (x : BufSt) : (s.setBuf p b x).comp = s.comp := rfl
@[simp] theorem State.setBuf_dram (s : State) (p b : Nat) (x : BufSt) : (s.setBuf p b x).dram = s.dram := rfl
@[simp] theorem State.setBuf_kv (s : State) (p b : Nat) (x : BufSt) : (s.setBuf p b x).kv = s.kv := rfl
@[simp] theorem State.setBuf_ctl (s : State) (p b : Nat) (x : BufSt) : (s.setBuf p b x).ctl = s.ctl := rfl
@[simp] theorem State.setBuf_can (s : State) (p b : Nat) (x : BufSt) : (s.setBuf p b x).can = s.can := rfl
@[simp] theorem State.setBuf_t1s (s : State) (p b : Nat) (x : BufSt) : (s.setBuf p b x).t1s = s.t1s := rfl
@[simp] theorem State.setBuf_eth (s : State) (p b : Nat) (x : BufSt) : (s.setBuf p b x).eth = s.eth := rfl
@[simp] theorem State.modCam_pending (s : State) (n : Nat) (f : CamSt → CamSt) : (s.modCam n f).pending = s.pending := rfl
@[simp] theorem State.modCam_fresh (s : State) (n : Nat) (f : CamSt → CamSt) : (s.modCam n f).fresh = s.fresh := rfl
@[simp] theorem State.modCam_out (s : State) (n : Nat) (f : CamSt → CamSt) : (s.modCam n f).out = s.out := rfl
@[simp] theorem State.modCam_regs (s : State) (n : Nat) (f : CamSt → CamSt) : (s.modCam n f).regs = s.regs := rfl
@[simp] theorem State.modCam_ports (s : State) (n : Nat) (f : CamSt → CamSt) : (s.modCam n f).ports = s.ports := rfl
@[simp] theorem State.modCam_boot (s : State) (n : Nat) (f : CamSt → CamSt) : (s.modCam n f).boot = s.boot := rfl
@[simp] theorem State.modCam_ward (s : State) (n : Nat) (f : CamSt → CamSt) : (s.modCam n f).ward = s.ward := rfl
@[simp] theorem State.modCam_sec (s : State) (n : Nat) (f : CamSt → CamSt) : (s.modCam n f).sec = s.sec := rfl
@[simp] theorem State.modCam_pwr (s : State) (n : Nat) (f : CamSt → CamSt) : (s.modCam n f).pwr = s.pwr := rfl
@[simp] theorem State.modCam_safe (s : State) (n : Nat) (f : CamSt → CamSt) : (s.modCam n f).safe = s.safe := rfl
@[simp] theorem State.modCam_time (s : State) (n : Nat) (f : CamSt → CamSt) : (s.modCam n f).time = s.time := rfl
@[simp] theorem State.modCam_comp (s : State) (n : Nat) (f : CamSt → CamSt) : (s.modCam n f).comp = s.comp := rfl
@[simp] theorem State.modCam_dram (s : State) (n : Nat) (f : CamSt → CamSt) : (s.modCam n f).dram = s.dram := rfl
@[simp] theorem State.modCam_kv (s : State) (n : Nat) (f : CamSt → CamSt) : (s.modCam n f).kv = s.kv := rfl
@[simp] theorem State.modCam_ctl (s : State) (n : Nat) (f : CamSt → CamSt) : (s.modCam n f).ctl = s.ctl := rfl
@[simp] theorem State.modCam_can (s : State) (n : Nat) (f : CamSt → CamSt) : (s.modCam n f).can = s.can := rfl
@[simp] theorem State.modCam_t1s (s : State) (n : Nat) (f : CamSt → CamSt) : (s.modCam n f).t1s = s.t1s := rfl
@[simp] theorem State.modCam_eth (s : State) (n : Nat) (f : CamSt → CamSt) : (s.modCam n f).eth = s.eth := rfl
@[simp] theorem State.modScat_pending (s : State) (e : Nat) (f : ScatSt → ScatSt) : (s.modScat e f).pending = s.pending := rfl
@[simp] theorem State.modScat_fresh (s : State) (e : Nat) (f : ScatSt → ScatSt) : (s.modScat e f).fresh = s.fresh := rfl
@[simp] theorem State.modScat_out (s : State) (e : Nat) (f : ScatSt → ScatSt) : (s.modScat e f).out = s.out := rfl
@[simp] theorem State.modScat_regs (s : State) (e : Nat) (f : ScatSt → ScatSt) : (s.modScat e f).regs = s.regs := rfl
@[simp] theorem State.modScat_ports (s : State) (e : Nat) (f : ScatSt → ScatSt) : (s.modScat e f).ports = s.ports := rfl
@[simp] theorem State.modScat_boot (s : State) (e : Nat) (f : ScatSt → ScatSt) : (s.modScat e f).boot = s.boot := rfl
@[simp] theorem State.modScat_ward (s : State) (e : Nat) (f : ScatSt → ScatSt) : (s.modScat e f).ward = s.ward := rfl
@[simp] theorem State.modScat_sec (s : State) (e : Nat) (f : ScatSt → ScatSt) : (s.modScat e f).sec = s.sec := rfl
@[simp] theorem State.modScat_pwr (s : State) (e : Nat) (f : ScatSt → ScatSt) : (s.modScat e f).pwr = s.pwr := rfl
@[simp] theorem State.modScat_safe (s : State) (e : Nat) (f : ScatSt → ScatSt) : (s.modScat e f).safe = s.safe := rfl
@[simp] theorem State.modScat_time (s : State) (e : Nat) (f : ScatSt → ScatSt) : (s.modScat e f).time = s.time := rfl
@[simp] theorem State.modScat_comp (s : State) (e : Nat) (f : ScatSt → ScatSt) : (s.modScat e f).comp = s.comp := rfl
@[simp] theorem State.modScat_dram (s : State) (e : Nat) (f : ScatSt → ScatSt) : (s.modScat e f).dram = s.dram := rfl
@[simp] theorem State.modScat_kv (s : State) (e : Nat) (f : ScatSt → ScatSt) : (s.modScat e f).kv = s.kv := rfl
@[simp] theorem State.modScat_ctl (s : State) (e : Nat) (f : ScatSt → ScatSt) : (s.modScat e f).ctl = s.ctl := rfl
@[simp] theorem State.modScat_can (s : State) (e : Nat) (f : ScatSt → ScatSt) : (s.modScat e f).can = s.can := rfl
@[simp] theorem State.modScat_t1s (s : State) (e : Nat) (f : ScatSt → ScatSt) : (s.modScat e f).t1s = s.t1s := rfl
@[simp] theorem State.modScat_eth (s : State) (e : Nat) (f : ScatSt → ScatSt) : (s.modScat e f).eth = s.eth := rfl
@[simp] theorem State.modVdec_pending (s : State) (st : Nat) (f : VdecSt → VdecSt) : (s.modVdec st f).pending = s.pending := rfl
@[simp] theorem State.modVdec_fresh (s : State) (st : Nat) (f : VdecSt → VdecSt) : (s.modVdec st f).fresh = s.fresh := rfl
@[simp] theorem State.modVdec_out (s : State) (st : Nat) (f : VdecSt → VdecSt) : (s.modVdec st f).out = s.out := rfl
@[simp] theorem State.modVdec_regs (s : State) (st : Nat) (f : VdecSt → VdecSt) : (s.modVdec st f).regs = s.regs := rfl
@[simp] theorem State.modVdec_ports (s : State) (st : Nat) (f : VdecSt → VdecSt) : (s.modVdec st f).ports = s.ports := rfl
@[simp] theorem State.modVdec_boot (s : State) (st : Nat) (f : VdecSt → VdecSt) : (s.modVdec st f).boot = s.boot := rfl
@[simp] theorem State.modVdec_ward (s : State) (st : Nat) (f : VdecSt → VdecSt) : (s.modVdec st f).ward = s.ward := rfl
@[simp] theorem State.modVdec_sec (s : State) (st : Nat) (f : VdecSt → VdecSt) : (s.modVdec st f).sec = s.sec := rfl
@[simp] theorem State.modVdec_pwr (s : State) (st : Nat) (f : VdecSt → VdecSt) : (s.modVdec st f).pwr = s.pwr := rfl
@[simp] theorem State.modVdec_safe (s : State) (st : Nat) (f : VdecSt → VdecSt) : (s.modVdec st f).safe = s.safe := rfl
@[simp] theorem State.modVdec_time (s : State) (st : Nat) (f : VdecSt → VdecSt) : (s.modVdec st f).time = s.time := rfl
@[simp] theorem State.modVdec_comp (s : State) (st : Nat) (f : VdecSt → VdecSt) : (s.modVdec st f).comp = s.comp := rfl
@[simp] theorem State.modVdec_dram (s : State) (st : Nat) (f : VdecSt → VdecSt) : (s.modVdec st f).dram = s.dram := rfl
@[simp] theorem State.modVdec_kv (s : State) (st : Nat) (f : VdecSt → VdecSt) : (s.modVdec st f).kv = s.kv := rfl
@[simp] theorem State.modVdec_ctl (s : State) (st : Nat) (f : VdecSt → VdecSt) : (s.modVdec st f).ctl = s.ctl := rfl
@[simp] theorem State.modVdec_can (s : State) (st : Nat) (f : VdecSt → VdecSt) : (s.modVdec st f).can = s.can := rfl
@[simp] theorem State.modVdec_t1s (s : State) (st : Nat) (f : VdecSt → VdecSt) : (s.modVdec st f).t1s = s.t1s := rfl
@[simp] theorem State.modVdec_eth (s : State) (st : Nat) (f : VdecSt → VdecSt) : (s.modVdec st f).eth = s.eth := rfl
@[simp] theorem State.modChan_pending (s : State) (c : Nat) (f : ChanSt → ChanSt) : (s.modChan c f).pending = s.pending := rfl
@[simp] theorem State.modChan_fresh (s : State) (c : Nat) (f : ChanSt → ChanSt) : (s.modChan c f).fresh = s.fresh := rfl
@[simp] theorem State.modChan_out (s : State) (c : Nat) (f : ChanSt → ChanSt) : (s.modChan c f).out = s.out := rfl
@[simp] theorem State.modChan_regs (s : State) (c : Nat) (f : ChanSt → ChanSt) : (s.modChan c f).regs = s.regs := rfl
@[simp] theorem State.modChan_ports (s : State) (c : Nat) (f : ChanSt → ChanSt) : (s.modChan c f).ports = s.ports := rfl
@[simp] theorem State.modChan_boot (s : State) (c : Nat) (f : ChanSt → ChanSt) : (s.modChan c f).boot = s.boot := rfl
@[simp] theorem State.modChan_ward (s : State) (c : Nat) (f : ChanSt → ChanSt) : (s.modChan c f).ward = s.ward := rfl
@[simp] theorem State.modChan_sec (s : State) (c : Nat) (f : ChanSt → ChanSt) : (s.modChan c f).sec = s.sec := rfl
@[simp] theorem State.modChan_pwr (s : State) (c : Nat) (f : ChanSt → ChanSt) : (s.modChan c f).pwr = s.pwr := rfl
@[simp] theorem State.modChan_safe (s : State) (c : Nat) (f : ChanSt → ChanSt) : (s.modChan c f).safe = s.safe := rfl
@[simp] theorem State.modChan_time (s : State) (c : Nat) (f : ChanSt → ChanSt) : (s.modChan c f).time = s.time := rfl
@[simp] theorem State.modChan_comp (s : State) (c : Nat) (f : ChanSt → ChanSt) : (s.modChan c f).comp = s.comp := rfl
@[simp] theorem State.modChan_dram (s : State) (c : Nat) (f : ChanSt → ChanSt) : (s.modChan c f).dram = s.dram := rfl
@[simp] theorem State.modChan_kv (s : State) (c : Nat) (f : ChanSt → ChanSt) : (s.modChan c f).kv = s.kv := rfl
@[simp] theorem State.modChan_ing (s : State) (c : Nat) (f : ChanSt → ChanSt) : (s.modChan c f).ing = s.ing := rfl
@[simp] theorem State.modChan_can (s : State) (c : Nat) (f : ChanSt → ChanSt) : (s.modChan c f).can = s.can := rfl
@[simp] theorem State.modChan_t1s (s : State) (c : Nat) (f : ChanSt → ChanSt) : (s.modChan c f).t1s = s.t1s := rfl
@[simp] theorem State.modChan_eth (s : State) (c : Nat) (f : ChanSt → ChanSt) : (s.modChan c f).eth = s.eth := rfl
@[simp] theorem State.modCan_pending (s : State) (n : Nat) (f : CanSt → CanSt) : (s.modCan n f).pending = s.pending := rfl
@[simp] theorem State.modCan_fresh (s : State) (n : Nat) (f : CanSt → CanSt) : (s.modCan n f).fresh = s.fresh := rfl
@[simp] theorem State.modCan_out (s : State) (n : Nat) (f : CanSt → CanSt) : (s.modCan n f).out = s.out := rfl
@[simp] theorem State.modCan_regs (s : State) (n : Nat) (f : CanSt → CanSt) : (s.modCan n f).regs = s.regs := rfl
@[simp] theorem State.modCan_ports (s : State) (n : Nat) (f : CanSt → CanSt) : (s.modCan n f).ports = s.ports := rfl
@[simp] theorem State.modCan_boot (s : State) (n : Nat) (f : CanSt → CanSt) : (s.modCan n f).boot = s.boot := rfl
@[simp] theorem State.modCan_ward (s : State) (n : Nat) (f : CanSt → CanSt) : (s.modCan n f).ward = s.ward := rfl
@[simp] theorem State.modCan_sec (s : State) (n : Nat) (f : CanSt → CanSt) : (s.modCan n f).sec = s.sec := rfl
@[simp] theorem State.modCan_pwr (s : State) (n : Nat) (f : CanSt → CanSt) : (s.modCan n f).pwr = s.pwr := rfl
@[simp] theorem State.modCan_safe (s : State) (n : Nat) (f : CanSt → CanSt) : (s.modCan n f).safe = s.safe := rfl
@[simp] theorem State.modCan_time (s : State) (n : Nat) (f : CanSt → CanSt) : (s.modCan n f).time = s.time := rfl
@[simp] theorem State.modCan_comp (s : State) (n : Nat) (f : CanSt → CanSt) : (s.modCan n f).comp = s.comp := rfl
@[simp] theorem State.modCan_dram (s : State) (n : Nat) (f : CanSt → CanSt) : (s.modCan n f).dram = s.dram := rfl
@[simp] theorem State.modCan_kv (s : State) (n : Nat) (f : CanSt → CanSt) : (s.modCan n f).kv = s.kv := rfl
@[simp] theorem State.modCan_ing (s : State) (n : Nat) (f : CanSt → CanSt) : (s.modCan n f).ing = s.ing := rfl
@[simp] theorem State.modCan_ctl (s : State) (n : Nat) (f : CanSt → CanSt) : (s.modCan n f).ctl = s.ctl := rfl
@[simp] theorem State.modCan_t1s (s : State) (n : Nat) (f : CanSt → CanSt) : (s.modCan n f).t1s = s.t1s := rfl
@[simp] theorem State.modCan_eth (s : State) (n : Nat) (f : CanSt → CanSt) : (s.modCan n f).eth = s.eth := rfl
@[simp] theorem State.modCanObj_pending (s : State) (n i : Nat) (f : CanObjSt → CanObjSt) : (s.modCanObj n i f).pending = s.pending := rfl
@[simp] theorem State.modCanObj_fresh (s : State) (n i : Nat) (f : CanObjSt → CanObjSt) : (s.modCanObj n i f).fresh = s.fresh := rfl
@[simp] theorem State.modCanObj_out (s : State) (n i : Nat) (f : CanObjSt → CanObjSt) : (s.modCanObj n i f).out = s.out := rfl
@[simp] theorem State.modCanObj_regs (s : State) (n i : Nat) (f : CanObjSt → CanObjSt) : (s.modCanObj n i f).regs = s.regs := rfl
@[simp] theorem State.modCanObj_ports (s : State) (n i : Nat) (f : CanObjSt → CanObjSt) : (s.modCanObj n i f).ports = s.ports := rfl
@[simp] theorem State.modCanObj_boot (s : State) (n i : Nat) (f : CanObjSt → CanObjSt) : (s.modCanObj n i f).boot = s.boot := rfl
@[simp] theorem State.modCanObj_ward (s : State) (n i : Nat) (f : CanObjSt → CanObjSt) : (s.modCanObj n i f).ward = s.ward := rfl
@[simp] theorem State.modCanObj_sec (s : State) (n i : Nat) (f : CanObjSt → CanObjSt) : (s.modCanObj n i f).sec = s.sec := rfl
@[simp] theorem State.modCanObj_pwr (s : State) (n i : Nat) (f : CanObjSt → CanObjSt) : (s.modCanObj n i f).pwr = s.pwr := rfl
@[simp] theorem State.modCanObj_safe (s : State) (n i : Nat) (f : CanObjSt → CanObjSt) : (s.modCanObj n i f).safe = s.safe := rfl
@[simp] theorem State.modCanObj_time (s : State) (n i : Nat) (f : CanObjSt → CanObjSt) : (s.modCanObj n i f).time = s.time := rfl
@[simp] theorem State.modCanObj_comp (s : State) (n i : Nat) (f : CanObjSt → CanObjSt) : (s.modCanObj n i f).comp = s.comp := rfl
@[simp] theorem State.modCanObj_dram (s : State) (n i : Nat) (f : CanObjSt → CanObjSt) : (s.modCanObj n i f).dram = s.dram := rfl
@[simp] theorem State.modCanObj_kv (s : State) (n i : Nat) (f : CanObjSt → CanObjSt) : (s.modCanObj n i f).kv = s.kv := rfl
@[simp] theorem State.modCanObj_ing (s : State) (n i : Nat) (f : CanObjSt → CanObjSt) : (s.modCanObj n i f).ing = s.ing := rfl
@[simp] theorem State.modCanObj_ctl (s : State) (n i : Nat) (f : CanObjSt → CanObjSt) : (s.modCanObj n i f).ctl = s.ctl := rfl
@[simp] theorem State.modCanObj_t1s (s : State) (n i : Nat) (f : CanObjSt → CanObjSt) : (s.modCanObj n i f).t1s = s.t1s := rfl
@[simp] theorem State.modCanObj_eth (s : State) (n i : Nat) (f : CanObjSt → CanObjSt) : (s.modCanObj n i f).eth = s.eth := rfl
@[simp] theorem State.modT1s_pending (s : State) (q : Nat) (f : T1sSt → T1sSt) : (s.modT1s q f).pending = s.pending := rfl
@[simp] theorem State.modT1s_fresh (s : State) (q : Nat) (f : T1sSt → T1sSt) : (s.modT1s q f).fresh = s.fresh := rfl
@[simp] theorem State.modT1s_out (s : State) (q : Nat) (f : T1sSt → T1sSt) : (s.modT1s q f).out = s.out := rfl
@[simp] theorem State.modT1s_regs (s : State) (q : Nat) (f : T1sSt → T1sSt) : (s.modT1s q f).regs = s.regs := rfl
@[simp] theorem State.modT1s_ports (s : State) (q : Nat) (f : T1sSt → T1sSt) : (s.modT1s q f).ports = s.ports := rfl
@[simp] theorem State.modT1s_boot (s : State) (q : Nat) (f : T1sSt → T1sSt) : (s.modT1s q f).boot = s.boot := rfl
@[simp] theorem State.modT1s_ward (s : State) (q : Nat) (f : T1sSt → T1sSt) : (s.modT1s q f).ward = s.ward := rfl
@[simp] theorem State.modT1s_sec (s : State) (q : Nat) (f : T1sSt → T1sSt) : (s.modT1s q f).sec = s.sec := rfl
@[simp] theorem State.modT1s_pwr (s : State) (q : Nat) (f : T1sSt → T1sSt) : (s.modT1s q f).pwr = s.pwr := rfl
@[simp] theorem State.modT1s_safe (s : State) (q : Nat) (f : T1sSt → T1sSt) : (s.modT1s q f).safe = s.safe := rfl
@[simp] theorem State.modT1s_time (s : State) (q : Nat) (f : T1sSt → T1sSt) : (s.modT1s q f).time = s.time := rfl
@[simp] theorem State.modT1s_comp (s : State) (q : Nat) (f : T1sSt → T1sSt) : (s.modT1s q f).comp = s.comp := rfl
@[simp] theorem State.modT1s_dram (s : State) (q : Nat) (f : T1sSt → T1sSt) : (s.modT1s q f).dram = s.dram := rfl
@[simp] theorem State.modT1s_kv (s : State) (q : Nat) (f : T1sSt → T1sSt) : (s.modT1s q f).kv = s.kv := rfl
@[simp] theorem State.modT1s_ing (s : State) (q : Nat) (f : T1sSt → T1sSt) : (s.modT1s q f).ing = s.ing := rfl
@[simp] theorem State.modT1s_ctl (s : State) (q : Nat) (f : T1sSt → T1sSt) : (s.modT1s q f).ctl = s.ctl := rfl
@[simp] theorem State.modT1s_can (s : State) (q : Nat) (f : T1sSt → T1sSt) : (s.modT1s q f).can = s.can := rfl
@[simp] theorem State.modT1s_eth (s : State) (q : Nat) (f : T1sSt → T1sSt) : (s.modT1s q f).eth = s.eth := rfl
@[simp] theorem State.modEth_pending (s : State) (e : Nat) (f : EthSt → EthSt) : (s.modEth e f).pending = s.pending := rfl
@[simp] theorem State.modEth_fresh (s : State) (e : Nat) (f : EthSt → EthSt) : (s.modEth e f).fresh = s.fresh := rfl
@[simp] theorem State.modEth_out (s : State) (e : Nat) (f : EthSt → EthSt) : (s.modEth e f).out = s.out := rfl
@[simp] theorem State.modEth_regs (s : State) (e : Nat) (f : EthSt → EthSt) : (s.modEth e f).regs = s.regs := rfl
@[simp] theorem State.modEth_ports (s : State) (e : Nat) (f : EthSt → EthSt) : (s.modEth e f).ports = s.ports := rfl
@[simp] theorem State.modEth_boot (s : State) (e : Nat) (f : EthSt → EthSt) : (s.modEth e f).boot = s.boot := rfl
@[simp] theorem State.modEth_ward (s : State) (e : Nat) (f : EthSt → EthSt) : (s.modEth e f).ward = s.ward := rfl
@[simp] theorem State.modEth_sec (s : State) (e : Nat) (f : EthSt → EthSt) : (s.modEth e f).sec = s.sec := rfl
@[simp] theorem State.modEth_pwr (s : State) (e : Nat) (f : EthSt → EthSt) : (s.modEth e f).pwr = s.pwr := rfl
@[simp] theorem State.modEth_safe (s : State) (e : Nat) (f : EthSt → EthSt) : (s.modEth e f).safe = s.safe := rfl
@[simp] theorem State.modEth_time (s : State) (e : Nat) (f : EthSt → EthSt) : (s.modEth e f).time = s.time := rfl
@[simp] theorem State.modEth_comp (s : State) (e : Nat) (f : EthSt → EthSt) : (s.modEth e f).comp = s.comp := rfl
@[simp] theorem State.modEth_dram (s : State) (e : Nat) (f : EthSt → EthSt) : (s.modEth e f).dram = s.dram := rfl
@[simp] theorem State.modEth_kv (s : State) (e : Nat) (f : EthSt → EthSt) : (s.modEth e f).kv = s.kv := rfl
@[simp] theorem State.modEth_ing (s : State) (e : Nat) (f : EthSt → EthSt) : (s.modEth e f).ing = s.ing := rfl
@[simp] theorem State.modEth_ctl (s : State) (e : Nat) (f : EthSt → EthSt) : (s.modEth e f).ctl = s.ctl := rfl
@[simp] theorem State.modEth_can (s : State) (e : Nat) (f : EthSt → EthSt) : (s.modEth e f).can = s.can := rfl
@[simp] theorem State.modEth_t1s (s : State) (e : Nat) (f : EthSt → EthSt) : (s.modEth e f).t1s = s.t1s := rfl
@[simp] theorem State.modPtp_pending (s : State) (q : Nat) (f : PtpSt → PtpSt) : (s.modPtp q f).pending = s.pending := rfl
@[simp] theorem State.modPtp_fresh (s : State) (q : Nat) (f : PtpSt → PtpSt) : (s.modPtp q f).fresh = s.fresh := rfl
@[simp] theorem State.modPtp_out (s : State) (q : Nat) (f : PtpSt → PtpSt) : (s.modPtp q f).out = s.out := rfl
@[simp] theorem State.modPtp_regs (s : State) (q : Nat) (f : PtpSt → PtpSt) : (s.modPtp q f).regs = s.regs := rfl
@[simp] theorem State.modPtp_ports (s : State) (q : Nat) (f : PtpSt → PtpSt) : (s.modPtp q f).ports = s.ports := rfl
@[simp] theorem State.modPtp_boot (s : State) (q : Nat) (f : PtpSt → PtpSt) : (s.modPtp q f).boot = s.boot := rfl
@[simp] theorem State.modPtp_ward (s : State) (q : Nat) (f : PtpSt → PtpSt) : (s.modPtp q f).ward = s.ward := rfl
@[simp] theorem State.modPtp_sec (s : State) (q : Nat) (f : PtpSt → PtpSt) : (s.modPtp q f).sec = s.sec := rfl
@[simp] theorem State.modPtp_pwr (s : State) (q : Nat) (f : PtpSt → PtpSt) : (s.modPtp q f).pwr = s.pwr := rfl
@[simp] theorem State.modPtp_safe (s : State) (q : Nat) (f : PtpSt → PtpSt) : (s.modPtp q f).safe = s.safe := rfl
@[simp] theorem State.modPtp_comp (s : State) (q : Nat) (f : PtpSt → PtpSt) : (s.modPtp q f).comp = s.comp := rfl
@[simp] theorem State.modPtp_dram (s : State) (q : Nat) (f : PtpSt → PtpSt) : (s.modPtp q f).dram = s.dram := rfl
@[simp] theorem State.modPtp_kv (s : State) (q : Nat) (f : PtpSt → PtpSt) : (s.modPtp q f).kv = s.kv := rfl
@[simp] theorem State.modPtp_ing (s : State) (q : Nat) (f : PtpSt → PtpSt) : (s.modPtp q f).ing = s.ing := rfl
@[simp] theorem State.modPtp_ctl (s : State) (q : Nat) (f : PtpSt → PtpSt) : (s.modPtp q f).ctl = s.ctl := rfl
@[simp] theorem State.modPtp_can (s : State) (q : Nat) (f : PtpSt → PtpSt) : (s.modPtp q f).can = s.can := rfl
@[simp] theorem State.modPtp_t1s (s : State) (q : Nat) (f : PtpSt → PtpSt) : (s.modPtp q f).t1s = s.t1s := rfl
@[simp] theorem State.modPtp_eth (s : State) (q : Nat) (f : PtpSt → PtpSt) : (s.modPtp q f).eth = s.eth := rfl
@[simp] theorem State.setInit_pending (s : State) (n : Nat) (b : Bool) : (s.setInit n b).pending = s.pending := rfl
@[simp] theorem State.setInit_fresh (s : State) (n : Nat) (b : Bool) : (s.setInit n b).fresh = s.fresh := rfl
@[simp] theorem State.setInit_out (s : State) (n : Nat) (b : Bool) : (s.setInit n b).out = s.out := rfl
@[simp] theorem State.setInit_ports (s : State) (n : Nat) (b : Bool) : (s.setInit n b).ports = s.ports := rfl
@[simp] theorem State.setInit_boot (s : State) (n : Nat) (b : Bool) : (s.setInit n b).boot = s.boot := rfl
@[simp] theorem State.setInit_ward (s : State) (n : Nat) (b : Bool) : (s.setInit n b).ward = s.ward := rfl
@[simp] theorem State.setInit_sec (s : State) (n : Nat) (b : Bool) : (s.setInit n b).sec = s.sec := rfl
@[simp] theorem State.setInit_pwr (s : State) (n : Nat) (b : Bool) : (s.setInit n b).pwr = s.pwr := rfl
@[simp] theorem State.setInit_safe (s : State) (n : Nat) (b : Bool) : (s.setInit n b).safe = s.safe := rfl
@[simp] theorem State.setInit_time (s : State) (n : Nat) (b : Bool) : (s.setInit n b).time = s.time := rfl
@[simp] theorem State.setInit_comp (s : State) (n : Nat) (b : Bool) : (s.setInit n b).comp = s.comp := rfl
@[simp] theorem State.setInit_dram (s : State) (n : Nat) (b : Bool) : (s.setInit n b).dram = s.dram := rfl
@[simp] theorem State.setInit_kv (s : State) (n : Nat) (b : Bool) : (s.setInit n b).kv = s.kv := rfl
@[simp] theorem State.setInit_ing (s : State) (n : Nat) (b : Bool) : (s.setInit n b).ing = s.ing := rfl
@[simp] theorem State.setInit_ctl (s : State) (n : Nat) (b : Bool) : (s.setInit n b).ctl = s.ctl := rfl
@[simp] theorem State.setInit_can (s : State) (n : Nat) (b : Bool) : (s.setInit n b).can = s.can := rfl
@[simp] theorem State.setInit_t1s (s : State) (n : Nat) (b : Bool) : (s.setInit n b).t1s = s.t1s := rfl
@[simp] theorem State.setInit_eth (s : State) (n : Nat) (b : Bool) : (s.setInit n b).eth = s.eth := rfl
@[simp] theorem State.setLive_pending (s : State) (k lo w x : Nat) : (s.setLive k lo w x).pending = s.pending := rfl
@[simp] theorem State.setLive_fresh (s : State) (k lo w x : Nat) : (s.setLive k lo w x).fresh = s.fresh := rfl
@[simp] theorem State.setLive_out (s : State) (k lo w x : Nat) : (s.setLive k lo w x).out = s.out := rfl
@[simp] theorem State.setLive_ports (s : State) (k lo w x : Nat) : (s.setLive k lo w x).ports = s.ports := rfl
@[simp] theorem State.setLive_boot (s : State) (k lo w x : Nat) : (s.setLive k lo w x).boot = s.boot := rfl
@[simp] theorem State.setLive_ward (s : State) (k lo w x : Nat) : (s.setLive k lo w x).ward = s.ward := rfl
@[simp] theorem State.setLive_sec (s : State) (k lo w x : Nat) : (s.setLive k lo w x).sec = s.sec := rfl
@[simp] theorem State.setLive_pwr (s : State) (k lo w x : Nat) : (s.setLive k lo w x).pwr = s.pwr := rfl
@[simp] theorem State.setLive_safe (s : State) (k lo w x : Nat) : (s.setLive k lo w x).safe = s.safe := rfl
@[simp] theorem State.setLive_time (s : State) (k lo w x : Nat) : (s.setLive k lo w x).time = s.time := rfl
@[simp] theorem State.setLive_comp (s : State) (k lo w x : Nat) : (s.setLive k lo w x).comp = s.comp := rfl
@[simp] theorem State.setLive_dram (s : State) (k lo w x : Nat) : (s.setLive k lo w x).dram = s.dram := rfl
@[simp] theorem State.setLive_kv (s : State) (k lo w x : Nat) : (s.setLive k lo w x).kv = s.kv := rfl
@[simp] theorem State.setLive_ing (s : State) (k lo w x : Nat) : (s.setLive k lo w x).ing = s.ing := rfl
@[simp] theorem State.setLive_ctl (s : State) (k lo w x : Nat) : (s.setLive k lo w x).ctl = s.ctl := rfl
@[simp] theorem State.setLive_can (s : State) (k lo w x : Nat) : (s.setLive k lo w x).can = s.can := rfl
@[simp] theorem State.setLive_t1s (s : State) (k lo w x : Nat) : (s.setLive k lo w x).t1s = s.t1s := rfl
@[simp] theorem State.setLive_eth (s : State) (k lo w x : Nat) : (s.setLive k lo w x).eth = s.eth := rfl

@[simp] theorem State.random_pending (s : State) : s.random.2.pending = s.pending := by unfold State.random; split <;> rfl
@[simp] theorem State.random_out (s : State) : s.random.2.out = s.out := by unfold State.random; split <;> rfl
@[simp] theorem State.random_regs (s : State) : s.random.2.regs = s.regs := by unfold State.random; split <;> rfl
@[simp] theorem State.random_ports (s : State) : s.random.2.ports = s.ports := by unfold State.random; split <;> rfl
@[simp] theorem State.random_boot (s : State) : s.random.2.boot = s.boot := by unfold State.random; split <;> rfl
@[simp] theorem State.random_ward (s : State) : s.random.2.ward = s.ward := by unfold State.random; split <;> rfl
@[simp] theorem State.random_pwr (s : State) : s.random.2.pwr = s.pwr := by unfold State.random; split <;> rfl
@[simp] theorem State.random_safe (s : State) : s.random.2.safe = s.safe := by unfold State.random; split <;> rfl
@[simp] theorem State.random_time (s : State) : s.random.2.time = s.time := by unfold State.random; split <;> rfl
@[simp] theorem State.random_comp (s : State) : s.random.2.comp = s.comp := by unfold State.random; split <;> rfl
@[simp] theorem State.random_dram (s : State) : s.random.2.dram = s.dram := by unfold State.random; split <;> rfl
@[simp] theorem State.random_kv (s : State) : s.random.2.kv = s.kv := by unfold State.random; split <;> rfl
@[simp] theorem State.random_ing (s : State) : s.random.2.ing = s.ing := by unfold State.random; split <;> rfl
@[simp] theorem State.random_ctl (s : State) : s.random.2.ctl = s.ctl := by unfold State.random; split <;> rfl
@[simp] theorem State.random_can (s : State) : s.random.2.can = s.can := by unfold State.random; split <;> rfl
@[simp] theorem State.random_t1s (s : State) : s.random.2.t1s = s.t1s := by unfold State.random; split <;> rfl
@[simp] theorem State.random_eth (s : State) : s.random.2.eth = s.eth := by unfold State.random; split <;> rfl
@[simp] theorem State.transact_pending (s : State) (c v : Nat) (write : Bool) : (s.transact c v write).pending = s.pending :=
  State.random_pending s
@[simp] theorem State.transact_out (s : State) (c v : Nat) (write : Bool) : (s.transact c v write).out = s.out :=
  State.random_out s
@[simp] theorem State.transact_regs (s : State) (c v : Nat) (write : Bool) : (s.transact c v write).regs = s.regs :=
  State.random_regs s
@[simp] theorem State.transact_ports (s : State) (c v : Nat) (write : Bool) : (s.transact c v write).ports = s.ports :=
  State.random_ports s
@[simp] theorem State.transact_boot (s : State) (c v : Nat) (write : Bool) : (s.transact c v write).boot = s.boot :=
  State.random_boot s
@[simp] theorem State.transact_ward (s : State) (c v : Nat) (write : Bool) : (s.transact c v write).ward = s.ward :=
  State.random_ward s
@[simp] theorem State.transact_pwr (s : State) (c v : Nat) (write : Bool) : (s.transact c v write).pwr = s.pwr :=
  State.random_pwr s
@[simp] theorem State.transact_safe (s : State) (c v : Nat) (write : Bool) : (s.transact c v write).safe = s.safe :=
  State.random_safe s
@[simp] theorem State.transact_time (s : State) (c v : Nat) (write : Bool) : (s.transact c v write).time = s.time :=
  State.random_time s
@[simp] theorem State.transact_comp (s : State) (c v : Nat) (write : Bool) : (s.transact c v write).comp = s.comp :=
  State.random_comp s
@[simp] theorem State.transact_dram (s : State) (c v : Nat) (write : Bool) : (s.transact c v write).dram = s.dram :=
  State.random_dram s
@[simp] theorem State.transact_kv (s : State) (c v : Nat) (write : Bool) : (s.transact c v write).kv = s.kv :=
  State.random_kv s
@[simp] theorem State.transact_ing (s : State) (c v : Nat) (write : Bool) : (s.transact c v write).ing = s.ing :=
  State.random_ing s
@[simp] theorem State.transact_ctl (s : State) (c v : Nat) (write : Bool) : (s.transact c v write).ctl = s.ctl :=
  State.random_ctl s
@[simp] theorem State.transact_can (s : State) (c v : Nat) (write : Bool) : (s.transact c v write).can = s.can :=
  State.random_can s
@[simp] theorem State.transact_t1s (s : State) (c v : Nat) (write : Bool) : (s.transact c v write).t1s = s.t1s :=
  State.random_t1s s
@[simp] theorem State.transact_eth (s : State) (c v : Nat) (write : Bool) : (s.transact c v write).eth = s.eth :=
  State.random_eth s
@[simp] theorem State.markAbort_pending (s : State) (port : Nat) : (s.markAbort port).pending = s.pending := rfl
@[simp] theorem State.markAbort_fresh (s : State) (port : Nat) : (s.markAbort port).fresh = s.fresh := rfl
@[simp] theorem State.markAbort_out (s : State) (port : Nat) : (s.markAbort port).out = s.out := rfl
@[simp] theorem State.markAbort_regs (s : State) (port : Nat) : (s.markAbort port).regs = s.regs := rfl
@[simp] theorem State.markAbort_boot (s : State) (port : Nat) : (s.markAbort port).boot = s.boot := rfl
@[simp] theorem State.markAbort_ward (s : State) (port : Nat) : (s.markAbort port).ward = s.ward := rfl
@[simp] theorem State.markAbort_sec (s : State) (port : Nat) : (s.markAbort port).sec = s.sec := rfl
@[simp] theorem State.markAbort_pwr (s : State) (port : Nat) : (s.markAbort port).pwr = s.pwr := rfl
@[simp] theorem State.markAbort_safe (s : State) (port : Nat) : (s.markAbort port).safe = s.safe := rfl
@[simp] theorem State.markAbort_time (s : State) (port : Nat) : (s.markAbort port).time = s.time := rfl
@[simp] theorem State.markAbort_comp (s : State) (port : Nat) : (s.markAbort port).comp = s.comp := rfl
@[simp] theorem State.markAbort_dram (s : State) (port : Nat) : (s.markAbort port).dram = s.dram := rfl
@[simp] theorem State.markAbort_kv (s : State) (port : Nat) : (s.markAbort port).kv = s.kv := rfl
@[simp] theorem State.markAbort_ing (s : State) (port : Nat) : (s.markAbort port).ing = s.ing := rfl
@[simp] theorem State.markAbort_ctl (s : State) (port : Nat) : (s.markAbort port).ctl = s.ctl := rfl
@[simp] theorem State.markAbort_can (s : State) (port : Nat) : (s.markAbort port).can = s.can := rfl
@[simp] theorem State.markAbort_t1s (s : State) (port : Nat) : (s.markAbort port).t1s = s.t1s := rfl
@[simp] theorem State.markAbort_eth (s : State) (port : Nat) : (s.markAbort port).eth = s.eth := rfl
@[simp] theorem State.noteDemand_pending (s : State) : s.noteDemand.pending = s.pending := rfl
@[simp] theorem State.noteDemand_fresh (s : State) : s.noteDemand.fresh = s.fresh := rfl
@[simp] theorem State.noteDemand_out (s : State) : s.noteDemand.out = s.out := rfl
@[simp] theorem State.noteDemand_regs (s : State) : s.noteDemand.regs = s.regs := rfl
@[simp] theorem State.noteDemand_ports (s : State) : s.noteDemand.ports = s.ports := rfl
@[simp] theorem State.noteDemand_boot (s : State) : s.noteDemand.boot = s.boot := rfl
@[simp] theorem State.noteDemand_ward (s : State) : s.noteDemand.ward = s.ward := rfl
@[simp] theorem State.noteDemand_sec (s : State) : s.noteDemand.sec = s.sec := rfl
@[simp] theorem State.noteDemand_safe (s : State) : s.noteDemand.safe = s.safe := rfl
@[simp] theorem State.noteDemand_time (s : State) : s.noteDemand.time = s.time := rfl
@[simp] theorem State.noteDemand_comp (s : State) : s.noteDemand.comp = s.comp := rfl
@[simp] theorem State.noteDemand_dram (s : State) : s.noteDemand.dram = s.dram := rfl
@[simp] theorem State.noteDemand_kv (s : State) : s.noteDemand.kv = s.kv := rfl
@[simp] theorem State.noteDemand_ing (s : State) : s.noteDemand.ing = s.ing := rfl
@[simp] theorem State.noteDemand_ctl (s : State) : s.noteDemand.ctl = s.ctl := rfl
@[simp] theorem State.noteDemand_can (s : State) : s.noteDemand.can = s.can := rfl
@[simp] theorem State.noteDemand_t1s (s : State) : s.noteDemand.t1s = s.t1s := rfl
@[simp] theorem State.noteDemand_eth (s : State) : s.noteDemand.eth = s.eth := rfl

end Sys2Proof.Machine
end

