-- ==== Sys2Proof/Laws/Ops.lean ====
section
/-!
SUPPORT. The laws of the operations that every family shares: what a message, an event, a bus error and a fault record
can change.
-/

set_option Elab.async false

namespace Sys2Proof.Machine

/-! ### Operations that change registers and outputs only -/

/-- The state with other registers and outputs. -/
def State.withRO (s : State) (r : Regs) (o : List Out) : State := { s with regs := r, out := o }

/-- Operations that change registers and outputs only do so in any number. -/
theorem foldl_withRO {α : Type} (f : State → α → State) (h : ∀ s x, ∃ r o, f s x = s.withRO r o) (l : List α) :
    ∀ s, ∃ r o, l.foldl f s = s.withRO r o := by
  induction l with
  | nil => exact fun s => ⟨s.regs, s.out, rfl⟩
  | cons x t ih =>
    intro s
    obtain ⟨r, o, e⟩ := h s x
    obtain ⟨r', o', e'⟩ := ih (f s x)
    exact ⟨r', o', by rw [List.foldl_cons, e', e]; rfl⟩

/-- All that a message can do: a pending bit set, or a message sent (R365). -/
theorem State.sendVector_frame (s : State) (port v : Nat) : ∃ r o, s.sendVector port v = s.withRO r o := by
  unfold State.sendVector
  simp only
  split
  · exact ⟨s.regs, s.out, rfl⟩
  · split
    · exact ⟨_, s.out, rfl⟩
    · exact ⟨s.regs, _, rfl⟩

/-- All that the messages of a source can do (R365). -/
theorem State.sendSource_frame (s : State) (k : Nat) : ∃ r o, s.sendSource k = s.withRO r o :=
  foldl_withRO _ (fun _ _ => State.sendVector_frame _ _ _) _ s

/-- All that an event can do: its register, and messages (R365). -/
theorem State.raise_frame (s : State) (k bits : Nat) : ∃ r o, s.raise k bits = s.withRO r o := by
  unfold State.raise
  simp only
  split
  · obtain ⟨r, o, e⟩ := (s.setReg k (s.rv k ||| bits)).sendSource_frame k
    exact ⟨r, o, e.trans rfl⟩
  · exact ⟨_, s.out, rfl⟩

/-- All that a W1C write can do (R11, R365). -/
theorem State.w1c_frame (s : State) (k v : Nat) : ∃ r o, s.w1c k v = s.withRO r o := by
  unfold State.w1c
  simp only
  split
  · obtain ⟨r, o, e⟩ := (s.setReg k (clearBits (s.rv k) v)).sendSource_frame k
    exact ⟨r, o, e.trans rfl⟩
  · exact ⟨_, s.out, rfl⟩

/-- All that registers set in a row can do. -/
theorem State.setRegs_frame (s : State) (k : Nat) (l : List Nat) : ∃ r, s.setRegs k l = s.withRO r s.out := by
  induction l generalizing s k with
  | nil => exact ⟨s.regs, rfl⟩
  | cons v t ih =>
    obtain ⟨r, e⟩ := ih (s.setReg k v) (k + 4)
    exact ⟨r, e.trans rfl⟩

/-- Two operations that change registers and outputs only, one after the other. -/
theorem withRO_trans {s a b : State} (h : ∃ r o, a = s.withRO r o) (k : ∃ r o, b = a.withRO r o) :
    ∃ r o, b = s.withRO r o := by
  obtain ⟨r, o, rfl⟩ := h
  obtain ⟨r', o', rfl⟩ := k
  exact ⟨r', o', rfl⟩

/-- A register set. -/
theorem State.setReg_frame (s : State) (k v : Nat) : ∃ r o, s.setReg k v = s.withRO r o := ⟨_, s.out, rfl⟩

/-- All that a bus error can do: the port's log and count, and a message (R361). -/
theorem State.busError_frame (s : State) (port bar kind off : Nat) :
    ∃ r o, s.busError port bar kind off = s.withRO r o := by
  unfold State.busError
  simp only
  split
  · exact State.setReg_frame _ _ _
  · refine withRO_trans ?_ (State.raise_frame _ _ _)
    refine withRO_trans ?_ (by obtain ⟨r, e⟩ := State.setRegs_frame _ _ _; exact ⟨r, _, e⟩)
    exact withRO_trans (withRO_trans (withRO_trans (State.setReg_frame _ _ _) (State.setReg_frame _ _ _))
      (State.setReg_frame _ _ _)) (State.setReg_frame _ _ _)

/-- All that a refused read can do: as a bus error, the error status of the port, and the abort. -/
theorem State.readError_frame (s : State) (port bar kind off : Nat) :
    ∃ r o, s.readError port bar kind off = (s.withRO r o).markAbort port := by
  obtain ⟨r, o, e⟩ := s.busError_frame port bar kind off
  exact ⟨r, o ++ [.readAbort port], by unfold State.readError; rw [e]; rfl⟩

@[simp] theorem State.sendVector_pending (s : State) (port v : Nat) : (s.sendVector port v).pending = s.pending := by
  obtain ⟨r, o, e⟩ := s.sendVector_frame port v; rw [e]; rfl
@[simp] theorem State.sendVector_fresh (s : State) (port v : Nat) : (s.sendVector port v).fresh = s.fresh := by
  obtain ⟨r, o, e⟩ := s.sendVector_frame port v; rw [e]; rfl
@[simp] theorem State.sendVector_ports (s : State) (port v : Nat) : (s.sendVector port v).ports = s.ports := by
  obtain ⟨r, o, e⟩ := s.sendVector_frame port v; rw [e]; rfl
@[simp] theorem State.sendVector_boot (s : State) (port v : Nat) : (s.sendVector port v).boot = s.boot := by
  obtain ⟨r, o, e⟩ := s.sendVector_frame port v; rw [e]; rfl
@[simp] theorem State.sendVector_ward (s : State) (port v : Nat) : (s.sendVector port v).ward = s.ward := by
  obtain ⟨r, o, e⟩ := s.sendVector_frame port v; rw [e]; rfl
@[simp] theorem State.sendVector_sec (s : State) (port v : Nat) : (s.sendVector port v).sec = s.sec := by
  obtain ⟨r, o, e⟩ := s.sendVector_frame port v; rw [e]; rfl
@[simp] theorem State.sendVector_pwr (s : State) (port v : Nat) : (s.sendVector port v).pwr = s.pwr := by
  obtain ⟨r, o, e⟩ := s.sendVector_frame port v; rw [e]; rfl
@[simp] theorem State.sendVector_safe (s : State) (port v : Nat) : (s.sendVector port v).safe = s.safe := by
  obtain ⟨r, o, e⟩ := s.sendVector_frame port v; rw [e]; rfl
@[simp] theorem State.sendVector_time (s : State) (port v : Nat) : (s.sendVector port v).time = s.time := by
  obtain ⟨r, o, e⟩ := s.sendVector_frame port v; rw [e]; rfl
@[simp] theorem State.sendVector_comp (s : State) (port v : Nat) : (s.sendVector port v).comp = s.comp := by
  obtain ⟨r, o, e⟩ := s.sendVector_frame port v; rw [e]; rfl
@[simp] theorem State.sendVector_dram (s : State) (port v : Nat) : (s.sendVector port v).dram = s.dram := by
  obtain ⟨r, o, e⟩ := s.sendVector_frame port v; rw [e]; rfl
@[simp] theorem State.sendVector_kv (s : State) (port v : Nat) : (s.sendVector port v).kv = s.kv := by
  obtain ⟨r, o, e⟩ := s.sendVector_frame port v; rw [e]; rfl
@[simp] theorem State.sendVector_ing (s : State) (port v : Nat) : (s.sendVector port v).ing = s.ing := by
  obtain ⟨r, o, e⟩ := s.sendVector_frame port v; rw [e]; rfl
@[simp] theorem State.sendVector_ctl (s : State) (port v : Nat) : (s.sendVector port v).ctl = s.ctl := by
  obtain ⟨r, o, e⟩ := s.sendVector_frame port v; rw [e]; rfl
@[simp] theorem State.sendVector_can (s : State) (port v : Nat) : (s.sendVector port v).can = s.can := by
  obtain ⟨r, o, e⟩ := s.sendVector_frame port v; rw [e]; rfl
@[simp] theorem State.sendVector_t1s (s : State) (port v : Nat) : (s.sendVector port v).t1s = s.t1s := by
  obtain ⟨r, o, e⟩ := s.sendVector_frame port v; rw [e]; rfl
@[simp] theorem State.sendVector_eth (s : State) (port v : Nat) : (s.sendVector port v).eth = s.eth := by
  obtain ⟨r, o, e⟩ := s.sendVector_frame port v; rw [e]; rfl
@[simp] theorem State.sendSource_pending (s : State) (k : Nat) : (s.sendSource k).pending = s.pending := by
  obtain ⟨r, o, e⟩ := s.sendSource_frame k; rw [e]; rfl
@[simp] theorem State.sendSource_fresh (s : State) (k : Nat) : (s.sendSource k).fresh = s.fresh := by
  obtain ⟨r, o, e⟩ := s.sendSource_frame k; rw [e]; rfl
@[simp] theorem State.sendSource_ports (s : State) (k : Nat) : (s.sendSource k).ports = s.ports := by
  obtain ⟨r, o, e⟩ := s.sendSource_frame k; rw [e]; rfl
@[simp] theorem State.sendSource_boot (s : State) (k : Nat) : (s.sendSource k).boot = s.boot := by
  obtain ⟨r, o, e⟩ := s.sendSource_frame k; rw [e]; rfl
@[simp] theorem State.sendSource_ward (s : State) (k : Nat) : (s.sendSource k).ward = s.ward := by
  obtain ⟨r, o, e⟩ := s.sendSource_frame k; rw [e]; rfl
@[simp] theorem State.sendSource_sec (s : State) (k : Nat) : (s.sendSource k).sec = s.sec := by
  obtain ⟨r, o, e⟩ := s.sendSource_frame k; rw [e]; rfl
@[simp] theorem State.sendSource_pwr (s : State) (k : Nat) : (s.sendSource k).pwr = s.pwr := by
  obtain ⟨r, o, e⟩ := s.sendSource_frame k; rw [e]; rfl
@[simp] theorem State.sendSource_safe (s : State) (k : Nat) : (s.sendSource k).safe = s.safe := by
  obtain ⟨r, o, e⟩ := s.sendSource_frame k; rw [e]; rfl
@[simp] theorem State.sendSource_time (s : State) (k : Nat) : (s.sendSource k).time = s.time := by
  obtain ⟨r, o, e⟩ := s.sendSource_frame k; rw [e]; rfl
@[simp] theorem State.sendSource_comp (s : State) (k : Nat) : (s.sendSource k).comp = s.comp := by
  obtain ⟨r, o, e⟩ := s.sendSource_frame k; rw [e]; rfl
@[simp] theorem State.sendSource_dram (s : State) (k : Nat) : (s.sendSource k).dram = s.dram := by
  obtain ⟨r, o, e⟩ := s.sendSource_frame k; rw [e]; rfl
@[simp] theorem State.sendSource_kv (s : State) (k : Nat) : (s.sendSource k).kv = s.kv := by
  obtain ⟨r, o, e⟩ := s.sendSource_frame k; rw [e]; rfl
@[simp] theorem State.sendSource_ing (s : State) (k : Nat) : (s.sendSource k).ing = s.ing := by
  obtain ⟨r, o, e⟩ := s.sendSource_frame k; rw [e]; rfl
@[simp] theorem State.sendSource_ctl (s : State) (k : Nat) : (s.sendSource k).ctl = s.ctl := by
  obtain ⟨r, o, e⟩ := s.sendSource_frame k; rw [e]; rfl
@[simp] theorem State.sendSource_can (s : State) (k : Nat) : (s.sendSource k).can = s.can := by
  obtain ⟨r, o, e⟩ := s.sendSource_frame k; rw [e]; rfl
@[simp] theorem State.sendSource_t1s (s : State) (k : Nat) : (s.sendSource k).t1s = s.t1s := by
  obtain ⟨r, o, e⟩ := s.sendSource_frame k; rw [e]; rfl
@[simp] theorem State.sendSource_eth (s : State) (k : Nat) : (s.sendSource k).eth = s.eth := by
  obtain ⟨r, o, e⟩ := s.sendSource_frame k; rw [e]; rfl
@[simp] theorem State.raise_pending (s : State) (k bits : Nat) : (s.raise k bits).pending = s.pending := by
  obtain ⟨r, o, e⟩ := s.raise_frame k bits; rw [e]; rfl
@[simp] theorem State.raise_fresh (s : State) (k bits : Nat) : (s.raise k bits).fresh = s.fresh := by
  obtain ⟨r, o, e⟩ := s.raise_frame k bits; rw [e]; rfl
@[simp] theorem State.raise_ports (s : State) (k bits : Nat) : (s.raise k bits).ports = s.ports := by
  obtain ⟨r, o, e⟩ := s.raise_frame k bits; rw [e]; rfl
@[simp] theorem State.raise_boot (s : State) (k bits : Nat) : (s.raise k bits).boot = s.boot := by
  obtain ⟨r, o, e⟩ := s.raise_frame k bits; rw [e]; rfl
@[simp] theorem State.raise_ward (s : State) (k bits : Nat) : (s.raise k bits).ward = s.ward := by
  obtain ⟨r, o, e⟩ := s.raise_frame k bits; rw [e]; rfl
@[simp] theorem State.raise_sec (s : State) (k bits : Nat) : (s.raise k bits).sec = s.sec := by
  obtain ⟨r, o, e⟩ := s.raise_frame k bits; rw [e]; rfl
@[simp] theorem State.raise_pwr (s : State) (k bits : Nat) : (s.raise k bits).pwr = s.pwr := by
  obtain ⟨r, o, e⟩ := s.raise_frame k bits; rw [e]; rfl
@[simp] theorem State.raise_safe (s : State) (k bits : Nat) : (s.raise k bits).safe = s.safe := by
  obtain ⟨r, o, e⟩ := s.raise_frame k bits; rw [e]; rfl
@[simp] theorem State.raise_time (s : State) (k bits : Nat) : (s.raise k bits).time = s.time := by
  obtain ⟨r, o, e⟩ := s.raise_frame k bits; rw [e]; rfl
@[simp] theorem State.raise_comp (s : State) (k bits : Nat) : (s.raise k bits).comp = s.comp := by
  obtain ⟨r, o, e⟩ := s.raise_frame k bits; rw [e]; rfl
@[simp] theorem State.raise_dram (s : State) (k bits : Nat) : (s.raise k bits).dram = s.dram := by
  obtain ⟨r, o, e⟩ := s.raise_frame k bits; rw [e]; rfl
@[simp] theorem State.raise_kv (s : State) (k bits : Nat) : (s.raise k bits).kv = s.kv := by
  obtain ⟨r, o, e⟩ := s.raise_frame k bits; rw [e]; rfl
@[simp] theorem State.raise_ing (s : State) (k bits : Nat) : (s.raise k bits).ing = s.ing := by
  obtain ⟨r, o, e⟩ := s.raise_frame k bits; rw [e]; rfl
@[simp] theorem State.raise_ctl (s : State) (k bits : Nat) : (s.raise k bits).ctl = s.ctl := by
  obtain ⟨r, o, e⟩ := s.raise_frame k bits; rw [e]; rfl
@[simp] theorem State.raise_can (s : State) (k bits : Nat) : (s.raise k bits).can = s.can := by
  obtain ⟨r, o, e⟩ := s.raise_frame k bits; rw [e]; rfl
@[simp] theorem State.raise_t1s (s : State) (k bits : Nat) : (s.raise k bits).t1s = s.t1s := by
  obtain ⟨r, o, e⟩ := s.raise_frame k bits; rw [e]; rfl
@[simp] theorem State.raise_eth (s : State) (k bits : Nat) : (s.raise k bits).eth = s.eth := by
  obtain ⟨r, o, e⟩ := s.raise_frame k bits; rw [e]; rfl
@[simp] theorem State.w1c_pending (s : State) (k v : Nat) : (s.w1c k v).pending = s.pending := by
  obtain ⟨r, o, e⟩ := s.w1c_frame k v; rw [e]; rfl
@[simp] theorem State.w1c_fresh (s : State) (k v : Nat) : (s.w1c k v).fresh = s.fresh := by
  obtain ⟨r, o, e⟩ := s.w1c_frame k v; rw [e]; rfl
@[simp] theorem State.w1c_ports (s : State) (k v : Nat) : (s.w1c k v).ports = s.ports := by
  obtain ⟨r, o, e⟩ := s.w1c_frame k v; rw [e]; rfl
@[simp] theorem State.w1c_boot (s : State) (k v : Nat) : (s.w1c k v).boot = s.boot := by
  obtain ⟨r, o, e⟩ := s.w1c_frame k v; rw [e]; rfl
@[simp] theorem State.w1c_ward (s : State) (k v : Nat) : (s.w1c k v).ward = s.ward := by
  obtain ⟨r, o, e⟩ := s.w1c_frame k v; rw [e]; rfl
@[simp] theorem State.w1c_sec (s : State) (k v : Nat) : (s.w1c k v).sec = s.sec := by
  obtain ⟨r, o, e⟩ := s.w1c_frame k v; rw [e]; rfl
@[simp] theorem State.w1c_pwr (s : State) (k v : Nat) : (s.w1c k v).pwr = s.pwr := by
  obtain ⟨r, o, e⟩ := s.w1c_frame k v; rw [e]; rfl
@[simp] theorem State.w1c_safe (s : State) (k v : Nat) : (s.w1c k v).safe = s.safe := by
  obtain ⟨r, o, e⟩ := s.w1c_frame k v; rw [e]; rfl
@[simp] theorem State.w1c_time (s : State) (k v : Nat) : (s.w1c k v).time = s.time := by
  obtain ⟨r, o, e⟩ := s.w1c_frame k v; rw [e]; rfl
@[simp] theorem State.w1c_comp (s : State) (k v : Nat) : (s.w1c k v).comp = s.comp := by
  obtain ⟨r, o, e⟩ := s.w1c_frame k v; rw [e]; rfl
@[simp] theorem State.w1c_dram (s : State) (k v : Nat) : (s.w1c k v).dram = s.dram := by
  obtain ⟨r, o, e⟩ := s.w1c_frame k v; rw [e]; rfl
@[simp] theorem State.w1c_kv (s : State) (k v : Nat) : (s.w1c k v).kv = s.kv := by
  obtain ⟨r, o, e⟩ := s.w1c_frame k v; rw [e]; rfl
@[simp] theorem State.w1c_ing (s : State) (k v : Nat) : (s.w1c k v).ing = s.ing := by
  obtain ⟨r, o, e⟩ := s.w1c_frame k v; rw [e]; rfl
@[simp] theorem State.w1c_ctl (s : State) (k v : Nat) : (s.w1c k v).ctl = s.ctl := by
  obtain ⟨r, o, e⟩ := s.w1c_frame k v; rw [e]; rfl
@[simp] theorem State.w1c_can (s : State) (k v : Nat) : (s.w1c k v).can = s.can := by
  obtain ⟨r, o, e⟩ := s.w1c_frame k v; rw [e]; rfl
@[simp] theorem State.w1c_t1s (s : State) (k v : Nat) : (s.w1c k v).t1s = s.t1s := by
  obtain ⟨r, o, e⟩ := s.w1c_frame k v; rw [e]; rfl
@[simp] theorem State.w1c_eth (s : State) (k v : Nat) : (s.w1c k v).eth = s.eth := by
  obtain ⟨r, o, e⟩ := s.w1c_frame k v; rw [e]; rfl
@[simp] theorem State.busError_pending (s : State) (port bar kind off : Nat) : (s.busError port bar kind off).pending = s.pending := by
  obtain ⟨r, o, e⟩ := s.busError_frame port bar kind off; rw [e]; rfl
@[simp] theorem State.busError_fresh (s : State) (port bar kind off : Nat) : (s.busError port bar kind off).fresh = s.fresh := by
  obtain ⟨r, o, e⟩ := s.busError_frame port bar kind off; rw [e]; rfl
@[simp] theorem State.busError_ports (s : State) (port bar kind off : Nat) : (s.busError port bar kind off).ports = s.ports := by
  obtain ⟨r, o, e⟩ := s.busError_frame port bar kind off; rw [e]; rfl
@[simp] theorem State.busError_boot (s : State) (port bar kind off : Nat) : (s.busError port bar kind off).boot = s.boot := by
  obtain ⟨r, o, e⟩ := s.busError_frame port bar kind off; rw [e]; rfl
@[simp] theorem State.busError_ward (s : State) (port bar kind off : Nat) : (s.busError port bar kind off).ward = s.ward := by
  obtain ⟨r, o, e⟩ := s.busError_frame port bar kind off; rw [e]; rfl
@[simp] theorem State.busError_sec (s : State) (port bar kind off : Nat) : (s.busError port bar kind off).sec = s.sec := by
  obtain ⟨r, o, e⟩ := s.busError_frame port bar kind off; rw [e]; rfl
@[simp] theorem State.busError_pwr (s : State) (port bar kind off : Nat) : (s.busError port bar kind off).pwr = s.pwr := by
  obtain ⟨r, o, e⟩ := s.busError_frame port bar kind off; rw [e]; rfl
@[simp] theorem State.busError_safe (s : State) (port bar kind off : Nat) : (s.busError port bar kind off).safe = s.safe := by
  obtain ⟨r, o, e⟩ := s.busError_frame port bar kind off; rw [e]; rfl
@[simp] theorem State.busError_time (s : State) (port bar kind off : Nat) : (s.busError port bar kind off).time = s.time := by
  obtain ⟨r, o, e⟩ := s.busError_frame port bar kind off; rw [e]; rfl
@[simp] theorem State.busError_comp (s : State) (port bar kind off : Nat) : (s.busError port bar kind off).comp = s.comp := by
  obtain ⟨r, o, e⟩ := s.busError_frame port bar kind off; rw [e]; rfl
@[simp] theorem State.busError_dram (s : State) (port bar kind off : Nat) : (s.busError port bar kind off).dram = s.dram := by
  obtain ⟨r, o, e⟩ := s.busError_frame port bar kind off; rw [e]; rfl
@[simp] theorem State.busError_kv (s : State) (port bar kind off : Nat) : (s.busError port bar kind off).kv = s.kv := by
  obtain ⟨r, o, e⟩ := s.busError_frame port bar kind off; rw [e]; rfl
@[simp] theorem State.busError_ing (s : State) (port bar kind off : Nat) : (s.busError port bar kind off).ing = s.ing := by
  obtain ⟨r, o, e⟩ := s.busError_frame port bar kind off; rw [e]; rfl
@[simp] theorem State.busError_ctl (s : State) (port bar kind off : Nat) : (s.busError port bar kind off).ctl = s.ctl := by
  obtain ⟨r, o, e⟩ := s.busError_frame port bar kind off; rw [e]; rfl
@[simp] theorem State.busError_can (s : State) (port bar kind off : Nat) : (s.busError port bar kind off).can = s.can := by
  obtain ⟨r, o, e⟩ := s.busError_frame port bar kind off; rw [e]; rfl
@[simp] theorem State.busError_t1s (s : State) (port bar kind off : Nat) : (s.busError port bar kind off).t1s = s.t1s := by
  obtain ⟨r, o, e⟩ := s.busError_frame port bar kind off; rw [e]; rfl
@[simp] theorem State.busError_eth (s : State) (port bar kind off : Nat) : (s.busError port bar kind off).eth = s.eth := by
  obtain ⟨r, o, e⟩ := s.busError_frame port bar kind off; rw [e]; rfl
@[simp] theorem State.readError_pending (s : State) (port bar kind off : Nat) : (s.readError port bar kind off).pending = s.pending := by
  obtain ⟨r, o, e⟩ := s.readError_frame port bar kind off; rw [e]; rfl
@[simp] theorem State.readError_fresh (s : State) (port bar kind off : Nat) : (s.readError port bar kind off).fresh = s.fresh := by
  obtain ⟨r, o, e⟩ := s.readError_frame port bar kind off; rw [e]; rfl
@[simp] theorem State.readError_boot (s : State) (port bar kind off : Nat) : (s.readError port bar kind off).boot = s.boot := by
  obtain ⟨r, o, e⟩ := s.readError_frame port bar kind off; rw [e]; rfl
@[simp] theorem State.readError_ward (s : State) (port bar kind off : Nat) : (s.readError port bar kind off).ward = s.ward := by
  obtain ⟨r, o, e⟩ := s.readError_frame port bar kind off; rw [e]; rfl
@[simp] theorem State.readError_sec (s : State) (port bar kind off : Nat) : (s.readError port bar kind off).sec = s.sec := by
  obtain ⟨r, o, e⟩ := s.readError_frame port bar kind off; rw [e]; rfl
@[simp] theorem State.readError_pwr (s : State) (port bar kind off : Nat) : (s.readError port bar kind off).pwr = s.pwr := by
  obtain ⟨r, o, e⟩ := s.readError_frame port bar kind off; rw [e]; rfl
@[simp] theorem State.readError_safe (s : State) (port bar kind off : Nat) : (s.readError port bar kind off).safe = s.safe := by
  obtain ⟨r, o, e⟩ := s.readError_frame port bar kind off; rw [e]; rfl
@[simp] theorem State.readError_time (s : State) (port bar kind off : Nat) : (s.readError port bar kind off).time = s.time := by
  obtain ⟨r, o, e⟩ := s.readError_frame port bar kind off; rw [e]; rfl
@[simp] theorem State.readError_comp (s : State) (port bar kind off : Nat) : (s.readError port bar kind off).comp = s.comp := by
  obtain ⟨r, o, e⟩ := s.readError_frame port bar kind off; rw [e]; rfl
@[simp] theorem State.readError_dram (s : State) (port bar kind off : Nat) : (s.readError port bar kind off).dram = s.dram := by
  obtain ⟨r, o, e⟩ := s.readError_frame port bar kind off; rw [e]; rfl
@[simp] theorem State.readError_kv (s : State) (port bar kind off : Nat) : (s.readError port bar kind off).kv = s.kv := by
  obtain ⟨r, o, e⟩ := s.readError_frame port bar kind off; rw [e]; rfl
@[simp] theorem State.readError_ing (s : State) (port bar kind off : Nat) : (s.readError port bar kind off).ing = s.ing := by
  obtain ⟨r, o, e⟩ := s.readError_frame port bar kind off; rw [e]; rfl
@[simp] theorem State.readError_ctl (s : State) (port bar kind off : Nat) : (s.readError port bar kind off).ctl = s.ctl := by
  obtain ⟨r, o, e⟩ := s.readError_frame port bar kind off; rw [e]; rfl
@[simp] theorem State.readError_can (s : State) (port bar kind off : Nat) : (s.readError port bar kind off).can = s.can := by
  obtain ⟨r, o, e⟩ := s.readError_frame port bar kind off; rw [e]; rfl
@[simp] theorem State.readError_t1s (s : State) (port bar kind off : Nat) : (s.readError port bar kind off).t1s = s.t1s := by
  obtain ⟨r, o, e⟩ := s.readError_frame port bar kind off; rw [e]; rfl
@[simp] theorem State.readError_eth (s : State) (port bar kind off : Nat) : (s.readError port bar kind off).eth = s.eth := by
  obtain ⟨r, o, e⟩ := s.readError_frame port bar kind off; rw [e]; rfl

/-! ### Fault records and causes -/

/-- All that a fault record can do: the log, its event, messages (R397). -/
theorem State.logFault_frame (s : State) (r : FaultRec) :
    ∃ f h g o, s.logFault r = ({ s with safe := { s.safe with flog := f, flogHead := h } } : State).withRO g o := by
  unfold State.logFault
  obtain ⟨g, o, e⟩ := State.raise_frame _ 0x200020 0x100
  exact ⟨_, _, g, o, e⟩

/-- All that a detected cause can do: a record, a hard cause remembered, the entry into the safe state due (R381). -/
theorem State.detect_frame (s : State) (c unit response : Nat) :
    ∃ f h k d g o, s.detect c unit response =
      ({ s with safe := { s.safe with flog := f, flogHead := h, hard := k, entryDue := d } } : State).withRO g o := by
  unfold State.detect
  obtain ⟨f, h, g, o, e⟩ := s.logFault_frame ⟨response, unit, 0x0410 + c, s.now⟩
  unfold State.logNow
  rw [e]
  exact ⟨f, h, _, _, g, o, rfl⟩

@[simp] theorem State.logFault_pending (s : State) (r : FaultRec) : (s.logFault r).pending = s.pending := by
  obtain ⟨f, h, g, o, e⟩ := s.logFault_frame r; rw [e]; rfl
@[simp] theorem State.logFault_fresh (s : State) (r : FaultRec) : (s.logFault r).fresh = s.fresh := by
  obtain ⟨f, h, g, o, e⟩ := s.logFault_frame r; rw [e]; rfl
@[simp] theorem State.logFault_ports (s : State) (r : FaultRec) : (s.logFault r).ports = s.ports := by
  obtain ⟨f, h, g, o, e⟩ := s.logFault_frame r; rw [e]; rfl
@[simp] theorem State.logFault_boot (s : State) (r : FaultRec) : (s.logFault r).boot = s.boot := by
  obtain ⟨f, h, g, o, e⟩ := s.logFault_frame r; rw [e]; rfl
@[simp] theorem State.logFault_ward (s : State) (r : FaultRec) : (s.logFault r).ward = s.ward := by
  obtain ⟨f, h, g, o, e⟩ := s.logFault_frame r; rw [e]; rfl
@[simp] theorem State.logFault_sec (s : State) (r : FaultRec) : (s.logFault r).sec = s.sec := by
  obtain ⟨f, h, g, o, e⟩ := s.logFault_frame r; rw [e]; rfl
@[simp] theorem State.logFault_pwr (s : State) (r : FaultRec) : (s.logFault r).pwr = s.pwr := by
  obtain ⟨f, h, g, o, e⟩ := s.logFault_frame r; rw [e]; rfl
@[simp] theorem State.logFault_time (s : State) (r : FaultRec) : (s.logFault r).time = s.time := by
  obtain ⟨f, h, g, o, e⟩ := s.logFault_frame r; rw [e]; rfl
@[simp] theorem State.logFault_comp (s : State) (r : FaultRec) : (s.logFault r).comp = s.comp := by
  obtain ⟨f, h, g, o, e⟩ := s.logFault_frame r; rw [e]; rfl
@[simp] theorem State.logFault_dram (s : State) (r : FaultRec) : (s.logFault r).dram = s.dram := by
  obtain ⟨f, h, g, o, e⟩ := s.logFault_frame r; rw [e]; rfl
@[simp] theorem State.logFault_kv (s : State) (r : FaultRec) : (s.logFault r).kv = s.kv := by
  obtain ⟨f, h, g, o, e⟩ := s.logFault_frame r; rw [e]; rfl
@[simp] theorem State.logFault_ing (s : State) (r : FaultRec) : (s.logFault r).ing = s.ing := by
  obtain ⟨f, h, g, o, e⟩ := s.logFault_frame r; rw [e]; rfl
@[simp] theorem State.logFault_ctl (s : State) (r : FaultRec) : (s.logFault r).ctl = s.ctl := by
  obtain ⟨f, h, g, o, e⟩ := s.logFault_frame r; rw [e]; rfl
@[simp] theorem State.logFault_can (s : State) (r : FaultRec) : (s.logFault r).can = s.can := by
  obtain ⟨f, h, g, o, e⟩ := s.logFault_frame r; rw [e]; rfl
@[simp] theorem State.logFault_t1s (s : State) (r : FaultRec) : (s.logFault r).t1s = s.t1s := by
  obtain ⟨f, h, g, o, e⟩ := s.logFault_frame r; rw [e]; rfl
@[simp] theorem State.logFault_eth (s : State) (r : FaultRec) : (s.logFault r).eth = s.eth := by
  obtain ⟨f, h, g, o, e⟩ := s.logFault_frame r; rw [e]; rfl
@[simp] theorem State.logFault_safe_state (s : State) (r : FaultRec) :
    (s.logFault r).safe.state = s.safe.state := by
  obtain ⟨f, h, g, o, e⟩ := s.logFault_frame r; rw [e]; rfl
@[simp] theorem State.logFault_safe_cause (s : State) (r : FaultRec) :
    (s.logFault r).safe.cause = s.safe.cause := by
  obtain ⟨f, h, g, o, e⟩ := s.logFault_frame r; rw [e]; rfl
@[simp] theorem State.logFault_safe_entryCnt (s : State) (r : FaultRec) :
    (s.logFault r).safe.entryCnt = s.safe.entryCnt := by
  obtain ⟨f, h, g, o, e⟩ := s.logFault_frame r; rw [e]; rfl
@[simp] theorem State.logFault_safe_entryTs (s : State) (r : FaultRec) :
    (s.logFault r).safe.entryTs = s.safe.entryTs := by
  obtain ⟨f, h, g, o, e⟩ := s.logFault_frame r; rw [e]; rfl
@[simp] theorem State.logFault_safe_heartbeat (s : State) (r : FaultRec) :
    (s.logFault r).safe.heartbeat = s.safe.heartbeat := by
  obtain ⟨f, h, g, o, e⟩ := s.logFault_frame r; rw [e]; rfl
@[simp] theorem State.logFault_safe_repeatNo (s : State) (r : FaultRec) :
    (s.logFault r).safe.repeatNo = s.safe.repeatNo := by
  obtain ⟨f, h, g, o, e⟩ := s.logFault_frame r; rw [e]; rfl
@[simp] theorem State.logFault_safe_mons (s : State) (r : FaultRec) :
    (s.logFault r).safe.mons = s.safe.mons := by
  obtain ⟨f, h, g, o, e⟩ := s.logFault_frame r; rw [e]; rfl
@[simp] theorem State.logFault_safe_units (s : State) (r : FaultRec) :
    (s.logFault r).safe.units = s.safe.units := by
  obtain ⟨f, h, g, o, e⟩ := s.logFault_frame r; rw [e]; rfl
@[simp] theorem State.logFault_safe_plan (s : State) (r : FaultRec) :
    (s.logFault r).safe.plan = s.safe.plan := by
  obtain ⟨f, h, g, o, e⟩ := s.logFault_frame r; rw [e]; rfl
@[simp] theorem State.logFault_safe_pairLost (s : State) (r : FaultRec) :
    (s.logFault r).safe.pairLost = s.safe.pairLost := by
  obtain ⟨f, h, g, o, e⟩ := s.logFault_frame r; rw [e]; rfl
@[simp] theorem State.detect_pending (s : State) (c unit response : Nat) : (s.detect c unit response).pending = s.pending := by
  obtain ⟨f, h, k, d, g, o, e⟩ := s.detect_frame c unit response; rw [e]; rfl
@[simp] theorem State.detect_fresh (s : State) (c unit response : Nat) : (s.detect c unit response).fresh = s.fresh := by
  obtain ⟨f, h, k, d, g, o, e⟩ := s.detect_frame c unit response; rw [e]; rfl
@[simp] theorem State.detect_ports (s : State) (c unit response : Nat) : (s.detect c unit response).ports = s.ports := by
  obtain ⟨f, h, k, d, g, o, e⟩ := s.detect_frame c unit response; rw [e]; rfl
@[simp] theorem State.detect_boot (s : State) (c unit response : Nat) : (s.detect c unit response).boot = s.boot := by
  obtain ⟨f, h, k, d, g, o, e⟩ := s.detect_frame c unit response; rw [e]; rfl
@[simp] theorem State.detect_ward (s : State) (c unit response : Nat) : (s.detect c unit response).ward = s.ward := by
  obtain ⟨f, h, k, d, g, o, e⟩ := s.detect_frame c unit response; rw [e]; rfl
@[simp] theorem State.detect_sec (s : State) (c unit response : Nat) : (s.detect c unit response).sec = s.sec := by
  obtain ⟨f, h, k, d, g, o, e⟩ := s.detect_frame c unit response; rw [e]; rfl
@[simp] theorem State.detect_pwr (s : State) (c unit response : Nat) : (s.detect c unit response).pwr = s.pwr := by
  obtain ⟨f, h, k, d, g, o, e⟩ := s.detect_frame c unit response; rw [e]; rfl
@[simp] theorem State.detect_time (s : State) (c unit response : Nat) : (s.detect c unit response).time = s.time := by
  obtain ⟨f, h, k, d, g, o, e⟩ := s.detect_frame c unit response; rw [e]; rfl
@[simp] theorem State.detect_comp (s : State) (c unit response : Nat) : (s.detect c unit response).comp = s.comp := by
  obtain ⟨f, h, k, d, g, o, e⟩ := s.detect_frame c unit response; rw [e]; rfl
@[simp] theorem State.detect_dram (s : State) (c unit response : Nat) : (s.detect c unit response).dram = s.dram := by
  obtain ⟨f, h, k, d, g, o, e⟩ := s.detect_frame c unit response; rw [e]; rfl
@[simp] theorem State.detect_kv (s : State) (c unit response : Nat) : (s.detect c unit response).kv = s.kv := by
  obtain ⟨f, h, k, d, g, o, e⟩ := s.detect_frame c unit response; rw [e]; rfl
@[simp] theorem State.detect_ing (s : State) (c unit response : Nat) : (s.detect c unit response).ing = s.ing := by
  obtain ⟨f, h, k, d, g, o, e⟩ := s.detect_frame c unit response; rw [e]; rfl
@[simp] theorem State.detect_ctl (s : State) (c unit response : Nat) : (s.detect c unit response).ctl = s.ctl := by
  obtain ⟨f, h, k, d, g, o, e⟩ := s.detect_frame c unit response; rw [e]; rfl
@[simp] theorem State.detect_can (s : State) (c unit response : Nat) : (s.detect c unit response).can = s.can := by
  obtain ⟨f, h, k, d, g, o, e⟩ := s.detect_frame c unit response; rw [e]; rfl
@[simp] theorem State.detect_t1s (s : State) (c unit response : Nat) : (s.detect c unit response).t1s = s.t1s := by
  obtain ⟨f, h, k, d, g, o, e⟩ := s.detect_frame c unit response; rw [e]; rfl
@[simp] theorem State.detect_eth (s : State) (c unit response : Nat) : (s.detect c unit response).eth = s.eth := by
  obtain ⟨f, h, k, d, g, o, e⟩ := s.detect_frame c unit response; rw [e]; rfl
@[simp] theorem State.detect_safe_state (s : State) (c unit response : Nat) :
    (s.detect c unit response).safe.state = s.safe.state := by
  obtain ⟨f, h, k, d, g, o, e⟩ := s.detect_frame c unit response; rw [e]; rfl
@[simp] theorem State.detect_safe_cause (s : State) (c unit response : Nat) :
    (s.detect c unit response).safe.cause = s.safe.cause := by
  obtain ⟨f, h, k, d, g, o, e⟩ := s.detect_frame c unit response; rw [e]; rfl
@[simp] theorem State.detect_safe_entryCnt (s : State) (c unit response : Nat) :
    (s.detect c unit response).safe.entryCnt = s.safe.entryCnt := by
  obtain ⟨f, h, k, d, g, o, e⟩ := s.detect_frame c unit response; rw [e]; rfl
@[simp] theorem State.detect_safe_entryTs (s : State) (c unit response : Nat) :
    (s.detect c unit response).safe.entryTs = s.safe.entryTs := by
  obtain ⟨f, h, k, d, g, o, e⟩ := s.detect_frame c unit response; rw [e]; rfl
@[simp] theorem State.detect_safe_heartbeat (s : State) (c unit response : Nat) :
    (s.detect c unit response).safe.heartbeat = s.safe.heartbeat := by
  obtain ⟨f, h, k, d, g, o, e⟩ := s.detect_frame c unit response; rw [e]; rfl
@[simp] theorem State.detect_safe_repeatNo (s : State) (c unit response : Nat) :
    (s.detect c unit response).safe.repeatNo = s.safe.repeatNo := by
  obtain ⟨f, h, k, d, g, o, e⟩ := s.detect_frame c unit response; rw [e]; rfl
@[simp] theorem State.detect_safe_mons (s : State) (c unit response : Nat) :
    (s.detect c unit response).safe.mons = s.safe.mons := by
  obtain ⟨f, h, k, d, g, o, e⟩ := s.detect_frame c unit response; rw [e]; rfl
@[simp] theorem State.detect_safe_units (s : State) (c unit response : Nat) :
    (s.detect c unit response).safe.units = s.safe.units := by
  obtain ⟨f, h, k, d, g, o, e⟩ := s.detect_frame c unit response; rw [e]; rfl
@[simp] theorem State.detect_safe_plan (s : State) (c unit response : Nat) :
    (s.detect c unit response).safe.plan = s.safe.plan := by
  obtain ⟨f, h, k, d, g, o, e⟩ := s.detect_frame c unit response; rw [e]; rfl
@[simp] theorem State.detect_safe_pairLost (s : State) (c unit response : Nat) :
    (s.detect c unit response).safe.pairLost = s.safe.pairLost := by
  obtain ⟨f, h, k, d, g, o, e⟩ := s.detect_frame c unit response; rw [e]; rfl
@[simp] theorem State.logNow_pending (s : State) (response unit code : Nat) :
    (s.logNow response unit code).pending = s.pending := s.logFault_pending _
@[simp] theorem State.logNow_fresh (s : State) (response unit code : Nat) :
    (s.logNow response unit code).fresh = s.fresh := s.logFault_fresh _
@[simp] theorem State.logNow_ports (s : State) (response unit code : Nat) :
    (s.logNow response unit code).ports = s.ports := s.logFault_ports _
@[simp] theorem State.logNow_boot (s : State) (response unit code : Nat) :
    (s.logNow response unit code).boot = s.boot := s.logFault_boot _
@[simp] theorem State.logNow_ward (s : State) (response unit code : Nat) :
    (s.logNow response unit code).ward = s.ward := s.logFault_ward _
@[simp] theorem State.logNow_sec (s : State) (response unit code : Nat) :
    (s.logNow response unit code).sec = s.sec := s.logFault_sec _
@[simp] theorem State.logNow_pwr (s : State) (response unit code : Nat) :
    (s.logNow response unit code).pwr = s.pwr := s.logFault_pwr _
@[simp] theorem State.logNow_time (s : State) (response unit code : Nat) :
    (s.logNow response unit code).time = s.time := s.logFault_time _
@[simp] theorem State.logNow_comp (s : State) (response unit code : Nat) :
    (s.logNow response unit code).comp = s.comp := s.logFault_comp _
@[simp] theorem State.logNow_dram (s : State) (response unit code : Nat) :
    (s.logNow response unit code).dram = s.dram := s.logFault_dram _
@[simp] theorem State.logNow_kv (s : State) (response unit code : Nat) :
    (s.logNow response unit code).kv = s.kv := s.logFault_kv _
@[simp] theorem State.logNow_ing (s : State) (response unit code : Nat) :
    (s.logNow response unit code).ing = s.ing := s.logFault_ing _
@[simp] theorem State.logNow_ctl (s : State) (response unit code : Nat) :
    (s.logNow response unit code).ctl = s.ctl := s.logFault_ctl _
@[simp] theorem State.logNow_can (s : State) (response unit code : Nat) :
    (s.logNow response unit code).can = s.can := s.logFault_can _
@[simp] theorem State.logNow_t1s (s : State) (response unit code : Nat) :
    (s.logNow response unit code).t1s = s.t1s := s.logFault_t1s _
@[simp] theorem State.logNow_eth (s : State) (response unit code : Nat) :
    (s.logNow response unit code).eth = s.eth := s.logFault_eth _
@[simp] theorem State.logNow_safe_state (s : State) (response unit code : Nat) :
    (s.logNow response unit code).safe.state = s.safe.state := s.logFault_safe_state _
@[simp] theorem State.logNow_safe_cause (s : State) (response unit code : Nat) :
    (s.logNow response unit code).safe.cause = s.safe.cause := s.logFault_safe_cause _
@[simp] theorem State.logNow_safe_entryCnt (s : State) (response unit code : Nat) :
    (s.logNow response unit code).safe.entryCnt = s.safe.entryCnt := s.logFault_safe_entryCnt _
@[simp] theorem State.logNow_safe_entryTs (s : State) (response unit code : Nat) :
    (s.logNow response unit code).safe.entryTs = s.safe.entryTs := s.logFault_safe_entryTs _
@[simp] theorem State.logNow_safe_heartbeat (s : State) (response unit code : Nat) :
    (s.logNow response unit code).safe.heartbeat = s.safe.heartbeat := s.logFault_safe_heartbeat _
@[simp] theorem State.logNow_safe_repeatNo (s : State) (response unit code : Nat) :
    (s.logNow response unit code).safe.repeatNo = s.safe.repeatNo := s.logFault_safe_repeatNo _
@[simp] theorem State.logNow_safe_mons (s : State) (response unit code : Nat) :
    (s.logNow response unit code).safe.mons = s.safe.mons := s.logFault_safe_mons _
@[simp] theorem State.logNow_safe_units (s : State) (response unit code : Nat) :
    (s.logNow response unit code).safe.units = s.safe.units := s.logFault_safe_units _
@[simp] theorem State.logNow_safe_plan (s : State) (response unit code : Nat) :
    (s.logNow response unit code).safe.plan = s.safe.plan := s.logFault_safe_plan _
@[simp] theorem State.logNow_safe_pairLost (s : State) (response unit code : Nat) :
    (s.logNow response unit code).safe.pairLost = s.safe.pairLost := s.logFault_safe_pairLost _

/-! ### Operations that change pins, a core's scrubber or a job's energy -/

/-- The state with other time blocks and outputs. -/
def State.withTO (s : State) (x : TimeSt) (o : List Out) : State := { s with time := x, out := o }

/-- Operations that change the time blocks and outputs only do so in any number. -/
theorem foldl_withTO {α : Type} (f : State → α → State) (h : ∀ s x, ∃ y o, f s x = s.withTO y o) (l : List α) :
    ∀ s, ∃ y o, l.foldl f s = s.withTO y o := by
  induction l with
  | nil => exact fun s => ⟨s.time, s.out, rfl⟩
  | cons a l ih =>
    intro s
    obtain ⟨y, o, e⟩ := h s a
    obtain ⟨y2, o2, e2⟩ := ih (f s a)
    exact ⟨y2, o2, by rw [List.foldl_cons, e2, e]; rfl⟩

theorem State.settlePin_frame (s : State) (g : Nat) (level : Bool) : ∃ y o, s.settlePin g level = s.withTO y o := by
  unfold State.settlePin
  split
  · split
    · exact ⟨s.time, s.out, rfl⟩
    · exact ⟨_, _, rfl⟩
  · exact ⟨s.time, s.out, rfl⟩

/-- Pins come to rest: nothing but the pulse generators and the outputs changes. -/
theorem State.restPins_frame (s : State) : ∃ y o, s.restPins = s.withTO y o := by
  unfold State.restPins
  split
  · exact foldl_withTO _ (fun s g => s.settlePin_frame g _) _ s
  · exact ⟨s.time, s.out, rfl⟩

/-- Pins lose their supply: nothing but the pulse generators and the outputs changes. -/
theorem State.pinsOff_frame (s : State) : ∃ y o, s.pinsOff = s.withTO y o := by
  refine foldl_withTO _ (fun s g => ?_) _ s
  split
  · dsimp only
    split <;> exact ⟨_, _, rfl⟩
  · exact ⟨s.time, s.out, rfl⟩

theorem State.supplied_frame (t old : State) : ∃ o, t.supplied old = { t with out := o } := by
  unfold State.supplied
  split
  · exact ⟨t.out, rfl⟩
  · exact ⟨_, rfl⟩

theorem State.setScrub_frame (s : State) (core pos : Nat) :
    s.setScrub core pos = { s with comp := { s.comp with cores := (s.setScrub core pos).comp.cores } } := rfl

theorem State.creditJob_frame (s : State) (serial nj : Nat) :
    s.creditJob serial nj =
      { s with comp := { s.comp with parts := (s.creditJob serial nj).comp.parts, queues := (s.creditJob serial nj).comp.queues } } := rfl

end Sys2Proof.Machine
end

