-- ==== Sys2Proof/Laws/Gate.lean ====
section
/-!
SUPPORT. The laws of the gates: when a command of a port has its effect, when it is a bus error, when it does not arrive.
-/

set_option Elab.async false

namespace Sys2Proof.Machine
open Sys2Proof.Safety

/-- A port that does not exist is not reached. -/
theorem State.reach_missing {s : State} {p : Nat} (h : s.nPorts ≤ p) : s.reach p = false := by
  simp [State.reach, State.exists', Nat.not_lt.2 h]

/-- A write that is let through has its effect. -/
theorem State.gate_admits {s : State} {p : Port} {off : Nat} (h : admits s p off) (f : State → State) :
    s.gate p off true f = .next (f s) := by
  have hr : s.reach p.val = true := h.1
  simp [State.gate, hr, h.2]

/-- A write that is let through has its effect, where the block's rule allows it. -/
theorem State.gate_may {s : State} {p : Port} {off : Nat} (h : admits s p off) {may : Bool} (hm : may = true)
    (f : State → State) : s.gate p off may f = .next (f s) := hm ▸ State.gate_admits h f

/-- A write that the phase or the block's rule forbids is a bus error. -/
theorem State.gate_forbidden {s : State} {p : Port} {off : Nat} (h : arrives s p) {may : Bool}
    (hm : (s.phaseOk off && may) = false) (f : State → State) : s.gate p off may f = .next (s.busError p 0 3 off) := by
  have hr : s.reach p.val = true := h
  unfold State.gate
  rw [hr, hm]; rfl

/-- A command whose port is not reached changes nothing. -/
theorem State.gate_lost {s : State} {p : Port} (h : s.reach p = false) (off : Nat) (may : Bool) (f : State → State) :
    s.gate p off may f = .next s := by simp [State.gate, h]

/-- All that a gate can answer. -/
theorem State.gate_cases (s : State) (p : Port) (off : Nat) (may : Bool) (f : State → State) :
    s.gate p off may f = .next s ∨ s.gate p off may f = .next (f s) ∨ s.gate p off may f = .next (s.busError p 0 3 off) := by
  unfold State.gate
  split
  · exact .inl rfl
  · split
    · exact .inr (.inl rfl)
    · exact .inr (.inr rfl)

/-- A command of a port that arrives has its effect. -/
theorem State.onPort_arrives {s : State} {p : Port} (h : arrives s p) (f : State → State) :
    s.onPort p f = .next (f s) := by
  have hr : s.reach p.val = true := h
  simp [State.onPort, hr]

/-- A command whose port is not reached changes nothing. -/
theorem State.onPort_lost {s : State} {p : Port} (h : s.reach p = false) (f : State → State) :
    s.onPort p f = .next s := by simp [State.onPort, h]

/-- All that a command of a port can answer. -/
theorem State.onPort_cases (s : State) (p : Port) (f : State → State) :
    s.onPort p f = .next s ∨ s.onPort p f = .next (f s) := by
  unfold State.onPort
  split
  · exact .inr rfl
  · exact .inl rfl

/-- An event of a port's link that arrives has its effect. -/
theorem State.onLink_linked {s : State} {p : Port} (h : linked s p) (f : State → State) : s.onLink p f = .next (f s) := by
  simp [State.onLink, State.exists', h.1, h.2]

/-- An event of a port that does not exist changes nothing. -/
theorem State.onLink_missing {s : State} {p : Port} (h : s.nPorts ≤ p.val) (f : State → State) :
    s.onLink p f = .next s := by simp [State.onLink, State.exists', Nat.not_lt.2 h]

/-- All that an event of a port's link can answer. -/
theorem State.onLink_cases (s : State) (p : Port) (f : State → State) :
    s.onLink p f = .next s ∨ s.onLink p f = .next (f s) := by
  unfold State.onLink
  split
  · exact .inr rfl
  · exact .inl rfl

/-- A read that the block takes in this phase. -/
theorem State.readGate_admits {s : State} {p : Port} {off : Nat} (h : admits s p off) (f : State → State) :
    s.readGate p off f = .next (f s) := by
  have hr : s.reach p.val = true := h.1
  simp [State.readGate, hr, h.2]

/-- A read whose port is not reached changes nothing. -/
theorem State.readGate_lost {s : State} {p : Port} (h : s.reach p = false) (off : Nat) (f : State → State) :
    s.readGate p off f = .next s := by simp [State.readGate, h]

/-- All that a read can answer. -/
theorem State.readGate_cases (s : State) (p : Port) (off : Nat) (f : State → State) :
    s.readGate p off f = .next s ∨ s.readGate p off f = .next (f s) ∨
      s.readGate p off f = .next (s.emit (.readData p.val [0, 0, 0, 0] false)) := by
  unfold State.readGate
  split
  · exact .inl rfl
  · split
    · exact .inr (.inl rfl)
    · exact .inr (.inr rfl)

/-- Work of the safety island or the security engine while the reference oscillator runs has its effect (R25). -/
theorem State.clocked_on {s : State} (h : s.boot.refOsc = true) (f : State → State) : s.clocked f = .next (f s) := if_pos h

/-- All that such work can answer. -/
theorem State.clocked_cases (s : State) (f : State → State) : s.clocked f = .next s ∨ s.clocked f = .next (f s) := by
  unfold State.clocked
  split
  · exact .inr rfl
  · exact .inl rfl

end Sys2Proof.Machine
end

