-- ==== Sys2Proof/Laws/Frame.lean ====
section
/-!
SUPPORT. What each command can change, said once: a command that goes on leaves the state as it was, or changes registers
and outputs only (a bus error, a read of a block that is not ready), or commits the part of another state that its family
names.
-/

set_option Elab.async false

namespace Sys2Proof.Machine
open Sys2Proof.Safety

/-- The part of another state that a command commits, by its family. -/
def commitOf : Instr → State → State → State
  | .begin _ | .chunk _ | .chunkCopyDone | .finish _ | .abort _ | .wardCmdUnknown _ _ | .antiRollbackAdvance _ => commitWard
  | .validationDone _ | .switch _ => commitSwitch
  | .holdRelease => commitRelease
  | .doorbell _ _ _ _ | .jobStart _ _ | .stepDelivery _ _ | .sliceExpiry _ | .jobSuspended _ | .jobTimeout _ | .jobComplete _
  | .queueReset _ | .remap _ | .parkSwitch _ _ => commitJob
  | .bar2Read _ _ _ | .malformedAccess _ _ _ | .reservedLocationAccess _ _ _ _ | .linkUp _ => commitBus
  | .bar4Read _ _ _ => fun s t => { commitStep s t with ports := t.ports }
  | .bar4Write _ _ _ => fun s t =>
    { s with ports := t.ports, dram := t.dram, out := t.out, regs := { s.regs with pwr := t.regs.pwr, pci := t.regs.pci } }
  | .registerWrite w => commitRegs w.off
  | .eventRegisterW1c _ | .latchGo _ _ | .buserrLogClear _ | .buserrCountClear _ => commitLatch
  | .latchApply _ _ => commitApply
  | .snapshot _ _ => commitSnap
  | .retrain _ _ => fun s t => { s with ports := t.ports }
  | .linkTrainingComplete _ _ _ | .portReset _ _ => fun s t => { s with ports := t.ports, regs := t.regs, out := t.out }
  | .safeMemCounterClear _ | .safeMemLogClear _ | .ageEvaluation | .safeStateEntry | .safeFrameRepeat | .resume _ _ | .enter _ _
  | .deadboltReadback _ | .guardKick | .guardTimeout | .islandLockstepTrip => commitState
  | .referenceOscillatorStop => commitOsc
  | .intervalEnd | .slotStart _ | .slotEnd _ | .granuleStart _ | .granuleDone _ _ | .granuleAbandon _
  | .pairIdentificationDone _ _ _ => commitSafe
  | .matmul _ _ _ | .vector _ _ _ | .fft2d _ _ _ | .catchPost _ _ _ | .catchWait _ _ | .catchSet _ _ _ | .resetBlock _ _ _
  | .catchServe _ _ | .catchWaitTimeout _ _ | .catchWaitAbandon _ _ | .stepEnd _ _ _ _ _ _ | .spFill _ _ _ | .spCopy _ _ _
  | .dma _ _ _ | .bankClose _ _ | .bankOpen _ _ | .bankOff _ _ | .bankOn _ _ | .tagCheck _ _ | .tagSet _ _ | .scrub _ _ _
  | .conv _ _ _ | .fconv _ _ _ | .pool _ _ _ | .nceConv _ _ _ | .nceGranule _ | .attn _ _ _ | .kvAppend _ _ _ | .kvMap _ _ _
  | .kvCtxOpen _ _ _ | .kvCtxClose _ _ _ | .kvCtxTruncate _ _ _ | .kvCtxAccept _ _ _ | .kvCtxFlush _ _ _
  | .kvCtxSetPrio _ _ _ | .kvCtxPrefetch _ _ _ | .swapOutPageDone _ _ | .swapInPageDone _ _ | .hostReadTimeout _ _ => commitStep
  | .setpt _ _ _ => commitSetpt
  | .sample _ _ | .faultIdentificationDone _ _ _ | .sentFrame _ _ => commitCtl
  | .framePassesCrc _ _ => fun s t => { s with ctl := t.ctl }
  | .canFrameStored _ _ _ | .canFrameSent _ _ _ | .arbitrationLost _ | .canError _ _ _ _ | .transmitSelection _
  | .canObjReq _ _ _ | .canObjAbort _ _ _ | .canObjClear _ _ _ | .canObjStatusRead _ _ _ | .lastWordRead _ _ _
  | .lockTimeout _ _ | .canInitSet _ _ _ | .canInitClear _ _ | .busIntegrationDone _ | .busOffRecovery _
  | .transmitDominantTimeout _ | .referenceMessage _ | .protocolException _ => commitCan
  | .t1sFrameReceived _ _ _ | .transmitOpportunity _ | .beacon _ | .pop _ _ _ | .t1sTxGo _ _ _ => commitT1s
  | .ethFrameReceived _ _ _ _ | .ethTxTail _ _ _ | .ethFrameSent _ _ _ | .ethLinkChange _ _ _ _ => commitEth
  | .step _ | .release _ | .sync _ _ _ _ _ _ _ | .followUp _ _ _ _ | .delayExchange _ _ | .delayRequestReceived _ _ _ _ _
  | .announce _ | .syncTransmit _ _ | .announceTransmit _ | .delayRequestTransmit _ | .syncLost | .slewEnd | .timeRateCheck _
  | .pulseLeadingEdge _ | .pulseTrailingEdge _ => commitTime
  | .frameStart _ _ _ _ | .line _ _ _ _ _ | .frameEnd _ _ | .lineTmoExpiry _ | .portFifoOverflow _ | .cameraLinkLost _
  | .cameraLinkLock _ _ | .cciGo _ _ _ | .cciDone _ _ | .sampleComplete _ | .windowClose _ | .batchComplete _
  | .vdecStrTail _ _ _ | .accessUnit _ _ _ _ | .endOfStream _ _ | .pictureDone _ | .evict _ | .clear _ | .udpDatagram _ _ _
  | .sweepTmoExpiry _ | .ingDepTail _ _ _ | .depotBatchBuild _ _ | .missTmoExpiry _ => commitIng
  | .attestationGo _ _ | .attestationDone | .mbBegin _ | .mbChunk _ | .mbChunkCopyDone | .mbAbort _ | .enrol _
  | .enrolComplete _ | .fwUpdate _ | .fwUpdateComplete _ | .measurementGo _ _ => commitSec
  | .supplyMonitorTrip _ | .supplyMonitorClear _ | .governorEvaluation _ _ _ _ | .demand _ | .retainEntry _
  | .pointStepDone _ | .droopDetect _ | .droopEnd _ _ | .meteringInterval _ _ _ | .selfRefreshEntry _
  | .selfRefreshExit _ => commitPwr
  | .wakeComplete _ => fun s t => { commitPwr s t with time := t.time }
  | .offEntry _ => commitOff
  | .powerGood _ _ | .wake _ _ | .wakeUpPattern _ | .powerStageShutdown | .parked => fun _ t => t
  | .referenceOscillatorRunning => fun s t => { s with boot := t.boot, time := t.time, pwr := t.pwr }
  | .pufRecovery _ => fun s t => { s with sec := t.sec }
  | .firmwareBoot _ _ => commitFw
  | .lbistComplete _ _ | .keyOffLbistComplete _ => commitLbist
  | .keyOffLbistStart => fun s t => { s with boot := t.boot }
  | .memoryBistComplete _ => commitMarch
  | .ready => commitReady
  | .keyOff => commitKeyOff

/-- What a command that goes on can do. -/
def Frame (c : Instr) (s t : State) : Prop := t = s ∨ (∃ r o, t = s.withRO r o) ∨ ∃ u, t = commitOf c s u

theorem frame_of_gate {c : Instr} {s t : State} {p : Port} {off : Nat} {may : Bool} {f : State → State}
    (h : s.gate p off may f = .next t) (hf : ∃ u, f s = commitOf c s u) : Frame c s t := by
  rcases s.gate_cases p off may f with e | e | e <;> rw [e] at h <;> cases h
  · exact .inl rfl
  · exact .inr (.inr hf)
  · exact .inr (.inl (s.busError_frame _ _ _ _))

theorem frame_of_onPort {c : Instr} {s t : State} {p : Port} {f : State → State}
    (h : s.onPort p f = .next t) (hf : f s = s ∨ ∃ u, f s = commitOf c s u) : Frame c s t := by
  rcases s.onPort_cases p f with e | e <;> rw [e] at h <;> cases h
  · exact .inl rfl
  · exact hf.imp_right .inr

theorem frame_of_onLink {c : Instr} {s t : State} {p : Port} {f : State → State}
    (h : s.onLink p f = .next t) (hf : f s = s ∨ ∃ u, f s = commitOf c s u) : Frame c s t := by
  rcases s.onLink_cases p f with e | e <;> rw [e] at h <;> cases h
  · exact .inl rfl
  · exact hf.imp_right .inr

theorem frame_of_clocked {c : Instr} {s t : State} {f : State → State}
    (h : s.clocked f = .next t) (hf : ∃ u, f s = commitOf c s u) : Frame c s t := by
  rcases s.clocked_cases f with e | e <;> rw [e] at h <;> cases h
  · exact .inl rfl
  · exact .inr (.inr hf)

theorem frame_of_read {c : Instr} {s t : State} {p : Port} {off : Nat} {f : State → State}
    (h : s.readGate p off f = .next t) (hf : ∃ u, f s = commitOf c s u) : Frame c s t := by
  rcases s.readGate_cases p off f with e | e | e <;> rw [e] at h <;> cases h
  · exact .inl rfl
  · exact .inr (.inr hf)
  · exact .inr (.inl ⟨s.regs, _, rfl⟩)

/-- All that a command that goes on can do. -/
theorem frame_of_next {c : Instr} {s t x : State} (h : Host.Outcome.next x = (.next t : Answer))
    (hf : ∃ u, x = commitOf c s u) : Frame c s t := by
  cases h; exact .inr (.inr hf)

theorem self_commit {c : Instr} {s x : State} (h : commitOf c s x = x) : x = commitOf c s x := h.symm

theorem commit_read {p : Port} {o l : Nat} (s t : State) :
    commitOf (.bar4Read p o l) s (commitStep s t) = commitStep s t := rfl

theorem commit_read_bus {p : Port} {o l : Nat} (s t : State) :
    commitOf (.bar4Read p o l) s (commitBus s t) = commitBus s t := rfl

theorem commit_write {p : Port} {o : Nat} {d : List Byte} (s t : State) :
    commitOf (.bar4Write p o d) s { s with dram := t.dram, regs := { s.regs with pwr := t.regs.pwr } } =
      { s with dram := t.dram, regs := { s.regs with pwr := t.regs.pwr } } := rfl

theorem commit_write_bus {p : Port} {o : Nat} {d : List Byte} (s t : State) :
    commitOf (.bar4Write p o d) s (commitBus s t) = commitBus s t := rfl

theorem commit_portReset {p : Port} {k : PortResetKind} (s : State) (r : Regs) (l : List PortSt) :
    commitOf (.portReset p k) s { s with regs := r, ports := l } = { s with regs := r, ports := l } := rfl

theorem commit_clear {p : Port} (s : State) (r : Regs) :
    commitOf (.buserrLogClear p) s { s with regs := r } = { s with regs := r } := rfl

theorem frame_begin port (s t : State) (h : exec (.begin port) s = .next t) : Frame (.begin port) s t := by
  have h : execBegin port s = .next t := h
  unfold execBegin at h
  exact frame_of_gate h ⟨_, rfl⟩
theorem frame_chunk port (s t : State) (h : exec (.chunk port) s = .next t) : Frame (.chunk port) s t := by
  have h : execChunk port s = .next t := h
  unfold execChunk at h
  exact frame_of_gate h ⟨_, rfl⟩
theorem frame_chunkCopyDone (s t : State) (h : exec (.chunkCopyDone) s = .next t) : Frame (.chunkCopyDone) s t :=
  frame_of_next h ⟨_, rfl⟩
theorem frame_finish port (s t : State) (h : exec (.finish port) s = .next t) : Frame (.finish port) s t := by
  have h : execFinish port s = .next t := h
  unfold execFinish at h
  exact frame_of_gate h ⟨_, rfl⟩
theorem frame_abort port (s t : State) (h : exec (.abort port) s = .next t) : Frame (.abort port) s t := by
  have h : execAbort port s = .next t := h
  unfold execAbort at h
  exact frame_of_gate h ⟨_, rfl⟩
theorem frame_wardCmdUnknown port value (s t : State) (h : exec (.wardCmdUnknown port value) s = .next t) : Frame (.wardCmdUnknown port value) s t := by
  have h : execWardCmdUnknown port value s = .next t := h
  unfold execWardCmdUnknown at h
  exact frame_of_gate h ⟨_, rfl⟩
theorem frame_validationDone counterOk (s t : State) (h : exec (.validationDone counterOk) s = .next t) : Frame (.validationDone counterOk) s t := by
  have h : execValidationDone counterOk s = .next t := h
  unfold execValidationDone at h
  exact frame_of_clocked h ⟨_, rfl⟩
theorem frame_switch lawFails (s t : State) (h : exec (.switch lawFails) s = .next t) : Frame (.switch lawFails) s t :=
  frame_of_next h ⟨_, rfl⟩
theorem frame_holdRelease (s t : State) (h : exec (.holdRelease) s = .next t) : Frame (.holdRelease) s t :=
  frame_of_next h ⟨_, rfl⟩
theorem frame_antiRollbackAdvance ok (s t : State) (h : exec (.antiRollbackAdvance ok) s = .next t) : Frame (.antiRollbackAdvance ok) s t := by
  have h : execAntiRollbackAdvance ok s = .next t := h
  unfold execAntiRollbackAdvance at h
  exact frame_of_clocked h ⟨_, rfl⟩
theorem frame_doorbell port off size value (s t : State) (h : exec (.doorbell port off size value) s = .next t) : Frame (.doorbell port off size value) s t := by
  have h : execDoorbell port off size value s = .next t := h
  unfold execDoorbell at h
  exact frame_of_onPort h (.inr ⟨_, rfl⟩)
theorem frame_bar2Read port off len (s t : State) (h : exec (.bar2Read port off len) s = .next t) : Frame (.bar2Read port off len) s t := by
  have h : execBar2Read port off len s = .next t := h
  unfold execBar2Read at h
  exact frame_of_onPort h (.inr ⟨_, rfl⟩)
theorem frame_bar4Read port off len (s t : State) (h : exec (.bar4Read port off len) s = .next t) : Frame (.bar4Read port off len) s t := by
  have h : execBar4Read port off len s = .next t := h
  unfold execBar4Read at h
  exact frame_of_onPort h (.inr ⟨_, self_commit (by
    split
    · exact commit_read _ _
    · exact commit_read_bus _ _)⟩)
theorem frame_bar4Write port off data (s t : State) (h : exec (.bar4Write port off data) s = .next t) : Frame (.bar4Write port off data) s t := by
  have h : execBar4Write port off data s = .next t := h
  unfold execBar4Write at h
  exact frame_of_onPort h (.inr ⟨_, self_commit (by
    split
    · exact commit_write _ _
    · exact commit_write_bus _ _)⟩)
theorem frame_malformedAccess port off write (s t : State) (h : exec (.malformedAccess port off write) s = .next t) : Frame (.malformedAccess port off write) s t := by
  have h : execMalformedAccess port off write s = .next t := h
  unfold execMalformedAccess at h
  exact frame_of_onPort h (.inr ⟨_, rfl⟩)
theorem frame_reservedLocationAccess port bar off write (s t : State) (h : exec (.reservedLocationAccess port bar off write) s = .next t) : Frame (.reservedLocationAccess port bar off write) s t := by
  have h : execReservedLocationAccess port bar off write s = .next t := h
  unfold execReservedLocationAccess at h
  exact frame_of_onPort h (.inr ⟨_, self_commit (by
    split
    · rfl
    · rfl)⟩)
theorem frame_registerWrite w (s t : State) (h : exec (.registerWrite w) s = .next t) : Frame (.registerWrite w) s t := by
  have h : execRegisterWrite w s = .next t := h
  unfold execRegisterWrite at h
  exact frame_of_onPort h (.inr ⟨_, rfl⟩)
theorem frame_eventRegisterW1c w (s t : State) (h : exec (.eventRegisterW1c w) s = .next t) : Frame (.eventRegisterW1c w) s t := by
  have h : execEventRegisterW1c w s = .next t := h
  unfold execEventRegisterW1c at h
  exact frame_of_onPort h (.inr ⟨_, self_commit (by
    split
    · split <;> rfl
    · rfl)⟩)
theorem frame_latchGo port mask (s t : State) (h : exec (.latchGo port mask) s = .next t) : Frame (.latchGo port mask) s t := by
  have h : execLatchGo port mask s = .next t := h
  unfold execLatchGo at h
  exact frame_of_gate h ⟨_, rfl⟩
theorem frame_latchApply slot index (s t : State) (h : exec (.latchApply slot index) s = .next t) : Frame (.latchApply slot index) s t :=
  frame_of_next h ⟨_, rfl⟩
theorem frame_snapshot port value (s t : State) (h : exec (.snapshot port value) s = .next t) : Frame (.snapshot port value) s t := by
  have h : execSnapshot port value s = .next t := h
  unfold execSnapshot at h
  exact frame_of_gate h ⟨_, rfl⟩
theorem frame_retrain port value (s t : State) (h : exec (.retrain port value) s = .next t) : Frame (.retrain port value) s t := by
  have h : execRetrain port value s = .next t := h
  unfold execRetrain at h
  exact frame_of_gate h ⟨_, rfl⟩
theorem frame_linkTrainingComplete port width speed (s t : State) (h : exec (.linkTrainingComplete port width speed) s = .next t) : Frame (.linkTrainingComplete port width speed) s t := by
  have h : execLinkTrainingComplete port width speed s = .next t := h
  unfold execLinkTrainingComplete at h
  exact frame_of_onLink h (.inr ⟨_, self_commit rfl⟩)
theorem frame_portReset port kind (s t : State) (h : exec (.portReset port kind) s = .next t) : Frame (.portReset port kind) s t := by
  have h : execPortReset port kind s = .next t := h
  unfold execPortReset at h
  split at h
  · exact frame_of_onLink h (.inr ⟨_, self_commit (by
      unfold State.portReset
      split
      · rfl
      · exact commit_portReset _ _ _)⟩)
  · cases h; exact .inr (.inr ⟨_, self_commit rfl⟩)
theorem frame_linkUp link (s t : State) (h : exec (.linkUp link) s = .next t) : Frame (.linkUp link) s t := by
  have h : execLinkUp link s = .next t := h
  unfold execLinkUp at h
  exact frame_of_onLink h (.inr ⟨_, rfl⟩)
theorem frame_buserrLogClear port (s t : State) (h : exec (.buserrLogClear port) s = .next t) : Frame (.buserrLogClear port) s t := by
  have h : execBuserrLogClear port s = .next t := h
  unfold execBuserrLogClear at h
  exact frame_of_gate h ⟨_, self_commit (commit_clear (p := port) _ _)⟩
theorem frame_buserrCountClear port (s t : State) (h : exec (.buserrCountClear port) s = .next t) : Frame (.buserrCountClear port) s t := by
  have h : execBuserrCountClear port s = .next t := h
  unfold execBuserrCountClear at h
  exact frame_of_gate h ⟨_, self_commit (commit_clear (p := port) _ _)⟩
theorem frame_safeMemCounterClear port (s t : State) (h : exec (.safeMemCounterClear port) s = .next t) : Frame (.safeMemCounterClear port) s t := by
  have h : execSafeMemCounterClear port s = .next t := h
  unfold execSafeMemCounterClear at h
  exact frame_of_gate h ⟨_, rfl⟩
theorem frame_safeMemLogClear port (s t : State) (h : exec (.safeMemLogClear port) s = .next t) : Frame (.safeMemLogClear port) s t := by
  have h : execSafeMemLogClear port s = .next t := h
  unfold execSafeMemLogClear at h
  exact frame_of_gate h ⟨_, rfl⟩
theorem frame_jobStart part desc (s t : State) (h : exec (.jobStart part desc) s = .next t) : Frame (.jobStart part desc) s t :=
  frame_of_next h ⟨_, rfl⟩
theorem frame_stepDelivery part step (s t : State) (h : exec (.stepDelivery part step) s = .next t) : Frame (.stepDelivery part step) s t :=
  frame_of_next h ⟨_, rfl⟩
theorem frame_sliceExpiry part (s t : State) (h : exec (.sliceExpiry part) s = .next t) : Frame (.sliceExpiry part) s t :=
  frame_of_next h ⟨_, rfl⟩
theorem frame_jobSuspended part (s t : State) (h : exec (.jobSuspended part) s = .next t) : Frame (.jobSuspended part) s t :=
  frame_of_next h ⟨_, rfl⟩
theorem frame_jobTimeout part (s t : State) (h : exec (.jobTimeout part) s = .next t) : Frame (.jobTimeout part) s t :=
  frame_of_next h ⟨_, rfl⟩
theorem frame_jobComplete part (s t : State) (h : exec (.jobComplete part) s = .next t) : Frame (.jobComplete part) s t :=
  frame_of_next h ⟨_, rfl⟩
theorem frame_queueReset port (s t : State) (h : exec (.queueReset port) s = .next t) : Frame (.queueReset port) s t := by
  have h : execQueueReset port s = .next t := h
  unfold execQueueReset at h
  exact frame_of_gate h ⟨_, rfl⟩
theorem frame_remap part (s t : State) (h : exec (.remap part) s = .next t) : Frame (.remap part) s t :=
  frame_of_next h ⟨_, rfl⟩
theorem frame_parkSwitch core lcore (s t : State) (h : exec (.parkSwitch core lcore) s = .next t) : Frame (.parkSwitch core lcore) s t :=
  frame_of_next h ⟨_, rfl⟩
theorem frame_matmul part target env (s t : State) (h : exec (.matmul part target env) s = .next t) : Frame (.matmul part target env) s t :=
  frame_of_next h ⟨_, rfl⟩
theorem frame_vector part target env (s t : State) (h : exec (.vector part target env) s = .next t) : Frame (.vector part target env) s t :=
  frame_of_next h ⟨_, rfl⟩
theorem frame_fft2d part target env (s t : State) (h : exec (.fft2d part target env) s = .next t) : Frame (.fft2d part target env) s t :=
  frame_of_next h ⟨_, rfl⟩
theorem frame_catchPost part target mismatch (s t : State) (h : exec (.catchPost part target mismatch) s = .next t) : Frame (.catchPost part target mismatch) s t :=
  frame_of_next h ⟨_, rfl⟩
theorem frame_catchWait part target (s t : State) (h : exec (.catchWait part target) s = .next t) : Frame (.catchWait part target) s t :=
  frame_of_next h ⟨_, rfl⟩
theorem frame_catchSet part target mismatch (s t : State) (h : exec (.catchSet part target mismatch) s = .next t) : Frame (.catchSet part target mismatch) s t :=
  frame_of_next h ⟨_, rfl⟩
theorem frame_resetBlock part target mismatch (s t : State) (h : exec (.resetBlock part target mismatch) s = .next t) : Frame (.resetBlock part target mismatch) s t :=
  frame_of_next h ⟨_, rfl⟩
theorem frame_catchServe block index (s t : State) (h : exec (.catchServe block index) s = .next t) : Frame (.catchServe block index) s t :=
  frame_of_next h ⟨_, rfl⟩
theorem frame_catchWaitTimeout part target (s t : State) (h : exec (.catchWaitTimeout part target) s = .next t) : Frame (.catchWaitTimeout part target) s t :=
  frame_of_next h ⟨_, rfl⟩
theorem frame_catchWaitAbandon part target (s t : State) (h : exec (.catchWaitAbandon part target) s = .next t) : Frame (.catchWaitAbandon part target) s t :=
  frame_of_next h ⟨_, rfl⟩
theorem frame_stepEnd part target mismatch active dpu vec (s t : State) (h : exec (.stepEnd part target mismatch active dpu vec) s = .next t) : Frame (.stepEnd part target mismatch active dpu vec) s t :=
  frame_of_next h ⟨_, rfl⟩
theorem frame_spFill part target env (s t : State) (h : exec (.spFill part target env) s = .next t) : Frame (.spFill part target env) s t :=
  frame_of_next h ⟨_, rfl⟩
theorem frame_spCopy part target env (s t : State) (h : exec (.spCopy part target env) s = .next t) : Frame (.spCopy part target env) s t :=
  frame_of_next h ⟨_, rfl⟩
theorem frame_dma part target env (s t : State) (h : exec (.dma part target env) s = .next t) : Frame (.dma part target env) s t :=
  frame_of_next h ⟨_, rfl⟩
theorem frame_bankClose part target (s t : State) (h : exec (.bankClose part target) s = .next t) : Frame (.bankClose part target) s t :=
  frame_of_next h ⟨_, rfl⟩
theorem frame_bankOpen part target (s t : State) (h : exec (.bankOpen part target) s = .next t) : Frame (.bankOpen part target) s t :=
  frame_of_next h ⟨_, rfl⟩
theorem frame_bankOff core bank (s t : State) (h : exec (.bankOff core bank) s = .next t) : Frame (.bankOff core bank) s t :=
  frame_of_next h ⟨_, rfl⟩
theorem frame_bankOn core bank (s t : State) (h : exec (.bankOn core bank) s = .next t) : Frame (.bankOn core bank) s t :=
  frame_of_next h ⟨_, rfl⟩
theorem frame_tagCheck part target (s t : State) (h : exec (.tagCheck part target) s = .next t) : Frame (.tagCheck part target) s t :=
  frame_of_next h ⟨_, rfl⟩
theorem frame_tagSet part target (s t : State) (h : exec (.tagSet part target) s = .next t) : Frame (.tagSet part target) s t :=
  frame_of_next h ⟨_, rfl⟩
theorem frame_scrub core word result (s t : State) (h : exec (.scrub core word result) s = .next t) : Frame (.scrub core word result) s t :=
  frame_of_next h ⟨_, rfl⟩
theorem frame_conv part target env (s t : State) (h : exec (.conv part target env) s = .next t) : Frame (.conv part target env) s t :=
  frame_of_next h ⟨_, rfl⟩
theorem frame_fconv part target env (s t : State) (h : exec (.fconv part target env) s = .next t) : Frame (.fconv part target env) s t :=
  frame_of_next h ⟨_, rfl⟩
theorem frame_pool part target env (s t : State) (h : exec (.pool part target env) s = .next t) : Frame (.pool part target env) s t :=
  frame_of_next h ⟨_, rfl⟩
theorem frame_nceConv part target env (s t : State) (h : exec (.nceConv part target env) s = .next t) : Frame (.nceConv part target env) s t :=
  frame_of_next h ⟨_, rfl⟩
theorem frame_nceGranule engine (s t : State) (h : exec (.nceGranule engine) s = .next t) : Frame (.nceGranule engine) s t :=
  frame_of_next h ⟨_, rfl⟩
theorem frame_attn part target env (s t : State) (h : exec (.attn part target env) s = .next t) : Frame (.attn part target env) s t :=
  frame_of_next h ⟨_, rfl⟩
theorem frame_kvAppend part target env (s t : State) (h : exec (.kvAppend part target env) s = .next t) : Frame (.kvAppend part target env) s t :=
  frame_of_next h ⟨_, rfl⟩
theorem frame_kvMap part target env (s t : State) (h : exec (.kvMap part target env) s = .next t) : Frame (.kvMap part target env) s t :=
  frame_of_next h ⟨_, rfl⟩
theorem frame_kvCtxOpen part target env (s t : State) (h : exec (.kvCtxOpen part target env) s = .next t) : Frame (.kvCtxOpen part target env) s t :=
  frame_of_next h ⟨_, rfl⟩
theorem frame_kvCtxClose part target env (s t : State) (h : exec (.kvCtxClose part target env) s = .next t) : Frame (.kvCtxClose part target env) s t :=
  frame_of_next h ⟨_, rfl⟩
theorem frame_kvCtxTruncate part target env (s t : State) (h : exec (.kvCtxTruncate part target env) s = .next t) : Frame (.kvCtxTruncate part target env) s t :=
  frame_of_next h ⟨_, rfl⟩
theorem frame_kvCtxAccept part target env (s t : State) (h : exec (.kvCtxAccept part target env) s = .next t) : Frame (.kvCtxAccept part target env) s t :=
  frame_of_next h ⟨_, rfl⟩
theorem frame_kvCtxFlush part target env (s t : State) (h : exec (.kvCtxFlush part target env) s = .next t) : Frame (.kvCtxFlush part target env) s t :=
  frame_of_next h ⟨_, rfl⟩
theorem frame_kvCtxSetPrio part target env (s t : State) (h : exec (.kvCtxSetPrio part target env) s = .next t) : Frame (.kvCtxSetPrio part target env) s t :=
  frame_of_next h ⟨_, rfl⟩
theorem frame_kvCtxPrefetch part target env (s t : State) (h : exec (.kvCtxPrefetch part target env) s = .next t) : Frame (.kvCtxPrefetch part target env) s t :=
  frame_of_next h ⟨_, rfl⟩
theorem frame_swapOutPageDone part env (s t : State) (h : exec (.swapOutPageDone part env) s = .next t) : Frame (.swapOutPageDone part env) s t :=
  frame_of_next h ⟨_, rfl⟩
theorem frame_swapInPageDone part env (s t : State) (h : exec (.swapInPageDone part env) s = .next t) : Frame (.swapInPageDone part env) s t :=
  frame_of_next h ⟨_, rfl⟩
theorem frame_setpt part target env (s t : State) (h : exec (.setpt part target env) s = .next t) : Frame (.setpt part target env) s t :=
  frame_of_next h ⟨_, rfl⟩
theorem frame_sample ch fault (s t : State) (h : exec (.sample ch fault) s = .next t) : Frame (.sample ch fault) s t :=
  frame_of_next h ⟨_, rfl⟩
theorem frame_faultIdentificationDone ch leaderFails followerFails (s t : State) (h : exec (.faultIdentificationDone ch leaderFails followerFails) s = .next t) : Frame (.faultIdentificationDone ch leaderFails followerFails) s t :=
  frame_of_next h ⟨_, rfl⟩
theorem frame_sentFrame port pulses (s t : State) (h : exec (.sentFrame port pulses) s = .next t) : Frame (.sentFrame port pulses) s t :=
  frame_of_next h ⟨_, rfl⟩
theorem frame_framePassesCrc can frame (s t : State) (h : exec (.framePassesCrc can frame) s = .next t) : Frame (.framePassesCrc can frame) s t :=
  frame_of_next h ⟨_, rfl⟩
theorem frame_canFrameStored can frame sof (s t : State) (h : exec (.canFrameStored can frame sof) s = .next t) : Frame (.canFrameStored can frame sof) s t :=
  frame_of_next h ⟨_, rfl⟩
theorem frame_canFrameSent can sof tdcv (s t : State) (h : exec (.canFrameSent can sof tdcv) s = .next t) : Frame (.canFrameSent can sof tdcv) s t :=
  frame_of_next h ⟨_, rfl⟩
theorem frame_arbitrationLost can (s t : State) (h : exec (.arbitrationLost can) s = .next t) : Frame (.arbitrationLost can) s t :=
  frame_of_next h ⟨_, rfl⟩
theorem frame_canError can kind lastErr tdc (s t : State) (h : exec (.canError can kind lastErr tdc) s = .next t) : Frame (.canError can kind lastErr tdc) s t :=
  frame_of_next h ⟨_, rfl⟩
theorem frame_transmitSelection can (s t : State) (h : exec (.transmitSelection can) s = .next t) : Frame (.transmitSelection can) s t :=
  frame_of_next h ⟨_, rfl⟩
theorem frame_canObjReq port can obj (s t : State) (h : exec (.canObjReq port can obj) s = .next t) : Frame (.canObjReq port can obj) s t := by
  have h : execCanObjReq port can obj s = .next t := h
  unfold execCanObjReq at h
  exact frame_of_gate h ⟨_, rfl⟩
theorem frame_canObjAbort port can obj (s t : State) (h : exec (.canObjAbort port can obj) s = .next t) : Frame (.canObjAbort port can obj) s t := by
  have h : execCanObjAbort port can obj s = .next t := h
  unfold execCanObjAbort at h
  exact frame_of_gate h ⟨_, rfl⟩
theorem frame_canObjClear port can obj (s t : State) (h : exec (.canObjClear port can obj) s = .next t) : Frame (.canObjClear port can obj) s t := by
  have h : execCanObjClear port can obj s = .next t := h
  unfold execCanObjClear at h
  exact frame_of_gate h ⟨_, rfl⟩
theorem frame_canObjStatusRead port can obj (s t : State) (h : exec (.canObjStatusRead port can obj) s = .next t) : Frame (.canObjStatusRead port can obj) s t := by
  have h : execCanObjStatusRead port can obj s = .next t := h
  unfold execCanObjStatusRead at h
  exact frame_of_read h ⟨_, rfl⟩
theorem frame_lastWordRead port can obj (s t : State) (h : exec (.lastWordRead port can obj) s = .next t) : Frame (.lastWordRead port can obj) s t := by
  have h : execLastWordRead port can obj s = .next t := h
  unfold execLastWordRead at h
  exact frame_of_read h ⟨_, rfl⟩
theorem frame_lockTimeout can obj (s t : State) (h : exec (.lockTimeout can obj) s = .next t) : Frame (.lockTimeout can obj) s t :=
  frame_of_next h ⟨_, rfl⟩
theorem frame_canInitSet port can busy (s t : State) (h : exec (.canInitSet port can busy) s = .next t) : Frame (.canInitSet port can busy) s t := by
  have h : execCanInitSet port can busy s = .next t := h
  unfold execCanInitSet at h
  exact frame_of_gate h ⟨_, rfl⟩
theorem frame_canInitClear port can (s t : State) (h : exec (.canInitClear port can) s = .next t) : Frame (.canInitClear port can) s t := by
  have h : execCanInitClear port can s = .next t := h
  unfold execCanInitClear at h
  exact frame_of_gate h ⟨_, rfl⟩
theorem frame_busIntegrationDone can (s t : State) (h : exec (.busIntegrationDone can) s = .next t) : Frame (.busIntegrationDone can) s t :=
  frame_of_next h ⟨_, rfl⟩
theorem frame_busOffRecovery can (s t : State) (h : exec (.busOffRecovery can) s = .next t) : Frame (.busOffRecovery can) s t :=
  frame_of_next h ⟨_, rfl⟩
theorem frame_transmitDominantTimeout can (s t : State) (h : exec (.transmitDominantTimeout can) s = .next t) : Frame (.transmitDominantTimeout can) s t :=
  frame_of_next h ⟨_, rfl⟩
theorem frame_wakeUpPattern can (s t : State) (h : exec (.wakeUpPattern can) s = .next t) : Frame (.wakeUpPattern can) s t :=
  frame_of_next h ⟨_, rfl⟩
theorem frame_referenceMessage can (s t : State) (h : exec (.referenceMessage can) s = .next t) : Frame (.referenceMessage can) s t :=
  frame_of_next h ⟨_, rfl⟩
theorem frame_t1sFrameReceived q frame fcsOk (s t : State) (h : exec (.t1sFrameReceived q frame fcsOk) s = .next t) : Frame (.t1sFrameReceived q frame fcsOk) s t :=
  frame_of_next h ⟨_, rfl⟩
theorem frame_transmitOpportunity chance (s t : State) (h : exec (.transmitOpportunity chance) s = .next t) : Frame (.transmitOpportunity chance) s t :=
  frame_of_next h ⟨_, rfl⟩
theorem frame_beacon event (s t : State) (h : exec (.beacon event) s = .next t) : Frame (.beacon event) s t :=
  frame_of_next h ⟨_, rfl⟩
theorem frame_pop port q value (s t : State) (h : exec (.pop port q value) s = .next t) : Frame (.pop port q value) s t := by
  have h : execPop port q value s = .next t := h
  unfold execPop at h
  exact frame_of_gate h ⟨_, rfl⟩
theorem frame_t1sTxGo port q value (s t : State) (h : exec (.t1sTxGo port q value) s = .next t) : Frame (.t1sTxGo port q value) s t := by
  have h : execT1sTxGo port q value s = .next t := h
  unfold execT1sTxGo at h
  exact frame_of_gate h ⟨_, rfl⟩
theorem frame_ethFrameReceived e frame fcsOk off (s t : State) (h : exec (.ethFrameReceived e frame fcsOk off) s = .next t) : Frame (.ethFrameReceived e frame fcsOk off) s t :=
  frame_of_next h ⟨_, rfl⟩
theorem frame_ethTxTail port e value (s t : State) (h : exec (.ethTxTail port e value) s = .next t) : Frame (.ethTxTail port e value) s t := by
  have h : execEthTxTail port e value s = .next t := h
  unfold execEthTxTail at h
  exact frame_of_gate h ⟨_, rfl⟩
theorem frame_ethFrameSent e stamp slot (s t : State) (h : exec (.ethFrameSent e stamp slot) s = .next t) : Frame (.ethFrameSent e stamp slot) s t :=
  frame_of_next h ⟨_, rfl⟩
theorem frame_ethLinkChange e up master speed (s t : State) (h : exec (.ethLinkChange e up master speed) s = .next t) : Frame (.ethLinkChange e up master speed) s t :=
  frame_of_next h ⟨_, rfl⟩
theorem frame_step port (s t : State) (h : exec (.step port) s = .next t) : Frame (.step port) s t := by
  have h : execStep port s = .next t := h
  unfold execStep at h
  exact frame_of_gate h ⟨_, rfl⟩
theorem frame_release port (s t : State) (h : exec (.release port) s = .next t) : Frame (.release port) s t := by
  have h : execRelease port s = .next t := h
  unfold execRelease at h
  exact frame_of_gate h ⟨_, rfl⟩
theorem frame_sync q ingress domain src origin corr twoStep (s t : State) (h : exec (.sync q ingress domain src origin corr twoStep) s = .next t) : Frame (.sync q ingress domain src origin corr twoStep) s t :=
  frame_of_next h ⟨_, rfl⟩
theorem frame_followUp q origin corr inTime (s t : State) (h : exec (.followUp q origin corr inTime) s = .next t) : Frame (.followUp q origin corr inTime) s t :=
  frame_of_next h ⟨_, rfl⟩
theorem frame_delayExchange q reply (s t : State) (h : exec (.delayExchange q reply) s = .next t) : Frame (.delayExchange q reply) s t :=
  frame_of_next h ⟨_, rfl⟩
theorem frame_delayRequestReceived q ingress domain seq corr (s t : State) (h : exec (.delayRequestReceived q ingress domain seq corr) s = .next t) : Frame (.delayRequestReceived q ingress domain seq corr) s t :=
  frame_of_next h ⟨_, rfl⟩
theorem frame_announce q (s t : State) (h : exec (.announce q) s = .next t) : Frame (.announce q) s t :=
  frame_of_next h ⟨_, rfl⟩
theorem frame_syncTransmit q origin (s t : State) (h : exec (.syncTransmit q origin) s = .next t) : Frame (.syncTransmit q origin) s t :=
  frame_of_next h ⟨_, rfl⟩
theorem frame_announceTransmit q (s t : State) (h : exec (.announceTransmit q) s = .next t) : Frame (.announceTransmit q) s t :=
  frame_of_next h ⟨_, rfl⟩
theorem frame_delayRequestTransmit q (s t : State) (h : exec (.delayRequestTransmit q) s = .next t) : Frame (.delayRequestTransmit q) s t :=
  frame_of_next h ⟨_, rfl⟩
theorem frame_syncLost (s t : State) (h : exec (.syncLost) s = .next t) : Frame (.syncLost) s t :=
  frame_of_next h ⟨_, rfl⟩
theorem frame_slewEnd (s t : State) (h : exec (.slewEnd) s = .next t) : Frame (.slewEnd) s t :=
  frame_of_next h ⟨_, rfl⟩
theorem frame_timeRateCheck bad (s t : State) (h : exec (.timeRateCheck bad) s = .next t) : Frame (.timeRateCheck bad) s t :=
  frame_of_next h ⟨_, rfl⟩
theorem frame_pulseLeadingEdge g (s t : State) (h : exec (.pulseLeadingEdge g) s = .next t) : Frame (.pulseLeadingEdge g) s t :=
  frame_of_next h ⟨_, rfl⟩
theorem frame_pulseTrailingEdge g (s t : State) (h : exec (.pulseTrailingEdge g) s = .next t) : Frame (.pulseTrailingEdge g) s t :=
  frame_of_next h ⟨_, rfl⟩
theorem frame_frameStart cam vc frameNo off (s t : State) (h : exec (.frameStart cam vc frameNo off) s = .next t) : Frame (.frameStart cam vc frameNo off) s t :=
  frame_of_next h ⟨_, rfl⟩
theorem frame_line cam vc dt data err (s t : State) (h : exec (.line cam vc dt data err) s = .next t) : Frame (.line cam vc dt data err) s t :=
  frame_of_next h ⟨_, rfl⟩
theorem frame_frameEnd cam vc (s t : State) (h : exec (.frameEnd cam vc) s = .next t) : Frame (.frameEnd cam vc) s t :=
  frame_of_next h ⟨_, rfl⟩
theorem frame_lineTmoExpiry cam (s t : State) (h : exec (.lineTmoExpiry cam) s = .next t) : Frame (.lineTmoExpiry cam) s t :=
  frame_of_next h ⟨_, rfl⟩
theorem frame_portFifoOverflow cam (s t : State) (h : exec (.portFifoOverflow cam) s = .next t) : Frame (.portFifoOverflow cam) s t :=
  frame_of_next h ⟨_, rfl⟩
theorem frame_cameraLinkLost cam (s t : State) (h : exec (.cameraLinkLost cam) s = .next t) : Frame (.cameraLinkLost cam) s t :=
  frame_of_next h ⟨_, rfl⟩
theorem frame_cciGo port cam value (s t : State) (h : exec (.cciGo port cam value) s = .next t) : Frame (.cciGo port cam value) s t := by
  have h : execCciGo port cam value s = .next t := h
  unfold execCciGo at h
  exact frame_of_gate h ⟨_, rfl⟩
theorem frame_cciDone cam reply (s t : State) (h : exec (.cciDone cam reply) s = .next t) : Frame (.cciDone cam reply) s t :=
  frame_of_next h ⟨_, rfl⟩
theorem frame_sampleComplete stream (s t : State) (h : exec (.sampleComplete stream) s = .next t) : Frame (.sampleComplete stream) s t :=
  frame_of_next h ⟨_, rfl⟩
theorem frame_windowClose ring (s t : State) (h : exec (.windowClose ring) s = .next t) : Frame (.windowClose ring) s t :=
  frame_of_next h ⟨_, rfl⟩
theorem frame_batchComplete ring (s t : State) (h : exec (.batchComplete ring) s = .next t) : Frame (.batchComplete ring) s t :=
  frame_of_next h ⟨_, rfl⟩
theorem frame_vdecStrTail port stream value (s t : State) (h : exec (.vdecStrTail port stream value) s = .next t) : Frame (.vdecStrTail port stream value) s t := by
  have h : execVdecStrTail port stream value s = .next t := h
  unfold execVdecStrTail at h
  exact frame_of_gate h ⟨_, rfl⟩
theorem frame_accessUnit stream desc data dec (s t : State) (h : exec (.accessUnit stream desc data dec) s = .next t) : Frame (.accessUnit stream desc data dec) s t :=
  frame_of_next h ⟨_, rfl⟩
theorem frame_endOfStream stream desc (s t : State) (h : exec (.endOfStream stream desc) s = .next t) : Frame (.endOfStream stream desc) s t :=
  frame_of_next h ⟨_, rfl⟩
theorem frame_pictureDone stream (s t : State) (h : exec (.pictureDone stream) s = .next t) : Frame (.pictureDone stream) s t :=
  frame_of_next h ⟨_, rfl⟩
theorem frame_evict port (s t : State) (h : exec (.evict port) s = .next t) : Frame (.evict port) s t := by
  have h : execEvict port s = .next t := h
  unfold execEvict at h
  exact frame_of_gate h ⟨_, rfl⟩
theorem frame_clear port (s t : State) (h : exec (.clear port) s = .next t) : Frame (.clear port) s t := by
  have h : execClear port s = .next t := h
  unfold execClear at h
  exact frame_of_gate h ⟨_, rfl⟩
theorem frame_udpDatagram scat payload off (s t : State) (h : exec (.udpDatagram scat payload off) s = .next t) : Frame (.udpDatagram scat payload off) s t :=
  frame_of_next h ⟨_, rfl⟩
theorem frame_sweepTmoExpiry scat (s t : State) (h : exec (.sweepTmoExpiry scat) s = .next t) : Frame (.sweepTmoExpiry scat) s t :=
  frame_of_next h ⟨_, rfl⟩
theorem frame_ingDepTail port ring value (s t : State) (h : exec (.ingDepTail port ring value) s = .next t) : Frame (.ingDepTail port ring value) s t := by
  have h : execIngDepTail port ring value s = .next t := h
  unfold execIngDepTail at h
  exact frame_of_gate h ⟨_, rfl⟩
theorem frame_depotBatchBuild ring reply (s t : State) (h : exec (.depotBatchBuild ring reply) s = .next t) : Frame (.depotBatchBuild ring reply) s t :=
  frame_of_next h ⟨_, rfl⟩
theorem frame_missTmoExpiry ring (s t : State) (h : exec (.missTmoExpiry ring) s = .next t) : Frame (.missTmoExpiry ring) s t :=
  frame_of_next h ⟨_, rfl⟩
theorem frame_ageEvaluation (s t : State) (h : exec (.ageEvaluation) s = .next t) : Frame (.ageEvaluation) s t := by
  have h : execAgeEvaluation s = .next t := h
  unfold execAgeEvaluation at h
  exact frame_of_clocked h ⟨_, rfl⟩
theorem frame_safeStateEntry (s t : State) (h : exec (.safeStateEntry) s = .next t) : Frame (.safeStateEntry) s t :=
  frame_of_next h ⟨_, rfl⟩
theorem frame_safeFrameRepeat (s t : State) (h : exec (.safeFrameRepeat) s = .next t) : Frame (.safeFrameRepeat) s t :=
  frame_of_next h ⟨_, rfl⟩
theorem frame_resume port value (s t : State) (h : exec (.resume port value) s = .next t) : Frame (.resume port value) s t := by
  have h : execResume port value s = .next t := h
  unfold execResume at h
  exact frame_of_gate h ⟨_, rfl⟩
theorem frame_enter port value (s t : State) (h : exec (.enter port value) s = .next t) : Frame (.enter port value) s t := by
  have h : execEnter port value s = .next t := h
  unfold execEnter at h
  exact frame_of_gate h ⟨_, rfl⟩
theorem frame_deadboltReadback mismatch (s t : State) (h : exec (.deadboltReadback mismatch) s = .next t) : Frame (.deadboltReadback mismatch) s t :=
  frame_of_next h ⟨_, rfl⟩
theorem frame_guardKick (s t : State) (h : exec (.guardKick) s = .next t) : Frame (.guardKick) s t := by
  have h : execGuardKick s = .next t := h
  unfold execGuardKick at h
  exact frame_of_clocked h ⟨_, rfl⟩
theorem frame_guardTimeout (s t : State) (h : exec (.guardTimeout) s = .next t) : Frame (.guardTimeout) s t :=
  frame_of_next h ⟨_, rfl⟩
theorem frame_islandLockstepTrip (s t : State) (h : exec (.islandLockstepTrip) s = .next t) : Frame (.islandLockstepTrip) s t :=
  frame_of_next h ⟨_, rfl⟩
theorem frame_referenceOscillatorStop (s t : State) (h : exec (.referenceOscillatorStop) s = .next t) : Frame (.referenceOscillatorStop) s t :=
  frame_of_next h ⟨_, rfl⟩
theorem frame_intervalEnd (s t : State) (h : exec (.intervalEnd) s = .next t) : Frame (.intervalEnd) s t := by
  have h : execIntervalEnd s = .next t := h
  unfold execIntervalEnd at h
  exact frame_of_clocked h ⟨_, rfl⟩
theorem frame_slotStart unit (s t : State) (h : exec (.slotStart unit) s = .next t) : Frame (.slotStart unit) s t :=
  frame_of_next h ⟨_, rfl⟩
theorem frame_granuleStart unit (s t : State) (h : exec (.granuleStart unit) s = .next t) : Frame (.granuleStart unit) s t :=
  frame_of_next h ⟨_, rfl⟩
theorem frame_granuleDone unit mismatch (s t : State) (h : exec (.granuleDone unit mismatch) s = .next t) : Frame (.granuleDone unit mismatch) s t :=
  frame_of_next h ⟨_, rfl⟩
theorem frame_granuleAbandon unit (s t : State) (h : exec (.granuleAbandon unit) s = .next t) : Frame (.granuleAbandon unit) s t :=
  frame_of_next h ⟨_, rfl⟩
theorem frame_pairIdentificationDone pair evenFails oddFails (s t : State) (h : exec (.pairIdentificationDone pair evenFails oddFails) s = .next t) : Frame (.pairIdentificationDone pair evenFails oddFails) s t :=
  frame_of_next h ⟨_, rfl⟩
theorem frame_attestationGo port value (s t : State) (h : exec (.attestationGo port value) s = .next t) : Frame (.attestationGo port value) s t := by
  have h : execAttestationGo port value s = .next t := h
  unfold execAttestationGo at h
  exact frame_of_gate h ⟨_, rfl⟩
theorem frame_attestationDone (s t : State) (h : exec (.attestationDone) s = .next t) : Frame (.attestationDone) s t := by
  have h : execAttestationDone s = .next t := h
  unfold execAttestationDone at h
  exact frame_of_clocked h ⟨_, rfl⟩
theorem frame_mbBegin port (s t : State) (h : exec (.mbBegin port) s = .next t) : Frame (.mbBegin port) s t := by
  have h : execMbBegin port s = .next t := h
  unfold execMbBegin at h
  exact frame_of_gate h ⟨_, rfl⟩
theorem frame_mbChunk port (s t : State) (h : exec (.mbChunk port) s = .next t) : Frame (.mbChunk port) s t := by
  have h : execMbChunk port s = .next t := h
  unfold execMbChunk at h
  exact frame_of_gate h ⟨_, rfl⟩
theorem frame_mbChunkCopyDone (s t : State) (h : exec (.mbChunkCopyDone) s = .next t) : Frame (.mbChunkCopyDone) s t := by
  have h : execMbChunkCopyDone s = .next t := h
  unfold execMbChunkCopyDone at h
  exact frame_of_clocked h ⟨_, rfl⟩
theorem frame_mbAbort port (s t : State) (h : exec (.mbAbort port) s = .next t) : Frame (.mbAbort port) s t := by
  have h : execMbAbort port s = .next t := h
  unfold execMbAbort at h
  exact frame_of_gate h ⟨_, rfl⟩
theorem frame_enrol port (s t : State) (h : exec (.enrol port) s = .next t) : Frame (.enrol port) s t := by
  have h : execEnrol port s = .next t := h
  unfold execEnrol at h
  exact frame_of_gate h ⟨_, rfl⟩
theorem frame_enrolComplete counter (s t : State) (h : exec (.enrolComplete counter) s = .next t) : Frame (.enrolComplete counter) s t := by
  have h : execEnrolComplete counter s = .next t := h
  unfold execEnrolComplete at h
  exact frame_of_clocked h ⟨_, rfl⟩
theorem frame_fwUpdate port (s t : State) (h : exec (.fwUpdate port) s = .next t) : Frame (.fwUpdate port) s t := by
  have h : execFwUpdate port s = .next t := h
  unfold execFwUpdate at h
  exact frame_of_gate h ⟨_, rfl⟩
theorem frame_fwUpdateComplete counterOk (s t : State) (h : exec (.fwUpdateComplete counterOk) s = .next t) : Frame (.fwUpdateComplete counterOk) s t := by
  have h : execFwUpdateComplete counterOk s = .next t := h
  unfold execFwUpdateComplete at h
  exact frame_of_clocked h ⟨_, rfl⟩
theorem frame_measurementGo port value (s t : State) (h : exec (.measurementGo port value) s = .next t) : Frame (.measurementGo port value) s t := by
  have h : execMeasurementGo port value s = .next t := h
  unfold execMeasurementGo at h
  exact frame_of_gate h ⟨_, rfl⟩
theorem frame_powerGood laneCfg cfgmSel (s t : State) (h : exec (.powerGood laneCfg cfgmSel) s = .next t) : Frame (.powerGood laneCfg cfgmSel) s t :=
  frame_of_next h ⟨_, rfl⟩
theorem frame_referenceOscillatorRunning (s t : State) (h : exec (.referenceOscillatorRunning) s = .next t) : Frame (.referenceOscillatorRunning) s t :=
  frame_of_next h ⟨_, rfl⟩
theorem frame_pufRecovery ok (s t : State) (h : exec (.pufRecovery ok) s = .next t) : Frame (.pufRecovery ok) s t := by
  have h : execPufRecovery ok s = .next t := h
  unfold execPufRecovery at h
  exact frame_of_clocked h ⟨_, rfl⟩
theorem frame_firmwareBoot counter factory (s t : State) (h : exec (.firmwareBoot counter factory) s = .next t) : Frame (.firmwareBoot counter factory) s t := by
  have h : execFirmwareBoot counter factory s = .next t := h
  unfold execFirmwareBoot at h
  exact frame_of_clocked h ⟨_, rfl⟩
theorem frame_lbistComplete fails invalid (s t : State) (h : exec (.lbistComplete fails invalid) s = .next t) : Frame (.lbistComplete fails invalid) s t :=
  frame_of_next h ⟨_, rfl⟩
theorem frame_memoryBistComplete fails (s t : State) (h : exec (.memoryBistComplete fails) s = .next t) : Frame (.memoryBistComplete fails) s t :=
  frame_of_next h ⟨_, rfl⟩
theorem frame_ready (s t : State) (h : exec (.ready) s = .next t) : Frame (.ready) s t :=
  frame_of_next h ⟨_, rfl⟩
theorem frame_keyOff (s t : State) (h : exec (.keyOff) s = .next t) : Frame (.keyOff) s t :=
  frame_of_next h ⟨_, rfl⟩
theorem frame_keyOffLbistStart (s t : State) (h : exec (.keyOffLbistStart) s = .next t) : Frame (.keyOffLbistStart) s t :=
  frame_of_next h ⟨_, rfl⟩
theorem frame_keyOffLbistComplete fails (s t : State) (h : exec (.keyOffLbistComplete fails) s = .next t) : Frame (.keyOffLbistComplete fails) s t :=
  frame_of_next h ⟨_, rfl⟩
theorem frame_parked (s t : State) (h : exec (.parked) s = .next t) : Frame (.parked) s t :=
  frame_of_next h ⟨_, rfl⟩
theorem frame_wake laneCfg cfgmSel (s t : State) (h : exec (.wake laneCfg cfgmSel) s = .next t) : Frame (.wake laneCfg cfgmSel) s t :=
  frame_of_next h ⟨_, rfl⟩
theorem frame_supplyMonitorTrip source (s t : State) (h : exec (.supplyMonitorTrip source) s = .next t) : Frame (.supplyMonitorTrip source) s t :=
  frame_of_next h ⟨_, rfl⟩
theorem frame_powerStageShutdown (s t : State) (h : exec (.powerStageShutdown) s = .next t) : Frame (.powerStageShutdown) s t :=
  frame_of_next h ⟨_, rfl⟩
theorem frame_governorEvaluation power voltage temps towers (s t : State) (h : exec (.governorEvaluation power voltage temps towers) s = .next t) : Frame (.governorEvaluation power voltage temps towers) s t :=
  frame_of_next h ⟨_, rfl⟩
theorem frame_demand dom (s t : State) (h : exec (.demand dom) s = .next t) : Frame (.demand dom) s t :=
  frame_of_next h ⟨_, rfl⟩
theorem frame_wakeComplete woken (s t : State) (h : exec (.wakeComplete woken) s = .next t) : Frame (.wakeComplete woken) s t :=
  frame_of_next h ⟨_, rfl⟩
theorem frame_retainEntry dom (s t : State) (h : exec (.retainEntry dom) s = .next t) : Frame (.retainEntry dom) s t :=
  frame_of_next h ⟨_, rfl⟩
theorem frame_offEntry dom (s t : State) (h : exec (.offEntry dom) s = .next t) : Frame (.offEntry dom) s t :=
  frame_of_next h ⟨_, rfl⟩
theorem frame_pointStepDone dom (s t : State) (h : exec (.pointStepDone dom) s = .next t) : Frame (.pointStepDone dom) s t :=
  frame_of_next h ⟨_, rfl⟩
theorem frame_droopDetect core (s t : State) (h : exec (.droopDetect core) s = .next t) : Frame (.droopDetect core) s t :=
  frame_of_next h ⟨_, rfl⟩
theorem frame_droopEnd core cycles (s t : State) (h : exec (.droopEnd core cycles) s = .next t) : Frame (.droopEnd core cycles) s t :=
  frame_of_next h ⟨_, rfl⟩
theorem frame_meteringInterval energy selfCheckOk activity (s t : State) (h : exec (.meteringInterval energy selfCheckOk activity) s = .next t) : Frame (.meteringInterval energy selfCheckOk activity) s t :=
  frame_of_next h ⟨_, rfl⟩
theorem frame_selfRefreshEntry tower (s t : State) (h : exec (.selfRefreshEntry tower) s = .next t) : Frame (.selfRefreshEntry tower) s t :=
  frame_of_next h ⟨_, rfl⟩
theorem frame_selfRefreshExit tower (s t : State) (h : exec (.selfRefreshExit tower) s = .next t) : Frame (.selfRefreshExit tower) s t :=
  frame_of_next h ⟨_, rfl⟩
theorem frame_protocolException can (s t : State) (h : exec (.protocolException can) s = .next t) : Frame (.protocolException can) s t :=
  frame_of_next h ⟨_, rfl⟩
theorem frame_cameraLinkLock cam gear (s t : State) (h : exec (.cameraLinkLock cam gear) s = .next t) : Frame (.cameraLinkLock cam gear) s t :=
  frame_of_next h ⟨_, rfl⟩
theorem frame_slotEnd unit (s t : State) (h : exec (.slotEnd unit) s = .next t) : Frame (.slotEnd unit) s t :=
  frame_of_next h ⟨_, rfl⟩
theorem frame_supplyMonitorClear source (s t : State) (h : exec (.supplyMonitorClear source) s = .next t) : Frame (.supplyMonitorClear source) s t :=
  frame_of_next h ⟨_, rfl⟩
theorem frame_hostReadTimeout part target (s t : State) (h : exec (.hostReadTimeout part target) s = .next t) : Frame (.hostReadTimeout part target) s t :=
  frame_of_next h ⟨_, rfl⟩

/-- All that a command that goes on can do. -/
theorem exec_frame (c : Instr) (s t : State) (h : exec c s = .next t) : Frame c s t := by
  cases c with
  | begin port => exact frame_begin port s t h
  | chunk port => exact frame_chunk port s t h
  | chunkCopyDone => exact frame_chunkCopyDone s t h
  | finish port => exact frame_finish port s t h
  | abort port => exact frame_abort port s t h
  | wardCmdUnknown port value => exact frame_wardCmdUnknown port value s t h
  | validationDone counterOk => exact frame_validationDone counterOk s t h
  | switch lawFails => exact frame_switch lawFails s t h
  | holdRelease => exact frame_holdRelease s t h
  | antiRollbackAdvance ok => exact frame_antiRollbackAdvance ok s t h
  | doorbell port off size value => exact frame_doorbell port off size value s t h
  | bar2Read port off len => exact frame_bar2Read port off len s t h
  | bar4Read port off len => exact frame_bar4Read port off len s t h
  | bar4Write port off data => exact frame_bar4Write port off data s t h
  | malformedAccess port off write => exact frame_malformedAccess port off write s t h
  | reservedLocationAccess port bar off write => exact frame_reservedLocationAccess port bar off write s t h
  | registerWrite w => exact frame_registerWrite w s t h
  | eventRegisterW1c w => exact frame_eventRegisterW1c w s t h
  | latchGo port mask => exact frame_latchGo port mask s t h
  | latchApply slot index => exact frame_latchApply slot index s t h
  | snapshot port value => exact frame_snapshot port value s t h
  | retrain port value => exact frame_retrain port value s t h
  | linkTrainingComplete port width speed => exact frame_linkTrainingComplete port width speed s t h
  | portReset port kind => exact frame_portReset port kind s t h
  | linkUp link => exact frame_linkUp link s t h
  | buserrLogClear port => exact frame_buserrLogClear port s t h
  | buserrCountClear port => exact frame_buserrCountClear port s t h
  | safeMemCounterClear port => exact frame_safeMemCounterClear port s t h
  | safeMemLogClear port => exact frame_safeMemLogClear port s t h
  | jobStart part desc => exact frame_jobStart part desc s t h
  | stepDelivery part step => exact frame_stepDelivery part step s t h
  | sliceExpiry part => exact frame_sliceExpiry part s t h
  | jobSuspended part => exact frame_jobSuspended part s t h
  | jobTimeout part => exact frame_jobTimeout part s t h
  | jobComplete part => exact frame_jobComplete part s t h
  | queueReset port => exact frame_queueReset port s t h
  | remap part => exact frame_remap part s t h
  | parkSwitch core lcore => exact frame_parkSwitch core lcore s t h
  | matmul part target env => exact frame_matmul part target env s t h
  | vector part target env => exact frame_vector part target env s t h
  | fft2d part target env => exact frame_fft2d part target env s t h
  | catchPost part target mismatch => exact frame_catchPost part target mismatch s t h
  | catchWait part target => exact frame_catchWait part target s t h
  | catchSet part target mismatch => exact frame_catchSet part target mismatch s t h
  | resetBlock part target mismatch => exact frame_resetBlock part target mismatch s t h
  | catchServe block index => exact frame_catchServe block index s t h
  | catchWaitTimeout part target => exact frame_catchWaitTimeout part target s t h
  | catchWaitAbandon part target => exact frame_catchWaitAbandon part target s t h
  | stepEnd part target mismatch active dpu vec => exact frame_stepEnd part target mismatch active dpu vec s t h
  | spFill part target env => exact frame_spFill part target env s t h
  | spCopy part target env => exact frame_spCopy part target env s t h
  | dma part target env => exact frame_dma part target env s t h
  | bankClose part target => exact frame_bankClose part target s t h
  | bankOpen part target => exact frame_bankOpen part target s t h
  | bankOff core bank => exact frame_bankOff core bank s t h
  | bankOn core bank => exact frame_bankOn core bank s t h
  | tagCheck part target => exact frame_tagCheck part target s t h
  | tagSet part target => exact frame_tagSet part target s t h
  | scrub core word result => exact frame_scrub core word result s t h
  | conv part target env => exact frame_conv part target env s t h
  | fconv part target env => exact frame_fconv part target env s t h
  | pool part target env => exact frame_pool part target env s t h
  | nceConv part target env => exact frame_nceConv part target env s t h
  | nceGranule engine => exact frame_nceGranule engine s t h
  | attn part target env => exact frame_attn part target env s t h
  | kvAppend part target env => exact frame_kvAppend part target env s t h
  | kvMap part target env => exact frame_kvMap part target env s t h
  | kvCtxOpen part target env => exact frame_kvCtxOpen part target env s t h
  | kvCtxClose part target env => exact frame_kvCtxClose part target env s t h
  | kvCtxTruncate part target env => exact frame_kvCtxTruncate part target env s t h
  | kvCtxAccept part target env => exact frame_kvCtxAccept part target env s t h
  | kvCtxFlush part target env => exact frame_kvCtxFlush part target env s t h
  | kvCtxSetPrio part target env => exact frame_kvCtxSetPrio part target env s t h
  | kvCtxPrefetch part target env => exact frame_kvCtxPrefetch part target env s t h
  | swapOutPageDone part env => exact frame_swapOutPageDone part env s t h
  | swapInPageDone part env => exact frame_swapInPageDone part env s t h
  | setpt part target env => exact frame_setpt part target env s t h
  | sample ch fault => exact frame_sample ch fault s t h
  | faultIdentificationDone ch leaderFails followerFails => exact frame_faultIdentificationDone ch leaderFails followerFails s t h
  | sentFrame port pulses => exact frame_sentFrame port pulses s t h
  | framePassesCrc can frame => exact frame_framePassesCrc can frame s t h
  | canFrameStored can frame sof => exact frame_canFrameStored can frame sof s t h
  | canFrameSent can sof tdcv => exact frame_canFrameSent can sof tdcv s t h
  | arbitrationLost can => exact frame_arbitrationLost can s t h
  | canError can kind lastErr tdc => exact frame_canError can kind lastErr tdc s t h
  | transmitSelection can => exact frame_transmitSelection can s t h
  | canObjReq port can obj => exact frame_canObjReq port can obj s t h
  | canObjAbort port can obj => exact frame_canObjAbort port can obj s t h
  | canObjClear port can obj => exact frame_canObjClear port can obj s t h
  | canObjStatusRead port can obj => exact frame_canObjStatusRead port can obj s t h
  | lastWordRead port can obj => exact frame_lastWordRead port can obj s t h
  | lockTimeout can obj => exact frame_lockTimeout can obj s t h
  | canInitSet port can busy => exact frame_canInitSet port can busy s t h
  | canInitClear port can => exact frame_canInitClear port can s t h
  | busIntegrationDone can => exact frame_busIntegrationDone can s t h
  | busOffRecovery can => exact frame_busOffRecovery can s t h
  | transmitDominantTimeout can => exact frame_transmitDominantTimeout can s t h
  | wakeUpPattern can => exact frame_wakeUpPattern can s t h
  | referenceMessage can => exact frame_referenceMessage can s t h
  | t1sFrameReceived q frame fcsOk => exact frame_t1sFrameReceived q frame fcsOk s t h
  | transmitOpportunity chance => exact frame_transmitOpportunity chance s t h
  | beacon event => exact frame_beacon event s t h
  | pop port q value => exact frame_pop port q value s t h
  | t1sTxGo port q value => exact frame_t1sTxGo port q value s t h
  | ethFrameReceived e frame fcsOk off => exact frame_ethFrameReceived e frame fcsOk off s t h
  | ethTxTail port e value => exact frame_ethTxTail port e value s t h
  | ethFrameSent e stamp slot => exact frame_ethFrameSent e stamp slot s t h
  | ethLinkChange e up master speed => exact frame_ethLinkChange e up master speed s t h
  | step port => exact frame_step port s t h
  | release port => exact frame_release port s t h
  | sync q ingress domain src origin corr twoStep => exact frame_sync q ingress domain src origin corr twoStep s t h
  | followUp q origin corr inTime => exact frame_followUp q origin corr inTime s t h
  | delayExchange q reply => exact frame_delayExchange q reply s t h
  | delayRequestReceived q ingress domain seq corr => exact frame_delayRequestReceived q ingress domain seq corr s t h
  | announce q => exact frame_announce q s t h
  | syncTransmit q origin => exact frame_syncTransmit q origin s t h
  | announceTransmit q => exact frame_announceTransmit q s t h
  | delayRequestTransmit q => exact frame_delayRequestTransmit q s t h
  | syncLost => exact frame_syncLost s t h
  | slewEnd => exact frame_slewEnd s t h
  | timeRateCheck bad => exact frame_timeRateCheck bad s t h
  | pulseLeadingEdge g => exact frame_pulseLeadingEdge g s t h
  | pulseTrailingEdge g => exact frame_pulseTrailingEdge g s t h
  | frameStart cam vc frameNo off => exact frame_frameStart cam vc frameNo off s t h
  | line cam vc dt data err => exact frame_line cam vc dt data err s t h
  | frameEnd cam vc => exact frame_frameEnd cam vc s t h
  | lineTmoExpiry cam => exact frame_lineTmoExpiry cam s t h
  | portFifoOverflow cam => exact frame_portFifoOverflow cam s t h
  | cameraLinkLost cam => exact frame_cameraLinkLost cam s t h
  | cciGo port cam value => exact frame_cciGo port cam value s t h
  | cciDone cam reply => exact frame_cciDone cam reply s t h
  | sampleComplete stream => exact frame_sampleComplete stream s t h
  | windowClose ring => exact frame_windowClose ring s t h
  | batchComplete ring => exact frame_batchComplete ring s t h
  | vdecStrTail port stream value => exact frame_vdecStrTail port stream value s t h
  | accessUnit stream desc data dec => exact frame_accessUnit stream desc data dec s t h
  | endOfStream stream desc => exact frame_endOfStream stream desc s t h
  | pictureDone stream => exact frame_pictureDone stream s t h
  | evict port => exact frame_evict port s t h
  | clear port => exact frame_clear port s t h
  | udpDatagram scat payload off => exact frame_udpDatagram scat payload off s t h
  | sweepTmoExpiry scat => exact frame_sweepTmoExpiry scat s t h
  | ingDepTail port ring value => exact frame_ingDepTail port ring value s t h
  | depotBatchBuild ring reply => exact frame_depotBatchBuild ring reply s t h
  | missTmoExpiry ring => exact frame_missTmoExpiry ring s t h
  | ageEvaluation => exact frame_ageEvaluation s t h
  | safeStateEntry => exact frame_safeStateEntry s t h
  | safeFrameRepeat => exact frame_safeFrameRepeat s t h
  | resume port value => exact frame_resume port value s t h
  | enter port value => exact frame_enter port value s t h
  | deadboltReadback mismatch => exact frame_deadboltReadback mismatch s t h
  | guardKick => exact frame_guardKick s t h
  | guardTimeout => exact frame_guardTimeout s t h
  | islandLockstepTrip => exact frame_islandLockstepTrip s t h
  | referenceOscillatorStop => exact frame_referenceOscillatorStop s t h
  | intervalEnd => exact frame_intervalEnd s t h
  | slotStart unit => exact frame_slotStart unit s t h
  | granuleStart unit => exact frame_granuleStart unit s t h
  | granuleDone unit mismatch => exact frame_granuleDone unit mismatch s t h
  | granuleAbandon unit => exact frame_granuleAbandon unit s t h
  | pairIdentificationDone pair evenFails oddFails => exact frame_pairIdentificationDone pair evenFails oddFails s t h
  | attestationGo port value => exact frame_attestationGo port value s t h
  | attestationDone => exact frame_attestationDone s t h
  | mbBegin port => exact frame_mbBegin port s t h
  | mbChunk port => exact frame_mbChunk port s t h
  | mbChunkCopyDone => exact frame_mbChunkCopyDone s t h
  | mbAbort port => exact frame_mbAbort port s t h
  | enrol port => exact frame_enrol port s t h
  | enrolComplete counter => exact frame_enrolComplete counter s t h
  | fwUpdate port => exact frame_fwUpdate port s t h
  | fwUpdateComplete counterOk => exact frame_fwUpdateComplete counterOk s t h
  | measurementGo port value => exact frame_measurementGo port value s t h
  | powerGood laneCfg cfgmSel => exact frame_powerGood laneCfg cfgmSel s t h
  | referenceOscillatorRunning => exact frame_referenceOscillatorRunning s t h
  | pufRecovery ok => exact frame_pufRecovery ok s t h
  | firmwareBoot counter factory => exact frame_firmwareBoot counter factory s t h
  | lbistComplete fails invalid => exact frame_lbistComplete fails invalid s t h
  | memoryBistComplete fails => exact frame_memoryBistComplete fails s t h
  | ready => exact frame_ready s t h
  | keyOff => exact frame_keyOff s t h
  | keyOffLbistStart => exact frame_keyOffLbistStart s t h
  | keyOffLbistComplete fails => exact frame_keyOffLbistComplete fails s t h
  | parked => exact frame_parked s t h
  | wake laneCfg cfgmSel => exact frame_wake laneCfg cfgmSel s t h
  | supplyMonitorTrip source => exact frame_supplyMonitorTrip source s t h
  | powerStageShutdown => exact frame_powerStageShutdown s t h
  | governorEvaluation power voltage temps towers => exact frame_governorEvaluation power voltage temps towers s t h
  | demand dom => exact frame_demand dom s t h
  | wakeComplete woken => exact frame_wakeComplete woken s t h
  | retainEntry dom => exact frame_retainEntry dom s t h
  | offEntry dom => exact frame_offEntry dom s t h
  | pointStepDone dom => exact frame_pointStepDone dom s t h
  | droopDetect core => exact frame_droopDetect core s t h
  | droopEnd core cycles => exact frame_droopEnd core cycles s t h
  | meteringInterval energy selfCheckOk activity => exact frame_meteringInterval energy selfCheckOk activity s t h
  | selfRefreshEntry tower => exact frame_selfRefreshEntry tower s t h
  | selfRefreshExit tower => exact frame_selfRefreshExit tower s t h
  | protocolException can => exact frame_protocolException can s t h
  | cameraLinkLock cam gear => exact frame_cameraLinkLock cam gear s t h
  | slotEnd unit => exact frame_slotEnd unit s t h
  | supplyMonitorClear source => exact frame_supplyMonitorClear source s t h
  | hostReadTimeout part target => exact frame_hostReadTimeout part target s t h

end Sys2Proof.Machine
end

