-- ==== Sys2Proof/Laws/Mem.lean ====
section
/-!
SUPPORT. The laws of the sorted sparse lists and of memory: a read after a write, the reads of the other places, the
canonical form.
-/

set_option Elab.async false

namespace Sys2Proof.Machine

/-! ### Sparse lists -/

theorem alGet_alSet_self {α : Type} (l : List (Nat × α)) (a : Nat) (x : α) : alGet (alSet l a x) a = some x := by
  induction l with
  | nil => simp [alSet, alGet]
  | cons h t ih =>
    obtain ⟨k, v⟩ := h
    simp only [alSet]
    split
    · simp [alGet]
    · split
      · simp [alGet]
      · simp [alGet, *]

theorem alGet_alSet_ne {α : Type} (l : List (Nat × α)) (a b : Nat) (x : α) (h : b ≠ a) :
    alGet (alSet l a x) b = alGet l b := by
  induction l with
  | nil => simp [alSet, alGet, h]
  | cons c t ih =>
    obtain ⟨k, v⟩ := c
    simp only [alSet]
    split
    · subst a; simp [alGet, h]
    · split
      · simp [alGet, h]
      · simp only [alGet, ih]

theorem alGet_alErase_self {α : Type} (l : List (Nat × α)) (a : Nat) : alGet (alErase l a) a = none := by
  induction l with
  | nil => rfl
  | cons c t ih =>
    obtain ⟨k, v⟩ := c
    simp only [alErase]
    split
    · exact ih
    · simp [alGet, *]

theorem alGet_alErase_ne {α : Type} (l : List (Nat × α)) (a b : Nat) (h : b ≠ a) : alGet (alErase l a) b = alGet l b := by
  induction l with
  | nil => rfl
  | cons c t ih =>
    obtain ⟨k, v⟩ := c
    simp only [alErase]
    split
    · subst a; rw [ih]; simp [alGet, h]
    · simp only [alGet, ih]

theorem alGet_alPut_self {α : Type} [DecidableEq α] (d : α) (l : List (Nat × α)) (a : Nat) (x : α) :
    (alGet (alPut d l a x) a).getD d = x := by
  unfold alPut
  split
  · rw [alGet_alErase_self]; simp [*]
  · rw [alGet_alSet_self]; rfl

theorem alGet_alPut_ne {α : Type} [DecidableEq α] (d : α) (l : List (Nat × α)) (a b : Nat) (x : α) (h : b ≠ a) :
    alGet (alPut d l a x) b = alGet l b := by
  unfold alPut
  split
  · exact alGet_alErase_ne l a b h
  · exact alGet_alSet_ne l a b x h

/-- The keys rise from a bound on. -/
def risesFrom {α : Type} (n : Nat) : List (Nat × α) → Prop
  | [] => True
  | (k, _) :: t => n ≤ k ∧ risesFrom (k + 1) t

theorem risesFrom_mono {α : Type} {m n : Nat} (l : List (Nat × α)) (h : m ≤ n) (r : risesFrom n l) : risesFrom m l := by
  cases l with
  | nil => trivial
  | cons c t => exact ⟨by have := r.1; omega, r.2⟩

theorem alSorted_iff {α : Type} (l : List (Nat × α)) : alSorted l = true ↔ risesFrom 0 l := by
  have key : ∀ (l : List (Nat × α)) k v, alSorted ((k, v) :: l) = true ↔ risesFrom (k + 1) l := by
    intro l
    induction l with
    | nil => intro k v; simp [alSorted, risesFrom]
    | cons c t ih =>
      intro k v
      obtain ⟨k', v'⟩ := c
      simp only [alSorted, Bool.and_eq_true, decide_eq_true_eq, ih, risesFrom]
      constructor
      · exact fun h => ⟨by omega, h.2⟩
      · exact fun h => ⟨by omega, h.2⟩
  cases l with
  | nil => simp [alSorted, risesFrom]
  | cons c t => obtain ⟨k, v⟩ := c; rw [key]; simp [risesFrom]

theorem risesFrom_alSet {α : Type} (l : List (Nat × α)) (n a : Nat) (x : α) (h : risesFrom n l) (ha : n ≤ a) :
    risesFrom n (alSet l a x) := by
  induction l generalizing n with
  | nil => exact ⟨ha, trivial⟩
  | cons c t ih =>
    obtain ⟨k, v⟩ := c
    simp only [alSet]
    split
    · subst a; exact ⟨ha, h.2⟩
    · split
      · exact ⟨ha, by omega, h.2⟩
      · exact ⟨h.1, ih _ h.2 (by omega)⟩

theorem risesFrom_filter {α : Type} (f : Nat × α → Bool) (l : List (Nat × α)) (n : Nat) (h : risesFrom n l) :
    risesFrom n (l.filter f) := by
  induction l generalizing n with
  | nil => trivial
  | cons c t ih =>
    obtain ⟨k, v⟩ := c
    have := h.1
    simp only [List.filter]
    split
    · exact ⟨this, ih _ h.2⟩
    · exact risesFrom_mono _ (by omega) (ih _ h.2)

theorem alErase_eq {α : Type} (l : List (Nat × α)) (a : Nat) : alErase l a = l.filter fun c => decide (a ≠ c.1) := by
  induction l with
  | nil => rfl
  | cons c t ih => obtain ⟨k, v⟩ := c; simp only [alErase, List.filter, ih]; by_cases h : a = k <;> simp [h]

theorem alSorted_alSet {α : Type} (l : List (Nat × α)) (a : Nat) (x : α) (h : alSorted l = true) :
    alSorted (alSet l a x) = true :=
  (alSorted_iff _).2 (risesFrom_alSet l 0 a x ((alSorted_iff l).1 h) (Nat.zero_le a))

theorem alSorted_filter {α : Type} (f : Nat × α → Bool) (l : List (Nat × α)) (h : alSorted l = true) :
    alSorted (l.filter f) = true :=
  (alSorted_iff _).2 (risesFrom_filter f l 0 ((alSorted_iff l).1 h))

theorem alSorted_alPut {α : Type} [DecidableEq α] (d : α) (l : List (Nat × α)) (a : Nat) (x : α) (h : alSorted l = true) :
    alSorted (alPut d l a x) = true := by
  unfold alPut
  split
  · rw [alErase_eq]; exact alSorted_filter _ l h
  · exact alSorted_alSet l a x h

theorem alSet_all {α : Type} (f : Nat × α → Bool) (l : List (Nat × α)) (a : Nat) (x : α) (h : l.all f = true)
    (hx : f (a, x) = true) : (alSet l a x).all f = true := by
  induction l with
  | nil => simp [alSet, hx]
  | cons c t ih =>
    obtain ⟨k, v⟩ := c
    simp only [List.all_cons, Bool.and_eq_true] at h
    simp only [alSet]
    split
    · simp [hx, h.2]
    · split
      · simp [hx, h.1, h.2]
      · simp [h.1, ih h.2]

/-! ### Memory -/

/-- A defined unlisted byte is zero. -/
theorem Fill.byte_zero (f : Fill) (a : Nat) (h : f.isFree a = false) : f.byte a = 0#8 := by
  induction f with
  | zero => rfl
  | free e => simp [Fill.isFree] at h
  | patch lo len e r ih =>
    simp only [Fill.isFree] at h
    split at h
    · cases h
    · simp only [Fill.byte, if_neg ‹_›]; exact ih h

/-- A read after a write to the same place. -/
@[simp] theorem Mem.read_write_self (m : Mem) (a : Nat) (b : Byte) : (m.write a b).read a = b := by
  simp only [Mem.write, Mem.read, putCell]
  split
  · rw [alGet_alSet_self]; rfl
  · next hf => rw [Fill.byte_zero _ _ (by cases h : m.fill.isFree a <;> simp_all)]; exact alGet_alPut_self 0#8 m.cells a b

/-- A write leaves every other place alone. -/
theorem Mem.read_write_ne (m : Mem) (a x : Nat) (b : Byte) (h : x ≠ a) : (m.write a b).read x = m.read x := by
  simp only [Mem.write, Mem.read, putCell]
  split
  · rw [alGet_alSet_ne _ _ _ _ h]
  · rw [alGet_alPut_ne _ _ _ _ _ h]

@[simp] theorem Mem.fill_write (m : Mem) (a : Nat) (b : Byte) : (m.write a b).fill = m.fill := rfl

/-- A byte among bytes written in a row. -/
theorem Mem.read_writeBytes_in (m : Mem) (a i : Nat) (bs : List Byte) (h : i < bs.length) :
    (m.writeBytes a bs).read (a + i) = bs[i] := by
  have out : ∀ (bs : List Byte) (m : Mem) a x, x < a → (m.writeBytes a bs).read x = m.read x := by
    intro bs
    induction bs with
    | nil => intro m a x _; rfl
    | cons b t ih =>
      intro m a x hx
      rw [Mem.writeBytes, ih _ _ _ (by omega), Mem.read_write_ne _ _ _ _ (by omega)]
  induction bs generalizing m a i with
  | nil => simp at h
  | cons b t ih =>
    cases i with
    | zero => rw [Mem.writeBytes, out _ _ _ _ (by omega)]; simp
    | succ i =>
      have := ih (m.write a b) (a + 1) i (by simpa using h)
      rw [Mem.writeBytes, show a + (i + 1) = a + 1 + i by omega, this]
      rfl

/-- Bytes written in a row leave every other place alone. -/
theorem Mem.read_writeBytes_out (m : Mem) (a x : Nat) (bs : List Byte) (h : x < a ∨ a + bs.length ≤ x) :
    (m.writeBytes a bs).read x = m.read x := by
  induction bs generalizing m a with
  | nil => rfl
  | cons b t ih =>
    simp only [List.length_cons] at h
    rw [Mem.writeBytes, ih _ _ (by omega), Mem.read_write_ne _ _ _ _ (by omega)]

@[simp] theorem Mem.readBytes_length (m : Mem) (a n : Nat) : (m.readBytes a n).length = n := by simp [Mem.readBytes]

@[simp] theorem Mem.readBytes_get (m : Mem) (a n i : Nat) (h : i < (m.readBytes a n).length) :
    (m.readBytes a n)[i] = m.read (a + i) := by simp [Mem.readBytes]

/-- Bytes read back where they were written are those bytes. -/
theorem Mem.readBytes_writeBytes (m : Mem) (a : Nat) (bs : List Byte) : (m.writeBytes a bs).readBytes a bs.length = bs := by
  apply List.ext_getElem (by simp)
  intro i h1 h2
  rw [Mem.readBytes_get, Mem.read_writeBytes_in m a i bs h2]

/-- A write keeps the canonical form. -/
theorem Mem.wf_write (m : Mem) (a : Nat) (b : Byte) (h : m.wf = true) : (m.write a b).wf = true := by
  simp only [Mem.wf, Bool.and_eq_true] at h ⊢
  obtain ⟨h1, h2⟩ := h
  simp only [Mem.write, putCell]
  split
  · exact ⟨alSorted_alSet _ _ _ h1, alSet_all _ _ _ _ h2 (by simp [*])⟩
  · refine ⟨alSorted_alPut _ _ _ _ h1, ?_⟩
    unfold alPut
    split
    · rw [alErase_eq]
      simp only [List.all_eq_true, List.mem_filter, and_imp] at h2 ⊢
      exact fun c hc _ => h2 c hc
    · exact alSet_all _ _ _ _ h2 (by simp [*])

/-- Writes in a row keep the canonical form. -/
theorem Mem.wf_writeBytes (m : Mem) (a : Nat) (bs : List Byte) (h : m.wf = true) : (m.writeBytes a bs).wf = true := by
  induction bs generalizing m a with
  | nil => exact h
  | cons b t ih => exact ih _ _ (m.wf_write a b h)

/-- A range that becomes undefined keeps the canonical form. -/
theorem Mem.wf_undef (m : Mem) (lo len epoch : Nat) (h : m.wf = true) : (m.undef lo len epoch).wf = true := by
  simp only [Mem.wf, Bool.and_eq_true] at h ⊢
  refine ⟨alSorted_filter _ _ h.1, ?_⟩
  have h2 := h.2
  simp only [List.all_eq_true, Mem.undef, List.mem_filter, and_imp] at h2 ⊢
  intro c hc hr
  have := h2 c hc
  simp only [Fill.isFree]
  split
  · simp
  · exact this

/-- What a range that becomes undefined reads as: its bytes free values, the others as before. -/
theorem Mem.read_undef (m : Mem) (lo len epoch a : Nat) :
    (m.undef lo len epoch).read a = if lo ≤ a ∧ a < lo + len then Config.freeByte epoch a else m.read a := by
  have g : ∀ (l : List Host.Cell), alGet (l.filter fun c => !(decide (lo ≤ c.1) && decide (c.1 < lo + len))) a =
      if lo ≤ a ∧ a < lo + len then none else alGet l a := by
    intro l
    induction l with
    | nil => simp [alGet]
    | cons c t ih =>
      obtain ⟨k, v⟩ := c
      simp only [List.filter]
      split
      · simp only [alGet, ih]
        split
        · subst a; simp_all; omega
        · rfl
      · simp only [ih, alGet]
        split
        · rfl
        · split
          · subst a; simp_all
          · rfl
  simp only [Mem.read, Mem.undef, g, Fill.byte]
  split <;> rfl

@[simp] theorem Mem.wf_zero : Mem.zero.wf = true := rfl

end Sys2Proof.Machine
end

