-- ==== Sys2Proof/Laws/Regs.lean ====
section
/-!
SUPPORT. The laws of the register store: a register read after it is set, and the other registers.
-/

set_option Elab.async false

namespace Sys2Proof.Machine

/-- A block of the store after a block is replaced: the slots from 15 on name one block. -/
theorem Regs.blk_setBlk (r : Regs) (m n : Nat) (b : RegBlock) :
    (r.setBlk m b).blk n = if min m 15 = min n 15 then b else r.blk n := by
  rcases Nat.lt_or_ge m 15 with hm | hm <;> rcases Nat.lt_or_ge n 15 with hn | hn
  · rw [Nat.min_eq_left (by omega), Nat.min_eq_left (by omega)]
    interval_cases m <;> interval_cases n <;> rfl
  · obtain ⟨n, rfl⟩ := Nat.exists_eq_add_of_le hn
    rw [Nat.min_eq_left (by omega), Nat.min_eq_right (by omega), if_neg (by omega), Nat.add_comm]
    interval_cases m <;> rfl
  · obtain ⟨m, rfl⟩ := Nat.exists_eq_add_of_le hm
    rw [Nat.min_eq_right (by omega), Nat.min_eq_left (by omega), if_neg (by omega), Nat.add_comm]
    interval_cases n <;> rfl
  · obtain ⟨m, rfl⟩ := Nat.exists_eq_add_of_le hm
    obtain ⟨n, rfl⟩ := Nat.exists_eq_add_of_le hn
    rw [Nat.min_eq_right (by omega), Nat.min_eq_right (by omega), if_pos rfl, Nat.add_comm, Nat.add_comm 15 n]
    rfl

theorem Regs.blk_setBlk_self (r : Regs) (n : Nat) (b : RegBlock) : (r.setBlk n b).blk n = b := by
  rw [Regs.blk_setBlk, if_pos rfl]

/-- A register reads as the word it was set to. -/
theorem State.rv_setReg_self (s : State) (k v : Nat) : (s.setReg k v).rv k = v % 2 ^ 32 := by
  have h := alGet_alPut_self (toWord (resetOf k)) (s.regs.blk (slotOf k)).vals k (toWord v)
  simp only [State.rv, State.setReg, Regs.setVal, Regs.val, Regs.blk_setBlk_self]
  revert h
  cases alGet (alPut (toWord (resetOf k)) (s.regs.blk (slotOf k)).vals k (toWord v)) k with
  | none => intro h; simp only [Option.getD_none] at h; simpa [toWord] using congrArg BitVec.toNat h
  | some w => intro h; simp only [Option.getD_some] at h; subst h; simp [toWord]

/-- Two slots of one block. -/
theorem Regs.blk_min (r : Regs) (m n : Nat) (h : min m 15 = min n 15) : r.blk m = r.blk n := by
  have a := Regs.blk_setBlk r m n (r.blk m)
  have c : r.setBlk m (r.blk m) = r := by
    rcases Nat.lt_or_ge m 15 with hm | hm
    · interval_cases m <;> rfl
    · obtain ⟨m, rfl⟩ := Nat.exists_eq_add_of_le hm
      rw [Nat.add_comm]; rfl
  rw [if_pos h, c] at a
  exact a.symm

/-- Setting a register leaves every other one alone. -/
theorem State.rv_setReg_ne (s : State) (k k' v : Nat) (h : k' ≠ k) : (s.setReg k v).rv k' = s.rv k' := by
  simp only [State.rv, State.setReg, Regs.setVal, Regs.val, Regs.blk_setBlk]
  by_cases e : min (slotOf k) 15 = min (slotOf k') 15
  · simp only [if_pos e, alGet_alPut_ne _ _ _ _ _ h, Regs.blk_min _ _ _ e]
  · simp only [if_neg e]

/-- What setting registers in a row leaves alone. -/
theorem State.rv_setRegs_out (s : State) (k k' : Nat) (l : List Nat) (h : k' < k ∨ k + 4 * l.length ≤ k') :
    (s.setRegs k l).rv k' = s.rv k' := by
  induction l generalizing s k with
  | nil => rfl
  | cons v t ih =>
    simp only [List.length_cons] at h
    rw [State.setRegs, ih _ _ (by omega), State.rv_setReg_ne _ _ _ _ (by omega)]

/-- A register among registers set in a row. -/
theorem State.rv_setRegs_in (s : State) (k i : Nat) (l : List Nat) (h : i < l.length) :
    (s.setRegs k l).rv (k + 4 * i) = l[i] % 2 ^ 32 := by
  induction l generalizing s k i with
  | nil => simp at h
  | cons v t ih =>
    cases i with
    | zero => rw [State.setRegs, State.rv_setRegs_out _ _ _ _ (by omega), Nat.mul_zero, Nat.add_zero, State.rv_setReg_self]; rfl
    | succ i =>
      rw [State.setRegs, show k + 4 * (i + 1) = k + 4 + 4 * i by omega, ih _ _ _ (by simpa using h)]
      rfl

/-- A message sent reads no register. -/
theorem State.rv_emit (s : State) (o : Out) (k : Nat) : (s.emit o).rv k = s.rv k := rfl

/-- What a shadow reads as after it is set. -/
theorem Regs.shadow_setShadow_self (r : Regs) (k v : Nat) : (r.setShadow k v).shadow k = v % 2 ^ 32 := by
  have h := alGet_alPut_self (toWord (resetOf k)) (r.blk (slotOf k)).shadows k (toWord v)
  simp only [Regs.setShadow, Regs.shadow, Regs.blk_setBlk_self]
  revert h
  cases alGet (alPut (toWord (resetOf k)) (r.blk (slotOf k)).shadows k (toWord v)) k with
  | none => intro h; simp only [Option.getD_none] at h; simpa [toWord] using congrArg BitVec.toNat h
  | some w => intro h; simp only [Option.getD_some] at h; subst h; simp [toWord]

/-- A counter after it is increased (R370). -/
theorem State.ctr_bump_self (s : State) (k n : Nat) : (s.bump k n).ctr k = (s.ctr k + n) % two64 := by
  have h := alGet_alPut_self 0 (s.regs.blk (slotOf k)).counters k ((s.ctr k + n) % two64)
  simp only [State.bump]
  unfold State.ctr
  simp only [Regs.blk_setBlk_self]
  exact h

/-- Increasing a counter reads no register. -/
theorem State.rv_bump (s : State) (k n k' : Nat) : (s.bump k n).rv k' = s.rv k' := by
  simp only [State.rv, State.bump, Regs.val, Regs.blk_setBlk]
  by_cases e : min (slotOf k) 15 = min (slotOf k') 15
  · simp only [if_pos e, Regs.blk_min _ _ _ e]
  · simp only [if_neg e]

end Sys2Proof.Machine
end

