-- ==== Sys2Proof/WellFormed.lean ====
section
/-!
DEFINITION. Well-formed commands: the bounds that the spec puts on what a command carries and that the types of its
operands do not show. Every meaning is total all the same; a command that is not well-formed cannot come from the
block's surroundings.
-/
namespace Sys2Proof

/-- A fraction of an instant is 16 bits wide (R332). -/
def Stamp.wf (t : Stamp) : Bool := decide (t.frac < 65536)

/-- The data lengths of the three CAN formats (R311, R321). -/
def canLengthOk (kind n : Nat) : Bool :=
  match kind with
  | 0 => decide (n ≤ 8)
  | 1 => decide (n ≤ 8) || [12, 16, 20, 24, 32, 48, 64].contains n
  | _ => decide (1 ≤ n) && decide (n ≤ 2048)

/-- A CAN frame as a bus can carry it (R311, R318). -/
def CanFrame.wf (f : CanFrame) : Bool :=
  decide (f.kind ≤ 2) && decide (f.id < if f.ide then 2 ^ 29 else 2 ^ 11) && canLengthOk f.kind f.data.length &&
  (!f.ide || f.kind != 2) && (!f.rtr || (f.kind == 0 && f.data.isEmpty)) && decide (f.dlc < 16)

/-- A register write as it reaches the register logic: aligned DWORDs inside BAR0, at most the payload limit (R359). -/
def RegWrite.wf (w : RegWrite) : Bool :=
  decide (w.off % 4 = 0) && decide (w.off + 4 * (w.more.length + 1) ≤ 0x4000000) && decide (w.more.length < 128)

/-- The instants of a delay exchange are well-formed. -/
def DelayReply.wf (r : DelayReply) : Bool := r.rx.wf && r.tx.wf && r.ingress.wf

/-- The errors that a step meets lie in the memories: scratchpad bytes below 32 MiB (R127). -/
def StepEnv.wf (e : StepEnv) : Bool := e.spUe.all fun a => decide (a < 0x2000000)



/-- The well-formed commands. -/
def Instr.wf (c : Instr) : Bool :=
  match c with
  | .begin .. => true
  | .chunk .. => true
  | .chunkCopyDone .. => true
  | .finish .. => true
  | .abort .. => true
  | .wardCmdUnknown _ value => decide (value.toNat % 8 = 0) || decide (5 ≤ value.toNat % 8)
  | .validationDone .. => true
  | .switch .. => true
  | .holdRelease .. => true
  | .antiRollbackAdvance .. => true
  | .doorbell _ _ size _ => [1, 2, 4, 8].contains size
  | .bar2Read _ _ len => decide (1 ≤ len)
  | .bar4Read _ off len => decide (1 ≤ len) && decide (off < 2 ^ 36)
  | .bar4Write _ off data => !data.isEmpty && decide (off < 2 ^ 36)
  | .malformedAccess .. => true
  | .reservedLocationAccess .. => true
  | .registerWrite w => w.wf
  | .eventRegisterW1c w => w.wf
  | .latchGo .. => true
  | .latchApply .. => true
  | .snapshot .. => true
  | .retrain .. => true
  | .linkTrainingComplete _ width speed => [1, 2, 4, 8, 16].contains width && decide (1 ≤ speed) && decide (speed ≤ 5)
  | .portReset .. => true
  | .linkUp .. => true
  | .buserrLogClear .. => true
  | .buserrCountClear .. => true
  | .safeMemCounterClear .. => true
  | .safeMemLogClear .. => true
  | .jobStart .. => true
  | .stepDelivery .. => true
  | .sliceExpiry .. => true
  | .jobSuspended .. => true
  | .jobTimeout .. => true
  | .jobComplete .. => true
  | .queueReset .. => true
  | .remap .. => true
  | .parkSwitch .. => true
  | .matmul _ _ env => env.wf
  | .vector _ _ env => env.wf
  | .fft2d _ _ env => env.wf
  | .catchPost .. => true
  | .catchWait .. => true
  | .catchSet .. => true
  | .resetBlock .. => true
  | .catchServe .. => true
  | .catchWaitTimeout .. => true
  | .catchWaitAbandon .. => true
  | .stepEnd .. => true
  | .spFill _ _ env => env.wf
  | .spCopy _ _ env => env.wf
  | .dma _ _ env => env.wf
  | .bankClose .. => true
  | .bankOpen .. => true
  | .bankOff .. => true
  | .bankOn .. => true
  | .tagCheck .. => true
  | .tagSet .. => true
  | .scrub _ word _ => decide (word * 32 < 0x2000000)
  | .conv _ _ env => env.wf
  | .fconv _ _ env => env.wf
  | .pool _ _ env => env.wf
  | .nceConv _ _ env => env.wf
  | .nceGranule .. => true
  | .attn _ _ env => env.wf
  | .kvAppend _ _ env => env.wf
  | .kvMap _ _ env => env.wf
  | .kvCtxOpen _ _ env => env.wf
  | .kvCtxClose _ _ env => env.wf
  | .kvCtxTruncate _ _ env => env.wf
  | .kvCtxAccept _ _ env => env.wf
  | .kvCtxFlush _ _ env => env.wf
  | .kvCtxSetPrio _ _ env => env.wf
  | .kvCtxPrefetch _ _ env => env.wf
  | .swapOutPageDone _ env => env.wf
  | .swapInPageDone _ env => env.wf
  | .setpt _ _ env => env.wf
  | .sample .. => true
  | .faultIdentificationDone .. => true
  | .sentFrame _ pulses => pulses.all fun n => decide (0 < n)
  | .framePassesCrc _ frame => frame.wf
  | .canFrameStored _ frame sof => frame.wf && sof.wf
  | .canFrameSent _ sof _ => sof.wf
  | .arbitrationLost .. => true
  | .canError .. => true
  | .transmitSelection .. => true
  | .canObjReq .. => true
  | .canObjAbort .. => true
  | .canObjClear .. => true
  | .canObjStatusRead .. => true
  | .lastWordRead .. => true
  | .lockTimeout .. => true
  | .canInitSet .. => true
  | .canInitClear .. => true
  | .busIntegrationDone .. => true
  | .busOffRecovery .. => true
  | .transmitDominantTimeout .. => true
  | .wakeUpPattern .. => true
  | .referenceMessage .. => true
  | .t1sFrameReceived _ frame _ => decide (14 ≤ frame.length)
  | .transmitOpportunity c => c.stamps.all Stamp.wf
  | .beacon .. => true
  | .pop .. => true
  | .t1sTxGo .. => true
  | .ethFrameReceived _ frame _ _ => decide (14 ≤ frame.length)
  | .ethTxTail .. => true
  | .ethFrameSent _ stamp _ => stamp.wf
  | .ethLinkChange .. => true
  | .step .. => true
  | .release .. => true
  | .sync _ ingress domain src origin _ _ => ingress.wf && decide (domain < 256) && decide (src < 2 ^ 80) && origin.wf
  | .followUp _ origin _ _ => origin.wf
  | .delayExchange _ reply => reply.all DelayReply.wf
  | .delayRequestReceived _ ingress domain seq _ => ingress.wf && decide (domain < 256) && decide (seq < 65536)
  | .announce .. => true
  | .syncTransmit _ origin => origin.wf
  | .announceTransmit .. => true
  | .delayRequestTransmit .. => true
  | .syncLost .. => true
  | .slewEnd .. => true
  | .timeRateCheck .. => true
  | .pulseLeadingEdge .. => true
  | .pulseTrailingEdge .. => true
  | .frameStart _ vc frameNo _ => decide (vc < 16) && decide (frameNo < 65536)
  | .line _ vc dt _ _ => decide (vc < 16) && decide (dt < 64)
  | .frameEnd _ vc => decide (vc < 16)
  | .lineTmoExpiry .. => true
  | .portFifoOverflow .. => true
  | .cameraLinkLost .. => true
  | .cciGo .. => true
  | .cciDone .. => true
  | .sampleComplete .. => true
  | .windowClose .. => true
  | .batchComplete .. => true
  | .vdecStrTail .. => true
  | .accessUnit .. => true
  | .endOfStream .. => true
  | .pictureDone .. => true
  | .evict .. => true
  | .clear .. => true
  | .udpDatagram _ payload _ => decide (payload.length ≤ 65507)
  | .sweepTmoExpiry .. => true
  | .ingDepTail .. => true
  | .depotBatchBuild .. => true
  | .missTmoExpiry .. => true
  | .ageEvaluation .. => true
  | .safeStateEntry .. => true
  | .safeFrameRepeat .. => true
  | .resume .. => true
  | .enter .. => true
  | .deadboltReadback .. => true
  | .guardKick .. => true
  | .guardTimeout .. => true
  | .islandLockstepTrip .. => true
  | .referenceOscillatorStop .. => true
  | .intervalEnd .. => true
  | .slotStart .. => true
  | .granuleStart .. => true
  | .granuleDone .. => true
  | .granuleAbandon .. => true
  | .pairIdentificationDone .. => true
  | .attestationGo .. => true
  | .attestationDone .. => true
  | .mbBegin .. => true
  | .mbChunk .. => true
  | .mbChunkCopyDone .. => true
  | .mbAbort .. => true
  | .enrol .. => true
  | .enrolComplete .. => true
  | .fwUpdate .. => true
  | .fwUpdateComplete .. => true
  | .measurementGo .. => true
  | .powerGood .. => true
  | .referenceOscillatorRunning .. => true
  | .pufRecovery .. => true
  | .firmwareBoot .. => true
  | .lbistComplete fails invalid => !fails.contains 0 && !invalid.contains 0
  | .memoryBistComplete .. => true
  | .ready .. => true
  | .keyOff .. => true
  | .keyOffLbistStart .. => true
  | .keyOffLbistComplete fails => !fails.contains 0
  | .parked .. => true
  | .wake .. => true
  | .supplyMonitorTrip .. => true
  | .powerStageShutdown .. => true
  | .governorEvaluation power voltage temps towers => decide (power < 65536) && decide (voltage < 65536) && temps.length == 3 && towers.length == 4
  | .demand .. => true
  | .wakeComplete w => w.found.all fun x => decide (x.1 * 32 < 0x2000000)
  | .retainEntry .. => true
  | .offEntry .. => true
  | .pointStepDone .. => true
  | .droopDetect .. => true
  | .droopEnd .. => true
  | .meteringInterval .. => true
  | .selfRefreshEntry .. => true
  | .selfRefreshExit .. => true
  | .protocolException .. => true
  | .cameraLinkLock .. => true
  | .slotEnd .. => true
  | .supplyMonitorClear .. => true
  | .hostReadTimeout .. => true

end Sys2Proof
end

