-- ==== Sys2Proof/Tests/Slice0.lean ====
section
/-!
SUPPORT. Tests: a command that is not well-formed for each check; for each statement with hypotheses a state and operands that
meet them; single steps whose results are worked out by hand from the spec.
-/

set_option Elab.async false

namespace Sys2Proof.Tests
open Sys2Proof.Machine Sys2Proof.Safety

/-! ### Small states -/

/-- A value that a predicate accepts stands where its search finds one. -/
theorem some_of {α : Type} {o : Option α} (f : α → Bool) (h : o.any f = true) : ∃ a, o = some a ∧ f a = true := by
  cases o with
  | none => cases h
  | some a => exact ⟨a, rfl, h⟩

/-- What a next state satisfies; false at a stop. -/
def ran (r : Host.Outcome State Fault Refusal) (f : State → Bool) : Bool := match r with
  | .next t => f t
  | _ => false

/-- A channel entry that is off. -/
def chanOff : ChanEntry := ⟨false, 0, 0, 255, 1, 255⟩

/-- A drive image: partition 0 with cores 0 and 1, a SAFETY partition, and the hinged partition 1 with cores 2 and 3; queues 0 to 15
and 16; one camera, one pipe, one decoder stream and one scatter engine that feed the ring of partition 0; a solo channel 0 and the
pair 2 and 3. -/
def img : Image :=
  { profile := 1, advance := true, version := 3, secver := 2, signer := 1, imageId := List.replicate 16 7#8,
    parts := [⟨0, 1, 0x3, 0x1, 8, 4, 64, 32, 100⟩, ⟨1, 2, 0xC, 0, 0, 0, 64, 0, 100⟩], scratch := List.replicate 16 8,
    binds := [⟨0, 15, 0, 0, 0⟩, ⟨16, 0, 1, 1, 0⟩],
    routes := [⟨1, 0, 2, 0, 0⟩, ⟨2, 0, 5, 0, 0⟩, ⟨3, 0, 5, 1, 0⟩, ⟨4, 0, 5, 2, 0⟩, ⟨5, 0, 6, 0, 0⟩, ⟨5, 1, 6, 0, 0⟩, ⟨5, 2, 6, 0, 0⟩],
    safety := some ⟨100, 1, 0, 0x123, List.replicate 16 ⟨0, 1, true⟩⟩, ages := List.replicate 256 1000,
    chans := [⟨true, 0, 3, 255, 4, 0⟩, chanOff, ⟨true, 0, 3, 3, 4, 1⟩, ⟨true, 0, 3, 2, 4, 1⟩] ++ List.replicate 20 chanOff,
    policy := List.replicate 29 0, capInit := 300, depot := none, digest := [] }

/-- A depot image of the same partitions. -/
def imgDepot : Image := { img with profile := 2, safety := none, depot := some (1, true) }

/-- The module with the drive image in force, every domain on, the DRAM granted. -/
def s0 : State :=
  let core : Nat → CoreSt := fun n => ⟨⟨List.replicate 64 .zero, [], [], List.replicate 64 .on, 0⟩, some (n % 2), [], 0⟩
  { State.reset with
    boot := { State.reset.boot with refOsc := true, lbistDone := true, mbistDone := true, ready := true }
    ports := List.replicate 4 ⟨true, 4, 5, 5, false, [], {}, 0, false⟩
    ward := { State.reset.ward with image := some img }
    sec := { State.reset.sec with puf := 1, fwRunning := true }
    pwr := { State.reset.pwr with doms := List.replicate 29 ⟨.on, false, 0, 4, 0, 0⟩ }
    safe := { State.reset.safe with state := 1, heartbeat := true }
    dram := { State.reset.dram with towers := List.replicate 4 ⟨.active, 90, false⟩ }
    comp := { State.reset.comp with
      cores := (List.range 16).map core
      parts := [⟨[some 0, some 1], 0, true, none, 65535, false, false, false⟩,
          ⟨[some 2], 64 * 2 ^ 20, true, none, 65535, false, false, false⟩] ++
        List.replicate 6 .empty } }

/-- That module under the depot image. -/
def s0Depot : State := { s0 with ward := { s0.ward with image := some imgDepot }, safe := { s0.safe with state := 3, heartbeat := false } }

/-- The ports' accesses arrive, and every block takes writes. -/
theorem reach_s0 : ∀ p : Port, s0.reach p = true := by decide
theorem admits_s0 : ∀ p : Port, ∀ off, admits s0 p off := by
  intro p off
  refine ⟨reach_s0 p, ?_⟩
  show (true || _) = true; rfl

/-- Port 3 is the configuration master. -/
theorem master_s0 : ∀ off, admitsMaster s0 3 off := fun off => ⟨admits_s0 3 off, by decide⟩

/-- A state with registers set. -/
def withRegs (s : State) (l : List (Nat × Nat)) : State := l.foldl (fun s x => s.setReg x.1 x.2) s

/-- A state with the loader's part changed. -/
def withWard (s : State) (f : WardSt → WardSt) : State := { s with ward := f s.ward }

/-! ### Commands that are not well-formed, one for each check -/

/-- A classic frame of two bytes. -/
def frame2 : CanFrame := ⟨false, 0x123, 0, false, false, false, 0, 0, 0, false, 2, [1, 2]⟩

theorem wf_ward : Instr.wf (.wardCmdUnknown 0 3) = false ∧ Instr.wf (.wardCmdUnknown 0 5) = true := by decide
theorem wf_ports : Instr.wf (.doorbell 0 0 3 0) = false ∧ Instr.wf (.bar2Read 0 0 0) = false ∧
    Instr.wf (.bar4Read 0 (2 ^ 36) 4) = false ∧ Instr.wf (.bar4Read 0 0 0) = false ∧ Instr.wf (.bar4Write 0 0 []) = false ∧
    Instr.wf (.bar4Write 0 (2 ^ 36) [0]) = false := by decide
theorem wf_registers : Instr.wf (.registerWrite ⟨0, 2, 0, []⟩) = false ∧ Instr.wf (.registerWrite ⟨0, 0x4000000, 0, []⟩) = false ∧
    Instr.wf (.eventRegisterW1c ⟨0, 1, 0, []⟩) = false ∧ Instr.wf (.registerWrite ⟨0, 0x3FFFFFC, 0, [0]⟩) = false := by decide
theorem wf_long_write : Instr.wf (.registerWrite ⟨0, 0x110000, 0, List.replicate 128 0⟩) = false ∧
    Instr.wf (.registerWrite ⟨0, 0x110000, 0, List.replicate 127 0⟩) = true := by simp [Instr.wf, RegWrite.wf]
theorem wf_links : Instr.wf (.linkTrainingComplete 0 3 5) = false ∧ Instr.wf (.linkTrainingComplete 0 4 0) = false ∧
    Instr.wf (.linkTrainingComplete 0 4 6) = false := by decide
theorem wf_steps : Instr.wf (.matmul 0 0 { spUe := [0x2000000] }) = false ∧ Instr.wf (.matmul 0 0 { spUe := [0x1FFFFFF] }) = true ∧
    Instr.wf (.scrub 0 0x100000 .clean) = false := by decide
theorem wf_can : Instr.wf (.canFrameStored 0 { frame2 with id := 0x800 } ⟨0, 0⟩) = false ∧
    Instr.wf (.canFrameStored 0 { frame2 with kind := 3 } ⟨0, 0⟩) = false ∧
    Instr.wf (.canFrameStored 0 { frame2 with data := List.replicate 9 0 } ⟨0, 0⟩) = false ∧
    Instr.wf (.canFrameStored 0 { frame2 with rtr := true } ⟨0, 0⟩) = false ∧
    Instr.wf (.canFrameStored 0 { frame2 with kind := 2, ide := true } ⟨0, 0⟩) = false ∧
    Instr.wf (.canFrameStored 0 { frame2 with dlc := 16 } ⟨0, 0⟩) = false ∧
    Instr.wf (.canFrameSent 0 ⟨0, 65536⟩ none) = false ∧ Instr.wf (.canFrameStored 0 frame2 ⟨0, 65535⟩) = true := by decide
theorem wf_links_of_sensors : Instr.wf (.sentFrame 0 [0]) = false ∧ Instr.wf (.t1sFrameReceived 0 [0] true) = false ∧
    Instr.wf (.ethFrameReceived 0 [0] true 0) = false ∧ Instr.wf (.frameStart 0 16 0 0) = false ∧
    Instr.wf (.frameStart 0 0 65536 0) = false ∧ Instr.wf (.line 0 0 64 [] .none) = false ∧ Instr.wf (.frameEnd 0 16) = false ∧
    Instr.wf (.transmitOpportunity ⟨0, false, [⟨0, 65536⟩]⟩) = false := by decide
theorem wf_datagram : ∀ l : List Byte, l.length = 65508 → Instr.wf (.udpDatagram 0 l 0) = false := by
  intro l h; simp [Instr.wf, h]
theorem wf_ptp : Instr.wf (.sync 0 ⟨0, 0⟩ 256 0 ⟨0, 0⟩ 0 false) = false ∧ Instr.wf (.sync 0 ⟨0, 0⟩ 0 (2 ^ 80) ⟨0, 0⟩ 0 false) = false ∧
    Instr.wf (.delayRequestReceived 0 ⟨0, 0⟩ 0 65536 0) = false ∧ Instr.wf (.syncTransmit 0 ⟨0, 65536⟩) = false ∧
    Instr.wf (.delayExchange 0 (some ⟨⟨0, 65536⟩, ⟨0, 0⟩, 0, ⟨0, 0⟩⟩)) = false ∧ Instr.wf (.followUp 0 ⟨0, 65536⟩ 0 true) = false := by decide
theorem wf_power : Instr.wf (.wakeComplete ⟨6, [(0x100000, .clean)]⟩) = false ∧
    Instr.wf (.lbistComplete [0] []) = false ∧ Instr.wf (.keyOffLbistComplete [0]) = false ∧
    Instr.wf (.governorEvaluation 0 0 [] []) = false ∧ Instr.wf (.governorEvaluation 65536 0 [0, 0, 0] [0, 0, 0, 0]) = false := by decide

/-! ### The machine -/

theorem test_front_runs_first : ran (step { s0 with pending := [.guardKick, .ageEvaluation] })
    (fun t => t.pending == [.ageEvaluation]) = true := by decide
theorem wit_idle : s0.pending = [] ∧ s0.boot.powered = true := by decide
theorem test_idle_ticks : ran (step s0) (fun t => decide (t.time.tb ≠ s0.time.tb)) = true := by decide
/-- Lanes are given to ports 0 and 1 alone (R353). -/
def sTwoPorts : State := { s0 with boot := { s0.boot with laneCfg := 1 } }
theorem test_missing_port_changes_nothing : exec (.begin 2) sTwoPorts = .next sTwoPorts ∧
    exec (.portReset 2 .perst) sTwoPorts = .next sTwoPorts ∧ exec (.snapshot 2 1) sTwoPorts = .next sTwoPorts := ⟨rfl, rfl, rfl⟩
theorem wit_deadbolt : DeadboltInv s0 := by unfold DeadboltInv; decide
theorem wit_deadbolt_step : ∃ t, step s0 = .next t := ⟨_, rfl⟩
theorem wit_loader : LoaderInv State.reset ∧ ∃ t, step State.reset = .next t := by
  refine ⟨⟨fun _ h => (nomatch h), fun _ h => (nomatch h), by decide, fun h => (nomatch h)⟩, ⟨_, rfl⟩⟩
theorem wit_image_changes : ∃ t, exec .powerStageShutdown s0 = .next t ∧ t.ward.image ≠ s0.ward.image := ⟨_, rfl, by decide⟩
theorem wit_safe_state_changes : ∃ t, exec .guardTimeout s0 = .next t ∧ t.safe.state ≠ s0.safe.state := ⟨_, rfl, by decide⟩
theorem test_counters_stand : ran (exec (.powerGood 3 3) { s0 with sec := { s0.sec with counters := [1, 2, 3, 4] } })
    (fun t => t.sec.counters == [1, 2, 3, 4]) = true := by decide

/-! ### The Ward loader -/

/-- A depot image as R30 to R46 lay it out: header and section table; one partition with core 0 and 64 MiB (0x90), no scratch
slots (0xB0), queue 0 bound to port 0 (0xC0), domains (0xC8), a cache of 1 GiB (0xE8). -/
def imgHead : List Byte :=
  [0x41, 0x5a, 0x57, 0x44, 1, 0, 0x40, 0, 0, 4, 0, 0, 5, 0, 2, 0, 7, 0, 0, 0, 0, 0, 0, 0, 0x16, 0x50, 0, 0, 1, 0, 0,
    0, 0, 0, 0, 0, 0, 0, 0, 0, 0, 0, 0, 0, 0, 0, 0, 0, 0, 0, 0, 0, 0, 0, 0, 0, 0, 0, 0, 0, 0, 0, 0, 0] ++
  [1, 0, 1, 0, 0x90, 0, 0, 0, 0x20, 0, 0, 0, 0, 0, 0, 0, 2, 0, 1, 0, 0xb0, 0, 0, 0, 0x10, 0, 0, 0, 0, 0, 0, 0, 3, 0,
    1, 0, 0xc0, 0, 0, 0, 8, 0, 0, 0, 0, 0, 0, 0, 8, 0, 1, 0, 0xc8, 0, 0, 0, 0x20, 0, 0, 0, 0, 0, 0, 0, 9, 0, 1, 0,
    0xe8, 0, 0, 0, 0x10, 0, 0, 0, 0, 0, 0, 0] ++
  [0, 0, 1, 0, 0, 0, 0, 0, 0x40, 0, 0, 0, 0, 0, 0, 0, 0xe8, 3, 0, 0, 0, 0, 0, 0, 0, 0, 0, 0, 0, 0, 0, 0, 0, 0, 0, 0,
    0, 0, 0, 0, 0, 0, 0, 0, 0, 0, 0, 0, 0, 0, 0, 0, 0, 0, 0, 0, 1, 1, 1, 0, 0, 0, 0, 0, 0, 0, 0, 0, 0, 0, 0, 0, 0, 0,
    0, 0, 0, 0, 0, 0, 0, 0, 0, 0, 0, 0, 0x2c, 1, 1, 0, 0, 0, 0, 0, 0, 0]
/-- The signature r, s on it under the key G, whose private key is 1. -/
def imgSig : List Byte :=
  [0x73, 0, 0x41, 0x23, 0xc7, 0xa3, 0xf, 0xac, 0xbf, 0x38, 0x40, 0xae, 0x72, 0x66, 0xbb, 0xd9, 0xef, 0x1c, 0x2b,
    0x6e, 0xce, 0xeb, 0xd5, 0x84, 0x7b, 0xca, 0x7c, 0xfa, 0xec, 0xbd, 0x69, 0x4e] ++
  [0xeb, 0xc0, 0x34, 0xa8, 0x25, 0x22, 0xb4, 0x7d, 0xcb, 0xe8, 0xa5, 0xca, 0x31, 0x2c, 0x26, 0x85, 0x87, 0x71, 0xea,
    0xc8, 0x18, 0xa, 0x95, 0x3d, 0xc2, 0x9a, 0xc1, 0x82, 8, 0x21, 0xcb, 0xd8]
/-- The image, zero up to its signature. -/
def imgBytes : List Byte := imgHead ++ List.replicate 720 0 ++ imgSig

theorem imgHead_length : imgHead.length = 240 := by decide +kernel
theorem imgBytes_length : imgBytes.length = 1024 := by decide +kernel
theorem imgBytes_table : secTable imgBytes =
    [⟨1, 1, 0x90, 32⟩, ⟨2, 1, 0xB0, 16⟩, ⟨3, 1, 0xC0, 8⟩, ⟨8, 1, 0xC8, 32⟩, ⟨9, 1, 0xE8, 16⟩] := by decide +kernel
theorem imgBytes_zero (o : Nat) (h : 0xF8 ≤ o) (l : o < 960) : byteAt imgBytes o = 0 := by
  have e : (imgHead ++ List.replicate 720 (0 : Byte)).length = 960 := by rw [List.length_append, imgHead_length, List.length_replicate]
  unfold byteAt imgBytes
  simp only [List.getD_eq_getElem?_getD]
  rw [List.getElem?_append_left (by omega), List.getElem?_append_right (by rw [imgHead_length]; omega), List.getElem?_replicate,
    if_pos (by rw [imgHead_length]; omega)]
  rfl

/-- An image that no step of R48 finds fault with passes. -/
theorem validate_none (b : List Byte) (w : WardInputs) (v1 : wardStep1 b = []) (v2 : wardStep2 b w.declared = [])
    (v3 : leAt b 0x18 4 = 0x5016) (v4 : w.key.isSome = true) (v5 : signatureOk b (w.key.getD (0, 0)) = true)
    (v6 : w.counter.isSome = true) (v7 : w.counter.getD 0 ≤ leAt b 0x14 4) (v8 : wardStep8 b = []) (v9 : wardStep9 b = [])
    (va : wardStep10 b = []) (vb : wardStep11 b = [])
    (vc : wardStep12Parts b ++ wardStep12Binds b w.ports ++ wardStep12Ctl b ++ wardStep12Power b = []) (vd : wardStep13 b = []) :
    validate b w = none := by
  have e : ∀ x t, stepFail b x [] t = none := fun _ _ => rfl
  have f : ∀ (c : Bool) o, c = false → failIf c o = [] := fun c o h => by subst h; rfl
  have g4 : w.key.isNone = false := by cases hk : w.key <;> simp_all
  have g6 : w.counter.isNone = false := by cases hk : w.counter <;> simp_all
  unfold validate
  simp only [v1, v2, v8, v9, va, vb, vc, vd, f _ _ g4, f _ _ g6, f (!signatureOk b (w.key.getD (0, 0))) _ (by rw [v5]; rfl),
    f (leAt b 0x18 4 != 0x5016) _ (by rw [v3]; rfl), f (decide (leAt b 0x14 4 < w.counter.getD 0)) _ (by simp; omega),
    List.foldl, e]

theorem imgBytes_step8 : wardStep8 imgBytes = [] := by
  unfold wardStep8
  simp only [imgBytes_table, imgBytes_length]
  rw [if_neg (by decide +kernel), List.filter_eq_nil_iff]
  intro o ho
  have h : o < 960 := List.mem_range.mp ho
  by_cases c : o < 0xF8
  · intro h2
    simp only [List.length_cons, List.length_nil, Bool.and_eq_true, Bool.not_eq_true', decide_eq_true_eq, List.any_cons,
      List.any_nil, Bool.or_false, Bool.or_eq_false_iff, Bool.and_eq_false_iff, decide_eq_false_iff_not] at h2
    omega
  · rw [imgBytes_zero o (by omega) h]; simp

/-- The signature verifies: the digest, and the two multiples of G. -/
theorem img_digest : beNat (sm3 (sm2Za sm2G ++ imgBytes.take 960)) =
    0xa4ea411746b336c6c6a8414192e93aa2aa7fda048ad61ba61d627ede8cc5a2d7 := by decide +kernel
theorem img_sG : ecMul 256 0xd8cb210882c19ac23d950a18c8ea718785262c31caa5e8cb7db42225a834c0eb (some sm2G) =
    some (0x935cae215b472b63b7297656061dad5e0ca985c43cb2f852be21d7243ac0cd9e, 0x5954f4349506351833f54c407b7acc71ab7b72b98267cc23992f6aa2f008780a) := by decide +kernel
theorem img_tQ : ecMul 256 0x2734def67d3e653dc26af5e737158e77ecddb33957201c5fd607d1e391a0803b (some sm2G) =
    some (0xa3aa4114954531da6a6e9c10843a69d77f49a1d85a4b07f4c45cb7f5487ae4f5, 0x10cbf729121a3316fbec39072f2f8480ce9b697958a1941aa1e7cd4bd05dd526) := by decide +kernel
theorem img_signed : signatureOk imgBytes sm2G = true := by
  have l1 : leAt imgBytes 960 32 = 0x4e69bdecfa7cca7b84d5ebce6e2b1cefd9bb6672ae4038bfac0fa3c723410073 := by decide +kernel
  have l2 : leAt imgBytes (960 + 32) 32 = 0xd8cb210882c19ac23d950a18c8ea718785262c31caa5e8cb7db42225a834c0eb := by decide +kernel
  have l3 : (0x4e69bdecfa7cca7b84d5ebce6e2b1cefd9bb6672ae4038bfac0fa3c723410073 +
      0xd8cb210882c19ac23d950a18c8ea718785262c31caa5e8cb7db42225a834c0eb) % sm2N = 0x2734def67d3e653dc26af5e737158e77ecddb33957201c5fd607d1e391a0803b := by decide +kernel
  unfold signatureOk
  simp only [imgBytes_length]
  rw [show 1024 - 64 = 960 from rfl, l1, l2]
  unfold sm2Verify
  simp only [l3, img_digest, img_sG, img_tQ]
  decide +kernel
theorem img_valid : validate imgBytes ⟨1024, some sm2G, some 0, 4⟩ = none :=
  validate_none _ _ (by decide +kernel) (by decide +kernel) (by decide +kernel) rfl img_signed rfl (Nat.zero_le _) imgBytes_step8
    (by decide +kernel) (by decide +kernel) (by decide +kernel) (by decide +kernel) (by decide +kernel)

/-- The loader in a state, with WARD_TOTAL_LEN, WARD_CHUNK_OFF and WARD_CHUNK_LEN set. -/
def sWard (x : LoaderState) (total off len : Nat) : State :=
  withWard (withRegs s0 [(0x100004, total), (0x100008, off), (0x10000C, len)]) fun w => { w with state := x, total := 1024 }

theorem admits_sWard (x : LoaderState) (total off len : Nat) (p : Port) : admits (sWard x total off len) p 0x100000 :=
  ⟨reach_s0 p, rfl⟩
theorem wit_begin : ∀ n ∈ [1024, 4194304], ∀ x ∈ [LoaderState.idle, .receiving],
    (sWard x n 0 0).boot.ready = true ∧ (sWard x n 0 0).ward.state = x ∧ totalOk ((sWard x n 0 0).rv 0x100004) = true := by decide
theorem wit_begin_refused : (sWard .validating 1024 0 0).ward.state = .validating ∧
    (sWard .holding 1024 0 0).ward.state = .holding := by decide
theorem wit_begin_total : ∀ n ∈ [1016, 1028, 4194312], totalOk ((sWard .idle n 0 0).rv 0x100004) = false := by decide
/-- The module before readiness, in which the WARD block takes writes. -/
def sEarly : State := { s0 with boot := { s0.boot with ready := false } }
theorem wit_begin_early : sEarly.boot.ready = false ∧ sEarly.reach 0 = true ∧ sEarly.phaseOk 0x100000 = true := by decide
theorem wit_chunk_refused : (withWard (sWard .receiving 0 0 8) fun w => { w with busy := true }).ward.busy = true ∧
    chunkOk ((sWard .receiving 0 1016 16).rv 0x100008) ((sWard .receiving 0 1016 16).rv 0x10000C) 1024 = false := by decide
theorem test_begin : ran (exec (.begin 1) (sWard .receiving 2048 0 0))
    (fun t => t.ward.state == .receiving && t.ward.total == 2048 && t.ward.beginPort == 1) = true := by decide
theorem wit_chunk : ∀ x ∈ [(0, 1024), (1016, 8), (0, 8)],
    (sWard .receiving 0 x.1 x.2).ward.busy = false ∧ chunkOk ((sWard .receiving 0 x.1 x.2).rv 0x100008)
      ((sWard .receiving 0 x.1 x.2).rv 0x10000C) (sWard .receiving 0 x.1 x.2).ward.total = true := by decide
theorem test_chunk_beyond_total : ran (exec (.chunk 0) (sWard .receiving 0 1016 16))
    (fun t => t.rv 0x100014 == 0x0602FF00 && t.ward.busy == false) = true := by decide
theorem wit_finish : fullyCovered [(0, 512), (512, 512)] 1024 = true ∧ fullyCovered [(0, 512), (520, 504)] 1024 = false ∧
    s0.sec.engine = [] := by decide +kernel
theorem wit_not_receiving : (sWard .idle 0 0 0).ward.state ≠ .receiving ∧ (7#32 : Word).toNat % 8 = 7 ∧
    (5#32 : Word).toNat % 8 = 5 ∧ (8#32 : Word).toNat % 8 = 0 := by decide
theorem test_finish_incomplete : ran (exec (.finish 0) (sWard .receiving 0 0 0))
    (fun t => t.rv 0x100014 == 0x0603FF00 && t.ward.state == .idle) = true := by decide
theorem test_abort : ran (exec (.abort 0) (sWard .receiving 0 0 0)) (fun t => t.ward.state == .idle) = true := by decide
theorem test_ward_code_unknown : ran (exec (.wardCmdUnknown 0 6) (sWard .receiving 0 0 0))
    (fun t => t.ward.state == .receiving && t.rv 0x100030 == 4) = true := by decide

/-- The loader that validates the image, signed by key slot 1. -/
def sValid (i : Option Image) : State :=
  { withWard s0 (fun w => { w with state := .validating, staging := Mem.zero.writeBytes 0 imgBytes, total := 1024, image := i }) with
    sec := { s0.sec with engine := [.validate], slots := [some sm2G, none, none, none] } }

theorem sValid_bytes (i : Option Image) : (sValid i).ward.staging.readBytes 0 (sValid i).ward.total = imgBytes := by
  have e : (sValid i).ward.staging = Mem.zero.writeBytes 0 imgBytes := by simp only [sValid, withWard]
  have n : (sValid i).ward.total = imgBytes.length := Eq.trans (b := 1024) (by simp only [sValid, withWard]) imgBytes_length.symm
  rw [e, n, Mem.readBytes_writeBytes]
theorem wit_validation (i : Option Image) : (sValid i).sec.engine = [.validate] ∧ (sValid i).ward.state = .validating ∧
    (sValid i).ward.image = i ∧ (sValid i).boot.refOsc = true ∧ validate ((sValid i).ward.staging.readBytes 0 (sValid i).ward.total)
      ((sValid i).wardInputs ((sValid i).ward.staging.readBytes 0 (sValid i).ward.total) true) = none := by
  refine ⟨rfl, rfl, rfl, rfl, ?_⟩
  rw [sValid_bytes]
  have e : (sValid i).wardInputs imgBytes true = ⟨1024, some sm2G, some 0, 4⟩ := by
    have a : leAt imgBytes 0x1C 1 = 1 := by decide +kernel
    have c : leAt imgBytes 0x0E 1 = 2 := by decide +kernel
    unfold State.wardInputs
    rw [a, c]; rfl
  rw [e]; exact img_valid
theorem wit_validation_fails : (validate (s0.ward.staging.readBytes 0 s0.ward.total)
    (s0.wardInputs (s0.ward.staging.readBytes 0 s0.ward.total) true)).isSome = true := by decide +kernel
theorem wit_image_first : ∃ t, exec (.validationDone true) (sValid none) = .next t := ⟨_, rfl⟩

/-- The loader that holds the depot image until the running jobs stand at their boundaries. -/
def sHold : State := withWard s0 fun w => { w with state := .holding, cand := some imgDepot }
theorem wit_switch : sHold.ward.state = .holding ∧ sHold.ward.cand = some imgDepot ∧ sHold.allHeld = true := by decide +kernel
theorem test_switch_to_depot : ran (exec (.switch []) sHold)
    (fun t => t.ward.image == some imgDepot && t.safe.state == 3 && t.safe.heartbeat == false) = true := by decide +kernel
theorem test_hold_release : ran (exec .holdRelease sHold) (fun t => t.ward.image == some img && t.ward.cand == none) = true := by decide +kernel
theorem test_chunk_copy_done : ran (exec .chunkCopyDone (withWard (sWard .receiving 0 0 0) fun w =>
      { w with busy := true, chunk := (8, 8), aperture := Mem.zero.writeBytes 0 [1, 2] }))
    (fun t => t.ward.staging.cells == [(8, 1), (9, 2)] && t.ward.covered == [(8, 8)]) = true := by decide

/-- The image with some bytes replaced. -/
def imgWith (o : Nat) (bs : List Byte) : List Byte := imgBytes.take o ++ bs ++ imgBytes.drop (o + bs.length)
theorem test_step8_names_the_field : (wardStep8 (imgWith 0x4F [5])).head? = some 0x4C := by decide +kernel

/-! ### Host ports and registers -/

/-- Segments 0 and 15 of port 0 open partition 0 for reads and writes, and segment 1 for reads alone. -/
def sBar4 : State := withRegs s0 [(portKey 0 0x600100, 0xC0000000), (portKey 0 0x600178, 0xC0000000),
  (portKey 0 0x60017C, 31), (portKey 0 0x600108, 0x80000000)]

theorem wit_bus_error_clear : tbit (s0.rv (portKey 0 0x600020)) 31 = false ∧ rowAt 0x3FFFFFC = none ∧ rowAt 0x700100 = none ∧
    0x3FFFFFC % 4 = 0 := by decide
theorem wit_bus_error_held : tbit ((withRegs s0 [(portKey 0 0x600020, 0x80020004)]).rv (portKey 0 0x600020)) 31 = true := by decide
/-- Port 0 with BUSERR enabled under vector 3, and the function or the vector masked or not. -/
def sVector (mask : Bool) (word : Nat) : State :=
  withRegs (s0.modPort 0 fun x => { x with cfg := { msixEnable := true, msixMask := mask } })
    [(portKey 0 0x600014, 1), (portKey 0 0x600098, 3), (msixKey 0 3 0, 0xFEE00000), (msixKey 0 3 8, 0x41), (msixKey 0 3 12, word)]
theorem wit_bus_error_vector : ∀ x ∈ [(false, 0), (true, 0), (false, 1)], tbit ((sVector x.1 x.2).rv (portKey 0 0x600020)) 31 = false ∧
    tbit ((sVector x.1 x.2).rv (portKey 0 0x600010)) 0 = false ∧ tbit ((sVector x.1 x.2).rv (portKey 0 0x600014)) 0 = true ∧
    ((sVector x.1 x.2).pciCfg 0).msixEnable = true ∧ ((sVector x.1 x.2).pciCfg 0).msixMask = x.1 ∧
    tbit ((sVector x.1 x.2).rv (msixKey 0 3 12)) 0 = decide (x.2 = 1) ∧
    field ((sVector x.1 x.2).rv (portKey 0 0x600098)) 0 11 = 3 ∧ (sVector x.1 x.2).reach 0 = true := by decide +kernel
theorem test_bus_error_vector : ran (exec (.malformedAccess 0 6 true) (sVector false 0)) (fun t => t.out == [.msi 0 3 0xFEE00000 0x41]) = true ∧
    ran (exec (.malformedAccess 0 6 true) (sVector true 0)) (fun t => t.out == [] && tbit (t.rv (pbaKey 0 3)) 3) = true := by decide +kernel
theorem test_bus_errors : ran (exec (.bar2Read 1 0x123456 8) s0) (fun t => t.rv (portKey 1 0x600020) == 0x80020004 &&
      t.rv (portKey 1 0x600024) == 0x123456 && t.rv (portKey 1 0x600038) == 1) = true ∧
    ran (exec (.malformedAccess 0 6 false) s0) (fun t => t.out == [.readAbort 0] && t.rv (portKey 0 0x600020) == 0x80000004) = true ∧
    ran (exec (.reservedLocationAccess 0 0 0x3FFFFFC true) s0) (fun t => t.rv (portKey 0 0x600020) == 0x80000002) = true := by decide
theorem wit_segment : sBar4.segment 0 0 1 true = some (0, 0) ∧ sBar4.segment 0 (15 * 2 ^ 32 + 2 ^ 21 - 4) 4 true = some (0, 2 ^ 26 - 4) ∧
    sBar4.segment 0 (2 ^ 32) 4 false = some (0, 0) ∧ sBar4.dramOf 0 = some (0, 2 ^ 26) := by decide
theorem wit_no_segment : sBar4.segment 0 (2 ^ 32) [0, 0, 0, (0 : Byte)].length true = none ∧
    sBar4.segment 0 (15 * 2 ^ 32 + 2 ^ 21 - 4) 8 false = none ∧ sBar4.segment 0 (2 * 2 ^ 32) 4 false = none := by decide
/-- A block of the partition's DRAM is poisoned, and tower 0 stands in SELF_REFRESH. -/
def sBar4Bad : State := { sBar4 with dram := { sBar4.dram with poison := [1], towers := sBar4.dram.towers.set 0 ⟨.selfRefresh, 90, false⟩ } }
theorem wit_bar4_poison : sBar4Bad.segment 0 32 4 false = some (0, 32) ∧ sBar4Bad.placePoisoned 0 (.dram 32) 4 = true ∧
    sBar4Bad.placePoisoned 0 (.dram 64) 4 = false ∧ sBar4Bad.towersIn ≠ [] := by decide
theorem test_bar4_poison : ran (exec (.bar4Read 0 32 4) sBar4Bad) (fun t => tbit (t.rv 0x2400A0) 31 && t.out.any fun m => m == .readData 0 [0, 0, 0, 0] true) = true ∧
    ran (exec (.bar4Read 0 64 4) sBar4Bad) (fun t => (t.dram.towers.map (·.state)).head? == some .active) = true := by decide +kernel
theorem test_bar4 : ran (exec (.bar4Write 0 (2 ^ 21 - 2) [7, 8]) sBar4) (fun t => t.dram.mem.cells == [(2 ^ 21 - 2, 7), (2 ^ 21 - 1, 8)]) = true ∧
    ran (exec (.bar4Read 0 (2 ^ 36 - 1) 2) sBar4) (fun t => t.rv (portKey 0 0x600020) == 0x80040006) = true := by decide

theorem wit_register_misaligned : 0x700022 % 4 ≠ 0 := by decide
theorem wit_register_none : 0x3FFFFFC % 4 = 0 ∧ rowAt 0x3FFFFFC = none := by decide
theorem wit_register_early : (rowAt 0x700008).isSome = true ∧
    { s0 with boot := { s0.boot with ready := false } }.phaseOk 0x700008 = false := by decide
theorem wit_register_ro : ∃ r ix, rowAt 0x100010 = some (r, ix) ∧ r.acc = .ro ∧ s0.phaseOk 0x100010 = true := ⟨_, _, rfl, by decide⟩
theorem wit_register_forbidden : ∃ r ix, rowAt 0x700008 = some (r, ix) ∧ s0.phaseOk 0x700008 = true ∧ r.acc ≠ .ro ∧
    s0.mayWrite 1 r ix (s0.regKey 1 r 0x700008) = false := ⟨_, _, rfl, by decide⟩
/-- A long request: to the loader's aperture, of one payload at most, and to the words of two registers. -/
theorem wit_register_wide : s0.wideOk 0 0x110000 2 = true ∧ s0.wideOk 0 0x11FF80 32 = true ∧ s0.wideOk 0 0x110000 33 = false ∧
    s0.wideOk 0 0x100004 2 = false ∧ s0.wideOk 0 0x110002 2 = false := by decide
theorem wit_register_wide_forbidden : sEarly.wideOk 0 0xE81000 2 = true ∧ sEarly.allows 0 0xE81000 = false := by decide +kernel
theorem test_register_wide_forbidden : ran (exec (.registerWrite ⟨0, 0xE81000, 0, [0, 0]⟩) sEarly)
    (fun t => t.rv (portKey 0 0x600038) == 1 && t.rv (portKey 0 0x600020) == 0x80000003) = true := by decide +kernel
/-- The reads that return 0: before readiness, of a queue, a partition and a core that are not bound to the port. -/
theorem wit_register_read_zero : (∃ r ix, rowAt 0x700008 = some (r, ix) ∧ r.rule = .queue ∧ sEarly.phaseOk 0x700008 = false ∧
      ((s0.bindOf (s0.selected 1)).any fun b => b.port == 1) = false ∧ s0.mayRead 0 r ix 0x700008 = true ∧ r.acc = .rwl ∧ r.counter = false ∧
      s0.viewOf 0 (s0.readOff 0x700008) (s0.regs.shadow (s0.regKey 0 r (s0.readOff 0x700008))) = none ∧ s0.chanOff 0x700008 = false) ∧
    (∃ r ix, rowAt 0xB30000 = some (r, ix) ∧ r.rule = .part ∧ ix.headD 0 = 0 ∧ s0.bound 0 3 = false) ∧
    (∃ r ix, rowAt 0x1000004 = some (r, ix) ∧ r.rule = .core ∧ ix.headD 0 = 0 ∧ ((s0.partOfCore 0).any fun x => s0.bound x 3) = false) := by
  exact ⟨⟨_, _, rfl, by decide +kernel⟩, ⟨_, _, rfl, by decide +kernel⟩, ⟨_, _, rfl, by decide +kernel⟩⟩
theorem test_register_read : s0.readReg 3 0xB30000 = some 0 ∧ sEarly.readReg 0 0x700008 = some 0 ∧
    { s0 with regs := s0.regs.setShadow (queueKey 0 8) 0x5000 }.readReg 0 0x700008 = some 0x5000 := by decide +kernel
/-- PWR_MOD_ENERGY, a counter of two words that is no view. -/
theorem wit_snapshot_counter : (∃ r ix r' ix', rowAt 0x410000 = some (r, ix) ∧ rowAt 0x410004 = some (r', ix') ∧ r.counter = true ∧ r'.counter = true ∧
      s0.phaseOk 0x410000 = true ∧ s0.mayRead 0 r ix 0x410000 = true ∧ s0.mayRead 0 r' ix' 0x410004 = true) ∧
    ∀ (y : State) x, y.viewOf 0 0x410000 x = none ∧ y.viewOf 0 0x410004 x = none :=
  ⟨⟨_, _, _, _, rfl, rfl, by decide +kernel⟩, fun _ _ => ⟨rfl, rfl⟩⟩
theorem test_register_wide : ran (exec (.registerWrite ⟨0, 0x110008, 0x04030201, [0x08070605]⟩) s0)
      (fun t => t.ward.aperture.readBytes 8 8 == [1, 2, 3, 4, 5, 6, 7, 8]) = true ∧
    ran (exec (.registerWrite ⟨0, 0x100004, 0, [0]⟩) s0) (fun t => t.rv (portKey 0 0x600020) == 0x80000004) = true := by decide
theorem test_register_early : ran (exec (.registerWrite ⟨0, 0x700008, 0, []⟩) { s0 with boot := { s0.boot with ready := false } })
    (fun t => t.rv (portKey 0 0x600020) == 0x80000003) = true := by decide

/-- A queue's ring base, bound to port 0, is buffered. -/
theorem wit_register_buffered : ∃ r ix, rowAt 0x700008 = some (r, ix) ∧ s0.phaseOk 0x700008 = true ∧ r.acc = .rwl ∧
    s0.mayWrite 0 r ix (s0.regKey 0 r 0x700008) = true ∧ s0.ownedObject 0x700008 = false ∧ slotOf 0x700008 = 7 :=
  ⟨_, _, rfl, by decide⟩
theorem wit_register_w1c : ∃ r ix, rowAt 0x100030 = some (r, ix) ∧ r.acc = .w1c ∧ r.fix = id ∧
    s0.mayWrite 0 r ix (s0.regKey 0 r 0x100030) = true ∧ s0.ownedObject 0x100030 = false := ⟨_, _, rfl, rfl, rfl, by decide⟩
theorem test_register_shadow : ran (exec (.registerWrite ⟨0, 0x700008, 0xABCDEFFF, []⟩) s0)
    (fun t => t.regs.shadow (queueKey 0 8) == 0xABCDE000 && t.rv (queueKey 0 8) == 0) = true := by decide
theorem test_register_clears : ran (exec (.eventRegisterW1c ⟨0, 0x100030, 6, []⟩) (withRegs s0 [(0x100030, 3)]))
    (fun t => t.rv 0x100030 == 1) = true := by decide

theorem wit_latch_empty : (5#32 : Word) ≠ 0#32 ∧
    ∀ b, b < 16 → ((s0.regs.blk b).liveKeys.filterMap fun k => s0.captureOf 0 5 k) = [] := by decide
/-- A capture of a queue's ring base, which waits for its boundary. -/
def capQueue : Capture := ⟨queueKey 0 8, 0x5000, [0], 0⟩
def sCap : State := { s0 with regs := { s0.regs with queue := { s0.regs.queue with caps := [capQueue] } } }
theorem wit_latch_apply : (sCap.regs.blk (slotOfGroup 8)).caps = [capQueue] ∧ groupOf capQueue.key = 8 ∧
    slotOf capQueue.key = slotOfGroup 8 ∧ sCap.queueIdle 0 = true ∧ keyOff capQueue.key = 0x700008 ∧ instOf capQueue.key = 0 := by decide
theorem wit_latch_busy : { sCap with comp := { sCap.comp with queues := [(0, { QueueSt.empty with susp := some (Job.start 0 [] false false 0 0) })] } }.queueIdle 0 =
    false ∧ { sCap with kv := { sCap.kv with pools := [⟨[(0, ⟨.swapped, 0, false, 64, 0, 0, 1, 0, 0, 0, [], [], none, 0⟩)], false, []⟩] } }.poolIdle 0 = false ∧
    sCap.poolIdle 7 = true := by decide
/-- SEL and the controls of the solo channel 0 and of channel 1, which is off, are captured. -/
def sCapChan : State := { s0 with regs := { s0.regs with ctl := { s0.regs.ctl with
  caps := [⟨chKey 1 0, 5, [0], 0⟩, ⟨chKey 1 4, 1, [0], 0⟩, ⟨chKey 0 0, 7, [0], 0⟩] } } }
theorem wit_latch_chan : (sCapChan.chanEntry 1).isNone = true ∧ (sCapChan.chanEntry 0).isNone = false ∧
    ((sCapChan.regs.blk 12).caps.map fun c => c.key).Nodup ∧ slotOf (chKey 1 0) = 12 ∧ (groupOf (chKey 1 0) = 3 ∧ groupOf (chKey 1 4) = 2) ∧
    (instOf (chKey 1 0) = 1 ∧ instOf (chKey 1 4) = 1) := by decide
theorem test_latch_chan : ran (exec (.latchApply 2 1) sCapChan) (fun t => t.rv (chKey 1 0) == 5 && t.rv (chKey 1 4) == 1 &&
    (t.regs.ctl.caps.map (·.key)) == [chKey 0 0]) = true := by decide
theorem wit_latch_capture : let s := { s0 with regs := s0.regs.setShadow (queueKey 0 8) 0x5000 }
    queueKey 0 8 ∈ (s.regs.blk 7).liveKeys ∧ min (slotOf (queueKey 0 8)) 15 = 7 ∧ s.captureOf 0 0x100 (queueKey 0 8) = some capQueue := by decide
theorem test_latch_go : ran (exec (.latchGo 0 0x100) { s0 with regs := s0.regs.setShadow (queueKey 0 8) 0x5000 })
    (fun t => (t.regs.queue).caps == [capQueue]) = true := by decide
theorem test_latch_apply : ran (exec (.latchApply 8 0) sCap) (fun t => t.rv (queueKey 0 8) == 0x5000) = true := by decide
/-- A captured RUN of channel 0, whose domain is OFF. -/
def sCapOff : State := { s0 with
  regs := { s0.regs with ctl := { s0.regs.ctl with caps := [⟨chKey 0 4, 1, [0], 0⟩] } }
  pwr := { s0.pwr with doms := s0.pwr.doms.set 5 ⟨.off, false, 0, 0, 0, 0⟩ } }
theorem wit_latch_off : (sCapOff.chanEntry 0).isSome = true ∧ sCapOff.domOn 5 = false := by decide +kernel
theorem test_latch_off : ran (exec (.latchApply 2 0) { sCapOff with time := { sCapOff.time with elapsed := 2000 } }) (fun t => t.regs.ctl.caps == []) = true := by
  decide +kernel
/-- A camera port that can take a Frame Start, a scatter engine that can sweep, a decoder stream that can begin a picture. -/
def sOperates : State := withRegs { s0 with ing := { s0.ing with cams := s0.ing.cams.map fun c => { c with gear := 1 } } }
  [(camKey 0 0, 2 ^ 31), (scatKey 0 0, 2 ^ 31), (vdecKey 0 0, 2 ^ 31)]
theorem wit_latch_operates : sOperates.camOn 0 = true ∧ sOperates.scatOn 0 = true ∧ sOperates.vdecIdle 0 = false := by decide +kernel
theorem wit_snapshot : tbit (3#32 : Word).toNat 0 = true ∧ (3 : Port).val < s0.ports.length := by decide
theorem test_snapshot : ran (exec (.snapshot 3 1) s0) (fun t => t.rv (portKey 3 0x24) == 1) = true := by decide

theorem wit_link : ∃ x, s0.ports[3]? = some x ∧ x.up = true := ⟨_, rfl, rfl⟩
theorem wit_training : (1 : Nat) ≤ s0.fullWidth 0 ∧ 16 ≤ { s0 with boot := { s0.boot with laneCfg := 0 } }.fullWidth 0 ∧
    (1 : Nat) ≤ s0.rv (portKey 0 0x600008) % 8 ∧ s0.rv (portKey 0 0x600008) % 8 = 5 ∧
    (s0.regs.pci.caps.any fun c => c.key == portKey 0 0x600008) = false := by decide
/-- PERST_N holds port 0. -/
def sPerst : State := s0.modPort 0 fun x => { x with perst := true }
theorem wit_perst : linked sPerst 0 ∧ (sPerst.ports.map (·.perst)) = [true, false, false, false] ∧ linked s0 3 ∧
    { s0 with boot := { s0.boot with powered := false } }.alive = false ∧ (3 : Port).val < s0.nPorts := by unfold linked; decide
theorem test_perst : ran (exec (.portReset 0 .perstEnd) sPerst) (fun t => t.ports == s0.ports) = true ∧
    exec (.linkUp ⟨0, {}⟩) sPerst = .next sPerst ∧ exec (.begin 0) sPerst = .next sPerst := ⟨by decide, rfl, rfl⟩
theorem test_links : ran (exec (.retrain 0 1) s0) (fun t => (t.ports.map (·.training)) == [true, false, false, false]) = true ∧
    ran (exec (.linkTrainingComplete 0 2 3) s0) (fun t => (t.ports.map (·.width)) == [2, 4, 4, 4]) = true ∧
    ran (exec (.portReset 0 .perst) s0) (fun t => (t.ports.map (·.up)) == [false, true, true, true]) = true ∧
    ran (exec (.linkUp ⟨0, { msixEnable := true, payload := 2 }⟩) s0)
      (fun t => (t.ports.map (·.cfg.msixEnable)) == [true, false, false, false]) = true := by decide
theorem test_flr : ran (exec (.portReset 0 .flr) (s0.modPort 0 fun x => { x with aer := 0x8000, cfg := { msixEnable := true } }))
    (fun t => (t.ports.map fun x => (x.up, x.aer, x.cfg.msixEnable)).head? == some (true, 0, false)) = true := by decide
theorem test_bus_error_clears : ran (exec (.buserrLogClear 0) (withRegs s0 [(portKey 0 0x600020, 0x80020004), (portKey 0 0x600038, 7)]))
      (fun t => t.rv (portKey 0 0x600020) == 0 && t.rv (portKey 0 0x600038) == 7) = true ∧
    ran (exec (.buserrCountClear 0) (withRegs s0 [(portKey 0 0x600020, 0x80020004), (portKey 0 0x600038, 7)]))
      (fun t => t.rv (portKey 0 0x600020) == 0x80020004 && t.rv (portKey 0 0x600038) == 0) = true := by decide

/-! ### Queues and jobs -/

/-- A target of a job with the steps that wait on it, in a phase. -/
def tgtOf (t : Nat) (steps : List (Nat × List Byte)) (ph : StepPhase) : TargetSt := ⟨t, steps, ph, false, 0, 0, 0, 0, 0, false, false, false⟩

/-- A job descriptor (R222): flags, steps, chain address, JOB_TMO. -/
def descOf (flags count chain tmo : Nat) : List Byte :=
  [1, BitVec.ofNat 8 flags, 0, 0] ++ natLe 4 count ++ natLe 8 chain ++ List.replicate 16 0 ++ natLe 4 0xCAFE ++ natLe 4 tmo ++
    List.replicate 24 0

/-- A job of queue 0 with these targets, whose chain of one step has been delivered. -/
def jobOf (l : List TargetSt) : Job := { Job.start 0 (descOf 0 1 0x10000 0) false false 0 0 with targets := l, dispatch := 1 }

/-- The job runs in partition p. -/
def withJob (s : State) (p : Nat) (j : Job) : State := s.modPart p fun x => { x with job := some j }

/-- The header of a step (R97): opcode, LCORE and CBLK, WAIT, POST, the CHAIN word; then its fields. -/
def stepOfOp (op lcore wait post seq : Nat) (f : List Byte) : List Byte :=
  natLe 1 op ++ natLe 1 lcore ++ natLe 1 wait ++ natLe 1 post ++ natLe 4 (seq * 256) ++ f ++ List.replicate (56 - f.length) 0

/-- Bytes of the DRAM of partition 0, which begins at device address 0. -/
def withDram (s : State) (a : Nat) (b : List Byte) : State :=
  { s with dram := { s.dram with mem := s.dram.mem.writeBytes a b } }

/-- Queues 0 and 1 of partition 0 are enabled and hold a job each: rings of 16 at 0x1000 and completion rings at 0x2000. -/
def sQueues (flags : Nat) : State :=
  let s := withRegs s0 [(queueKey 0 4, 0x84000000), (queueKey 0 8, 0x1000), (queueKey 0 0x10, 0x2000), (queueKey 1 4, 0x84000000)]
  let s1 := { s with comp := { s.comp with queues := [(0, ⟨0, 1, false, none, none, false⟩), (1, ⟨0, 1, false, none, none, false⟩)] } }
  withDram s1 0x1000 (descOf flags 1 0x10000 0)

theorem wit_doorbell : ∃ b, s0.bindOf 0 = some b ∧ b.port = (0 : Port).val ∧ (15#64).toNat < 2 ^ s0.qLog 0 ∧
    (s0.queue 0).resetPend = false ∧ (16#64).toNat ≥ 2 ^ s0.qLog 0 := ⟨⟨0, 15, 0, 0, 0⟩, by decide +kernel⟩
theorem wit_doorbell_unbound : s0.bindOf 65535 = none ∧ (0x7FFF8 : Nat) < 0x80000 := by decide +kernel
theorem wit_doorbell_wrong : (4 : Nat) ≠ 8 ∧ (4 : Nat) % 8 ≠ 0 ∧ 2 ^ s0.qLog 0 ≤ (16#64).toNat := by decide +kernel
theorem test_doorbell : ran (exec (.doorbell 0 8 8 15) s0) (fun t => (t.queue 1).tail == 15 && (t.queue 0).tail == 0) = true ∧
    ran (exec (.doorbell 1 8 8 15) s0) (fun t => t.rv (portKey 1 0x600020) == 0x80020005) = true := by decide +kernel

/-- The same queues, whose rings lie in window 0 of port 0. -/
def sQueuesHost : State :=
  let s := withRegs (sQueues 0) [(winKey 0 0, 0xE0000000), (winKey 0 0 + 12, 0x100)]
  { s with ward := { s.ward with image := some { img with binds := [⟨0, 15, 0, 0, 1⟩, ⟨16, 0, 1, 1, 0⟩] } } }
theorem wit_job_waits_for_batch :
    (sQueuesHost.part 0).any (fun e => sQueuesHost.hostInService e) = true ∧ sQueuesHost.nextQueue 0 = some 0 ∧
    sQueuesHost.bindOf 0 = some ⟨0, 15, 0, 0, 1⟩ ∧ sQueuesHost.held = false ∧ sQueuesHost.boot.ready = true ∧
    (sQueuesHost.comp.parts[0]?).any (fun x => x.job.isNone && !x.remapDue && x.granted) = true ∧
    (sQueuesHost.queue 0).susp = none ∧ (sQueuesHost.queue 0).read = none ∧
    sQueuesHost.fetchPlace 0 ((ringPlace 1 (sQueuesHost.qBase 0 8)).plus 0) 64 { data := descOf 4 1 0x10000 0 } =
      (descOf 4 1 0x10000 0, 0) ∧ sQueuesHost.descCheck 0 (descOf 4 1 0x10000 0) = 0 ∧
    tbit (leAt (descOf 4 1 0x10000 0) 1 1) 2 = true ∧ (sQueuesHost.ing.rings.getD 0 .reset).oldest = none := by decide +kernel
theorem test_job_waits_for_batch : ran (exec (.jobStart 0 { data := descOf 4 1 0x10000 0 }) sQueuesHost) (fun t =>
    (t.queue 0).read == some (descOf 4 1 0x10000 0) && (runningJob t 0).isNone && t.readyQueues 0 == [1]) = true := by decide +kernel
theorem test_batch_head_not_ready : (sQueues 4).readyQueues 0 = [1] := by decide +kernel

theorem wit_job_start : ∀ f ∈ [0, 1], (sQueues f).boot.ready = true ∧ ((sQueues f).queue 0).read = none ∧
   ((sQueues f).part 0).any (fun e => (sQueues f).hostInService e) = true ∧
    ((sQueues f).comp.parts[0]?).any (fun x => x.job.isNone && !x.remapDue && x.granted) = true ∧
    (sQueues f).nextQueue 0 = some 0 ∧ (sQueues f).bindOf 0 = some ⟨0, 15, 0, 0, 0⟩ ∧ (sQueues f).held = false ∧
    ((sQueues f).queue 0).susp = none ∧ (sQueues f).fetchPlace 0 (ringPlace 0 ((sQueues f).qBase 0 8)) 64 {} =
      (descOf f 1 0x10000 0, 0) ∧ (sQueues f).descCheck 0 (descOf f 1 0x10000 0) = 0 ∧
    tbit (leAt (descOf f 1 0x10000 0) 1 1) 2 = false := by decide +kernel
theorem test_job_start : ran (exec (.jobStart 0 {}) (sQueues 0)) (fun t => ((t.comp.parts[0]?).bind (·.job)).any fun j =>
    j.queue == 0 && j.count == 1 && j.dispatch == 0) = true := by decide +kernel

/-- A job in the device's ring that asks for a batch, with one complete; and a queue whose job is suspended. -/
def sBatchJob : State := { sQueues 4 with ing := { s0.ing with rings := s0.ing.rings.set 0 ⟨[.complete 3 77], [], [], 0, 0, 0, false, false⟩ } }
def sSuspended : State :=
  let s := sQueues 0
  { s with comp := { s.comp with queues := [(0, ⟨0, 1, false, some { jobOf [] with suspending := true }, none, false⟩)] } }
theorem wit_job_batch : sBatchJob.nextQueue 0 = some 0 ∧ (sBatchJob.ing.rings.getD 0 .reset).oldest = some (0, 77) ∧
    sBatchJob.descCheck 0 (descOf 4 1 0x10000 0) = 0 ∧ tbit (leAt (descOf 4 1 0x10000 0) 1 1) 2 = true ∧
    sSuspended.nextQueue 0 = some 0 ∧ ((sSuspended.queue 0).susp).any (fun j => !j.stopping) = true := by decide +kernel
theorem test_job_batch : ran (exec (.jobStart 0 {}) sBatchJob) (fun t => (runningJob t 0).any (fun j => j.batchTs == some 77) &&
      (t.ing.rings.getD 0 .reset).bufs == [.claimed 77]) = true ∧
    ran (exec (.jobStart 0 {}) sSuspended) (fun t => (runningJob t 0).any (fun j => !j.suspending && j.dispatch == 1) &&
      (t.queue 0).susp.isNone) = true := by decide +kernel

/-- A step of SEQ n stands at the head of the chain of a job that has delivered nothing. -/
def sDeliver (n : Nat) : State :=
  withDram (withJob s0 0 (Job.start 0 (descOf 0 2 0x10000 0) false false 0 0)) 0x10000 (stepOfOp 1 0 0 0 n [])
theorem wit_delivery : ∀ n ∈ [0, 1], (runningJob (sDeliver n) 0).any (fun j => !j.halted && !j.stopping && !j.suspending &&
      !j.chainSent && (sDeliver n).fetchPlace 0 ((chainPlace j.desc).plus (64 * j.nextStep)) 64 {} ==
        (stepOfOp 1 0 0 0 n [], 0) && hSeq (stepOfOp 1 0 0 0 n []) == n && j.nextStep == 0 && j.targets.isEmpty) = true := by decide +kernel
/-- Nothing is delivered: a target that holds 256 steps, and jobs that are stopping, suspending or delivered. -/
theorem wit_delivery_full : (runningJob (withJob (sDeliver 0) 0 { Job.start 0 (descOf 0 2 0x10000 0) false false 0 0 with
      targets := [tgtOf 0 (List.replicate 256 (0, [])) .fresh] }) 0).any (fun j =>
    (j.targets.find? fun y => y.id == targetOf (stepOfOp 1 0 0 0 0 [])).any fun y => decide (256 ≤ y.steps.length)) = true := by
  decide +kernel
theorem wit_delivery_none : (jobOf []).chainSent = true ∧ (jobOf []).count = 1 ∧
    { jobOf [] with dispatch := 0 }.chainSent = false := by decide +kernel
theorem wit_delivery_fails :
    (sDeliver 0).fetchPlace 0 ((chainPlace (descOf 0 1 (2 ^ 26) 0)).plus 0) 64 {} = ([], 0x0301) := by decide +kernel
theorem test_delivery : ran (exec (.stepDelivery 0 {}) (sDeliver 1)) (fun t => (runningJob t 0).any fun j =>
    j.raised == [⟨0x0630, 31, 0xFFFFFFFF⟩]) = true := by decide +kernel

/-- The job of queue 0 runs, with JOB_TMO, beside the waiting queue 1; or it is done, or it stands at its boundaries. -/
def sRunning (susp : Bool) (dispatch : Nat) : State :=
  withJob (sQueues 0) 0 { jobOf [] with desc := descOf 0 2 0x10000 5, suspending := susp, dispatch := dispatch }
theorem wit_slice : ∃ x j, (sRunning false 1).comp.parts[0]? = some x ∧ x.job = some j ∧
    (∃ q ∈ (sRunning false 1).readyQueues 0, q ≠ j.queue ∧ (sRunning false 1).qPrio j.queue ≤ (sRunning false 1).qPrio q) ∧
    j.stopping = false ∧ (sRunning false 1).held = false ∧ leAt j.desc 0x24 4 ≠ 0 := ⟨_, _, rfl, rfl, ⟨1, by decide +kernel⟩, by decide +kernel⟩
theorem wit_suspended : ∃ x j, (sRunning true 1).comp.parts[0]? = some x ∧ x.job = some j ∧ j.suspending = true ∧
    j.stopping = false ∧ j.chainSent = false ∧ (∀ y ∈ j.targets, y.idle = true) := ⟨_, _, rfl, rfl, by decide +kernel⟩
theorem wit_complete : ∃ x j b, (sRunning false 2).comp.parts[0]? = some x ∧ x.job = some j ∧ j.stopping = false ∧
    j.suspending = false ∧ j.chainSent = true ∧ (∀ y ∈ j.targets, y.idle = true) ∧ (sRunning false 2).bindOf j.queue = some b ∧
    b.ringLoc = 0 ∧ ((sRunning false 2).queue j.queue).resetPend = false ∧ (sRunning false 2).dramOf 0 = some (0, 2 ^ 26) ∧
    (sRunning false 2).qBase j.queue 0x10 + 32 * ((sRunning false 2).queue j.queue).head + 32 ≤ 2 ^ 26 :=
  ⟨_, _, ⟨0, 15, 0, 0, 0⟩, rfl, rfl, by decide +kernel⟩
theorem test_jobs_leave : ran (exec (.sliceExpiry 0) (sRunning false 1)) (fun t => (runningJob t 0).any (·.suspending)) = true ∧
    ran (exec (.jobSuspended 0) (sRunning true 1)) (fun t => ((t.queue 0).susp).isSome && t.ctr (qpKey 0 0x18) == 1) = true ∧
    ran (exec (.jobTimeout 0) (sRunning false 1)) (fun t => (runningJob t 0).any (·.stopping)) = true ∧
    ran (exec (.jobComplete 0) (sRunning false 2)) (fun t => (t.queue 0).head == 1 && leNat (t.dram.mem.readBytes 0x2014 4) == 0xCAFE) =
      true := by decide +kernel

theorem wit_queue_reset : ∃ b j, s0.bindOf (s0.selected 0) = some b ∧ b.port = (0 : Port).val ∧ runningJob s0 b.part = none ∧
    runningJob (sRunning false 1) b.part = some j ∧ j.queue = (sRunning false 1).selected 0 := ⟨⟨0, 15, 0, 0, 0⟩, _, by decide +kernel, rfl, rfl, rfl, rfl⟩
theorem wit_queue_reset_unbound : ∀ b, s0.bindOf (s0.selected 1) = some b → b.port ≠ (1 : Port).val := by
  intro b hb; have e : b = ⟨0, 15, 0, 0, 0⟩ := by injection hb.symm
  subst e; decide
theorem test_queue_reset : ran (exec (.queueReset 0) (sQueues 0)) (fun t => (t.queue 0).tail == 0 && (t.queue 1).tail == 1) = true ∧
    ran (exec (.queueReset 1) s0) (fun t => t.rv (portKey 1 0x600020) == 0x80000003) = true := by decide +kernel

/-- A re-map of partition 0 is due, with core 1 out of service. -/
def sRemap : State :=
  { (s0.modPart 0 fun x => { x with remapDue := true }) with safe := { s0.safe with units := lmod s0.safe.units 1 fun u => { u with oos := true } } }
theorem wit_remap : ∃ i e x, sRemap.ward.image = some i ∧ sRemap.part 0 = some e ∧ sRemap.comp.parts[0]? = some x ∧
    x.remapDue = true ∧ x.job = none := ⟨_, _, _, rfl, rfl, rfl, by decide +kernel⟩
theorem test_remap : ran (exec (.remap 0) sRemap) (fun t => ((t.comp.parts[0]?).map (·.map)) == some [some 0, some 0]) = true := by decide +kernel
/-- Logical core 1 waits, parked, on core 0, which logical core 0 holds. -/
def sPark : State :=
  let s := withJob s0 0 (jobOf [tgtOf 1 [(0, [])] .fresh])
  let s1 := s.modPart 0 fun x => { x with map := [some 0, some 0] }
  { s1 with comp := { s1.comp with cores := lmod s1.comp.cores 0 fun c => { c with parks := [(1, .reset 0)] } } }
theorem wit_park : ∃ c, sPark.partOfCore 0 = some 0 ∧ sPark.comp.cores[0]? = some c ∧ alGet c.parks 1 = some (.reset 0) ∧
    c.loaded = some 0 ∧ sPark.tgt 0 0 = none ∧
    ((lcoresAt (sPark.comp.parts.getD 0 .empty).map 0).filter fun k => some k != c.loaded && sPark.parkReady 0 k).head? = some 1 :=
  ⟨_, by decide +kernel, rfl, by decide +kernel⟩
theorem test_park : ran (exec (.parkSwitch 0 1) sPark) (fun t => ((t.comp.cores[0]?).map (·.loaded)) == some (some 1)) = true := by decide +kernel

/-! ### Steps -/

/-- A step stands at the head of a target of the job that runs in partition p. -/
def sStep (p t : Nat) (ph : StepPhase) (b : List Byte) : State := withJob s0 p (jobOf [tgtOf t [(0, b)] ph])

/-- The step that a command runs may have its effect now, and a predicate holds of the state on which it has it and of the step. -/
def readyOn (i : Instr) (z : State) (f : State → StepCtx → Bool) : Bool := match stepOf i with
  | some (p, t, pick, _) => (z.stepAt p t pick).any fun c => c.tgt.phase == .ready && f (z.startStep c) c
  | none => false
theorem readyOn_spec (i : Instr) (z : State) (f : State → StepCtx → Bool) (h : readyOn i z f = true) :
    ∃ s c, readyStep i z s c ∧ f s c = true := by
  unfold readyOn at h
  split at h
  · rename_i p t pick check e
    obtain ⟨c, h1, h2⟩ := some_of _ h
    simp only [Bool.and_eq_true, beq_iff_eq] at h2
    exact ⟨_, c, ⟨p, t, pick, check, e, h1, .inr (.inl ⟨h2.1, rfl⟩)⟩, h2.2⟩
  · cases h

/-- A target's step is over with a status. -/
def isDone (s : State) (p t st : Nat) : Bool := (s.tgt p t).any fun x => match x.phase with
  | .done c _ => c == st
  | _ => false

/-- No bank refuses or holds an access to the extents of a target's scratchpads, and nothing in them is poisoned. -/
def padOk (s : State) (p t : Nat) (xs : List Ext) : Bool :=
  (s.padOf p t).poison == [] && (s.padsOf p t).all (·.poison == []) && !s.padHeld p t xs && (s.padOf p t).refused xs == 0
theorem padOk_spec (s : State) (p t : Nat) (xs : List Ext) (h : padOk s p t xs = true) : padReady s p t xs := by
  simp only [padOk, Bool.and_eq_true, beq_iff_eq, Bool.not_eq_true', List.all_eq_true] at h
  exact ⟨h.1.1.1, fun a m => h.1.1.2 a m, h.1.2, h.2⟩

/-- TAG SET of a nonzero tag, with a header WAIT on catch 5 or without. -/
def tagSetB (w : Nat) : List Byte := stepOfOp 0x34 0 w 0 0 [1, 0, 0, 0, 9, 0, 0, 0]
theorem wit_step_none : stepOf (.tagSet 0 0) = some (0, 0, (fun b => hOp b == 0x34 && leAt b 8 1 == 1), tagCheckFields) ∧
    s0.stepAt 0 0 (fun b => hOp b == 0x34 && leAt b 8 1 == 1) = none := ⟨rfl, by decide +kernel⟩
/-- A step that stands to begin, of which a predicate holds in the state in which its command opens and it starts. -/
def freshOn (i : Instr) (z : State) (f : Nat → State → StepCtx → Bool) : Bool := match stepOf i with
  | some (p, t, pick, check) => (z.stepAt p t pick).any fun c =>
      let s := (z.openCommand c).startStep c
      c.tgt.phase == .fresh && f (worse (headerCheck c.part c.b) (check s c)) s c
  | none => false
theorem wit_step_refused : freshOn (.matmul 0 0 {}) (sStep 0 0 .fresh (stepOfOp 0x01 0 0 0 0 [])) (fun code _ _ => code != 0) = true := by
  decide +kernel
theorem wit_step_waits : freshOn (.tagSet 0 0) (sStep 0 0 .fresh (tagSetB 0x85)) (fun code _ c => code == 0 && hWait c.b &&
    !c.job.stopping && (sStep 0 0 .fresh (tagSetB 0x85)).catchAt (catchKey 0 (hCblk c.b) (hWaitIx c.b)) == 0) = true := by decide +kernel
/-- A step that begins and has its effect at once, without a header WAIT and with one whose count stands; one whose effect was held. -/
theorem wit_effect_fresh : freshOn (.tagSet 0 0) (sStep 0 0 .fresh (tagSetB 0)) (fun code _ c => code == 0 && !hWait c.b) = true ∧
    freshOn (.tagSet 0 0) ((sStep 0 0 .fresh (tagSetB 0x85)).setCatch 5 1) (fun code s c => code == 0 && hWait c.b &&
      (s.tryTake c.p c.t (catchKey c.p (hCblk c.b) (hWaitIx c.b)) 1).isSome) = true ∧
    ((sStep 0 0 .started (tagSetB 0)).stepAt 0 0 (fun b => hOp b == 0x34 && leAt b 8 1 == 1)).any (fun c => c.tgt.phase == .started) =
      true := by decide +kernel
theorem test_step_waits : ran (exec (.tagSet 0 0) (sStep 0 0 .fresh (tagSetB 0x85)))
    (fun t => (t.tgt 0 0).any (fun x => x.phase == .waitHead)) = true := by decide +kernel
theorem test_step_runs : ran (exec (.tagSet 0 0) (sStep 0 0 .fresh (tagSetB 0)))
    (fun t => isDone t 0 0 0 && (t.padOf 0 0).tag == 9) = true := by decide +kernel

/-- A CATCH step of an OP on catch 3 with a value. -/
def catchB (op v : Nat) : List Byte := stepOfOp 0x05 0 0 0 0 ([BitVec.ofNat 8 op, 3] ++ natLe 2 v)
/-- That step, where catch 3 holds n counts. -/
def sCatch (op v n : Nat) : State := (sStep 0 0 .ready (catchB op v)).setCatch 3 n
theorem wit_catch : readyOn (.catchPost 0 0 false) (sCatch 0 65535 1) (fun s c => decide (65535 < s.catchAt c.catch' + leAt c.b 0x0A 2)) = true ∧
    readyOn (.catchPost 0 0 false) (sCatch 0 5 1) (fun _ c => c.catch' == 3) = true ∧
    readyOn (.catchSet 0 0 false) (sCatch 2 5 1) (fun _ _ => true) = true ∧
    readyOn (.resetBlock 0 0 false) (sCatch 3 0 1) (fun _ _ => true) = true ∧
    readyOn (.catchWait 0 0) (sCatch 1 1 1) (fun s c => leAt c.b 0x0A 2 == s.catchAt c.catch' && s.waiters 0 3 == []) = true ∧
    readyOn (.catchWait 0 0) (sCatch 1 2 1) (fun s c => decide (s.catchAt c.catch' < leAt c.b 0x0A 2) && !c.job.stopping) = true := by
  decide +kernel
/-- Target 1 comes to a wait whose count stands, behind target 0, which waits for more; and a job that stops comes to a wait. -/
def sBehind : State := (withJob s0 0 (jobOf [tgtOf 0 [(0, catchB 1 2)] (.catchWait 2),
  tgtOf 1 [(0, stepOfOp 0x05 1 0 0 0 [1, 3, 1, 0])] .ready])).setCatch 3 1
theorem wit_catch_behind : readyOn (.catchWait 0 1) sBehind (fun s c => s.waiters 0 c.catch' == [0] &&
      leAt c.b 0x0A 2 == s.catchAt c.catch' && !c.job.stopping) = true ∧
    readyOn (.catchWait 0 0) (withJob s0 0 { jobOf [{ tgtOf 0 [(0, catchB 1 2)] .ready with cmdOpen := true }] with stopping := true }) (fun s c =>
      decide (s.catchAt c.catch' < leAt c.b 0x0A 2) && c.job.stopping) = true := by decide +kernel
theorem test_catch_behind : ran (exec (.catchWait 0 1) sBehind)
    (fun t => t.catchAt 3 == 1 && (t.tgt 0 1).any (·.phase == .catchWait 1)) = true := by decide +kernel
theorem wit_catch_pair : readyOn (.catchPost 1 0 false) (sStep 1 0 .ready (catchB 0 1)) (fun _ c => c.part.hinged) = true := by decide +kernel
theorem test_catches : ran (exec (.catchPost 0 0 false) (sCatch 0 65535 1)) (fun t => t.catchAt 3 == 65535) = true ∧
    ran (exec (.catchSet 0 0 false) (sCatch 2 5 1)) (fun t => t.catchAt 3 == 5) = true ∧
    ran (exec (.resetBlock 0 0 false) (sCatch 3 0 1)) (fun t => t.catchAt 3 == 0) = true ∧
    ran (exec (.catchWait 0 0) (sCatch 1 1 1)) (fun t => t.catchAt 3 == 0) = true := by decide +kernel

/-- Target 0 waits for two counts of catch 3, of which there are n. -/
def sWaiter (n : Nat) : State := (sStep 0 0 (.catchWait 2) (catchB 1 2)).setCatch 3 n
theorem wit_waiter : ∀ n ∈ [1, 2], (sWaiter n).waiters 0 3 = [0] ∧
    ((sWaiter n).tgt 0 0).any (fun x => x.waits 0 == some (3, 2)) = true ∧ (sWaiter n).catchAt 3 = n := by decide +kernel
/-- That target's job is being suspended. -/
def sAbandon : State := withJob s0 0 { jobOf [tgtOf 0 [(0, catchB 1 2)] (.catchWait 2)] with suspending := true }
theorem wit_abandon : (runningJob sAbandon 0).any (fun j => j.suspending && j.targets.all fun y => !y.cmdOpen || (y.waits 0).isSome) = true ∧
    (sAbandon.tgt 0 0).any (fun x => (x.waits 0).isSome) = true := by decide +kernel
theorem test_waiters : ran (exec (.catchServe 0 3) (sWaiter 2)) (fun t => t.catchAt 3 == 0 && isDone t 0 0 0) = true ∧
    ran (exec (.catchServe 0 3) (sWaiter 1)) (fun t => t.catchAt 3 == 1) = true ∧
    ran (exec (.catchWaitTimeout 0 0) (sWaiter 1)) (fun t => isDone t 0 0 0x0341) = true ∧
    ran (exec (.catchWaitAbandon 0 0) sAbandon) (fun t => (t.tgt 0 0).any (·.steps == [])) = true := by decide +kernel

/-- A step that is over with a status, whose header posts to catch 5. -/
def sOver (st : Nat) : State := sStep 0 0 (.done st false) (stepOfOp 0x34 0 0 0x85 0 [1, 0, 0, 0, 9])
theorem wit_step_end : ∀ st ∈ [0, 0x0205, 0x0622], st ≠ 0x0403 ∧ ((sOver st).part 0).isSome = true ∧
    ((sOver st).tgt 0 0).any (fun x => x.phase == .done st false && x.steps.head?.isSome) = true := by decide +kernel
theorem test_step_end : ran (exec (.stepEnd 0 0 false 0 0 0) { sOver 0 with time := { s0.time with tb := 77 * 2 ^ 28 } }) (fun t => t.catchAt 5 == 1 && (runningJob t 0).any fun k => k.lastWrite == 77) = true ∧
    ran (exec (.stepEnd 0 0 false 0 0 0) (sOver 0x0622)) (fun t => t.catchAt 5 == 0 && (runningJob t 0).any fun k =>
      k.raised == [⟨0x0622, 0, 0⟩] && k.stopping) = true := by decide +kernel

theorem wit_step_end_wrote : ((sStep 0 0 (.done 0 true) (tagSetB 0)).tgt 0 0).any (fun x => x.phase == .done 0 true) = true := by decide +kernel

/-- SP_FILL of a pattern of two bytes over the last 32 bytes of the scratchpad. -/
def fillB : List Byte := stepOfOp 0x30 0 0 0 0 (natLe 4 (2 ^ 25 - 32) ++ natLe 4 32 ++ [1, 0, 0, 0] ++ natLe 4 0xAABBCCDD)
theorem wit_fill : readyOn (.spFill 0 0 {}) (sStep 0 0 .ready fillB) (fun s c =>
    let a := leAt c.b 8 4; let n := leAt c.b 0x0C 4
    !s.padHeld 0 0 [⟨a, n⟩] && (s.padOf 0 0).reach a n == (n, 0)) = true := by decide +kernel
theorem test_fill : ran (exec (.spFill 0 0 {}) (sStep 0 0 .ready fillB))
    (fun t => (t.padOf 0 0).byte (2 ^ 25 - 2) == 0xDD && (t.padOf 0 0).byte (2 ^ 25 - 1) == 0xCC) = true := by decide +kernel
/-- SP_COPY of one row of 32 bytes. -/
def copyB : List Byte := stepOfOp 0x31 0 0 0 0 (natLe 4 0 ++ natLe 4 64 ++ natLe 4 32 ++ natLe 2 1 ++ natLe 2 0 ++ natLe 4 0)
theorem wit_copy : readyOn (.spCopy 0 0 {}) (sStep 0 0 .ready copyB) (fun s c =>
    leAt c.b 0x14 2 == 1 && padOk s 0 0 [⟨leAt c.b 8 4, 32⟩, ⟨leAt c.b 0x0C 4, 32⟩] && leAt c.b 0x10 4 == 32 &&
      (s.padOf 0 0).reach 0 32 == (32, 0) && (s.padOf 0 0).reach 64 32 == (32, 0)) = true := by decide +kernel
/-- A DMA step of one row of 32 bytes between spaces. -/
def dmaB (ss ds src dst : Nat) : List Byte :=
  stepOfOp 0x32 0 0 0 0 (natLe 8 src ++ natLe 8 dst ++ natLe 1 ss ++ natLe 1 ds ++ [0, 0] ++ natLe 4 32 ++ natLe 2 1 ++ natLe 2 1)
theorem wit_dma : ∀ x ∈ [(1, 0), (0, 1)], readyOn (.dma 0 0 {}) (sStep 0 0 .ready (dmaB x.1 x.2 64 128)) (fun s c =>
    leAt c.b 0x20 2 == 1 && leAt c.b 0x22 2 == 1 && !dmaSealed c.b && s.dram.poison == [] && dmaRow c.b == 32 && !s.dmaLost c &&
      (s.dmaDram c (x.2 == 1)).isSome && padOk s 0 0 [dmaExt c.b (x.2 == 0)] &&
      (s.padOf 0 0).reach (dmaOff c.b (x.2 == 0)) 32 == (32, 0)) = true := by
  decide +kernel
theorem test_dma : ran (exec (.dma 0 0 {}) (withDram (sStep 0 0 .ready (dmaB 1 0 64 128)) 64 [1, 2]))
    (fun t => (t.padOf 0 0).byte 129 == 2 && (t.padOf 0 0).byte 130 == 0) = true := by decide +kernel
theorem wit_host_read : ((sStep 0 0 .ready (dmaB 2 0 64 128)).stepAt 0 0 (fun b => hOp b == 0x32 && dmaSpace b false == 2)).any
    (fun c => c.tgt.phase == .ready) = true := by decide +kernel

/-- An open context of one lane in partition 0. -/
def ctxOf (x : CtxState) (lanes : List LaneSt) : CtxSt := ⟨x, 0, false, 64, 5, 5, 1024, 0x100000, 0, 0, lanes, [], none, 0⟩
/-- Context 1 of partition 0. -/
def withCtx (s : State) (k : CtxSt) : State := { s with kv := { s.kv with pools := s.kv.pools.set 0 ⟨[(1, k)], false, []⟩ } }
/-- A step waits for context 1, which comes back from a host. -/
def sReturning : State :=
  withCtx (sStep 0 0 (.swapWait 1) []) { ctxOf .swappingIn [⟨64, 0, [(0, .swapped 0 1)]⟩] with heldSlots := [0], asker := some 0 }
theorem wit_host_read_swap : (sReturning.tgt 0 0).any (fun x => x.phase == .swapWait 1) = true ∧ sReturning.returning 0 = some 1 ∧
    (sReturning.ctx 0 1).any (fun q => q.asker == some 0) = true ∧ (sReturning.tgt 0 0).any (fun x => !x.isClose) = true := by decide +kernel
theorem test_host_read_swap : ran (exec (.hostReadTimeout 0 0) sReturning) (fun t => (t.ctx 0 1).any (·.state == .lost)) = true := by
  decide +kernel

/-- BANK CLOSE and OPEN of bank 63; TAG CHECK that skips two steps where the tag is 9. -/
def bankB (op : Nat) : List Byte := stepOfOp 0x33 0 0 0 0 (natLe 8 op ++ natLe 8 (2 ^ 63))
def tagCheckB : List Byte := stepOfOp 0x34 0 0 0 0 [0, 2, 0, 0, 9, 0, 0, 0]
theorem wit_banks : readyOn (.bankClose 0 0) (sStep 0 0 .ready (bankB 0)) (fun _ _ => true) = true ∧
    readyOn (.bankOpen 0 0) (sStep 0 0 .ready (bankB 1)) (fun _ _ => true) = true ∧
    readyOn (.tagSet 0 0) (sStep 0 0 .ready (tagSetB 0)) (fun _ _ => true) = true ∧
    readyOn (.tagCheck 0 0) (sStep 0 0 .ready tagCheckB) (fun s _ => (s.padsOf 0 0).all fun a => a.tag == (s.padOf 0 0).tag) = true := by
  decide +kernel
/-- The pair of partition 1, whose tags differ: 9 in core 2, 0 in core 3. -/
def sTags : State :=
  let s := sStep 1 0 .ready tagCheckB
  { s with comp := { s.comp with cores := lmod s.comp.cores 2 fun c => { c with pad := { c.pad with tag := 9 } } } }
theorem wit_tags_differ : readyOn (.tagCheck 1 0) sTags (fun s _ => (s.padsOf 1 0).map (·.tag) == [9, 0]) = true := by decide +kernel
theorem test_tags_differ : ran (exec (.tagCheck 1 0) sTags) (fun t => isDone t 1 0 0x0403) = true := by decide +kernel
/-- Bank 63 of core 0 in a state. -/
def sBank (x : BankSt) : State :=
  { s0 with comp := { s0.comp with cores := lmod s0.comp.cores 0 fun c => { c with pad := { c.pad with banks := c.pad.banks.set 63 x } } } }
theorem wit_bank_events : ∀ x ∈ [BankSt.closing, .opening], ((sBank x).comp.cores[0]?).any (fun c => c.pad.banks[63]? == some x) = true := by
  decide +kernel
theorem test_banks : ran (exec (.bankClose 0 0) (sStep 0 0 .ready (bankB 0)))
      (fun t => (t.padOf 0 0).banks[63]? == some .closing && (t.tgt 0 0).any (·.phase == .bankWait)) = true ∧
    ran (exec (.bankOff 0 63) (sBank .closing)) (fun t => (t.padOf 0 0).banks[63]? == some .off) = true ∧
    ran (exec (.bankOn 0 63) (sBank .opening)) (fun t => (t.padOf 0 0).byte (2 ^ 25 - 1) == 0) = true ∧
    ran (exec (.tagCheck 0 0) (sStep 0 0 .ready tagCheckB)) (fun t => (t.tgt 0 0).any (·.skip == 0)) = true := by decide +kernel
theorem wit_scrub : s0.domOn 13 = true ∧ 32 * 0 < s0.weights 0 ∧ (s0.comp.cores[0]?).any (fun c => c.pad.poison.isEmpty && c.pad.bankAt 0 == .on) = true ∧
    (s0.recentErrors 100 1).2 < 1000 ∧ (s0.recentErrors 200 1).2 < 3 ∧ State.reset.domOn 13 = false ∧ s0.scrubAt 0 = 0 ∧ 1 ≠ s0.scrubAt 0 := by decide +kernel
theorem test_scrub : ran (exec (.scrub 0 0 .corrected) s0) (fun t => t.rv 0x240000 == 1 && t.scrubAt 0 == 1) = true ∧
    ran (exec (.scrub 0 0 .uncorrected) s0) (fun t => t.rv 0x240040 == 1) = true := by decide +kernel

/-! ### Arrays, convolutions, pooling -/

/-- Scratchpads whose banks are all on, with nothing poisoned, hold up and refuse no access. -/
def allOn (s : State) (p t : Nat) : Bool :=
  (s.padOf p t :: s.padsOf p t).all fun a => a.poison == [] && a.banks == List.replicate 64 .on
theorem padReady_on (s : State) (p t : Nat) (xs : List Ext) (h : allOn s p t = true) : padReady s p t xs := by
  simp only [allOn, List.all_eq_true, List.mem_cons, Bool.and_eq_true, beq_iff_eq] at h
  have on : ∀ a : Pad, a.banks = List.replicate 64 .on → ∀ b : Nat, a.banks.getD b .on = .on := by
    intro a g b; rw [g, List.getD_eq_getElem?_getD, List.getElem?_replicate]; split <;> rfl
  have z : ∀ l : List Nat, (∀ x ∈ l, x = 0) → firstCode l = 0 := by
    intro l
    induction l with
    | nil => exact fun _ => rfl
    | cons x t ih =>
      intro hl
      rw [hl x (List.mem_cons_self ..)]
      exact ih fun y hy => hl y (List.mem_cons_of_mem _ hy)
  refine ⟨(h _ (.inl rfl)).1, fun a m => (h a (.inr m)).1, ?_, ?_⟩
  · simp only [State.padHeld, List.any_eq_false, Pad.held]
    intro a m e
    obtain ⟨x, _, hx⟩ := List.any_eq_true.mp e
    obtain ⟨b, _, hb⟩ := List.any_eq_true.mp hx
    rw [on a (h a (.inr m)).2] at hb; cases hb
  · apply z
    intro x hx
    obtain ⟨e, _, he⟩ := List.mem_flatMap.mp hx
    obtain ⟨b, _, hb⟩ := List.mem_map.mp he
    rw [on _ (h _ (.inl rfl)).2] at hb; exact hb.symm

/-- The body of an array or window step: ARITH with INT8 operands and INT32 output of scale 1, operands at 0 and 0x20, output at 0x800000, no
scales, no bias, no flag map; then what follows. -/
def arrayB (op tgt : Nat) (tail : List Byte) : List Byte :=
  natLe 1 op ++ [0, 0, 0] ++ natLe 4 tgt ++ natLe 8 0x7F000A11 ++ natLe 4 0 ++ natLe 4 0x20 ++ natLe 4 0x800000 ++
    List.replicate 20 0xFF ++ tail ++ List.replicate (16 - tail.length) 0
/-- MATMUL of 1 x 1 with K = 2; a window step of a 1 x 1 image of 2 channels and one output, with a filter of 1 x 1 or of 2 x 1. -/
def mmTail : List Byte := natLe 2 1 ++ natLe 2 1 ++ natLe 4 2
def swTail (fh : Nat) : List Byte := natLe 2 1 ++ natLe 2 1 ++ natLe 2 2 ++ natLe 2 1 ++ natLe 8 (fh - 1)
/-- A step with bytes in the scratchpad. -/
def withPad (s : State) (a : Nat) (b : List Byte) : State := s.modPadOf 0 0 fun p => p.write 0 a b
theorem wit_array : readyOn (.matmul 0 0 {}) (sStep 0 0 .ready (arrayB 0x01 0 mmTail)) (fun s c => mmCheck s c == 0 && allOn s 0 0) = true ∧
    readyOn (.vector 0 0 {}) (sStep 0 0 .ready (arrayB 0x03 0 [])) (fun s c => allOn s 0 0 &&
      ((vecProg (vecOf (s.padOf 0 0).bytes c.b)).run c.job.seed (s.fresh + 1) (s.padOf 0 0)).code == 0) = true ∧
    readyOn (.fft2d 0 0 {}) (sStep 0 0 .ready (stepOfOp 0x04 0 0 0 0 (natLe 4 0 ++ natLe 4 0x800000 ++ natLe 2 1)))
      (fun s c => fftCheck s c == 0 && allOn s 0 0) = true := by decide +kernel
/-- 3 x 5 + 2 x (-7) = 1. -/
theorem test_matmul : ran (exec (.matmul 0 0 {}) (withPad (withPad (sStep 0 0 .ready (arrayB 0x01 0 mmTail)) 0 [3, 2]) 0x20 [5, 0xF9]))
    (fun t => ((t.padOf 0 0).bytes 0x800000 4) == [1, 0, 0, 0] && isDone t 0 0 0) = true := by decide +kernel
theorem wit_windows : ∀ x ∈ [(0x10, Instr.conv 0 0 {}), (0x11, .fconv 0 0 {}), (0x12, .pool 0 0 {})], ∀ fh ∈ [1, 2],
    readyOn x.2 (sStep 0 0 .ready (arrayB x.1 0 (swTail fh))) (fun s c => (swBody c.b).empty == (fh == 2) && allOn s 0 0) = true := by
  decide +kernel
theorem test_conv : ran (exec (.conv 0 0 {}) (withPad (withPad (sStep 0 0 .ready (arrayB 0x10 0 (swTail 1))) 0 [3, 2]) 0x20 [5, 0xF9]))
      (fun t => ((t.padOf 0 0).bytes 0x800000 4) == [1, 0, 0, 0]) = true ∧
    ran (exec (.conv 0 0 {}) (sStep 0 0 .ready (arrayB 0x10 0 (swTail 2)))) (fun t => isDone t 0 0 0x0011) = true := by
  decide +kernel
/-- The same step on a narrow-channel engine, which counts addresses in blocks of 32 bytes of the DRAM. -/
def nceB (fh : Nat) : List Byte := arrayB 0x18 1 (swTail fh)
theorem wit_nce : ∀ fh ∈ [1, 2], readyOn (.nceConv 0 16 {}) (sStep 0 16 .ready (nceB fh)) (fun s c =>
      ((swBody c.b).inBytes).empty == (fh == 2) && !s.unitOos 20 && s.dram.poison == [] && s.dramOf 0 == some (0, 2 ^ 26)) = true := by
  decide +kernel
/-- The step with its output at block 0x1000, within the partition's DRAM. -/
def nceIn : List Byte := (nceB 1).take 24 ++ natLe 4 0x1000 ++ (nceB 1).drop 28
/-- Its operands and outputs lie in DRAM and do not meet; and in a partition of which a tower is lost. -/
theorem wit_nce_places : readyOn (.nceConv 0 16 {}) (sStep 0 16 .ready nceIn) (fun s c =>
    let x := (swBody c.b).inBytes
    let rows := (SwMap.mk x (s.dramReader c {}) x.bit54).convRows c.job.seed
    let parts := outParts x.ar x.post x.o x.os x.fmap (outBytes x.ar x.post rows) rows
    !x.bit55 && (match s.mapExts 0 c.job (x.pixReads x.bit54 ++ x.wExts), s.mapExts 0 c.job (partExts parts) with
      | some reads, some outs => !extsMeet outs reads && !selfMeet outs
      | _, _ => false)) = true ∧
    readyOn (.nceConv 0 16 {}) ((sStep 0 16 .ready nceIn).modPart 0 fun x => { x with dramLost := true })
      (fun s c => !((swBody c.b).inBytes).empty && (s.comp.parts.getD 0 .empty).dramLost) = true := by decide +kernel
/-- 3 x 5 + 2 x (-7) = 1, from the DRAM at 0 and 0x400 to 0x20000. -/
theorem test_nce_conv : ran (exec (.nceConv 0 16 {}) (withDram (withDram (sStep 0 16 .ready nceIn) 0 [3, 2]) 0x400 [5, 0xF9]))
    (fun t => isDone t 0 16 0 && t.dram.mem.readBytes 0x20000 4 == [1, 0, 0, 0]) = true := by decide +kernel
/-- Engine 0 is out of service. -/
def sNceOut : State :=
  { sStep 0 16 .ready (nceB 1) with safe := { s0.safe with units := lmod s0.safe.units 20 fun u => { u with oos := true } } }
theorem wit_nce_out : readyOn (.nceConv 0 16 {}) sNceOut (fun s _ => s.unitOos 20) = true := by decide +kernel
/-- Granule 0 is partition 0's; a step of its chain is ready for engine 0, and none is for engine 1. -/
theorem wit_granule : s0.granuleOwner 1 = some 0 ∧ (sStep 0 16 .fresh (nceB 1)).nceReady 0 0 = true ∧
    ∀ q < 8, s0.nceReady q 1 = false := by decide +kernel
theorem test_nce : ran (exec (.nceGranule 1) s0) (fun t => t.comp.nceGranule == [0, 1]) = true ∧
    ran (exec (.nceGranule 0) (sStep 0 16 .fresh (nceB 1))) (fun t => t.comp.nceHolder == [some 0, none]) = true ∧
    ran (exec (.nceConv 0 16 {}) sNceOut) (fun t => isDone t 0 16 0x0404) = true := by decide +kernel

/-- FP8 E4M3: 17 lies between 16 and 18, and 19 between 18 and 20; both are ties, and 16 and 20 have an even last bit. -/
def f8 : Fmt := ⟨8, false, 4, 3, 7, true, false⟩
theorem wit_conversion : fmtOf 5 = some f8 ∧ Dy.le ⟨f8.minN, f8.qe⟩ ⟨17, 0⟩ = true ∧ Dy.le ⟨17, 0⟩ ⟨f8.maxN, f8.qe⟩ = true ∧
    f8.decode 0x58 = .num (16 * 512) ∧ (0x58 : Nat) < 2 ^ f8.width := by decide +kernel
theorem test_conversion : f8.convert .nearest ⟨17, 0⟩ = (0x58, false) ∧ f8.convert .nearest ⟨19, 0⟩ = (0x5A, false) := by decide +kernel

/-! ### The key-value cache and attention -/

/-- A KV_CTX step of an operation on context 1, with fields from offset 0x0C. -/
def ctxB (op prio : Nat) (f : List Byte) : List Byte := stepOfOp 0x23 0 0 0 0 ([BitVec.ofNat 8 op, BitVec.ofNat 8 prio, 1, 0] ++ f)
/-- OPEN of 2 lanes of 128 positions, head dimension 64, keys and values FP8 E4M3, page table at 0x100000. -/
def openB : List Byte := ctxB 0 7 (natLe 2 2 ++ natLe 2 64 ++ [5, 5, 0, 0] ++ natLe 4 128 ++ natLe 8 0x100000)
/-- The step stands at the head of target 0, context 1 has these lanes, and DRAM is zero but for a page table that names its pages. -/
def sKv (b : List Byte) (lanes : List LaneSt) : State :=
  let k := ctxOf .open' lanes
  let s := withCtx (sStep 0 0 .ready b) k
  let s1 := { s with dram := { s.dram with mem := .zero } }
  k.pageList.foldl (fun s g => withDram s (k.entryAt g.1 g.2.1) (natLe 8 (PageAt.entry (some g.2.2)))) s1
/-- The step may have its effect on the open context, of which a predicate holds. -/
def ctxReadyOn (i : Instr) (z : State) (f : State → StepCtx → CtxSt → Bool) : Bool :=
  readyOn i z fun s c => ((s.engineOf c.part c.core).any fun q =>
      s.engineFree q && (s.engineLine c.p q).head?.all fun u => u == c.t) &&
    (s.ctx c.p (ctxField c.b)).any fun k => k.state == .open' && k.swappedPages == [] && !c.tgt.ueMet && f s c k
theorem ctxReadyOn_spec (i : Instr) (z : State) (f : State → StepCtx → CtxSt → Bool) (h : ctxReadyOn i z f = true) :
    ∃ s c k, ctxReady i z s c k ∧ f s c k = true := by
  obtain ⟨s, c, h1, h2⟩ := readyOn_spec _ _ _ h
  simp only [Bool.and_eq_true] at h2
  obtain ⟨q, hq, eq⟩ := some_of _ h2.1
  obtain ⟨k, hk, ek⟩ := some_of _ h2.2
  simp only [Bool.and_eq_true, beq_iff_eq, Bool.not_eq_true'] at ek eq
  refine ⟨s, c, k, ⟨h1, ⟨q, hq, eq.1, ?_⟩, hk, ek.1.1.1, ek.1.1.2, ek.1.2⟩, ek.2⟩
  intro u hu
  have e := eq.2
  rw [hu] at e
  simpa using e

/-- A lane of one resident page in page slot 3, with 10 positions. -/
def lane1 : LaneSt := ⟨10, 2, [(0, .resident 3)]⟩
theorem wit_ctx_open : readyOn (.kvCtxOpen 0 0 {}) (sStep 0 0 .ready openB) (fun s c =>
    ((s.engineOf c.part c.core).any fun q => s.engineFree q && (s.engineLine c.p q).head?.all fun u => u == c.t) && ctxOpenCheck s c == 0 &&
      !c.tgt.ueMet && (s.kv.pools[0]?).isSome && s.dramOf 0 == some (0, 2 ^ 26)) = true := by decide +kernel
theorem wit_ctx_ops : ∀ x ∈ [(1, Instr.kvCtxClose 0 0 {}), (2, .kvCtxTruncate 0 0 {}), (3, .kvCtxAccept 0 0 {}), (4, .kvCtxFlush 0 0 {}),
      (5, .kvCtxSetPrio 0 0 {}), (6, .kvCtxPrefetch 0 0 {})],
    ctxReadyOn x.2 (sKv (ctxB x.1 0 []) [lane1]) (fun s c k => leAt c.b 0x13 1 == 0 && k.stagedPages == [] &&
      k.pageList.all fun g => s.entryOk (s.dramRead {}) 0 1 g.1 g.2.1) = true := by
  decide +kernel
/-- The page table agrees with the records on every page; the key-value formats are ones that OPEN takes. -/
theorem wit_ctx_table : ∀ x ∈ [(2, Instr.kvCtxTruncate 0 0 {}), (3, .kvCtxAccept 0 0 {}), (4, .kvCtxFlush 0 0 {})],
    ctxReadyOn x.2 (sKv (ctxB x.1 0 []) [lane1]) (fun s _ k => s.dram.poison == [] && kvFmt k.kFmt && kvFmt k.vFmt && decide (k.d ≤ 256) &&
      k.pageList.all fun g => s.entryOk s.dram.mem 0 1 g.1 g.2.1 && decide (g.2.1 < k.maxPos / 64)) = true := by decide +kernel
/-- ACCEPT of the node 1, the second tentative position. -/
def acceptB : List Byte := ctxB 3 0 (List.replicate 7 0 ++ [1] ++ List.replicate 16 0 ++ [1])
theorem wit_ctx_accept : ctxReadyOn (.kvCtxAccept 0 0 {}) (sKv acceptB [lane1]) (fun _ c k => pathOf c.b == [1] && k.lanes == [lane1] &&
    (lane1.pages.all fun g => decide (64 * g.1 < 11)) && k.page 0 (11 / 64) == some (.resident 3)) = true := by decide +kernel
/-- Page 0 stands in slot 0 of engine 0's staging buffer, with row 0 present, and FLUSH comes to it. -/
def sStaged : State :=
  let s := sKv (ctxB 4 0 []) [⟨1, 0, [(0, .staged 0 0)]⟩]
  { s with kv := { s.kv with engines := s.kv.engines.set 0 ⟨Mem.zero.writeBytes 0 [9], [some ⟨0, 1, 0, 0, 0, 1⟩] ++ List.replicate 7 none, [], []⟩ } }
theorem wit_ctx_flush : ctxReadyOn (.kvCtxFlush 0 0 {}) sStaged (fun s c k => k.stagedPages == [(0, 0, 0, 0)] && k.page 0 0 == some (.staged 0 0) &&
    decide (k.entryAt 0 0 + 8 ≤ c.part.poolBase) && s.slotQueue 0 == [] && s.returning 0 == none && decide (1 ≤ s.freeCount 0 c.part) &&
    (s.freeSlots 0 { c.part with kvPool := 1 }).head? == some 0 &&
    k.pageList.all fun g => s.entryOk s.dram.mem 0 1 g.1 g.2.1) = true := by decide +kernel
theorem test_ctx_flush : ran (exec (.kvCtxFlush 0 0 {}) sStaged) (fun t => isDone t 0 0 0 &&
    (t.ctx 0 1).any fun k => k.page 0 0 == some (.resident 0)) = true := by decide +kernel
theorem test_ctx_accept : ran (exec (.kvCtxAccept 0 0 {}) (sKv acceptB [lane1]))
    (fun t => isDone t 0 0 0 && (t.ctx 0 1).any fun k => k.lanes.map (fun l => (l.fill, l.tent)) == [(11, 0)]) = true := by decide +kernel
theorem test_ctx_open : ran (exec (.kvCtxOpen 0 0 {}) (sStep 0 0 .ready openB)) (fun t => (t.ctx 0 1).any fun k =>
    k.prio == 7 && k.lanes.length == 2 && k.maxPos == 128 && k.state == .open') = true := by decide +kernel
theorem test_ctx_ops : ran (exec (.kvCtxClose 0 0 {}) (sKv (ctxB 1 0 []) [lane1])) (fun t => t.ctx 0 1 == none) = true ∧
    ran (exec (.kvCtxTruncate 0 0 {}) (sKv (ctxB 2 0 (List.replicate 20 0 ++ natLe 4 4)) [lane1]))
      (fun t => (t.ctx 0 1).any fun k => k.lanes.map (·.fill) == [4]) = true ∧
    ran (exec (.kvCtxAccept 0 0 {}) (sKv (ctxB 3 0 []) [lane1]))
      (fun t => (t.ctx 0 1).any fun k => k.lanes.map (fun l => (l.fill, l.tent)) == [(10, 0)]) = true ∧
    ran (exec (.kvCtxSetPrio 0 0 {}) (sKv (ctxB 5 9 []) [lane1])) (fun t => (t.ctx 0 1).any fun k => k.prio == 9) = true := by decide +kernel

/-- KV_MAP of position 64, whose page 1 is unmapped; KV_APPEND of one row at position 12; ATTN of one query over the lane. -/
def mapB : List Byte := stepOfOp 0x22 0 0 0 0 (natLe 2 1 ++ natLe 2 0 ++ natLe 4 1 ++ natLe 4 64 ++ natLe 4 1)
def appendB : List Byte := stepOfOp 0x21 0 0 0 0 (natLe 4 0 ++ natLe 4 0x40 ++ List.replicate 8 0xFF ++ natLe 2 1 ++ natLe 2 0 ++ [1, 1, 0, 0] ++ natLe 4 12)
def attnB : List Byte := stepOfOp 0x20 0 0 0 0 (natLe 8 0x7F000955 ++ natLe 4 0 ++ natLe 4 0x800000 ++ List.replicate 8 0xFF ++ natLe 2 1 ++
  natLe 2 0 ++ natLe 4 0x3F800000 ++ [1, 1] ++ natLe 2 64 ++ natLe 4 0 ++ [2, 5] ++ natLe 2 0 ++ List.replicate 8 0xFF)
theorem wit_map : ctxReadyOn (.kvMap 0 0 {}) (sKv mapB [lane1]) (fun s c k =>
    leAt c.b 0x0C 2 == 1 && leAt c.b 0x10 4 / 64 == 1 && (leAt c.b 0x10 4 + leAt c.b 0x14 4 - 1) / 64 == 1 && k.lanes[0]? == some lane1 &&
      alGet lane1.pages 1 == none && s.entryOk s.dram.mem 0 1 0 1 && s.slotQueue 0 == [] && s.returning 0 == none &&
      decide (1 ≤ s.freeCount 0 c.part) && s.dram.poison == []) = true := by decide +kernel
theorem wit_map_slot (e : PartEntry) (h : e.kvPool = 32) : ((sKv mapB [lane1]).freeSlots 0 e).head? = some 0 := by
  have u : (sKv mapB [lane1]).ctxs 0 = [(1, ctxOf .open' [lane1])] := by decide +kernel
  unfold State.freeSlots
  rw [u, h]; decide +kernel
theorem wit_append : ctxReadyOn (.kvAppend 0 0 {}) (sKv appendB [lane1]) (fun s c k =>
    leAt c.b 0x1C 1 == 1 && leAt c.b 0x1D 1 == 1 && leAt c.b 0x1E 1 == 0 && k.lanes[leAt c.b 0x1A 2]? == some lane1 && allOn s 0 0 &&
      k.page (leAt c.b 0x1A 2) (leAt c.b 0x20 4 / 64) == some (.resident 3) && s.entryOk s.dram.mem 0 1 0 0 && kvFmt k.kFmt && kvFmt k.vFmt && decide (k.d ≤ 256)) = true := by
  decide +kernel
theorem wit_attn : ctxReadyOn (.attn 0 0 {}) (sKv attnB [lane1]) (fun s c k =>
    k.lanes[(atBody c.b).lane]? == some lane1 && attnCheck s c == 0 && allOn s 0 0 && s.kv.engines.all (fun q => q.poison.isEmpty) &&
      !s.padHeld 0 0 ((atBody c.b).ins ++ (atBody c.b).outs) &&
      ((atBody c.b).pages (s.padOf 0 0).bytes lane1).all fun g => s.entryOk s.dram.mem 0 1 0 g.1) = true := by decide +kernel
theorem test_map_append : ran (exec (.kvMap 0 0 {}) (sKv mapB [lane1])) (fun t => (t.ctx 0 1).any fun k => k.page 0 1 == some (.resident 0)) = true ∧
    ran (exec (.kvAppend 0 0 {}) (sKv appendB [⟨12, 0, [(0, .resident 3)]⟩])) (fun t => (t.ctx 0 1).any fun k => k.lanes.map (·.fill) == [13]) = true := by
  decide +kernel

/-- Context 1 leaves, or comes back; the swap area of partition 0 lies in window 0, which is open for writes and reads. -/
def sSwap (k : CtxSt) : State :=
  let s := withCtx (withRegs s0 [(poolKey 0 0, 0x80000000), (poolKey 0 0xC, 4), (winKey 0 0, 0xE0000000), (winKey 0 0 + 12, 0x100)]) k
  let s1 := { s with dram := { s.dram with mem := .zero } }
  k.pageList.foldl (fun s g => withDram s (k.entryAt g.1 g.2.1) (natLe 8 (PageAt.entry (some g.2.2)))) s1
theorem wit_swap_out : let s := sSwap (ctxOf .swappingOut [lane1])
    (s.part 0).isSome = true ∧ s.leaving 0 = some 1 ∧ (ctxOf .swappingOut [lane1]).residentPages = [(0, 0, 3)] ∧ s.dram.poison = [] ∧
      s.dramOf 0 = some (0, 2 ^ 26) ∧ s.entryOk s.dram.mem 0 1 0 0 = true ∧ s.freeSwap 0 = some 0 ∧
      s.windowCheck 0 (s.swapWin 0) (s.swapBase 0 0) 0x11000 false false = 0 := by decide +kernel
def ctxBack : CtxSt := { ctxOf .swappingIn [⟨64, 0, [(0, .swapped 2 1)]⟩] with heldSlots := [5] }
theorem wit_swap_in : let s := sSwap ctxBack
    s.returning 0 = some 1 ∧ ctxBack.swappedPages = [(0, 0, 2, 1)] ∧ s.ctx 0 1 = some ctxBack ∧
      s.entryOk (s.dramRead {}) 0 1 0 0 = true ∧ s.entryOk (s.dramRead { hostFail := true }) 0 1 0 0 = true ∧
      s.windowCheck 0 (s.swapWin 0) (s.swapBase 0 2) 0x11000 true false = 0 := by decide +kernel
theorem test_swap_in_fails : ran (exec (.swapInPageDone 0 { hostFail := true }) (sSwap ctxBack)) (fun t => (t.ctx 0 1).any (·.state == .lost)) = true := by
  decide +kernel

/-! ### The control engine -/

/-- Channels 0 and the pair 2 and 3 run, or do what a state says. -/
def sCtl (x : ChanState) : State :=
  withRegs { s0 with ctl := { s0.ctl with chans := s0.ctl.chans.map fun c => { c with state := x } } }
    [(chKey 0 0, 0x80000000), (chKey 2 0, 0x80000000)]
theorem wit_no_boundary : ∃ e, (withRegs s0 [(chKey 0 0, 1)]).chanEntry 0 = some e ∧ e.divider = 4 ∧
    (withRegs s0 [(chKey 0 0, 1)]).now / 5000 % 4 ≠ (withRegs s0 [(chKey 0 0, 1)]).rv (chKey 0 0) % 2 ^ 16 % 4 ∧
    s0.chanRuns 1 = false ∧ (∀ x ∈ s0.regs.ctl.caps, x.isOf 2 1 = false ∧ x.isOf 3 1 = false) := ⟨_, rfl, rfl, by decide +kernel⟩
/-- Channel c had a sample 200 ns ago. -/
def sSampling : State :=
  let s := sCtl .running
  { s with time := { s.time with elapsed := 200 }, ctl := { s.ctl with chans := s.ctl.chans.map fun c => { c with lastStart := some 0 } } }
theorem wit_no_sample : sSampling.sampling 0 = true ∧ (sCtl .running).leaderOf 3 = 2 ∧
    { s0 with time := { s0.time with tb := 2500 * 2 ^ 28 } }.onGrid = false ∧
    { s0 with pwr := { s0.pwr with doms := s0.pwr.doms.set 5 ⟨.off, false, 0, 0, 0, 0⟩ } }.domOn 5 = false := by decide +kernel
theorem wit_boundary : ∀ c ∈ [0, 2], (sCtl .running).boundary c = some 0 ∧ (sCtl .running).leaderOf c = c ∧
    (sCtl .running).sampling c = false ∧ (∀ x ∈ (sCtl .running).regs.ctl.caps, x.isOf 2 c = false ∧ x.isOf 3 c = false) ∧
    (sCtl .running).chanRuns c = true ∧ ((sCtl .running).chan c).state ≠ .identifying ∧ ((sCtl .running).chan c).solo = false := by
  decide +kernel
theorem wit_boundary_identifying : (sCtl .identifying).boundary 2 = some 0 ∧ (sCtl .identifying).chanRuns 2 = true ∧
    (sCtl .identifying).sampling 2 = false := by decide +kernel
theorem wit_pair : (sCtl .running).partnerOf 0 = none ∧ (sCtl .running).partnerOf 2 = some 3 ∧ 3 < (sCtl .running).ctl.chans.length ∧
    ((sCtl .running).chan 3).solo = false := by decide +kernel
theorem test_sample : ran (exec (.sample 0 .none) (sCtl .running)) (fun t => t.ctr (chKey 0 0x20) == 1) = true ∧
    ran (exec (.sample 0 .none) sSampling) (fun t => t.ctr (chKey 0 0x20) == 0) = true ∧
    ran (exec (.sample 2 .differ) (sCtl .running)) (fun t => (t.chan 2).state == .identifying && (t.chan 3).state == .identifying) = true := by
  decide +kernel
theorem wit_identifying : (sCtl .identifying).leaderOf 2 = 2 ∧ ((sCtl .identifying).chan 2).state = .identifying ∧
    (sCtl .identifying).members 2 = [2, 3] ∧ 3 < (sCtl .identifying).ctl.chans.length := by decide +kernel
theorem test_identified : ran (exec (.faultIdentificationDone 2 true false) (sCtl .identifying))
    (fun t => (t.chan 2).state == .failed && (t.chan 3).state == .running && (t.chan 3).solo) = true := by decide +kernel

/-- SETPT of words 0 and 3 of channel 0. -/
def setptB : List Byte := stepOfOp 0x40 0 0 0 0 (natLe 4 0 ++ [0, 9])
theorem wit_setpt : readyOn (.setpt 0 0 {}) (sStep 0 0 .ready setptB) (fun s c => padOk s 0 0 [⟨leAt c.b 8 4, 16⟩] &&
    (s.ctl.chans[s.leaderOf (leAt c.b 0x0C 1)]?).isSome) = true := by decide +kernel
theorem wit_setpt_pair : readyOn (.setpt 1 0 {}) (sStep 1 0 .ready (stepOfOp 0x40 0 0 0 0 (natLe 4 0 ++ [2, 9]))) (fun s c =>
    c.part.hinged && padOk s 1 0 [⟨leAt c.b 8 4, 16⟩] && (s.ctl.chans[s.leaderOf (leAt c.b 0x0C 1)]?).isSome) = true := by decide +kernel
theorem test_setpt : ran (exec (.setpt 0 0 {}) (withPad (sStep 0 0 .ready setptB) 0 ([1, 0, 0, 0] ++ [2, 0, 0, 0] ++ [3, 0, 0, 0] ++ [4, 0, 0, 0])))
    (fun t => (t.chan 0).sp.words == [1, 0, 0, 4]) = true := by decide +kernel
/-- A setpoint written in the instant of a boundary is not the one that the sample of that boundary takes. -/
theorem test_setpt_next_sample : ∀ e ∈ [0, 1], (let s := sCtl .running
    let x : ChanSt := { s.chan 0 with sp := ⟨[9, 0, 0, 0], 5, [some 5, none, none, none], 0⟩ }
    let t := { s with ctl := { s.ctl with chans := s.ctl.chans.set 0 x }, time := { s.time with elapsed := e } }
    ((t.snapshot' 0 0 none).sps.getD 0 none).isSome) = (e == 1) := by decide +kernel

/-- A SENT port of one data nibble with the legacy CRC, at a tick or 3 us; input word 0 of channel 0 names it. -/
def sSent (tick : Nat) : State := withRegs (sCtl .running) [(0xC00800, 0xA1000000 + tick), (chKey 0 0x40, 0x10000000), (chKey 0 0x44, 0x1000)]
/-- Calibration, status 0, data 5, CRC 6 (5 XOR the entry 3 that the seed 5 selects), in 10 ns. -/
def pulses : List Nat := [168000, 36000, 51000, 54000]
theorem wit_sent : ∀ k ∈ [300, 9000], ((sSent k).ctl.sents[0]?).any (fun x => x.lastCal.isNone) = true ∧
    (sSent k).rv 0xC00800 = 0xA1000000 + k ∧ tbit (0xA1000000 + k) 31 = true ∧ field (0xA1000000 + k) 24 3 = 1 ∧ (0xA1000000 + k) % 2 ^ 16 = k := by
  decide +kernel
theorem wit_sent_on : (sSent 300).domOn 5 = true ∧ (∀ y ∈ (sSent 300).regs.ctl.caps, y.isOf 3 24 = false) := by decide +kernel
theorem wit_sent_good : sentCalOk 300 none 168000 = true ∧ pulses.length = 1 + 3 ∧ sentNibbles pulses = some [0, 5, 6] ∧
    sentCrc true [5] = 6 := by decide +kernel
theorem wit_sent_bad : sentCalOk 300 none 100000 = false ∧ (pulses.take 3).length ≠ 1 + 3 ∧ sentNibbles [168000, 30000, 51000, 54000] = none ∧
    sentNibbles [168000, 36000, 51000, 51000] = some [0, 5, 5] ∧ sentCrc true [5] ≠ 5 := by decide +kernel
theorem wit_sent_word : (sSent 300).leaderOf 0 = 0 ∧ ((sSent 300).chanEntry 0).isSome = true ∧ field ((sSent 300).inSrc 0 0) 28 4 = 1 ∧
    field ((sSent 300).inSrc 0 0) 24 4 = 0 := by decide +kernel
theorem test_sent : ran (exec (.sentFrame 0 pulses) (sSent 300)) (fun t => t.ctr 0xC00808 == 1 && ((t.chan 0).ins[0]?).join.isSome) = true ∧
    ran (exec (.sentFrame 0 (pulses.take 3)) (sSent 300)) (fun t => t.ctr 0xC00810 == 1) = true := by decide +kernel

/-! ### CAN -/

/-- Controller 0 in a state; object 5 receives classic frames of identifier 0x123, object 127 sends classic frames of length `len`. -/
def sCan (x len : Nat) : State :=
  withRegs { s0 with can := s0.can.set 0 { CanSt.reset with state := x } }
    [(canObjKey 0 5 0, 0x81000000), (canObjKey 0 5 4, 0x123), (canObjKey 0 5 8, 0x7FF), (canObjKey 0 127 0, 0xC0000000),
     (canObjKey 0 127 4, 0x100), (canObjKey 0 127 0x28, len)]
/-- One of its objects changed. -/
def withObj (s : State) (i : Nat) (f : CanObjSt → CanObjSt) : State := s.modCanObj 0 i f
theorem wit_can_on : (sCan 2 8).domOn 4 = true ∧ (∀ y ∈ (sCan 2 8).regs.can.caps, canOfKey y.key ≠ 0) ∧
    { s0 with pwr := { s0.pwr with doms := s0.pwr.doms.set 4 ⟨.off, false, 0, 0, 0, 0⟩ } }.domOn 4 = false := by decide +kernel
theorem wit_can_receive : ∀ x ∈ [2, 3], ((sCan x 8).can[0]?).any (fun c => c.state == x) = true ∧ (sCan x 8).canFmt 0 frame2.kind = true ∧
    (sCan x 8).objMatch 0 frame2 = some 5 ∧ (sCan x 8).objMatch 0 { frame2 with id := 0x124 } = none ∧
    ((sCan x 8).canObj 0 5).locked = false ∧ ((sCan x 8).canObj 0 5).new = false := by decide +kernel
theorem wit_can_locked : (withObj (sCan 2 8) 5 fun o => { o with locked := true }).objMatch 0 frame2 = some 5 ∧
    ((withObj (sCan 2 8) 5 fun o => { o with locked := true }).canObj 0 5).locked = true := by decide +kernel
theorem test_can_receive : ran (exec (.canFrameStored 0 frame2 ⟨77, 0⟩) (sCan 2 8)) (fun t =>
    (t.canObj 0 5).new && (t.canObj 0 5).len == 2 && t.rv (canObjKey 0 5 0x40) == 0x0201 && t.rv (canObjKey 0 5 0x1C) == 77) = true := by
  decide +kernel
/-- Input word 0 of channel 0 names object 5 of controller 0. -/
def sCanIn : State := withRegs { sCan 2 8 with ctl := (sCtl .running).ctl } [(chKey 0 0x40, 0x30050000), (chKey 0 0x44, 0x1000)]
theorem wit_can_input : sCanIn.objMatch 0 frame2 = some 5 ∧ sCanIn.leaderOf 0 = 0 ∧ (sCanIn.chanEntry 0).isSome = true ∧
    field (sCanIn.inSrc 0 0) 28 4 = 3 ∧ field (sCanIn.inSrc 0 0) 24 4 = 0 ∧ field (sCanIn.inSrc 0 0) 16 8 = 5 := by decide +kernel
theorem test_can_input : ran (exec (.framePassesCrc 0 frame2) sCanIn) (fun t => ((t.chan 0).ins[0]?).join.isSome) = true := by decide +kernel
theorem wit_can_read : ((withObj (sCan 2 8) 5 fun o => { o with new := true }).canObj 0 5).new = true ∧
    ((withObj (sCan 2 8) 5 fun o => { o with locked := true, new := true }).canObj 0 5).held = none ∧
    (sCan 2 8).engineOwned 0 5 = false ∧ (sCan 2 8).master = 3 := by decide +kernel
theorem test_can_read : ran (exec (.canObjStatusRead 0 0 5) (withObj (sCan 2 8) 5 fun o => { o with new := true, len := 2 }))
      (fun t => (t.canObj 0 5).locked && t.out == [.readData 0 [2, 0, 0, 0x80] false]) = true ∧
    ran (exec (.lastWordRead 0 0 5) (withObj (sCan 2 8) 5 fun o => { o with locked := true, new := true })) (fun t => !(t.canObj 0 5).new) = true ∧
    ran (exec (.lockTimeout 0 5) (withObj (sCan 2 8) 5 fun o => { o with locked := true, new := true })) (fun t => t.rv (canKey 0 0x24) == 64) = true ∧
    ran (exec (.canObjClear 3 0 5) (withObj (sCan 2 8) 5 fun o => { o with new := true })) (fun t => !(t.canObj 0 5).new) = true := by decide +kernel

theorem wit_can_req : ∀ n ∈ [0, 8], ((sCan 2 n).objHeads 0).contains 127 = true ∧ (sCan 2 n).objSends 0 127 = true ∧
    ((sCan 2 n).canObj 0 127).pending = false ∧ (sCan 2 n).objFmt 0 127 = 0 ∧ (sCan 2 n).rv (canObjKey 0 127 0x28) % 2 ^ 10 ≤ 8 ∧
    (sCan 2 n).engineOwned 0 127 = false := by decide +kernel
/-- Object 127 of another format: CAN FD of 13 bytes, which leave as 16, or CAN XL of 1 byte up to its span. -/
def sCanFmt (cfg len : Nat) : State := withRegs (sCan 2 len) [(canObjKey 0 127 0, cfg)]
theorem wit_can_req_formats : ∀ x ∈ [(0xD0000000, 1, 13), (0xD0000000, 1, 65), (0xE0000000, 2, 1), (0xE0000000, 2, 64), (0xE0000000, 2, 0)],
    (sCanFmt x.1 x.2.2).objFmt 0 127 = x.2.1 ∧ (sCanFmt x.1 x.2.2).objSends 0 127 = true ∧ (sCanFmt x.1 x.2.2).objSpan 0 127 = 0 ∧
    ((sCanFmt x.1 x.2.2).objHeads 0).contains 127 = true ∧ (sCanFmt x.1 x.2.2).rv (canObjKey 0 127 0x28) % 2 ^ 10 = x.2.2 := by decide +kernel
theorem test_can_req_formats : ran (exec (.canObjReq 3 0 127) (sCanFmt 0xD0000000 13)) (fun t => (t.canObj 0 127).pending && (t.canObj 0 127).len == 16 &&
      (t.canObj 0 127).reqLen == 13) = true ∧
    ran (exec (.canObjReq 3 0 127) (sCanFmt 0xE0000000 0)) (fun t => !(t.canObj 0 127).pending && tbit (t.rv (canKey 0 0x24)) 12) = true := by
  decide +kernel
/-- Object 127 is pending, and the controller has chosen it or nothing. -/
def sPend (sel : Option CanSel) : State := (withObj (sCan 2 8) 127 fun o => { o with pending := true, len := 8, reqLen := 8 }).modCan 0 fun c => { c with sel := sel }
theorem wit_can_send : ((sPend none).canObj 0 127).pending = true ∧ (sPend none).canListen 0 = false ∧
    ((sPend none).objFrame 0 127).any (fun f => (sPend none).canFmt 0 f.kind && f.kind == 0) = true ∧ 127 < (sPend none).objLimit 0 ∧
    ((sPend (some (.obj 127))).canObj 0 127).engNext = none ∧ ((sPend (some (.obj 127))).canObj 0 127).noRetry = false := by decide +kernel
theorem wit_can_safe : ((sCan 2 8).modCan 0 fun c => { c with safe := some frame2 }).canOf 0 = { CanSt.reset with state := 2, safe := some frame2 } := by
  decide +kernel
theorem test_can_send : ran (exec (.canObjReq 3 0 127) (sCan 2 8)) (fun t => (t.canObj 0 127).pending && (t.canObj 0 127).len == 8) = true ∧
    ran (exec (.canObjAbort 3 0 127) (sPend none)) (fun t => !(t.canObj 0 127).pending) = true ∧
    ran (exec (.transmitSelection 0) (sPend none)) (fun t => (t.canOf 0).sel == some (.obj 127)) = true ∧
    ran (exec (.arbitrationLost 0) (sPend (some (.obj 127)))) (fun t => (t.canObj 0 127).pending && (t.canOf 0).sel == none) = true ∧
    ran (exec (.canFrameSent 0 ⟨9, 0⟩ none) (sPend (some (.obj 127)))) (fun t => !(t.canObj 0 127).pending && t.ctr (canKey 0 0x48) == 1) = true := by
  decide +kernel
/-- Reference messages every 1,000 us, at an instant of the time base in us. -/
def sRef (us : Nat) : State :=
  let s := withRegs (sCan 2 8) [(canKey 0 0x30, 0x80000055), (canKey 0 0x34, 1000)]
  { s with time := { s.time with tb := us * 1000 * 2 ^ 28 } }
theorem wit_can_reference : (sRef 7000).canRef 0 = true ∧ (sRef 7000).onRefPeriod 0 = true ∧ (sRef 7001).onRefPeriod 0 = false ∧
    (sCan 2 8).canRef 0 = false ∧ ((sRef 7000).canOf 0).refAt = none := by decide +kernel
theorem test_can_reference : ran (exec (.referenceMessage 0) (sRef 7000)) (fun t => (t.canOf 0).refDue == 1 &&
      ran (exec (.referenceMessage 0) t) fun u => (u.canOf 0).refDue == 1) = true ∧
    ran (exec (.referenceMessage 0) (sRef 7001)) (fun t => (t.canOf 0).refDue == 0) = true := by decide +kernel

/-- A nominal bit of 80 CAN clocks: 1 + 31 + 24 + 24. -/
def sTiming : State := withRegs (sCan 0 8) [(canKey 0 8, 0x17171E)]
theorem wit_can_timing : sTiming.canTimingOk 0 = true ∧ (sCan 0 8).canTimingOk 0 = false := by decide +kernel
theorem wit_can_states : ∀ x ∈ [1, 5], ((sCan x 8).can[0]?).any (fun c => c.state == x && !c.stopDue && c.sel.isNone) = true := by decide +kernel
theorem wit_can_exception : tbit ((withRegs (sCan 3 8) [(canKey 0 0, 0x20000000)]).canCtl 0) 29 = true := by decide +kernel
/-- WAKE_EN is set, and the module is parked, or PD4 is off. -/
def sWakeCan : State := { withRegs (sCan 0 8) [(canKey 0 0x38, 0x80000000)] with boot := { s0.boot with keyOff := .parked } }
def sWakeOff : State :=
  { withRegs (sCan 0 8) [(canKey 0 0x38, 0x80000000)] with pwr := { s0.pwr with doms := s0.pwr.doms.set 4 ⟨.off, false, 3, 0, 0, 0⟩ } }
theorem wit_can_wake : sWakeCan.wakeEn 0 = true ∧ sWakeCan.boot.keyOff = .parked ∧ sWakeCan.boot.powered = true ∧
    sWakeOff.wakeEn 0 = true ∧ sWakeOff.boot.keyOff ≠ .parked ∧ (sWakeOff.pwr.doms[4]?).any (fun d => d.state == .off) = true ∧
    (sCan 0 8).wakeEn 0 = false ∧ ((sCan 0 8).pwr.doms[4]?).any (fun d => d.state != .off) = true := by decide +kernel
theorem test_can_wake : ran (exec (.wakeUpPattern ⟨0, 1, 2⟩) sWakeCan) (fun t => tbit (t.rv (canKey 0 0x38)) 30 && t.boot.wakeStart && t.boot.laneCfg == 1 && t.boot.cfgmSel == 2) = true ∧
    ran (exec (.wakeUpPattern ⟨0, 1, 2⟩) sWakeOff) (fun t => tbit (t.rv (canKey 0 0x38)) 30 && !t.boot.wakeStart) = true := by decide +kernel
theorem test_can_errors : ran (exec (.canError 0 .transmitter 3 none) ((sCan 2 8).modCan 0 fun c => { c with txErr := 248 }))
      (fun t => (t.canOf 0).state == 4 || (t.canOf 0).state == 5) = true ∧
    ran (exec (.canError 0 .receiver 3 none) ((sCan 2 8).modCan 0 fun c => { c with rxErr := 127 })) (fun t => (t.canOf 0).state == 3) = true ∧
    ran (exec (.busOffRecovery 0) (sCan 5 8)) (fun t => (t.canOf 0).state == 2) = true ∧
    ran (exec (.busIntegrationDone 0) (sCan 1 8)) (fun t => (t.canOf 0).state == 2) = true ∧
    ran (exec (.protocolException 0) (withRegs (sCan 3 8) [(canKey 0 0, 0x20000000)])) (fun t => (t.canOf 0).state == 1) = true ∧
    ran (exec (.transmitDominantTimeout 0) (sCan 2 8)) (fun t => t.out == [.dominantOff 0]) = true := by decide +kernel
theorem wit_can_init : ((sCan 0 8).can[0]?).any (fun c => c.state == 0) = true ∧ (sPend (some (.obj 127))).canOf 0 ≠ .reset ∧
    (sCan 0 8).master = 3 := by decide +kernel
theorem test_can_init : ran (exec (.canInitSet 3 0 false) (sCan 2 8)) (fun t => (t.canOf 0).state == 0 && tbit (t.rv (canKey 0 0)) 0) = true ∧
    ran (exec (.canInitSet 3 0 true) (sCan 2 8)) (fun t => (t.canOf 0).stopDue) = true ∧
    ran (exec (.canInitClear 1 0) (sCan 0 8)) (fun t => t.rv (portKey 1 0x600020) == 0x80000003) = true := by decide +kernel
theorem test_can_init_clear : ran (exec (.canInitClear 3 0) sTiming) (fun t => (t.canOf 0).state == 1 && !tbit (t.rv (canKey 0 0)) 0) = true ∧
    ran (exec (.canInitClear 3 0) (sCan 0 8)) (fun t => (t.canOf 0).cfgErr && t.rv (canKey 0 0x24) == 256) = true := by decide +kernel
/-- Object 127 sends CAN FD frames with bit-rate switching and delay compensation. -/
def sFd : State :=
  withRegs (sPend (some (.obj 127))) [(canKey 0 0, 0x80000000), (canObjKey 0 127 0, 0xD8000000), (canKey 0 0x14, 0x80), (canKey 0 0xC, 0x01010700)]
theorem wit_can_tdc : (sFd.objFrame 0 127).any (fun f => f.kind == 1 && f.brs && sFd.tdcFails 0 f.kind f.brs 200 &&
    !sFd.tdcFails 0 f.kind f.brs 5) = true := by decide +kernel
theorem test_can_tdc : ran (exec (.canFrameSent 0 ⟨9, 0⟩ (some 200)) sFd) (fun t => tbit (t.rv (canKey 0 0x24)) 11 && t.ctr (canKey 0 0x48) == 0) = true ∧
    ran (exec (.canFrameSent 0 ⟨9, 0⟩ (some 5)) sFd) (fun t => (t.canOf 0).tdcv == 5 && t.ctr (canKey 0 0x48) == 1) = true := by decide +kernel

/-! ### 10BASE-T1S, Ethernet, time -/

/-- A frame of 60 bytes to the broadcast address. -/
def frame60 : List Byte := List.replicate 6 0xFF ++ List.replicate 6 0 ++ [0x12, 0x34] ++ List.replicate 46 0
/-- T1S port 0 with T1S_CFG, a transmit command frame and a host frame. -/
def sT1s (cfg : Nat) (cmds : List (List Byte)) (tx : Option (List Byte)) : State :=
  withRegs { s0 with t1s := s0.t1s.set 0 ⟨[[1], [2]], cmds.map ((0, ·)), tx, false, false, 0⟩ } [(t1sKey 0 0, cfg), (t1sKey 0 4, 0x01000001), (t1sKey 0 8, 128)]
theorem wit_t1s_receive : (∀ y ∈ s0.regs.ctl.caps, groupOf y.key ≠ 3) ∧ (sT1s 0x80000000 [] none).t1sOn 0 = true ∧ (sT1s 0x80000000 [] none).ptpTakes 4 frame60 = false ∧
    (sT1s 0x80000000 [] none).netfFirst 4 frame60 = none ∧ macTakes 0 0 false frame60 = true ∧
    ((sT1s 0x80000000 [] none).t1s[0]?).any (fun x => decide (x.fill + frame60.length ≤ 32768)) = true := by decide +kernel
theorem wit_t1s_commands : tbit (1#32 : Word).toNat 0 = true ∧ tbit (0x8000003C#32 : Word).toNat 31 = true ∧ field (0x8000003C#32 : Word).toNat 0 11 = 60 ∧
    field (0x800005EE#32 : Word).toNat 0 11 = 1518 ∧ (sT1s 0 [] none).master = 3 := by decide +kernel
theorem wit_t1s_send : (sT1s 0x80000000 [frame60] none).t1sOn 0 = true ∧ tbit ((sT1s 0x80000000 [] (some [])).rv (t1sKey 0 0)) 30 = false ∧
    tbit ((sT1s 0xC0000000 [] none).rv (t1sKey 0 0)) 30 = true ∧ (sT1s 0x80000000 [] (some [])).ptpWaits 4 = false ∧
    (sT1s 0x80000000 [frame60] none).t1sWaits 0 = true ∧ (sT1s 0 [] none).t1sOn 0 = false := by decide +kernel
/-- PLCA is active on port 0, whose node takes two frames in an opportunity. -/
def sPlca (cmds : List (List Byte)) : State :=
  let s := sT1s 0xC0000000 cmds none
  { s with t1s := s.t1s.map fun x => { x with plcaActive := true } }
theorem wit_t1s_plca : (sPlca [[5], [6], [7]]).t1sOn 0 = true ∧ (sPlca [[5], [6], [7]]).t1sPlca 0 = true ∧
    (sPlca [[5], [6], [7]]).t1sBurst 0 = 1 ∧ ((sPlca []).t1sOf 0).plcaActive = true ∧ field ((sPlca []).rv (t1sKey 0 4)) 24 8 = 1 := by decide +kernel
/-- A PTP message waits on T1S port 0, and a host frame behind it. -/
def sT1sPtp : State :=
  let s := sT1s 0x80000000 [] (some [6])
  withRegs { s with time := { s.time with tb := 8 * 2 ^ 28, ptp := s.time.ptp.set 4 { PtpSt.reset with queue := [⟨0, 9, ⟨7, 0⟩, 0⟩] } } }
    [(ptpKey 4 0, 0x80000005), (timeKey 0x50, 1)]
theorem wit_t1s_ptp : sT1sPtp.t1sOn 0 = true ∧ tbit (sT1sPtp.rv (t1sKey 0 0)) 30 = false ∧ (sT1sPtp.t1s[0]?).any (·.cmds.isEmpty) = true ∧
    (sT1sPtp.time.ptp[4]?).any (fun y => y.queue.length == 1) = true ∧ sT1sPtp.ptpWaits 4 = true := by decide +kernel
theorem wit_t1s_short : field (0x80000010#32 : Word).toNat 0 11 < 60 ∧ 1518 < field (0x800007FF#32 : Word).toNat 0 11 := by decide +kernel
theorem test_t1s_ptp : ran (exec (.transmitOpportunity ⟨0, false, [⟨8, 0⟩]⟩) sT1sPtp) (fun t => t.out.length == 1 && (t.t1sOf 0).tx == some [6] &&
    (t.time.ptp[4]?).any (fun y => y.queue.head?.any fun m => m.kind == 1)) = true := by decide +kernel
theorem test_t1s : ran (exec (.t1sFrameReceived 0 frame60 true) (sT1s 0x80000000 [] none)) (fun t => (t.t1sOf 0).rxFifo.length == 3) = true ∧
    ran (exec (.pop 3 0 1) (sT1s 0x80000000 [] none)) (fun t => (t.t1sOf 0).rxFifo == [[2]]) = true ∧
    ran (exec (.t1sTxGo 3 0 0x8000003C) (sT1s 0x80000000 [] none)) (fun t => (t.t1sOf 0).tx == some (List.replicate 60 0)) = true ∧
    ran (exec (.transmitOpportunity ⟨0, true, []⟩) (sT1s 0x80000000 [[5]] (some [6]))) (fun t => t.out == [] && t.ctr (t1sKey 0 0x58) == 1) = true ∧
    ran (exec (.transmitOpportunity ⟨0, false, []⟩) (sPlca [[5], [6], [7]])) (fun t => t.out == [.t1s 0 [5], .t1s 0 [6]]) = true ∧
    ran (exec (.beacon ⟨0, true⟩) (sPlca [])) (fun t => !(t.t1sOf 0).plcaActive && t.rv (t1sKey 0 0x18) == 4) = true ∧
    ran (exec (.transmitOpportunity ⟨0, false, []⟩) (sT1s 0x80000000 [[5]] (some [6]))) (fun t => t.out == [.t1s 0 [5]] && (t.t1sOf 0).tx == some [6]) = true ∧
    ran (exec (.beacon ⟨0, false⟩) (sT1s 0xC0000000 [] none)) (fun t => (t.t1sOf 0).plcaActive) = true := by decide +kernel

/-- Ethernet port 0 up, of partition 0; receive ring of 2 slots at 0x3000, transmit ring at 0x4000 whose head slot holds 60 bytes. -/
def sEth (link : Bool) (cmds : List (List Byte)) : State :=
  withDram (withRegs { s0 with eth := s0.eth.set 0 ⟨link, false, 0, cmds.map ((0, ·))⟩ }
    [(ethKey 0 0, 0xC8011000), (ethKey 0 0x18, 0x3000), (ethKey 0 0x20, 1), (ethKey 0 0x28, 0x4000), (ethKey 0 0x30, 1)]) 0x4000
    (natLe 2 60 ++ List.replicate 14 0 ++ List.replicate 60 7)
theorem wit_eth_off : (sEth false []).ethOn 0 = false ∧ (sEth true []).ethOn 0 = true := by decide +kernel
theorem wit_eth_receive : let s := sEth true []
    beAt frame60 12 2 ≠ 0x8100 ∧ frame60.length ≤ 1518 ∧ (etherType frame60).1 ≠ 0x8808 ∧ s.ptpTakes 0 frame60 = false ∧
      s.netfFirst 0 frame60 = none ∧ s.scatTakes 0 frame60 = none ∧
      macTakes (s.rv (ethKey 0 8)) (s.rv (ethKey 0 0xC)) (tbit (s.ethCfg 0) 27) frame60 = true ∧
      s.rv (ethKey 0 0x24) ≠ s.rv (ethKey 0 0x20) ∧ s.ethSlot 0 0x18 (s.rv (ethKey 0 0x24)) = .dram 0x3000 ∧
      s.dramOf (s.ethPart 0) = some (0, 2 ^ 26) ∧ 0x3000 + 16 + frame60.length ≤ 2 ^ 26 := by decide +kernel
theorem wit_eth_send : let s := sEth true []
    s.ptpWaits 0 = false ∧ s.domOn 4 = true ∧
    s.rv (ethKey 0 0x34) ≠ s.rv (ethKey 0 0x30) ∧
      (s.fetchPlace (s.ethPart 0) (s.ethSlot 0 0x28 (s.rv (ethKey 0 0x34))) 16 {}).2 = 0 ∧
      leAt (s.fetchPlace (s.ethPart 0) (s.ethSlot 0 0x28 (s.rv (ethKey 0 0x34))) 16 {}).1 0 2 = 60 ∧
      (s.fetchPlace (s.ethPart 0) (s.ethSlot 0 0x28 (s.rv (ethKey 0 0x34))) 76 {}).2 = 0 ∧
      tbit (byteAt (s.fetchPlace (s.ethPart 0) (s.ethSlot 0 0x28 (s.rv (ethKey 0 0x34))) 76 {}).1 2).toNat 0 = false := by decide +kernel
theorem wit_eth_link : tbit ((sEth false []).ethCfg 0) 31 = true ∧ tbit ((sEth false []).ethCfg 0) 30 = true ∧
    tbit (field ((sEth false []).ethCfg 0) 16 5) 0 = true ∧ (sEth false []).master = 3 := by decide +kernel
theorem test_eth : ran (exec (.ethFrameReceived 0 frame60 true 9) (sEth true [])) (fun t =>
      t.rv (ethKey 0 0x24) == 1 && t.dram.mem.readBytes 0x3010 14 == frame60.take 14) = true ∧
    ran (exec (.ethTxTail 3 0 5) (sEth true [])) (fun t => t.rv (ethKey 0 0x30) == 5) = true ∧
    ran (exec (.ethFrameSent 0 ⟨9, 0⟩ {}) (sEth true [[1, 2]])) (fun t => t.out == [.eth 0 [1, 2]] && t.rv (ethKey 0 0x34) == 0) = true ∧
    ran (exec (.ethFrameSent 0 ⟨9, 0⟩ {}) (sEth true [])) (fun t => t.out.head? == some (.eth 0 (List.replicate 60 7))) = true ∧
    ran (exec (.ethLinkChange 0 true true 0) (sEth false [])) (fun t => (t.ethOf 0).link && (t.ethOf 0).master) = true := by decide +kernel

/-- The time base in a state; STEP would move it by a number of ns; THR is 1000 ns. -/
def sTime (m : TimeMode) (d : Nat) (slew : Option Int) : State :=
  withRegs { s0 with time := { s0.time with mode := m, slew := slew } } [(timeKey 0x1C, d), (timeKey 0x24, 1000)]
theorem wit_time_step : (sTime .free 2000 none).servoOn = false ∧ (sTime .tracking 1000 none).stepDelta.natAbs ≤ (sTime .tracking 1000 none).jumpThr ∧
    (sTime .tracking 1001 none).jumpThr < (sTime .tracking 1001 none).stepDelta.natAbs ∧ (sTime .free 0 none).drive = true ∧ s0Depot.drive = false ∧
    (withRegs s0 [(timeKey 0x28, 0x80000000)]).servoOn = true ∧ s0.master = 3 ∧ s0Depot.master = 3 := by decide +kernel
theorem test_time : ran (exec (.step 3) (sTime .tracking 1000 none)) (fun t => t.time.slew == some (1000 * 2 ^ 28)) = true ∧
    ran (exec (.step 3) (sTime .tracking 1001 none)) (fun t => t.rv (timeKey 0x30) == 4) = true ∧
    ran (exec (.release 3) s0Depot) (fun t => t.time.mode == .free) = true ∧
    ran (exec .slewEnd (sTime .tracking 0 (some 0))) (fun t => t.time.slew == none && t.rv (timeKey 0x30) == 2) = true ∧
    ran (exec .syncLost (withRegs (sTime .tracking 0 none) [(timeKey 0x28, 0x80000000)])) (fun t => t.time.mode == .holdover) = true ∧
    ran (exec (.timeRateCheck true) s0) (fun t => t.safe.flog.map (·.code) == [0x0418]) = true := by decide +kernel
/-- Pulse generator 0, whose pin is enabled: an edge index, a train of n pulses with a period or a single pulse. -/
def sPulse (next period n : Nat) (high : Bool) : State :=
  withRegs { s0 with time := { s0.time with
      tb := next * period * 2 ^ 28, elapsed := 50, pulse := s0.time.pulse.set 0 ⟨true, next, high, 0, false⟩ } }
    [(pgKey 0 0, 0xC0000000), (pgKey 0 0x10, period), (pgKey 0 0x14, 50), (pgKey 0 0x18, n)]
theorem wit_pulse_due : (sPulse 4 100 5 false).edgeDue 0 4 = true ∧ (sPulse 0 0 0 false).edgeDue 0 0 = true ∧
    (sPulse 4 100 5 false).edgeDue 0 5 = false ∧ (sPulse 0 0 0 true).widthDone 0 ⟨true, 0, true, 0, false⟩ = true ∧
    (sPulse 0 0 0 true).widthDone 0 ⟨true, 0, true, 1, false⟩ = false := by decide +kernel
theorem wit_pulse : (sPulse 0 0 0 false).rv (pgKey 0 0x10) = 0 ∧ (sPulse 4 100 5 false).rv (pgKey 0 0x10) ≠ 0 ∧
    4 < (sPulse 4 100 5 false).rv (pgKey 0 0x18) ∧ (sPulse 4 100 0 false).rv (pgKey 0 0x18) = 0 ∧
    ((sPulse 0 0 0 true).time.pulse[0]?).any (·.high) = true := by decide +kernel
theorem test_pulse : ran (exec (.pulseLeadingEdge 0) (sPulse 4 100 5 false)) (fun t => t.out == [.pulse 0 true] && t.ctr (pgKey 0 0x20) == 1) = true ∧
    ran (exec (.pulseLeadingEdge 0) (sPulse 5 100 5 false)) (fun t => t.out == []) = true ∧
    ran (exec (.pulseTrailingEdge 0) (sPulse 1 0 0 true)) (fun t => t.out == [.pulse 0 false]) = true := by decide +kernel

/-- PTP on Ethernet port 0: a role, peer or end-to-end delay (profile 0 or 1), domain 5, one-step; the servo on or off. -/
def sPtp (role prof : Nat) (servo : Bool) (x : PtpSt) : State :=
  withRegs { s0 with eth := s0.eth.set 0 ⟨true, false, 0, []⟩, time := { s0.time with tb := 8 * 2 ^ 28, ptp := s0.time.ptp.set 0 x } }
    [(ethKey 0 0, 0x80000000), (ptpKey 0 0, 0xC0000005 + role * 2 ^ 24 + prof * 2 ^ 16), (timeKey 0x50, 1), (timeKey 0x28, b2n servo * 2 ^ 31)]
theorem wit_ptp : (∀ r ∈ [0, 1], ∀ p ∈ [0, 1], (sPtp r p true .reset).ptpUp 0 = true ∧ (sPtp r p true .reset).ptpRole 0 = r ∧
      (sPtp r p true .reset).ptpPeer 0 = (p == 0) ∧ (sPtp r p true .reset).ptpDomain 0 = 5) ∧ (sPtp 1 0 true .reset).servoOn = true ∧
    (sPtp 1 0 false .reset).servoOn = false ∧ field ((sPtp 1 0 true .reset).rv (timeKey 0x28)) 16 3 = 0 ∧
    (sPtp 1 0 true .reset).time.mode = .free ∧ tbit ((sPtp 0 0 true .reset).rv (ptpKey 0 0)) 30 = true ∧ s0.ptpUp 0 = false := by
  decide +kernel
/-- A clamped stamp is that of the port's accuracy. -/
theorem test_stamps : (sPtp 1 0 true .reset).stampOf 0 0 ⟨7, 5⟩ = ⟨7, 5⟩ ∧
    ((sPtp 1 0 true .reset).stampOf 0 0 ⟨900, 0⟩).ns = 8 + (sPtp 1 0 true .reset).stampAcc 0 := by decide +kernel
/-- A message waits on Ethernet port 0. -/
def sPtpWaits (role k : Nat) : State := sPtp role 1 true { PtpSt.reset with queue := [⟨k, 9, ⟨7, 0⟩, 0⟩] }
theorem wit_ptp_waits : ∀ k < 8, (sPtpWaits 0 k).ethOn 0 = true ∧ ((sPtpWaits 0 k).ethOf 0).cmds = [] ∧
    ((sPtpWaits 0 k).time.ptp[0]?).any (fun x => x.queue.head?.any fun m => m.kind == k) = true := by decide +kernel
/-- Its port sends two-step messages. -/
def sPtpTwo : State := withRegs (sPtpWaits 0 0) [(ptpKey 0 0, 0x80010005)]
theorem wit_ptp_two_step : tbit (sPtpTwo.rv (ptpKey 0 0)) 30 = false := by decide +kernel
/-- The request left at 100 ns and arrived 60 ns later; the last Sync came 40 ns behind its master: the mean delay is 50 ns. -/
def xReq : PtpSt := { PtpSt.reset with request := some (100 * 65536), lag := some (40 * 65536) }
theorem wit_ptp_delay : (sPtp 1 1 true xReq).meanDelay 0 xReq (100 * 65536) ⟨⟨160, 0⟩, ⟨0, 0⟩, 0, ⟨0, 0⟩⟩ = some (50 * 65536) := by decide +kernel
theorem test_ptp : ran (exec (.sync 0 ⟨0, 0⟩ 6 0 ⟨0, 0⟩ 0 false) (sPtp 1 0 true .reset)) (fun t => t.ctr (ptpKey 0 0x30) == 1) = true ∧
    ran (exec (.followUp 0 ⟨0, 0⟩ 0 false) (sPtp 1 0 true { PtpSt.reset with wait := some ⟨0, 0⟩ })) (fun t => t.ctr (ptpKey 0 0x30) == 1) = true ∧
    ran (exec (.delayExchange 0 none) (sPtp 1 0 true { PtpSt.reset with misses := 2 })) (fun t => t.rv (ptpKey 0 0xC) == 0xFFFFFFFF) = true ∧
    ran (exec (.delayRequestReceived 0 ⟨7, 0⟩ 5 9 3) (sPtp 0 1 true .reset)) (fun t => (t.time.ptp[0]?).map (·.queue) == some [⟨2, 9, ⟨7, 0⟩, 3⟩]) = true ∧
    ran (exec (.delayExchange 0 (some ⟨⟨160, 0⟩, ⟨0, 0⟩, 0, ⟨0, 0⟩⟩)) (sPtp 1 1 true xReq)) (fun t => t.rv (ptpKey 0 0xC) == 50) = true ∧
    ran (exec (.announce 0) (sPtp 1 0 true .reset)) (fun t => (t.time.ptp[0]?).map (·.announces) == some 1) = true := by decide +kernel
theorem test_ptp_sends : ran (exec (.ethFrameSent 0 ⟨8, 0⟩ {}) sPtpTwo) (fun t => t.ctr (ptpKey 0 0x28) == 1 &&
      (t.time.ptp[0]?).map (·.queue) == some [⟨1, 9, ⟨8, 0⟩, 0⟩]) = true ∧
    ran (exec (.ethFrameSent 0 ⟨8, 0⟩ {}) (sPtpWaits 1 6)) (fun t => (t.time.ptp[0]?).map (·.request) == some (some (8 * 65536))) = true ∧
    ran (exec (.syncTransmit 0 ⟨0, 0⟩) (sPtp 0 0 true .reset)) (fun t => (t.time.ptp[0]?).map (·.syncSeq) == some 1) = true ∧
    ran (exec (.announceTransmit 0) (sPtp 0 0 true .reset)) (fun t => (t.time.ptp[0]?).map (·.announceSeq) == some 1) = true ∧
    ran (exec (.delayRequestTransmit 0) (sPtp 1 0 true .reset)) (fun t => (t.time.ptp[0]?).map (·.delaySeq) == some 1) = true := by decide +kernel

/-! ### Ingest -/

/-- Ring 0 of partition 0 is enabled: two buffers of 16 KiB at 16 MiB; windows of 1 ms that close after 0.5 ms. Camera 0 accepts
RAW8 of 2 x 2; its stream 0 has its slot at 0x1000. Scatter engine 0 takes 4 points of 8 bytes, two in a datagram. -/
def sIng (cam : CamSt) (scat : ScatSt) (ring : RingSt) (at' : Nat) : State :=
  withRegs { s0 with
      ing := { s0.ing with cams := s0.ing.cams.set 0 cam, scats := s0.ing.scats.set 0 scat, rings := s0.ing.rings.set 0 ring }
      time := { s0.time with tb := at' * 2 ^ 28 }, dram := { s0.dram with mem := .zero } }
    [(camKey 0 0, 0x8000002A), (camKey 0 4, 0x00020002), (asKey 0 4, 0x1000), (asKey 1 4, 0x2000), (asKey 2 4, 0x3000),
     (scatKey 0 0, 0x80000100), (scatKey 0 0x14, 8), (scatKey 0 0x18, 2), (scatKey 0 0x20, 4),
     (ringKey 0 0, 0x80000001), (ringKey 0 4, 0x1000000), (ringKey 0 0xC, 0x4000), (ringKey 0 0x1C, 1000000), (ringKey 0 0x20, 500000)]
/-- A camera with a frame in progress. -/
def camBusy : CamSt := ⟨1, true, 1, 0, 0, true, some (0, 0)⟩
def camIdle : CamSt := ⟨1, false, 0, 0, 0, false, none⟩
def noSweep : ScatSt := ⟨none, none, 0⟩
/-- A sample, in window 0 of a ring of two buffers. -/
def sampleOf (st : Nat) (d : SampleData) (closed complete : Bool) : SampleSt := ⟨st, 9, 0, 0, 0, d, closed, complete, 0⟩
def winRing (l : List SampleSt) : RingSt := ⟨[.filling, .free], [⟨0, some 0, false, l, false, [], 0⟩], [], 0, 0, 0, false, false⟩
def sFrame : State := sIng camBusy noSweep (winRing [sampleOf 0 (.lines [[1, 2]]) false false]) 0
def sNoFrame : State := sIng camIdle noSweep (winRing []) 0
theorem wit_no_captures : (∀ y ∈ sNoFrame.regs.ing.caps, groupOf y.key ≠ 4 ∧ groupOf y.key ≠ 6) := by decide +kernel
theorem wit_camera_idle : sNoFrame.camOn 0 = true ∧ knownDt (sNoFrame.camDt 0) = true ∧ sNoFrame.pipeOf 0 = some 0 ∧
    sNoFrame.streamOf 2 0 = some 0 ∧ sNoFrame.ringOf 0 = some 0 ∧ (sNoFrame.ing.streams[0]?).isSome = true ∧ (1 : Nat) ≠ sNoFrame.camVc 0 := by
  decide +kernel
theorem wit_camera_frame : sFrame.camOn 0 = true ∧ (sFrame.cam 0).inFrame = true ∧ (sFrame.cam 0).lines < sFrame.camH 0 ∧
    LineErr.none ≠ .ecc ∧ (sFrame.sending 0).map (·.data) = some (.lines [[1, 2]]) ∧ (sFrame.cam 0).gear ≠ 0 ∧ (sFrame.cam 0).cci = true := by
  decide +kernel
/-- The stamp of a frame is the time base's value at its start. -/
theorem test_frame_stamp : ran (exec (.frameStart 0 0 7 3) (sIng camIdle noSweep (winRing []) 5000)) (fun t =>
    (t.sending 0).any fun x => decide (4992 ≤ x.ts) && decide (x.ts ≤ 5008)) = true := by decide +kernel
theorem test_camera : ran (exec (.frameStart 0 0 7 3) sNoFrame) (fun t => (t.cam 0).inFrame && (t.sending 0).isSome) = true ∧
    ran (exec (.line 0 0 0x2A [3, 4] .crc) sFrame) (fun t => (t.cam 0).frameStatus == 0x0103 && (t.sending 0).map (·.data) == some (.lines [[1, 2], [0, 0]])) = true ∧
    ran (exec (.frameEnd 0 0) sFrame) (fun t => (t.cam 0).last == 0x0101 && t.ctr (camKey 0 0x28) == 1) = true ∧
    ran (exec (.lineTmoExpiry 0) sFrame) (fun t => (t.cam 0).last == 0x0101) = true ∧
    ran (exec (.portFifoOverflow 0) sFrame) (fun t => (t.cam 0).frameStatus == 0x0104) = true ∧
    ran (exec (.cameraLinkLost 0) sFrame) (fun t => (t.cam 0).last == 0x0112 && (t.cam 0).gear == 0) = true ∧
    ran (exec (.cameraLinkLock 0 4) sNoFrame) (fun t => (t.cam 0).gear == 5) = true := by decide +kernel
theorem wit_cci : sNoFrame.camOwner 0 = some 0 ∧ sNoFrame.bound 0 0 = true ∧ tbit (sNoFrame.rv (camKey 0 0x18)) 31 = false ∧
    tbit ((withRegs sNoFrame [(camKey 0 0x18, 0xC0120034)]).rv (camKey 0 0x18)) 31 = true ∧ tbit (0xC0120034#32 : Word).toNat 31 = true := by
  decide +kernel
theorem test_cci : ran (exec (.cciGo 0 0 0xC0120034) sNoFrame) (fun t => t.out == [.cci 0 0x12 0x34 true 0] && (t.cam 0).cci) = true ∧
    ran (exec (.cciDone 0 (some 0xAB)) (withRegs sFrame [(camKey 0 0x18, 0xC0120034)])) (fun t => t.rv (camKey 0 0x1C) == 0xAB) = true := by
  decide +kernel

/-- Scatter engine 0 in a state; a datagram of sweep 5 with two points. -/
def sScat (x : ScatSt) : State := sIng camIdle x (winRing [sampleOf 2 (.rows [] 0) false false]) 0
def dgram : List Byte := [5, 0] ++ List.replicate 14 0
theorem wit_scatter : (sScat noSweep).scatStream 0 = some 2 ∧ leAt dgram ((sScat noSweep).rv (scatKey 0 0x1C) / 2 ^ 16) 2 = 5 ∧
    s0.scatOn 0 = false ∧ (sScat noSweep).scatOn 0 = true ∧
    (sScat noSweep).scatCount 0 dgram = some 2 ∧ (sScat noSweep).scatCount 0 (dgram.take 15) = none ∧ 2 < (sScat noSweep).maxPoints 0 ∧
    1 + 2 < (sScat noSweep).maxPoints 0 ∧ 2 < (sScat noSweep).maxPoints 0 ∧ (sScat noSweep).maxPoints 0 ≤ 2 + 2 ∧
    (sScat noSweep).ringOf 2 = some 0 := by decide +kernel
theorem test_scatter : ran (exec (.udpDatagram 0 dgram 3) (sScat noSweep)) (fun t => (t.scat 0).sweep == some (5, 2)) = true ∧
    ran (exec (.udpDatagram 0 dgram 3) (sScat ⟨some (5, 3), none, 0⟩)) (fun t => (t.scat 0).sweep == some (5, 4) && (t.scat 0).reason == 0x0012 &&
      t.ctr (scatKey 0 0xB0) == 1) = true ∧
    ran (exec (.udpDatagram 0 (dgram.take 15) 3) (sScat noSweep)) (fun t => (t.scat 0).resync == some 5) = true ∧
    ran (exec (.sweepTmoExpiry 0) (sScat ⟨some (5, 3), none, 0⟩)) (fun t => (t.scat 0).sweep == none) = true := by decide +kernel

/-- A sample of stream 2 whose source has ended it. -/
def doneSample : SampleSt := sampleOf 2 (.rows [7, 8] 1) true false
theorem wit_sample_complete : let s := sIng camIdle noSweep (winRing [doneSample]) 0
    s.ringOf 2 = some 0 ∧ dueWindow s 0 2 = some ⟨0, some 0, false, [doneSample], false, [], 0⟩ ∧
      ([doneSample].find? (dueSample 2)) = some doneSample ∧ admissible 0 = true ∧ admissible 0x0101 = false ∧ s.dramOf 0 = some (0, 2 ^ 26) := by
  decide +kernel
/-- A sample that is complete only after the close instant of its window, 500,000 ns, is not in it, whenever the window closes. -/
theorem test_sample_too_late : dueWindow (sIng camIdle noSweep (winRing [doneSample]) 500000) 0 2 ≠ none ∧
    dueWindow (sIng camIdle noSweep (winRing [doneSample]) 500001) 0 2 = none ∧
    ran (exec (.sampleComplete 2) (sIng camIdle noSweep (winRing [doneSample]) 500001)) (fun t => t.dram.mem.cells == []) = true := by decide +kernel
theorem test_sample_complete : ran (exec (.sampleComplete 2) (sIng camIdle noSweep (winRing [doneSample]) 0))
    (fun t => t.dram.mem.cells == [(0x1003000, 7), (0x1003001, 8)]) = true := by decide +kernel
/-- Window 0 closes at 500,000 ns. -/
theorem wit_window_early : (sIng camIdle noSweep (winRing []) 499999).ringWindows 0 = true ∧
    tdiff (sIng camIdle noSweep (winRing []) 499999).now ((sIng camIdle noSweep (winRing []) 499999).winClose 0 0) < 0 ∧
    0 ≤ tdiff (sIng camIdle noSweep (winRing []) 500000).now ((sIng camIdle noSweep (winRing []) 500000).winClose 0 0) := by decide +kernel
theorem wit_window_close : (winRing []).openWin 0 = some ⟨0, some 0, false, [], false, [], 0⟩ ∧
    ({ winRing [] with wins := [⟨0, none, true, [], false, [], 0⟩] } : RingSt).openWin 0 = some ⟨0, none, true, [], false, [], 0⟩ ∧
    ({ winRing [] with wins := [] } : RingSt).openWin 0 = none ∧ ({ winRing [] with wins := [] } : RingSt).frees ≠ [] ∧
    (sIng camIdle noSweep (winRing []) 500000).streamsOf 0 = [0, 1, 2] ∧ slotOutcome (some { doneSample with complete := true }) = (0, true) ∧
    slotOutcome none = (0x0105, false) := by decide +kernel
/-- A stopped ring, and one with a placement fault, whose window 0 closes; no capture waits. -/
def sRingOut (cfgErr stopped : Bool) : State := sIng camIdle noSweep { winRing [] with cfgErr := cfgErr, stopped := stopped } 500000
theorem wit_window_out : ∀ x ∈ [(true, false), (false, true)], (sRingOut x.1 x.2).ringWindows 0 = true ∧
    0 ≤ tdiff (sRingOut x.1 x.2).now ((sRingOut x.1 x.2).winClose 0 0) ∧
    (∀ y ∈ (sRingOut x.1 x.2).regs.ing.caps, (sRingOut x.1 x.2).ringGroup 0 y = false) := by decide +kernel
theorem test_window_out : ran (exec (.windowClose 0) (sRingOut false true)) (fun t => t.ctr (ringKey 0 0x40) == 1) = true ∧
    ran (exec (.windowClose 0) (sRingOut true false)) (fun t => (t.ing.rings.getD 0 .reset).nextWin == 1 && t.ctr (ringKey 0 0x40) == 0) = true := by
  decide +kernel
/-- Under a placement fault nothing is written, completed or emitted. -/
theorem wit_placement_fault : ((sRingOut true false).ing.rings[0]?).any (·.cfgErr) = true ∧ (sRingOut true false).ringOf 2 = some 0 := by
  decide +kernel
/-- The slot of a sample that is not complete is zeros, in place of what stood there. -/
theorem test_slot_zeroed : ran (exec (.windowClose 0) (withDram (sIng camIdle noSweep (winRing []) 500000) 0x1003000 [7, 8]))
    (fun t => t.dram.mem.readBytes 0x1003000 2 == [0, 0]) = true := by decide +kernel
theorem test_window_close : ran (exec (.windowClose 0) (sIng camIdle noSweep (winRing [{ doneSample with complete := true }]) 500000))
    (fun t => t.ctr (asKey 2 0x10) == 1 && t.ctr (asKey 0 0x18) == 1 && (t.ing.rings.getD 0 .reset).nextWin == 1) = true := by decide +kernel
/-- A closed window with its record. -/
def closedRing : RingSt := ⟨[.filling, .free], [⟨0, some 0, false, [], true, List.replicate 64 1, packTs 77⟩], [], 1, 0, 0, false, false⟩
theorem wit_batch : closedRing.wins.find? (·.closed) = some ⟨0, some 0, false, [], true, List.replicate 64 1, packTs 77⟩ ∧
    (sIng camIdle noSweep closedRing 0).dramOf 0 = some (0, 2 ^ 26) := by decide +kernel
theorem test_batch : ran (exec (.batchComplete 0) (sIng camIdle noSweep closedRing 0))
    (fun t => t.dram.mem.read 0x100003F == 1 && t.ctr (ringKey 0 0x30) == 1 && ((t.ing.rings.getD 0 .reset).oldest).map (·.1) == some 0) = true := by
  decide +kernel

/-- Ring 0 is filled by the depot: requests of one sample each at DRAM 0x5000, slots of 0x100 bytes from 0x1000. -/
def sDep (ring : RingSt) (cache : List (Nat × CacheEntry)) : State :=
  let s := withRegs { s0Depot with ing := { s0Depot.ing with rings := s0Depot.ing.rings.set 0 ring, cache := cache },
                                   dram := { s0Depot.dram with mem := .zero } }
    [(ringKey 0 0, 0xC0000001), (ringKey 0 4, 0x1000000), (ringKey 0 0xC, 0x4000), (depKey 0 0, 0x5000), (depKey 0 8, 0x00010001),
     (depKey 0 0xC, 1), (depKey 0 0x14, 0x1000), (depKey 0 0x18, 0x100)]
  withDram s 0x5000 [1, 0, 0, 0, 0, 0, 0, 0, 42]
def freeRing : RingSt := ⟨[.free, .free], [], [], 0, 0, 0, false, false⟩
def request : List Byte := [1, 0, 0, 0, 0, 0, 0, 0, 42] ++ List.replicate 55 0
def buildRing : RingSt := ⟨[.filling, .free], [⟨0, some 0, false, [], false, request, 0⟩], [], 0, 0, 0, false, false⟩
theorem wit_depot_begin : let s := sDep freeRing []
    s.depOn 0 = true ∧ s.depWin 0 = none ∧ freeRing.frees ≠ [] ∧ s.depSize 0 = 1 ∧ s.depSize 0 ≤ s.depWaiting 0 ∧
      (s.depRead 0 {}).1 = request ∧ (s.depRead 0 {}).2.1 = 0 ∧ s.depHits ⟨0, none, false, [], false, request, 0⟩ = false := by decide +kernel
theorem wit_depot_fill : let s := sDep buildRing []
    s.depOn 0 = true ∧ s.depWin 0 = some ⟨0, some 0, false, [], false, request, 0⟩ ∧ s.dramOf 0 = some (0, 2 ^ 26) ∧
      (sDep buildRing [(42, ⟨⟨1, 1, 0, 8, [0]⟩, 0, 0, 1, false⟩)]).depHits ⟨0, some 0, false, [], false, request, 0⟩ = true ∧
      (s.depSlot 0 request 0).1.length ≤ 0x100 := by decide +kernel
theorem test_depot : ran (exec (.ingDepTail 0 0 9) (sDep freeRing [])) (fun t => t.rv (depKey 0 0xC) == 9) = true ∧
    ran (exec (.missTmoExpiry 0) (sDep buildRing [])) (fun t => (t.ing.rings.getD 0 .reset).wins.map (·.closed) == [true]) = true := by decide +kernel
/-- Sample 42 is in the cache, and EVICT names it. -/
def sCache (ring : RingSt) : State := withRegs (sDep ring [(42, ⟨⟨1, 1, 0, 8, [0]⟩, 0, 0, 1, false⟩)]) [(0x980004, 42)]
theorem wit_cache : (sCache freeRing).cacheId = 42 ∧ (sCache freeRing).building = [] ∧ (sCache buildRing).building = [42] ∧ (sCache freeRing).master = 3 := by
  decide +kernel
/-- Sample 42, which the batch under construction reads, is marked and leaves with the batch. -/
theorem test_cache_doomed : ran (exec (.clear 3) (sCache buildRing)) (fun t => (alGet t.ing.cache 42).any (·.doomed)) = true := by decide +kernel
theorem test_cache : ran (exec (.evict 3) (sCache freeRing)) (fun t => t.ing.cache == []) = true ∧
    ran (exec (.evict 3) (sCache buildRing)) (fun t => (alGet t.ing.cache 42).isSome) = true ∧
    ran (exec (.clear 3) (sCache freeRing)) (fun t => t.ing.cache == []) = true := by decide +kernel

/-! ### Decoders -/

/-- A decoder descriptor (R281): kind, SAMPLE_ID given or not, LEN, picture size; its data at DRAM 0x10000. -/
def auB (kind flags len w h : Nat) : List Byte :=
  natLe 1 kind ++ natLe 1 flags ++ [0, 0] ++ natLe 4 len ++ natLe 8 0x10000 ++ List.replicate 8 0 ++ natLe 8 7 ++ natLe 4 0xBEEF ++
    natLe 2 w ++ natLe 2 h ++ List.replicate 24 0
/-- Decoder stream 0 of a codec with one descriptor in its ring, and pictures that wait. -/
def sVdec (codec : Nat) (b : List Byte) (x : VdecSt) : State :=
  withDram (withRegs { s0 with ing := { s0.ing with vdecs := s0.ing.vdecs.set 0 x }, dram := { s0.dram with mem := .zero } }
    [(vdecKey 0 0, 0x81000000 + codec), (vdecKey 0 4, 0x00400040), (vdecKey 0 8, 0x6000), (vdecKey 0 0x10, 1)]) 0x6000 b
def vIdle (st : Nat) : VdecSt := ⟨st, 0, [], 0, false, none, []⟩
theorem wit_vdec_none : (s0.vdecDue 0) = none ∧ (sVdec 1 [] (vIdle 1)).vdecOwner 0 = some 0 ∧ (sVdec 1 [] (vIdle 1)).bound 0 0 = true := by
  decide +kernel
theorem wit_vdec_desc : ∀ x ∈ [(0, 0, 0, 0, 0), (1, 0, 768, 16, 16), (1, 0, 768, 8, 16), (2, 0, 0, 0, 0)],
    let b := auB x.1 x.2.1 x.2.2.1 x.2.2.2.1 x.2.2.2.2
    let s := sVdec 4 b (vIdle 1)
    s.vdecDue 0 = some 0 ∧ s.fetchPlace 0 (placeOf (s.vdecAddr 0)) 64 {} = (b, 0) ∧ (auCheck b == 0) = (x.1 != 0) := by decide +kernel
theorem wit_vdec_no_capture : ∀ y ∈ s0.regs.vdec.caps, y.isOf 7 0 = false := by decide +kernel
theorem wit_vdec_raw : let s := sVdec 4 (auB 1 0 768 16 16) (vIdle 1)
    (s.fetchPlace 0 (placeOf 0x10000) 768 {}).2 = 0 ∧ (s.fetchPlace 0 (placeOf 0x10000) 768 { dramUe := [0x10000] }).2 = 0x0311 ∧ s.codec 0 = 4 ∧ s.dimsOk 0 16 16 = true ∧ s.dimsOk 0 64 64 = true ∧
      s.dimsOk 0 8 16 = false ∧ s.dimsOk 0 65 16 = false ∧ 16 * 16 * 6 ≤ 2 * 768 := by decide +kernel
/-- A sequence header that fits, and one that does not. -/
def seqOk : SeqHeader := ⟨true, 64, 64, 4, false, false⟩
theorem wit_vdec_coded : let s := sVdec 1 (auB 1 0 768 16 16) (vIdle 1)
    s.codec 0 = 1 ∧ s.seqCheck 0 { seqOk with w := 8192 } = 0x0109 ∧ s.seqCheck 0 { seqOk with supported := false } = 0x010B ∧
      s.seqCheck 0 seqOk = 0 ∧ s.seqCheck 0 { seqOk with deep := true } = 0x010B ∧ (vIdle 1).state ≠ 2 ∧ (vIdle 2).state = 2 := by decide +kernel
/-- A decoded picture that waits: for the cache, or for alignment stream 1. -/
def waits (id : Option Nat) : PicWait := ⟨⟨1, 1, 0, 8, [5]⟩, 0, 3, 0xBEEF, id, 0x6000, some 1, (sVdec 1 [] (vIdle 2)).stageWords (vdecKey 0 0x100), some 1, 0⟩
theorem test_vdec : ran (exec (.vdecStrTail 0 0 9) (sVdec 1 [] (vIdle 1))) (fun t => t.rv (vdecKey 0 0x10) == 9) = true ∧
    ran (exec (.accessUnit 0 {} {} {}) (sVdec 4 (auB 1 0 768 8 16) (vIdle 2))) (fun t => (t.vdec 0).reason == 0x0109 && (t.vdec 0).state == 1) = true ∧
    ran (exec (.accessUnit 0 {} {} {}) (sVdec 4 (auB 1 0 768 16 16) (vIdle 1))) (fun t => (t.vdec 0).queue.length == 1 && (t.vdec 0).state == 2) = true ∧
    ran (exec (.accessUnit 0 {} {} {}) (sVdec 4 (auB 1 0 100 16 16) (vIdle 2))) (fun t => (t.vdec 0).reason == 0x010A && (t.vdec 0).state == 1) = true ∧
    ran (exec (.accessUnit 0 {} {} {}) (sVdec 4 (auB 0 0 0 0 0) (vIdle 1))) (fun t => t.dram.mem.readBytes 0x6038 8 == [0x0B, 1, 0, 0, 1, 0, 0, 0]) = true ∧
    ran (exec (.endOfStream 0 {}) (sVdec 1 (auB 2 0 0 0 0) { vIdle 2 with queue := [] })) (fun t => (t.vdec 0).state == 1 && t.rv (vdecKey 0 0x14) == 1) = true ∧
    ran (exec (.endOfStream 0 {}) (sVdec 1 (auB 2 0 0 0 0) { vIdle 2 with queue := [waits none] })) (fun t =>
      (t.vdec 0).queue == [] && t.ctr (vdecKey 0 0x28) == 1 && t.dram.mem.readBytes 0x6038 8 == [0, 0, 1, 0, 1, 0, 0, 0]) = true := by
  decide +kernel
theorem wit_picture : (∀ id ∈ [none, some 7], let s := sVdec 1 [] { vIdle 2 with queue := [waits id] }
    ((s.ing.vdecs[0]?).map (·.queue)) = some [waits id] ∧ alGet s.ing.cache 7 = none ∧ s.streamOf 3 0 = some 1 ∧ s.ringOf 1 = some 0 ∧
      (s.ing.streams[1]?).isSome = true ∧ s.vdecOwner 0 = some 0 ∧ placeOf 0x6000 = .dram 0x6000 ∧ s.dramOf 0 = some (0, 2 ^ 26)) ∧
    (let s := { sVdec 1 [] { vIdle 2 with queue := [waits (some 7)] } with ward := { s0Depot.ward with image := some imgDepot } }
     (s.ing.cache.map fun c => c.2.units).sum + (waits (some 7)).pic.units ≤ s.cacheMiB * 16) := by decide +kernel
/-- The cases of a coded unit: whatever a unit decodes to, a stream that has reset meets one of them, and each of them is met by some
outcome of the decoder. -/
theorem wit_unit_cases : ∀ (d : Decoded) (c : SeqHeader → Nat), (∃ h, d.seq = some h ∧ c h ≠ 0) ∨
    (∀ h, d.seq = some h → c h = 0) ∧ ((d.begins = false ∨ d.seq = none) ∨ d.begins = true ∧ d.seq.isSome = true) := by
  rintro ⟨_ | h, b, _, _, _⟩ c
  · simp
  · by_cases e : c h = 0 <;> cases b <;> simp [e]
theorem wit_unit_outcomes : let s := sVdec 1 (auB 1 0 768 16 16) (vIdle 1)
    let d : Decoded := { seq := some seqOk, begins := true, pics := [⟨0, 16, 16, []⟩] }
    s.codec 0 ≠ 4 ∧ s.vdecDue 0 = some 0 ∧ d.seq.all (fun h => s.seqCheck 0 h == 0) = true ∧ d.begins = true ∧ d.error = false ∧
      ({ d with error := true } : Decoded).error = true ∧ ({ d with seq := none } : Decoded).seq = none := by decide +kernel
/-- A unit whose data fail to be read; a raw picture of too few bytes. -/
theorem wit_vdec_data : let s := sVdec 4 (auB 1 0 768 16 16) (vIdle 1)
    s.dimsOk 0 16 16 = true ∧ ¬ 16 * 16 * 6 ≤ 2 * 100 ∧ s.dramOf 0 = some (0, 2 ^ 26) ∧ placeOf (s.vdecAddr 0) = .dram 0x6000 := by decide +kernel
/-- A cache that is full. -/
theorem wit_cache_full : let s := sVdec 1 [] { vIdle 2 with queue := [waits (some 7)] }
    s.cacheMiB * 16 < (s.ing.cache.map fun c => c.2.units).sum + (waits (some 7)).pic.units := by decide +kernel
theorem wit_picture_twice : (alGet (sCache freeRing).ing.cache 42).isSome = true := by decide +kernel
theorem test_picture : ran (exec (.pictureDone 0) (sVdec 1 [] { vIdle 2 with queue := [waits none] }))
    (fun t => (t.vdec 0).queue == [] && t.rv (vdecKey 0 0x1C) == 0xBEEF && t.ctr (vdecKey 0 0x28) == 1) = true := by decide +kernel

/-! ### Safety -/

/-- Monitor 3 escalates, and its data is older than its limit of 1 ms. -/
def sOld : State :=
  let s := withRegs s0 [(0x200080, 8)]
  { s with safe := { s.safe with mons := [(3, ⟨0, 0, [], false, false, 0⟩)] }, time := { s.time with tb := 5000000 * 2 ^ 28 } }
/-- An entry is due, with cause 4; the controller of the safe-state frame is there. -/
def sDue : State := { s0 with safe := { s0.safe with entryDue := some (4, 7) } }
/-- The safe state, entered with cause 4; no cause stands. -/
def sSafe : State := { s0 with safe := { s0.safe with state := 2, cause := 4, heartbeat := false, entryCnt := 1 } }
theorem wit_age : s0Depot.drive = false ∧ sOld.drive = true ∧ alGet sOld.safe.mons 3 = some ⟨0, 0, [], false, false, 0⟩ ∧
    sOld.monLimit 3 * 1000 < tdiff sOld.now 0 ∧ sOld.esc 3 = true ∧ sOld.safe.state = 1 ∧ sOld.safe.entryDue = none := by decide +kernel
/-- Without the reference oscillator, and off the grid of 1 µs. -/
theorem wit_age_off : s0.boot.refOsc = true ∧ sOld.boot.refOsc = true ∧ sOld.onMicro = true ∧
    { sOld with boot := { sOld.boot with refOsc := false } }.boot.refOsc = false ∧
    { sOld with time := { sOld.time with tb := 5000500 * 2 ^ 28 } }.onMicro = false := by decide +kernel
theorem test_age_off : exec .ageEvaluation { sOld with boot := { sOld.boot with refOsc := false } } =
      .next { sOld with boot := { sOld.boot with refOsc := false } } ∧
    ran (exec .ageEvaluation { sOld with time := { sOld.time with tb := 5000500 * 2 ^ 28 } }) (fun t =>
      (alGet t.safe.mons 3).any (fun x => !x.exceeded)) = true := by
  constructor
  · rfl
  · decide +kernel
theorem wit_entry : s0.safe.entryDue = none ∧ sDue.safe.entryDue = some (4, 7) ∧ sDue.safe.state = 1 ∧ sDue.safe.heartbeat = true ∧
    ∃ i e x, sDue.ward.image = some i ∧ i.safety = some e ∧ sDue.can[e.safeCan]? = some x :=
  ⟨by decide +kernel, rfl, by decide +kernel, by decide +kernel, _, _, _, rfl, rfl, rfl⟩
theorem wit_repeat : s0.safe.state ≠ 2 ∧ sSafe.safe.state = 2 ∧
    ∃ i e x, sSafe.ward.image = some i ∧ i.safety = some e ∧ sSafe.can[e.safeCan]? = some x :=
  ⟨by decide +kernel, rfl, _, _, _, rfl, rfl, rfl⟩
theorem wit_guard : s0.safe.heartbeat = true ∧ s0.drive = true ∧ s0.safe.state = 1 ∧ s0.safe.entryDue = none ∧ s0.pwr.oscLost = false ∧
    exec .guardKick s0 = .next { s0 with safe := { s0.safe with lastKick := s0.time.safeClk } } := ⟨rfl, rfl, rfl, rfl, rfl, rfl⟩
theorem test_age : ran (exec .ageEvaluation sOld) (fun t => (alGet t.safe.mons 3).any (fun x => x.exceeded && x.age == 5000) &&
    t.safe.entryDue == some (0, 5000000)) = true := by decide +kernel
theorem test_entry : ran (exec .safeStateEntry sDue) (fun t => t.safe.state == 2 && t.safe.cause == 4 && t.safe.entryTs == 7 &&
    t.safe.entryCnt == 1 && !t.safe.heartbeat && t.out == [.deadbolt false]) = true := by decide +kernel
theorem test_repeat : ran (exec .safeFrameRepeat sSafe) (fun t => ((t.can[0]?).bind (·.safe)).any fun f =>
    f.data.take 4 == [1, 1, 0x14, 4]) = true := by decide +kernel
theorem test_oscillator : ran (exec .referenceOscillatorStop s0) (fun t => t.time.coarse && t.safe.flog.any (·.code == 0x0418)) = true := by
  decide +kernel
theorem wit_enter : s0.isSafetyPort 0 = true ∧ s0.isSafetyPort 1 = false ∧ s0.drive = true ∧ s0.safe.state = 1 ∧
    s0.safe.entryDue = none := by decide +kernel
theorem test_enter : ran (exec (.enter 0 1) s0) (fun t => t.safe.flog.any (fun r => r == ⟨2, 0xFF, 0x0414, s0.now⟩) &&
    t.safe.entryDue == some (4, s0.now)) = true := by decide +kernel
theorem wit_resume : (sSafe.safe.state = 2 ∧ field (0x10002#32).toNat 16 16 = sSafe.safe.entryCnt % 2 ^ 16 ∧ sSafe.anyStanding = false) ∧
    (let s := { s0 with safe := { s0.safe with state := 0, heartbeat := false }, time := { s0.time with mode := .tracking } }
     s.safe.state = 0 ∧ s.drive = true ∧ s.boot.ready = true ∧ s.time.mode ≠ .free ∧ s.isSafetyPort 0 = true ∧
       field (2#32).toNat 16 16 = s.safe.entryCnt % 2 ^ 16 ∧ s.anyStanding = false) ∧
    field (0x20002#32).toNat 16 16 ≠ sSafe.safe.entryCnt % 2 ^ 16 ∧ sSafe.isSafetyPort 0 = true ∧
    { sSafe with safe := { sSafe.safe with hard := [6] } }.anyStanding = true ∧ s0.safe.state ≠ 2 ∧ s0.safe.state ≠ 0 ∧
    s0.time.mode = .free := by decide +kernel
theorem test_resume : ran (exec (.resume 0 0x10002) sSafe) (fun t => t.safe.state == 1 && t.safe.heartbeat) = true ∧
    ran (exec (.resume 0 0x20002) sSafe) (fun t => t.safe.state == 2 && tbit (t.rv 0x200020) 7) = true := by decide +kernel
theorem wit_no_safety_capture : ∀ y ∈ sOld.regs.safe.caps, groupOf y.key ≠ 15 := by decide +kernel
/-- The guard sends its frame also where the safe state has been entered before. -/
theorem test_guard : ran (exec .guardTimeout sSafe) (fun t => ((t.can[0]?).bind (·.safe)).any fun f => f.data.take 4 == [1, 0, 0x17, 4]) = true := by
  decide +kernel

/-- A unit that the plan tests, with these marks. -/
def tUnit (running mismatched : Bool) : TestSt := ⟨true, 7, running, mismatched, false, false, false, false, []⟩
/-- Test keys run; core 0 has this state, and a mark of the pairs that identify a fault, with the transients so far. -/
def sTest (t : TestSt) (ident : List Nat) (tr : List (Nat × Nat)) : State :=
  { s0 with safe := { s0.safe with running := true, plan := img.safety, nextPlan := img.safety, units := s0.safe.units.set 0 t,
                                   identifying := ident, transients := tr } }
theorem wit_keys : ∀ r ∈ [false, true], ∀ m ∈ [false, true], let s := sTest (tUnit r m) [] []
    s.safe.units[(0 : UnitIx).val]? = some (tUnit r m) ∧ s.safe.running = true ∧ (tUnit r m).enabled = true ∧ (tUnit r m).oos = false ∧
      (tUnit r m).passed = false ∧ s.safe.plan.any (fun e => e.lapsePolicy == 1) = true ∧ (tUnit r m).lapsed = false ∧ s.drive = true ∧
      s.safe.state = 1 ∧ s.safe.entryDue = none ∧ s.pwr.doms[13 + (0 : UnitIx).val]? = some ⟨.on, false, 0, 4, 0, 0⟩ := by decide +kernel
/-- Core 0 is idle in its slot, with bank 63 OFF: a granule is due; one that runs while a safety-relevant step waits is abandoned. -/
def sGranule (t : TestSt) : State :=
  let s := sTest t [] []
  { s with comp := { s.comp with cores := lmod s.comp.cores 0 fun c => { c with pad := { c.pad with banks := c.pad.banks.set 63 .off } } } }
def sAbandonDue : State :=
  withJob (sTest { tUnit true false with inSlot := true, opened := [63] } [] []) 0 (jobOf [tgtOf 0 [(0, tagSetB 0)] .fresh])
theorem wit_keys_osc : s0.boot.refOsc = true ∧ (sTest (tUnit true false) [] []).boot.refOsc = true ∧
    { s0 with boot := { s0.boot with refOsc := false } }.boot.refOsc = false := by decide +kernel
theorem wit_granule_due : (sGranule { tUnit false false with inSlot := true }).granuleDue 0 = true ∧
    (sTest { tUnit false false with enabled := false } [] []).granuleDue 0 = false ∧
    (sTest .reset [] []).granuleDue 16 = false ∧ s0.safetyReady 0 = false ∧ sAbandonDue.safetyReady 0 = true ∧
    (sAbandonDue.safe.units[0]?).any (·.running) = true := by decide +kernel
/-- An attention engine that is tested and idle. -/
def sEngineTest : State :=
  { s0 with safe := { s0.safe with running := true, plan := img.safety, units := s0.safe.units.set 16 (tUnit false false) } }
theorem wit_granule_engine : sEngineTest.granuleDue 16 = true := by decide +kernel
theorem test_granule_banks : ran (exec (.granuleStart 0) (sGranule { tUnit false false with inSlot := true })) (fun t =>
      (t.comp.cores[0]?).any (fun c => c.pad.banks[63]? == some .on) && t.safe.units[0]?.any fun x => x.opened == [63] && x.running) = true ∧
    ran (exec (.granuleAbandon 0) sAbandonDue) (fun t =>
      (t.comp.cores[0]?).any (fun c => c.pad.banks[63]? == some .off) && t.safe.units[0]?.any fun x => !x.running) = true := by decide +kernel
theorem wit_lapse_policy : lapseIsCause img.safety = true ∧ lapseIsCause none = false ∧ planTests img.safety 0 = true := by decide +kernel
theorem wit_keys_stopped : s0.safe.running = false ∧ s0.safe.units[(0 : UnitIx).val]? = some .reset := by decide +kernel
theorem wit_identification : (∀ tr ∈ [[], [(0, 0), (0, 0)]], let s := sTest (tUnit false false) [0] tr
    s.safe.units[(0 : UnitIx).val]? = some (tUnit false false) ∧ (0 : UnitIx).val / 2 = (0 : Fin 8).val ∧
      s.safe.identifying.contains (0 : Fin 8).val = true ∧ s.safe.transients = tr ∧ s.time.safeClk ≤ 0 + 1000000000) ∧
    (sTest (tUnit false false) [] []).safe.identifying.contains (0 : Fin 8).val = false ∧
    (if (0 : UnitIx).val % 2 = 0 then true else false) = true := by decide +kernel
theorem test_interval : ran (exec .intervalEnd (sTest (tUnit false false) [] [])) (fun t => t.safe.interval == 1 &&
    t.safe.units[0]?.any (fun x => x.lapsed && x.enabled && x.doneGranules == 0) && t.safe.entryDue == some (1, 0)) = true := by decide +kernel
theorem test_granule : ran (exec (.granuleDone 0 false) (sTest (tUnit true false) [] [])) (fun t => t.safe.units[0]?.any fun x =>
      x.passed && x.doneGranules == 8) = true ∧
    ran (exec (.granuleDone 0 true) (sTest (tUnit true false) [] [])) (fun t => t.safe.units[0]?.any (·.mismatched) && t.rv 0x210080 == 1) = true ∧
    ran (exec (.granuleDone 0 true) (sTest (tUnit true true) [] [])) (fun t => t.safe.units[0]?.any (·.oos)) = true := by decide +kernel
theorem test_pair : ran (exec (.pairIdentificationDone 0 false false) (sTest (tUnit false false) [0] [(0, 0), (0, 0)])) (fun t =>
      t.safe.units[0]?.any (·.oos) && t.safe.units[1]?.any (·.oos)) = true ∧
    ran (exec (.pairIdentificationDone 0 false true) (sTest (tUnit false false) [0] [])) (fun t =>
      !t.safe.units[0]?.any (·.oos) && t.safe.units[1]?.any (·.oos) && t.safe.identifying == []) = true := by decide +kernel

/-! ### Security -/

/-- An enrolment record (R409): erase slot 2, under the key of slot 1; the counter that follows 0. -/
def recHead : List Byte := natLe 4 0x4E455A41 ++ [2, 2, 1, 0] ++ natLe 4 1 ++ List.replicate 84 0
/-- The record, signed with the private key 1. -/
def recBytes : List Byte := recHead ++ natLe 32 0x707cf96ef274136812f7a33f4bbd674c3879a036c332a2bffcc0eb524d0ae512 ++
  natLe 32 0x47c1834806c5f64bf6842e605a214c599cc51f9a2f49b135ab7d845b76652e0b
theorem rec_digest : beNat (sm3 (sm2Za sm2G ++ recBytes.take 96)) =
    0xa933f3578a0ee5420ee9a2af6e5eafd176333e26652a8e0fab070503baa8fb97 := by decide +kernel
theorem rec_sG : ecMul 256 0x47c1834806c5f64bf6842e605a214c599cc51f9a2f49b135ab7d845b76652e0b (some sm2G) =
    some (0xee82c089ce39d433da22f08c73fdd13f659c4f0fd601b84718544ce68f3c3514, 0xcafd89dcff5afe3d759a09f92b581707ef97997bcff2758a020d16d07b7f422b) := by decide +kernel
theorem rec_tQ : ecMul 256 0xb83e7cb6f93a09b4097bd19fa5deb3a5d53ebfd0f27c53f5a83e6fadc370131d (some sm2G) =
    some (0xcbd8019a75d84f115e53250b7f5e8dc98205b8c7b907055cfa172f1f3ae328c2, 0x4b1814834d12055e11888f37ce71fb22e26eae0d008ba9ba0b6a84bb23088f60) := by decide +kernel
theorem rec_signed : sigOk recBytes 0x60 sm2G = true := by
  have l1 : leAt recBytes 0x60 32 = 0x707cf96ef274136812f7a33f4bbd674c3879a036c332a2bffcc0eb524d0ae512 := by decide +kernel
  have l2 : leAt recBytes (0x60 + 32) 32 = 0x47c1834806c5f64bf6842e605a214c599cc51f9a2f49b135ab7d845b76652e0b := by decide +kernel
  have l3 : (0x707cf96ef274136812f7a33f4bbd674c3879a036c332a2bffcc0eb524d0ae512 +
      0x47c1834806c5f64bf6842e605a214c599cc51f9a2f49b135ab7d845b76652e0b) % sm2N = 0xb83e7cb6f93a09b4097bd19fa5deb3a5d53ebfd0f27c53f5a83e6fadc370131d := by decide +kernel
  unfold sigOk
  rw [l1, l2]
  unfold sm2Verify
  simp only [l3, rec_digest, rec_sG, rec_tQ]
  decide +kernel
/-- The mailbox in a state, with SEC_MB_LEN, CHUNK_OFF and CHUNK_LEN set. -/
def sMb (st total : Nat) (l : List (Nat × Nat)) (b : List Byte) (len off n : Nat) : State :=
  let s := withRegs s0 [(0x300204, len), (0x300208, off), (0x30020C, n)]
  { s with sec := { s.sec with slots := [some sm2G, some sm2G, none, none], mb := { s.sec.mb with
      state := st, total := total, covered := l, staging := Mem.zero.writeBytes 0 b } } }
theorem wit_mailbox : (∀ n ∈ [8, 4194304], (sMb 0 0 [] [] n 0 0).sec.mb.state ≠ 2 ∧ (sMb 0 0 [] [] n 0 0).rv 0x300204 % 8 = 0 ∧
      8 ≤ (sMb 0 0 [] [] n 0 0).rv 0x300204 ∧ (sMb 0 0 [] [] n 0 0).rv 0x300204 ≤ 4194304) ∧
    (sMb 0 0 [] [] 12 0 0).rv 0x300204 % 8 ≠ 0 ∧ (sMb 0 0 [] [] 0 0 0).rv 0x300204 < 8 ∧
    4194304 < (sMb 0 0 [] [] 4194312 0 0).rv 0x300204 ∧ (sMb 1 160 [] [] 0 0 160).sec.mb.state = 1 ∧
    (sMb 1 160 [] [] 0 0 160).sec.mb.busyCopy = false ∧
    chunkOk ((sMb 1 160 [] [] 0 0 160).rv 0x300208) ((sMb 1 160 [] [] 0 0 160).rv 0x30020C) (sMb 1 160 [] [] 0 0 160).sec.mb.total = true ∧
    chunkOk ((sMb 1 160 [] [] 0 8 160).rv 0x300208) ((sMb 1 160 [] [] 0 8 160).rv 0x30020C) (sMb 1 160 [] [] 0 8 160).sec.mb.total = false ∧
    (sMb 1 160 [(0, 160)] [] 0 0 0).sec.mb.total = 160 ∧ fullyCovered (sMb 1 160 [(0, 160)] [] 0 0 0).sec.mb.covered 160 = true ∧
    fullyCovered (sMb 1 160 [] [] 0 0 0).sec.mb.covered (sMb 1 160 [] [] 0 0 0).sec.mb.total = false ∧
    (let s := sMb 1 160 [(0, 160)] (List.replicate 8 0 ++ natLe 4 160) 0 0 0
     s.sec.mb.total = leNat (s.sec.mb.staging.readBytes 8 4) ∧ fullyCovered s.sec.mb.covered s.sec.mb.total = true) ∧
    (sMb 2 160 [] [] 0 0 0).sec.mb.state = 2 := by decide +kernel
theorem test_mailbox : ran (exec (.mbChunk 3) (sMb 1 160 [] [] 0 0 160)) (fun t => t.sec.mb.busyCopy && t.sec.mb.chunk == (0, 160)) = true ∧
    ran (exec (.enrol 3) (sMb 2 160 [] [] 0 0 0)) (fun t => t.sec.mb.status == 0x0520 && t.sec.mb.state == 2) = true := by decide +kernel
/-- The record is staged whole and ENROL runs. -/
def sRec (b : List Byte) : State :=
  let s := sMb 2 160 [(0, 160)] b 0 0 0
  { s with sec := { s.sec with engine := [.enrol 3] } }
theorem recBytes_length : recBytes.length = 160 := by decide +kernel
theorem sRec_bytes : (sRec recBytes).sec.mb.bytes = recBytes := by
  have e : (sRec recBytes).sec.mb.staging = Mem.zero.writeBytes 0 recBytes := by simp only [sRec, sMb]
  have n : (sRec recBytes).sec.mb.total = recBytes.length := Eq.trans (b := 160) (by simp only [sRec, sMb]) recBytes_length.symm
  unfold MailboxSt.bytes
  rw [e, n, Mem.readBytes_writeBytes]
theorem wit_enrol : (sRec recBytes).sec.engine = .enrol 3 :: [] ∧ (sRec recBytes).sec.enrolCheck (sRec recBytes).sec.mb.bytes true = 0 ∧
    (sRec recBytes).sec.counters[3]? = some 0 := by
  refine ⟨rfl, ?_, rfl⟩
  rw [sRec_bytes]
  have f : enrolFields recBytes 0 = true := by decide +kernel
  have k : leAt recBytes 6 1 = 1 := by decide +kernel
  have c : (sRec recBytes).sec.counters.getD 3 0 = 0 := rfl
  have a : (sRec recBytes).sec.authKey 1 = some sm2G := rfl
  unfold SecSt.enrolCheck
  rw [c, f, k, a]
  simp only [rec_signed]
  rfl
theorem wit_enrol_fails : (sRec []).sec.engine = .enrol 3 :: [] ∧ (sRec []).sec.enrolCheck (sRec []).sec.mb.bytes true ≠ 0 := by decide +kernel
theorem wit_fw_update : (sMb 2 160 [] [] 0 0 0).sec.mb.state = 2 ∧ (sMb 2 160 [] [] 0 0 0).sec.enrolling = false ∧
    (sMb 2 160 [] [] 0 0 0).sec.fwCheck (sMb 2 160 [] [] 0 0 0).sec.mb.bytes true ≠ 0 := by decide +kernel
/-- A package with good fields: it passes where its signature verifies under the firmware key, which is a free value. Its check then
reads counter 0, which waits behind an operation that came earlier, and is due once it is the oldest. -/
def fwB : List Byte := natLe 4 0x57465A41 ++ [1, 0, 64, 0] ++ natLe 4 1024 ++ natLe 4 0x5016 ++ natLe 8 1 ++ List.replicate 1000 0
theorem wit_fw_passes : fwFields fwB = true ∧ leAt fwB 0x14 4 = 0 ∧ readsCounter 0 = true ∧ readsCounter 0x0501 = false := by decide +kernel
def sFw (ops : List SecOp) : State :=
  let s := sMb 2 1024 [(0, 1024)] fwB 0 0 0
  { s with sec := { s.sec with engine := ops } }
theorem wit_fw_queue : (sFw [.advance 2 7]).sec.engine ≠ [] ∧ (sFw [.advance 2 7]).sec.engine.head? ≠ some .firmware ∧
    (sFw [.advance 2 7]).sec.enrolling = false ∧ (sFw [.advance 2 7]).sec.puf = 1 ∧ (sFw [.advance 2 7]).sec.mb.state = 2 ∧
    (sFw [.advance 2 7, .firmware]).sec.engine.contains .firmware = true ∧ (sFw [.firmware]).sec.engine.head? = some .firmware := by decide +kernel
theorem wit_no_osc : { s0 with boot := { s0.boot with refOsc := false } }.boot.refOsc = false ∧ s0.boot.refOsc = true ∧
    { s0 with sec := { s0.sec with puf := 2 } }.sec.puf ≠ 1 := by decide +kernel
theorem wit_advance : ({ s0.sec with engine := [.advance 2 7] }).engine = [.advance 2 7] ∧ s0.sec.counters[2]? = some 0 := by decide +kernel
theorem wit_no_root_key : ({ s0.sec with puf := 2 }).puf ≠ 1 ∧ s0.sec.puf = 1 ∧ (sMb 2 160 [] [] 0 0 0).sec.engine = [] := by decide +kernel
/-- A write of a counter that fails leaves its value unknown, and WARD_ERROR reports it. -/
theorem test_advance_fails : ran (exec (.antiRollbackAdvance false) { s0 with sec := { s0.sec with engine := [.advance 2 7] } })
    (fun t => t.sec.unknown.contains 2 && t.rv 0x100014 == 0x20000) = true := by decide +kernel
/-- BEGIN ends with MB_DONE; a report waits for the oscillator. -/
theorem test_mailbox_begin : ran (exec (.mbBegin 3) (sMb 0 0 [] [] 160 0 0)) (fun t =>
      t.sec.mb.state == 1 && tbit (t.rv (portKey 3 0x300004)) 1) = true ∧
    exec .attestationDone { s0 with boot := { s0.boot with refOsc := false } } = .next { s0 with boot := { s0.boot with refOsc := false } } := by
  constructor
  · decide +kernel
  · rfl
theorem test_mailbox_copy_done : ran (exec .mbChunkCopyDone { s0 with sec := { s0.sec with mb := { s0.sec.mb with
      busyCopy := true, chunk := (8, 8), aperture := Mem.zero.writeBytes 0 [1, 2] } } })
    (fun t => t.sec.mb.staging.cells == [(8, 1), (9, 2)] && t.sec.mb.covered == [(8, 8)]) = true := by decide
theorem test_enrol_fails : ran (exec (.enrolComplete ⟨true, true⟩) (sRec [])) (fun t => t.sec.mb.status == 0x0521 && t.sec.mb.state == 0 &&
    t.sec.slots == (sRec []).sec.slots) = true := by decide +kernel
theorem test_advance : ran (exec (.antiRollbackAdvance true) { s0 with sec := { s0.sec with engine := [.advance 2 7] } })
    (fun t => t.sec.counters == [0, 0, 7, 0]) = true := by decide +kernel
theorem wit_attestation : (1#32 : Word).toNat % 2 = 1 ∧ (2#32 : Word).toNat % 2 = 0 ∧ tbit (s0.rv (portKey 0 0x300124)) 0 = false ∧ s0.sec.puf = 1 ∧
    s0.sec.fwRunning = true ∧ s0.sec.engine = [] ∧ tbit ((withRegs s0 [(portKey 0 0x300124, 1)]).rv (portKey 0 0x300124)) 0 = true := by
  decide +kernel
theorem wit_attestation_done : (∀ q rep, s0.sec.engine.head? ≠ some (.attest q rep)) ∧ (List.replicate 640 (0 : Byte)).length = 640 :=
  ⟨fun _ _ h => (nomatch h), by decide +kernel⟩
theorem test_attestation : ran (exec (.attestationGo 0 1) { s0 with sec := { s0.sec with puf := 2 } })
    (fun t => t.rv (portKey 0 0x300124) == 0x05200000 && t.sec.engine == []) = true := by decide +kernel
theorem wit_measurement : s0.bound (field (0x80000000#32 : Word).toNat 0 3) 0 = true ∧ tbit (0x80000000#32 : Word).toNat 31 = true ∧
    tbit (0#32 : Word).toNat 31 = false ∧ s0.bound (field (0x80000005#32 : Word).toNat 0 3) 0 = false := by decide +kernel
theorem test_measurement : ran (exec (.measurementGo 0 0x80000000) s0) (fun t => t.rv 0x300500 == 1 && t.rv 0x300520 == 0) = true := by
  decide +kernel

/-! ### Start-up and power -/

/-- The module with power, its start-up as far as these marks say. -/
def sBoot (puf : Nat) (fw lbist mbist : Bool) : State :=
  { s0 with sec := { s0.sec with puf := puf, fwRunning := fw }
            boot := { s0.boot with lbistDone := lbist, mbistDone := mbist, ready := false } }
theorem wit_startup : (sBoot 0 false false false).alive = true ∧ (sBoot 0 false false false).sec.puf = 0 ∧
    (sBoot 1 false false false).sec.puf = 1 ∧ (sBoot 1 false false false).sec.fwRunning = false ∧
    (sBoot 1 false false false).sec.romOnly = false ∧ (sBoot 1 true false false).sec.fwRunning = true ∧
    (sBoot 1 true false false).boot.lbistDone = false ∧ (sBoot 1 true false false).boot.keyOff = .none ∧
    (sBoot 1 true true false).boot.lbistDone = true ∧ (sBoot 1 true true false).boot.mbistDone = false ∧
    (sBoot 1 true true true).boot.mbistDone = true ∧ (sBoot 1 true true true).boot.refOsc = true ∧
    (sBoot 1 true true true).boot.ready = false ∧
    ((sBoot 1 true true true).boot.keyOffRecords ++ (sBoot 1 true true true).boot.records).length ≤ 62 := by decide +kernel
theorem wit_firmware_preferred : ∃ x, (sBoot 1 false false false).sec.bankFw (sBoot 1 false false false).sec.preferred true
    (fun bank : Nat => if bank = 0 then true else false) = some x := by
  have e : ({ s0.sec with puf := 1, fwRunning := false } : SecSt).counters.getD 0 0 = 0 := rfl
  show ∃ x, ({ s0.sec with puf := 1, fwRunning := false } : SecSt).bankFw 0 true (fun bank : Nat => if bank = 0 then true else false) = some x
  unfold SecSt.bankFw
  rw [e]
  exact ⟨_, by simp only [Bool.true_and, Nat.zero_le, decide_true, if_true]; rfl⟩
/-- The preferred bank holds no package; the other is as the module was made. -/
def sFallback : State := { sBoot 1 false false false with sec := { (sBoot 1 false false false).sec with banks := [some [], none] } }
theorem wit_firmware_fallback : sFallback.sec.bankFw sFallback.sec.preferred true (fun bank : Nat => if bank = 0 then false else true) = none ∧
    ∃ x, sFallback.sec.bankFw (1 - sFallback.sec.preferred) true (fun bank : Nat => if bank = 0 then false else true) = some x := by
  refine ⟨by decide +kernel, ?_⟩
  have e : sFallback.sec.counters.getD 0 0 = 0 := rfl
  show ∃ x, sFallback.sec.bankFw 1 true (fun bank : Nat => if bank = 0 then false else true) = some x
  unfold SecSt.bankFw
  rw [e]
  exact ⟨_, by simp only [Nat.zero_le, decide_true]; rfl⟩
theorem wit_firmware_none : (sBoot 1 false false false).sec.bankFw (sBoot 1 false false false).sec.preferred true
      (fun bank : Nat => if bank = 0 then false else false) = none ∧
    (sBoot 1 false false false).sec.bankFw (1 - (sBoot 1 false false false).sec.preferred) true
      (fun bank : Nat => if bank = 0 then false else false) = none := ⟨rfl, rfl⟩
theorem test_lbist : ran (exec (.lbistComplete [13] [14]) (sBoot 1 true false false)) (fun t => t.boot.records.map (·.code) == [0x0428, 0x0429] &&
      t.boot.records.map (·.unit) == [0, 1]) = true := by decide +kernel
theorem test_ready : ran (exec .ready (sBoot 1 true true true)) (fun t => t.boot.ready && t.safe.flog.any (·.code == 0x0427)) = true := by
  decide +kernel

/-- The module at a stage of key-off, with CAN controller 0 kept for the wake. -/
def sKeyOff (k : KeyOffPhase) : State :=
  let s := withRegs s0 [(canKey 0 0x38, 0x80000001)]
  { s with boot := { s.boot with keyOff := k } }
theorem wit_job_waits : (sKeyOff .holding).boot.keyOff ≠ .none ∧ (sKeyOff .parked).boot.keyOff ≠ .lbistDone ∧ s0.boot.keyOff ≠ .parked ∧
    { sBoot 1 true true true with boot := { (sBoot 1 true true true).boot with refOsc := false } }.boot.refOsc = false := by decide +kernel
/-- A parked module wakes: it is no longer parked. -/
theorem wit_leaves_parked : ran (exec (.wake 1 2) (sKeyOff .parked)) (fun t => t.boot.keyOff == .none && t.boot.laneCfg == 1 && t.boot.cfgmSel == 2) = true := by
  decide +kernel
/-- READY has no effect once key-off has begun; LBIST leaves the mailbox empty, memory BIST the staging buffers at 0. -/
theorem test_self_test : ran (exec (.lbistComplete [] []) { sBoot 1 true false false with sec := { (sBoot 1 true false false).sec with
      mb := { (sBoot 1 true false false).sec.mb with state := 1, total := 8 } } }) (fun t => t.sec.mb.state == 0 && t.sec.fwRunning) = true ∧
    ran (exec (.memoryBistComplete []) (sBoot 1 true true false)) (fun t => t.kv.engines.all fun e => e.staging == .zero) = true ∧
    exec .ready (sKeyOff .lbist) = .next (sKeyOff .lbist) := by
  refine ⟨by decide +kernel, by decide +kernel, rfl⟩
theorem wit_key_off : s0.alive = true ∧ s0.boot.keyOff = .none ∧ (sKeyOff .holding).boot.keyOff = .holding ∧
    (∀ q ∈ (sKeyOff .holding).comp.parts, q.job = none) ∧ (∃ q ∈ (withJob s0 0 (jobOf [])).comp.parts, q.job ≠ none) ∧
    (sKeyOff .lbist).boot.keyOff = .lbist ∧
    (sKeyOff .lbistDone).boot.keyOff = .lbistDone ∧ tbit ((sKeyOff .lbistDone).rv (canKey 0 0x38)) 31 = true ∧
    (sKeyOff .lbistDone).sec.engine = [] ∧ (sKeyOff .lbistDone).sec.mb.state ≠ 2 ∧
    (sKeyOff .parked).boot.powered = true ∧ (sKeyOff .parked).boot.keyOff = .parked ∧ s0.safe.heartbeat = true := by
  refine ⟨by decide +kernel, by decide +kernel, by decide +kernel, by decide +kernel, ?_, by decide +kernel⟩
  exact ⟨⟨[some 0, some 1], 0, true, some (jobOf []), 65535, false, false, false⟩, by decide +kernel⟩
theorem test_key_off : ran (exec .keyOff s0) (fun t => t.boot.keyOff == .holding && t.safe.state == 0 && t.out == [.deadbolt false]) = true ∧
    ran (exec .parked (sKeyOff .lbistDone)) (fun t => t.boot.keyOff == .parked && (t.pwr.doms.drop 1).all (fun d => d.state == .off) && t.rv (canKey 0 0x38) == 0x80000001 && t.ward.image.isNone) = true := by
  decide +kernel

/-- PD14, of core 1, in a state under a policy, as long since anything happened as the register holds idle times. -/
def sDom (st : DomState) (pol : Nat) : State :=
  let s := withRegs s0 [(pwrKey 0x30, 0x320064)]
  { s with pwr := { s0.pwr with doms := s0.pwr.doms.set 14 ⟨st, st == .waking, pol, 4, 0, 0⟩ }
           time := { s0.time with elapsed := 65536000000 } }
/-- The same with a job in its partition, which is demand. -/
def sDemand (st : DomState) : State := withJob (sDom st 0) 0 (jobOf [])
theorem wit_domains : ∀ x ∈ [(DomState.retain, 0), (.off, 0), (.waking, 0), (.on, 0), (.on, 2), (.retain, 2)],
    (sDom x.1 x.2).pwr.doms[(14 : DomIx).val]? = some ⟨x.1, x.1 == .waking, x.2, 4, 0, 0⟩ ∧ (sDom x.1 x.2).ward.image.isSome = true ∧
      (sDom x.1 x.2).hasDemand (14 : DomIx) = false ∧ (14 : DomIx).val ≠ 3 ∧ 9 ≤ (14 : DomIx).val ∧
      0 + (sDom x.1 x.2).retIdle ≤ (sDom x.1 x.2).time.elapsed ∧ (sDom x.1 x.2).domIdle (14 : DomIx) = true ∧
      (sDom x.1 x.2).offIdle ≠ 0 ∧ 0 + (sDom x.1 x.2).offIdle ≤ (sDom x.1 x.2).time.elapsed ∧
      (sDom x.1 x.2).bankMoves ((14 : DomIx).val - 13) = false ∧ (sDom x.1 x.2).actBank ((14 : DomIx).val - 13) ≤ 64 ∧
      ((sDom x.1 x.2).comp.cores[(14 : DomIx).val - 13]?).isSome = true ∧ (14 : DomIx).val ≠ 0 ∧ ¬ (14 : DomIx).val < 13 := by
  decide +kernel
theorem wit_demand : (sDemand .off).hasDemand (14 : DomIx) = true ∧
    (sDemand .off).pwr.doms[(14 : DomIx).val]? = some ⟨.off, false, 0, 4, 0, 0⟩ ∧ (sDemand .off).ward.image.isSome = true ∧
    (14 : DomIx).val ≠ 3 := by decide +kernel
/-- An engine that stages nothing; and the core's job within a command, which keeps a domain of policy 2 from OFF. -/
def sBusy : State := withJob (sDom .on 2) 0 (jobOf [{ tgtOf 0 [] .fresh with cmdOpen := true }])
theorem wit_domain_idle : s0.stages ((9 : DomIx).val - 9) = false ∧ sBusy.domIdle (14 : DomIx) = false ∧
    sBusy.pwr.doms[(14 : DomIx).val]? = some ⟨.on, false, 2, 4, 0, 0⟩ ∧
    s0.time.elapsed < 0 + s0.retIdle ∧ s0.pwr.doms[(14 : DomIx).val]? = some ⟨.on, false, 0, 4, 0, 0⟩ := by decide +kernel
theorem wit_towers : tbit (s0.rv 0x480000) 16 = true ∧ tbit ((withRegs s0 [(0x480000, 0x14)]).rv 0x480000) 16 = false ∧
    s0.dram.towers[(1 : Fin 4).val]? = some ⟨.active, 90, false⟩ ∧
    s0.dram.towers[(0 : Fin 4).val]? = some ⟨.active, 90, false⟩ := by decide +kernel
theorem wit_off_demand : (let s := sDemand .retain
      s.hasDemand (14 : DomIx) = true ∧ s.pwr.doms[(14 : DomIx).val]? = some ⟨.retain, false, 0, 4, 0, 0⟩) ∧
    (sDom .off 0).alive = true ∧ { s0 with boot := { s0.boot with powered := false } }.alive = false ∧
    (∀ d ∈ [4, 5], ({ s0 with pwr := { s0.pwr with doms := s0.pwr.doms.set d ⟨.waking, true, 0, 4, 0, 0⟩ } }).pwr.doms[d]? =
      some ⟨.waking, true, 0, 4, 0, 0⟩) ∧ (s0.time.pulse[0]?).any (fun y => !y.high) = true := by decide +kernel
theorem test_wakes : ran (exec (.wakeComplete ⟨5, []⟩) { s0 with pwr := { s0.pwr with doms := s0.pwr.doms.set 5 ⟨.waking, true, 0, 4, 0, 0⟩ } })
      (fun t => t.out.contains (.sentSup true)) = true ∧
    ran (exec (.wakeComplete ⟨4, []⟩) (withRegs { s0 with pwr := { s0.pwr with doms := s0.pwr.doms.set 4 ⟨.waking, true, 0, 4, 0, 0⟩ } }
      [(pgKey 0 0, 0x60000000)])) (fun t => (t.time.pulse[0]?).any (·.level)) = true ∧
    ran (exec (.offEntry 14) (sDemand .retain)) (fun t => t.pwr.doms[14]?.any (·.state == .retain)) = true := by decide +kernel
theorem test_domains : ran (exec (.demand 14) (sDemand .off)) (fun t => t.pwr.doms[14]?.any fun d => d.state == .waking && d.fromOff) = true ∧
    ran (exec (.retainEntry 14) (sDom .on 0)) (fun t => t.pwr.doms[14]?.any (·.state == .retain)) = true ∧
    ran (exec (.offEntry 14) (sDom .on 2)) (fun t => t.pwr.doms[14]?.any (·.state == .off) && t.comp.cores[1]?.any fun c => c.pad.tag == 0) = true ∧
    ran (exec (.wakeComplete ⟨14, []⟩) (sDom .waking 0)) (fun t => t.ctr (0x410200 + 8 * 14) == 1) = true := by decide +kernel
theorem test_self_refresh : ran (exec (.selfRefreshEntry 2) s0) (fun t =>
    t.dram.towers.map (·.state) == [.active, .active, .selfRefresh, .active]) = true := by decide +kernel

/-- The governor with a cap of 300 (3000 tenths of a watt), its cap ceiling at 4. -/
def sGov (calm : Nat) : State :=
  let s := withRegs s0 [(0x400010, 300), (0x400020, 40)]
  { s with pwr := { s.pwr with ceilings := [4, 7, 7, 7], calm := [calm, 0, 0, 0] } }
theorem wit_governor : (sGov 9).pwr.ceilings[0]? = some 4 ∧ (sGov 9).pwr.calm[0]? = some 9 ∧ (sGov 9).rv 0x400010 * 10 < 3001 ∧
    2850 * 100 ≤ 95 * ((sGov 9).rv 0x400010 * 10) ∧ (2851 : Nat) ≤ (sGov 9).rv 0x400010 * 10 ∧ 95 * ((sGov 9).rv 0x400010 * 10) < 2851 * 100 ∧
    (∀ y ∈ (sGov 9).regs.pwr.caps, groupOf y.key ≠ 14) ∧ 189 ≤ ([189, 104, 0] : List Nat).getD 0 0 ∧ (sGov 9).pwr.ceilings[1 + 1]? = some 7 ∧ (sGov 9).rv 0x400020 + 64 ≤ ([189, 104, 0] : List Nat).getD 1 0 ∧
    (sGov 9).standing 8 = false := by decide +kernel
theorem test_governor : ran (exec (.governorEvaluation 3001 9 [0, 0, 0] [0, 0, 0, 0]) (sGov 9)) (fun t => t.pwr.ceilings == [3, 7, 7, 7]) = true ∧
    ran (exec (.governorEvaluation 2850 9 [189, 104, 103] [0, 0, 0, 0]) (sGov 9)) (fun t => t.pwr.ceilings == [5, 0, 6, 7] &&
      t.safe.flog.any (·.code == 0x0418)) = true := by decide +kernel
theorem wit_supply : s0.pwr.supply = [] ∧ s0.standing 8 = false ∧ s0.pwr.drooping[(0 : CoreIx).val]? = some false ∧
    { s0.pwr with drooping := s0.pwr.drooping.set 0 true }.drooping[(0 : CoreIx).val]? = some true ∧ s0.pwr.meterFault = false := by decide +kernel
/-- A module in which the job of partition 0 runs and takes the interval's energy. -/
def sMeter : State := withJob s0 0 (jobOf [])
theorem wit_meter : sMeter.shares 5000 [{ part := 0, job := 0, dom := 13, coreTime := 10 }] = [((0, 0), 5000)] ∧
    runningJob sMeter 0 = some (jobOf []) ∧ (jobOf []).serial = 0 ∧ sMeter.pwr.partNj.length = 8 ∧ sMeter.pwr.modNj < 1000 ∧
    sMeter.ctr 0x410000 < two64 ∧ sMeter.modelled 0 = false ∧ sMeter.pwr.partNj.getD 0 0 < 1000 ∧ sMeter.ctr 0x410040 < two64 ∧
    (∀ x ∈ sMeter.shares 5000 [{ part := 0, job := 0, dom := 13, coreTime := 10 }], x.1.1 ≠ 1) := by decide +kernel
/-- A suspended job receives its share, too. -/
def sMeterSusp : State :=
  { s0 with comp := { s0.comp with queues := [(0, ⟨0, 0, false, some (jobOf []), none, false⟩)] } }
theorem wit_meter_suspended : ∃ q ∈ sMeterSusp.comp.queues, q.2.susp = some (jobOf []) := ⟨_, List.mem_singleton.mpr rfl, rfl⟩
theorem test_meter_share : ran (exec (.meteringInterval 5500 true [{ part := 0, job := 0, dom := 13, coreTime := 10 }]) sMeter) (fun t =>
      (runningJob t 0).any (fun j => j.energy == 5500) && t.ctr 0x410040 == 5 && t.pwr.partNj.getD 0 0 == 500) = true := by decide +kernel
theorem test_meter : ran (exec (.meteringInterval 5500 true []) s0) (fun t => t.ctr 0x410000 == 5 && t.pwr.modNj == 500) = true ∧
    ran (exec (.meteringInterval 5500 false []) s0) (fun t => t.pwr.meterFault && tbit (t.rv 0x400004) 1) = true := by decide +kernel

end Sys2Proof.Tests
end

section
/-!
PROOFS. The rules of register writes, what a read answers, buffered and clearing writes (R10, R11, R361, R365, R366, R370).
-/
namespace Sys2Proof.Machine
open Sys2Proof.Safety

/-! ### Keys of the register store -/

theorem keyOff_of_lt {k : Nat} (h : k < 2 ^ 26) : keyOff k = k := by
  unfold keyOff
  rw [if_neg (by omega), Nat.mod_eq_of_lt h]

theorem keyOff_portKey {p off : Nat} (hp : p < 15) (ho : off < 2 ^ 26) : keyOff (portKey p off) = off := by
  unfold keyOff portKey
  rw [if_neg (by omega)]
  omega

theorem slotOf_portKey {p off : Nat} (hp : p < 15) (ho : off < 2 ^ 26) : slotOf (portKey p off) = off / 0x100000 := by
  rw [slotOf, keyOff_portKey hp ho]

theorem portKey_div {off : Nat} (p : Nat) (ho : off < 2 ^ 26) : portKey p off / 2 ^ 26 = p + 1 := by
  unfold portKey
  omega

/-- The pending-bit words of a port's vectors lie behind its MSI-X table (R365). -/
theorem pbaKey_eq {v : Nat} (p : Nat) (hv : v < 2048) : ∃ o, 0x648000 ≤ o ∧ o < 0x648100 ∧ pbaKey p v = portKey p o :=
  ⟨0x648000 + 4 * (v / 32), by omega, by omega, rfl⟩

theorem portKey_inj {p q a b : Nat} (ha : a < 2 ^ 26) (hb : b < 2 ^ 26) (h : portKey p a = portKey q b) : p = q ∧ a = b := by
  unfold portKey at h
  omega

theorem field_lt (v lo w : Nat) : field v lo w < 2 ^ w := Nat.mod_lt _ (Nat.two_pow_pos w)

/-! ### Bits -/

theorem tbit_eq_testBit (v i : Nat) : tbit v i = v.testBit i := by
  rw [tbit, Nat.testBit_eq_decide_div_mod_eq]
  rfl

theorem tbit_mod_word {i : Nat} (v : Nat) (hi : i < 32) : tbit (v % 2 ^ 32) i = tbit v i := by
  rw [tbit_eq_testBit, tbit_eq_testBit, Nat.testBit_mod_two_pow]
  simp [hi]

theorem tbit_clearBits {i : Nat} (a b : Nat) (hi : i < 32) : tbit (clearBits a b) i = (tbit a i && !tbit b i) := by
  have ones : Nat.testBit 0xFFFFFFFF i = true := by
    have := Nat.testBit_two_pow_sub_one 32 i
    simpa [hi] using this
  simp only [tbit_eq_testBit, clearBits, Nat.testBit_and, Nat.testBit_xor, Nat.testBit_mod_two_pow, ones, hi]
  simp

theorem tbit_and (a b i : Nat) : tbit (a &&& b) i = (tbit a i && tbit b i) := by
  simp only [tbit_eq_testBit, Nat.testBit_and]

theorem tbit_or (a b i : Nat) : tbit (a ||| b) i = (tbit a i || tbit b i) := by
  simp only [tbit_eq_testBit, Nat.testBit_or]

/-! ### Messages and events -/

/-- A vector sets the word of its pending bit, and no other register (R365). -/
theorem State.rv_sendVector_ne (s : State) (p v k : Nat) (h : k ≠ pbaKey p v) : (s.sendVector p v).rv k = s.rv k := by
  unfold State.sendVector
  simp only
  split
  · rfl
  · split
    · exact State.rv_setReg_ne _ _ _ _ h
    · rfl

/-- Messages set pending bits of the ports and vectors they go to, and no other register (R365). -/
theorem State.rv_sendSource_ne (s : State) (k x : Nat) (h : ∀ p ∈ s.eventPorts k, ∀ v, v < 2048 → x ≠ pbaKey p v) :
    (s.sendSource k).rv x = s.rv x := by
  unfold State.sendSource
  generalize s.eventPorts k = l at h
  induction l generalizing s with
  | nil => rfl
  | cons p t ih =>
    rw [List.foldl_cons, ih _ fun q hq => h q (List.mem_cons_of_mem p hq)]
    exact State.rv_sendVector_ne _ _ _ _ (h p List.mem_cons_self _ (field_lt _ 0 11))

/-! ### A port's own registers of the PCI block -/

theorem portKey_add (p o n : Nat) : portKey p o + n = portKey p (o + n) := Nat.add_assoc _ _ _

theorem State.setReg_pci {k : Nat} (s : State) (v : Nat) (h : slotOf k = 6) : s.setReg k v =
    s.withRO { s.regs with pci := { s.regs.pci with vals := alPut (toWord (resetOf k)) s.regs.pci.vals k (toWord v) } } s.out := by
  unfold State.setReg Regs.setVal
  rw [h]
  rfl

/-- Nothing differs but outputs and values in force of one port's registers of the PCI block. -/
def OwnPci (p : Nat) (s t : State) : Prop :=
  (∃ v o, t = s.withRO { s.regs with pci := { s.regs.pci with vals := v } } o) ∧ ∀ k, k / 2 ^ 26 ≠ p + 1 → t.rv k = s.rv k

theorem OwnPci.refl (p : Nat) (s : State) : OwnPci p s s := ⟨⟨s.regs.pci.vals, s.out, rfl⟩, fun _ _ => rfl⟩

theorem OwnPci.trans {p : Nat} {s t u : State} (h : OwnPci p s t) (h' : OwnPci p t u) : OwnPci p s u := by
  obtain ⟨⟨v, o, rfl⟩, hrv⟩ := h
  obtain ⟨⟨v', o', rfl⟩, hrv'⟩ := h'
  exact ⟨⟨v', o', rfl⟩, fun k hk => (hrv' k hk).trans (hrv k hk)⟩

theorem OwnPci.setReg {p o : Nat} (s : State) (v : Nat) (hp : p < 15) (h : o / 0x100000 = 6) :
    OwnPci p s (s.setReg (portKey p o) v) := by
  have ho : o < 2 ^ 26 := by omega
  refine ⟨⟨_, _, s.setReg_pci v ((slotOf_portKey hp ho).trans h)⟩, fun k hk => State.rv_setReg_ne _ _ _ _ ?_⟩
  rintro rfl
  exact hk (portKey_div p ho)

theorem OwnPci.setRegs {p o : Nat} (s : State) (l : List Nat) (hp : p < 15) (hlo : 0x600000 ≤ o)
    (hhi : o + 4 * l.length ≤ 0x700000) : OwnPci p s (s.setRegs (portKey p o) l) := by
  induction l generalizing s o with
  | nil => exact .refl p s
  | cons v t ih =>
    rw [List.length_cons] at hhi
    rw [State.setRegs, portKey_add]
    exact (OwnPci.setReg s v hp (by omega)).trans (ih _ (by omega) (by omega))

theorem OwnPci.sendVector {p v : Nat} (s : State) (hp : p < 15) (hv : v < 2048) : OwnPci p s (s.sendVector p v) := by
  obtain ⟨o, hlo, hhi, ho⟩ := pbaKey_eq p hv
  unfold State.sendVector
  simp only
  split
  · exact .refl p s
  · split
    · rw [ho]
      exact OwnPci.setReg s _ hp (by omega)
    · exact ⟨⟨s.regs.pci.vals, _, rfl⟩, fun _ _ => rfl⟩

/-- A PCI event register of a port interrupts that port (R365, R373). -/
theorem State.eventPorts_pci {p o : Nat} (s : State) (hp : p < 15) (h : o / 0x100000 = 6) : s.eventPorts (portKey p o) = [p] := by
  have ho : o < 2 ^ 26 := by omega
  have hq : portKey p o / 2 ^ 26 - 1 = p := by rw [portKey_div p ho]; rfl
  unfold State.eventPorts
  simp only [slotOf_portKey hp ho, h, hq]

theorem OwnPci.sendSource {p o : Nat} (s : State) (hp : p < 15) (h : o / 0x100000 = 6) :
    OwnPci p s (s.sendSource (portKey p o)) := by
  unfold State.sendSource
  rw [s.eventPorts_pci hp h]
  exact OwnPci.sendVector s hp (field_lt _ 0 11)

theorem OwnPci.raise {p o : Nat} (s : State) (bits : Nat) (hp : p < 15) (h : o / 0x100000 = 6) :
    OwnPci p s (s.raise (portKey p o) bits) := by
  have hset := OwnPci.setReg s (s.rv (portKey p o) ||| bits) hp h
  unfold State.raise
  simp only
  split
  · exact hset.trans (OwnPci.sendSource _ hp h)
  · exact hset

/-- Of the registers of PCI below the MSI-X table an event changes its own alone. -/
theorem State.rv_raise_pci {p x : Nat} (s : State) (k bits : Nat) (hx : x < 0x640000) :
    (s.raise k bits).rv (portKey p x) = (s.setReg k (s.rv k ||| bits)).rv (portKey p x) := by
  unfold State.raise
  simp only
  split
  · refine State.rv_sendSource_ne _ _ _ fun q _ v hv => ?_
    obtain ⟨y, hlo, hhi, hy⟩ := pbaKey_eq q hv
    rw [hy]
    intro e
    have := (portKey_inj (by omega) (by omega) e).2
    omega
  · rfl

/-! ### Bus errors (R361) -/

/-- The count and the log of a bus error that finds the log clear, before its event. -/
def State.busErrorLog (s : State) (p bar kind off : Nat) : State :=
  ((((s.setReg (portKey p 0x600038) (min (s.rv (portKey p 0x600038) + 1) 0xFFFFFFFF)).setReg (portKey p 0x600020)
    (2 ^ 31 + bar * 2 ^ 16 + kind)).setReg (portKey p 0x600024) (off % 2 ^ 32)).setReg (portKey p 0x600028)
      (off / 2 ^ 32 % 16)).setRegs (portKey p 0x60002C) (tsWords s.now)

/-- A bus error that finds the log clear. -/
theorem State.busError_clear (s : State) (p bar kind off : Nat) (h : tbit (s.rv (portKey p 0x600020)) 31 = false) :
    s.busError p bar kind off = (s.busErrorLog p bar kind off).raise (portKey p 0x600010) 1 := by
  unfold State.busError
  rw [if_neg (by simp [h])]
  rfl

/-- A bus error that finds the log full is only counted. -/
theorem State.busError_full (s : State) (p bar kind off : Nat) (h : tbit (s.rv (portKey p 0x600020)) 31 = true) :
    s.busError p bar kind off = s.setReg (portKey p 0x600038) (min (s.rv (portKey p 0x600038) + 1) 0xFFFFFFFF) := by
  unfold State.busError
  rw [if_pos h]

theorem OwnPci.busErrorLog {p : Nat} (s : State) (bar kind off : Nat) (hp : p < 15) :
    OwnPci p s (s.busErrorLog p bar kind off) := by
  unfold State.busErrorLog
  refine .trans ?_ (OwnPci.setRegs (o := 0x60002C) _ _ hp (by decide) (by simp [tsWords]))
  refine .trans ?_ (.setReg _ _ hp rfl)
  refine .trans ?_ (.setReg _ _ hp rfl)
  exact .trans (.setReg _ _ hp rfl) (.setReg _ _ hp rfl)

/-- A bus error touches outputs and one port's registers of the PCI block. -/
theorem OwnPci.busError {p : Nat} (s : State) (bar kind off : Nat) (hp : p < 15) : OwnPci p s (s.busError p bar kind off) := by
  cases h : tbit (s.rv (portKey p 0x600020)) 31 with
  | true =>
    rw [s.busError_full p bar kind off h]
    exact .setReg s _ hp rfl
  | false =>
    rw [s.busError_clear p bar kind off h]
    exact (OwnPci.busErrorLog s bar kind off hp).trans (.raise _ 1 hp rfl)

/-- The log's registers: INFO, the two words of the offset, the count. -/
theorem State.rv_busErrorLog (s : State) (p bar kind off : Nat) :
    (s.busErrorLog p bar kind off).rv (portKey p 0x600020) = (2 ^ 31 + bar * 2 ^ 16 + kind) % 2 ^ 32 ∧
    (s.busErrorLog p bar kind off).rv (portKey p 0x600024) = off % 2 ^ 32 ∧
    (s.busErrorLog p bar kind off).rv (portKey p 0x600028) = off / 2 ^ 32 % 16 ∧
    (s.busErrorLog p bar kind off).rv (portKey p 0x600038) = min (s.rv (portKey p 0x600038) + 1) 0xFFFFFFFF := by
  unfold State.busErrorLog
  refine ⟨?_, ?_, ?_, ?_⟩ <;> rw [State.rv_setRegs_out _ _ _ _ (by simp [portKey, tsWords])]
  · rw [State.rv_setReg_ne _ _ _ _ (by simp [portKey]), State.rv_setReg_ne _ _ _ _ (by simp [portKey]), State.rv_setReg_self]
  · rw [State.rv_setReg_ne _ _ _ _ (by simp [portKey]), State.rv_setReg_self]
    omega
  · rw [State.rv_setReg_self]
    omega
  · rw [State.rv_setReg_ne _ _ _ _ (by simp [portKey]), State.rv_setReg_ne _ _ _ _ (by simp [portKey]),
      State.rv_setReg_ne _ _ _ _ (by simp [portKey]), State.rv_setReg_self]
    omega

/-- An event leaves every other register of PCI below the MSI-X table alone. -/
theorem State.rv_raise_pci_ne {p x o : Nat} (s : State) (bits : Nat) (hx : x < 0x640000) (h : x ≠ o) :
    (s.raise (portKey p o) bits).rv (portKey p x) = s.rv (portKey p x) := by
  rw [s.rv_raise_pci _ bits hx]
  exact State.rv_setReg_ne _ _ _ _ (by unfold portKey; omega)

/-- Where no port has changed, no error status has. -/
theorem onlyAer_of_ports {s t : State} (p : Nat) (h : t.ports = s.ports) : onlyAer s t p := by
  intro q
  rw [h]
  cases hq : s.ports[q]? with
  | none => rfl
  | some x =>
    rw [Option.map_some]
    split
    · subst q
      simp [List.getD, hq]
    · rfl

/-- What an operation on a port's own PCI registers leaves alone, as `onlyPci` and `otherPorts` say. -/
theorem OwnPci.frame {p : Nat} {s t : State} (h : OwnPci p s t) : onlyPci s t p ∧ otherPorts s t p := by
  obtain ⟨⟨v, o, rfl⟩, hrv⟩ := h
  exact ⟨⟨rfl, onlyAer_of_ports p rfl⟩, hrv, rfl, rfl⟩

/-- A bus error is counted, logged where the log is clear, and touches nothing else (R361). -/
theorem busErrorOn_busError {p : Nat} (s : State) (bar kind off : Nat) (hp : p < 15) :
    busErrorOn s (s.busError p bar kind off) p bar kind off := by
  have hframe := (OwnPci.busError s bar kind off hp).frame
  cases h : tbit (s.rv (portKey p 0x600020)) 31 with
  | true =>
    rw [s.busError_full p bar kind off h] at hframe ⊢
    refine ⟨?_, fun h' => absurd (h.symm.trans h') (by decide), fun _ => ⟨?_, ?_⟩, hframe⟩
    · rw [State.rv_setReg_self]
      omega
    · exact State.rv_setReg_ne _ _ _ _ (by simp [portKey])
    · exact State.rv_setReg_ne _ _ _ _ (by simp [portKey])
  | false =>
    obtain ⟨hinfo, hlo, hhi, hcount⟩ := s.rv_busErrorLog p bar kind off
    rw [s.busError_clear p bar kind off h] at hframe ⊢
    refine ⟨?_, fun _ => ⟨?_, ?_, ?_, ?_⟩, fun h' => absurd (h.symm.trans h') (by decide), hframe⟩
    · rw [State.rv_raise_pci_ne _ _ (by decide) (by decide), hcount]
    · rw [State.rv_raise_pci_ne _ _ (by decide) (by decide), hinfo]
    · rw [State.rv_raise_pci_ne _ _ (by decide) (by decide), hlo]
    · rw [State.rv_raise_pci_ne _ _ (by decide) (by decide), hhi]
    · rw [State.rv_raise_pci _ _ _ (by decide), State.rv_setReg_self, tbit_mod_word _ (by decide), tbit_or]
      simp [tbit]

/-! ### Register writes and their access rules (R11, R361) -/

/-- A register write that changes registers and outputs only is committed whole, whatever its block. -/
theorem commitRegs_withRO (off : Nat) (s : State) (r : Regs) (o : List Out) : commitRegs off s (s.withRO r o) = s.withRO r o := by
  simp [commitRegs, State.withRO, SafeSt.carry]

theorem exec_registerWrite_withRO {s : State} {w : RegWrite} (h : arrives s w.port) (hw : ∃ r o, s.regWrites w = s.withRO r o) :
    exec (.registerWrite w) s = .next (s.regWrites w) := by
  rw [exec_registerWrite, execRegisterWrite, State.onPort_arrives h]
  obtain ⟨r, o, e⟩ := hw
  rw [e, commitRegs_withRO]

/-- A write request that is a bus error. -/
theorem exec_registerWrite_busError {s : State} {w : RegWrite} {kind : Nat} (h : arrives s w.port)
    (hw : s.regWrites w = s.busError w.port 0 kind w.off) :
    ∃ t, exec (.registerWrite w) s = .next t ∧ busErrorOn s t w.port 0 kind w.off := by
  refine ⟨_, exec_registerWrite_withRO h (hw ▸ s.busError_frame _ _ _ _), ?_⟩
  rw [hw]
  exact busErrorOn_busError s 0 kind w.off (by omega)

theorem State.regWrites_one {s : State} {w : RegWrite} (h : w.more = []) : s.regWrites w = s.regWrite w.port w.off w.value.toNat := by
  unfold State.regWrites
  rw [h]
  rfl

theorem State.regWrite_misaligned {s : State} {p off v : Nat} (h : off % 4 ≠ 0) : s.regWrite p off v = s.busError p 0 4 off := by
  unfold State.regWrite
  rw [if_pos h]

theorem State.regWrite_reserved {s : State} {p off v : Nat} (h : off % 4 = 0) (hr : rowAt off = none) :
    s.regWrite p off v = s.busError p 0 2 off := by
  unfold State.regWrite
  rw [if_neg (by simp [h]), hr]

theorem State.allows_row {s : State} {p off : Nat} {r : Row} {ix : List Nat} (hr : rowAt off = some (r, ix)) :
    s.allows p off = (s.phaseOk off && s.mayWrite p r ix (s.regKey p r off) && !s.ownedObject off) := by
  unfold State.allows
  rw [hr]

theorem State.regWrite_forbidden {s : State} {p off v : Nat} {r : Row} {ix : List Nat} (h : off % 4 = 0)
    (hr : rowAt off = some (r, ix)) (hf : s.allows p off = false) : s.regWrite p off v = s.busError p 0 3 off := by
  unfold State.regWrite
  rw [if_neg (by simp [h]), hr]
  simp [hf]

section
variable {s : State} {p off : Nat} {r : Row} {ix : List Nat} (v : Nat) (h : off % 4 = 0) (hr : rowAt off = some (r, ix))
  (ha : s.allows p off = true)
include h hr ha

/-- An allowed write to a read-only register changes nothing (R11). -/
theorem State.regWrite_ro (hacc : r.acc = .ro) : s.regWrite p off v = s := by
  simp [State.regWrite, h, hr, ha, hacc]

/-- An allowed write to a WO register does what its command does (R11). -/
theorem State.regWrite_wo (hacc : r.acc = .wo) : s.regWrite p off v = s.regCommand p off v := by
  simp [State.regWrite, h, hr, ha, hacc]

/-- An allowed write to a W1C register clears its bits (R11). -/
theorem State.regWrite_w1c (hacc : r.acc = .w1c) :
    s.regWrite p off v = s.w1c (s.regKey p r off) (r.fix (v &&& r.mask)) := by
  simp [State.regWrite, h, hr, ha, hacc]

/-- An allowed write to a RWL register goes to its shadow (R11, R366). -/
theorem State.regWrite_rwl (hacc : r.acc = .rwl) :
    s.regWrite p off v = s.regShadow p off (s.regKey p r off) (r.fix (v &&& r.mask)) := by
  simp [State.regWrite, h, hr, ha, hacc]

end

/-! ### The loader's aperture (R50, R359) -/

/-- The row of WARD_CHUNK_BUF (R50). -/
def apertureRow : Row := { lo := 0x110000, dims := [(16384, 4)], acc := .wo }

theorem findRow_append_of_miss (l l' : List Row) (off : Nat) (h : ∀ r ∈ l, r.hit off = none) :
    findRow (l ++ l') off = findRow l' off := by
  induction l with
  | nil => rfl
  | cons r t ih =>
    rw [List.cons_append, findRow, h r List.mem_cons_self]
    exact ih fun x hx => h x (List.mem_cons_of_mem r hx)

/-- A row of one DWORD, or of one run of DWORDs, misses an offset beyond it. -/
theorem Row.hit_beyond {r : Row} {off m : Nat} (hd : r.dims = [] ∨ ∃ n, r.dims = [(n, 4)] ∧ n ≤ m) (hm : 0 < m)
    (h : r.lo + 4 * m ≤ off) : r.hit off = none := by
  unfold Row.hit
  split
  · rfl
  · obtain e | ⟨n, e, hn⟩ := hd <;> rw [e, hitDims, if_neg (by omega)]

theorem rowAt_aperture {off : Nat} (h4 : off % 4 = 0) (hlo : 0x110000 ≤ off) (hhi : off < 0x120000) :
    rowAt off = some (apertureRow, [(off - 0x110000) / 4]) := by
  have hmiss : ∀ r ∈ rowsWard.dropLast, r.hit off = none := by
    intro r hr
    have hshape : (r.dims = [] ∨ ∃ n, r.dims = [(n, 4)] ∧ n ≤ 8) ∧ r.lo + 32 ≤ 0x110000 := by
      revert r
      simp [rowsWard]
    exact Row.hit_beyond hshape.1 (by decide) (by omega)
  have hhit : apertureRow.hit off = some [(off - 0x110000) / 4] := by
    have hi : (off - 0x110000) / 4 < 16384 := by omega
    have hz : (off - 0x110000) % 4 = 0 := by omega
    simp [Row.hit, apertureRow, hitDims, hi, hz, Nat.not_lt.2 hlo]
  calc rowAt off = findRow (rowsOfSlot 1) off := by rw [rowAt, show off / 0x100000 = 1 by omega]
    _ = findRow (rowsWard.dropLast ++ [apertureRow]) off := rfl
    _ = some (apertureRow, [(off - 0x110000) / 4]) := by rw [findRow_append_of_miss _ _ _ hmiss, findRow, hhit]

/-- Every port may write the loader's aperture, also before readiness (R50, R448). -/
theorem State.allows_aperture (s : State) (p : Nat) {off : Nat} (h4 : off % 4 = 0) (hlo : 0x110000 ≤ off) (hhi : off < 0x120000) :
    s.allows p off = true := by
  have hslot : off / 0x100000 = 1 := by omega
  have hphase : s.phaseOk off = true := by simp [State.phaseOk, hslot, earlySlot]
  have howned : s.ownedObject off = false := by
    simp [State.ownedObject, objAt, slotOf, keyOff_of_lt (show off < 2 ^ 26 by omega), hslot]
  rw [State.allows_row (rowAt_aperture h4 hlo hhi), hphase, howned]
  rfl

/-- The state with other bytes in the loader's aperture. -/
def State.putAperture (s : State) (m : Mem) : State := s.modWard fun w => { w with aperture := m }

@[simp] theorem State.putAperture_aperture (s : State) (m : Mem) : (s.putAperture m).ward.aperture = m := rfl

@[simp] theorem State.putAperture_putAperture (s : State) (m m' : Mem) : (s.putAperture m).putAperture m' = s.putAperture m' := rfl

theorem State.putAperture_self (s : State) : s.putAperture s.ward.aperture = s := rfl

theorem State.putAperture_frame (s : State) (m : Mem) :
    s.putAperture m = { s with ward := { s.ward with aperture := (s.putAperture m).ward.aperture } } := rfl

theorem commitRegs_putAperture {off : Nat} (s : State) (m : Mem) (h : off / 0x100000 = 1) :
    commitRegs off s (s.putAperture m) = s.putAperture m := by
  simp [commitRegs, State.putAperture, State.modWard, h]

theorem State.regWrite_aperture (s : State) (p v : Nat) {off : Nat} (h4 : off % 4 = 0) (hlo : 0x110000 ≤ off)
    (hhi : off < 0x120000) :
    s.regWrite p off v = s.putAperture (s.ward.aperture.writeBytes (off - 0x110000) (natLe 4 v)) := by
  rw [State.regWrite_wo v h4 (rowAt_aperture h4 hlo hhi) (s.allows_aperture p h4 hlo hhi) rfl]
  unfold State.regCommand
  simp only
  rw [if_neg (by omega), if_neg (by omega), if_neg (by omega), if_pos ⟨hlo, hhi⟩]
  rfl

/-- The bytes of DWORDs in a row (R7). -/
def dwordBytes (l : List Word) : List Byte := l.flatMap fun v => natLe 4 v.toNat

theorem natLe_length (k v : Nat) : (natLe k v).length = k := by
  induction k generalizing v with
  | zero => rfl
  | succ k ih => rw [natLe, List.length_cons, ih]

theorem dwordBytes_cons (v : Word) (l : List Word) : dwordBytes (v :: l) = natLe 4 v.toNat ++ dwordBytes l := rfl

theorem dwordBytes_length (l : List Word) : (dwordBytes l).length = 4 * l.length := by
  induction l with
  | nil => rfl
  | cons v t ih =>
    rw [dwordBytes_cons, List.length_append, natLe_length, List.length_cons, ih]
    omega

theorem Mem.writeBytes_append (m : Mem) (a : Nat) (bs cs : List Byte) :
    m.writeBytes a (bs ++ cs) = (m.writeBytes a bs).writeBytes (a + bs.length) cs := by
  induction bs generalizing m a with
  | nil => rfl
  | cons b t ih => rw [List.cons_append, Mem.writeBytes, ih, Mem.writeBytes, List.length_cons, Nat.add_right_comm, Nat.add_assoc]

theorem Mem.readBytes_writeBytes_before (m : Mem) (a n b : Nat) (bs : List Byte) (h : a + n ≤ b) :
    (m.writeBytes b bs).readBytes a n = m.readBytes a n := by
  refine List.map_congr_left fun i hi => Mem.read_writeBytes_out _ _ _ _ (.inl ?_)
  have := List.mem_range.1 hi
  omega

/-- DWORDs written in a row read back each at its own place. -/
theorem Mem.readBytes_dwords (m : Mem) (a i : Nat) (l : List Word) (v : Word) (h : l[i]? = some v) :
    (m.writeBytes a (dwordBytes l)).readBytes (a + 4 * i) 4 = natLe 4 v.toNat := by
  induction l generalizing m a i with
  | nil => simp at h
  | cons x t ih =>
    rw [dwordBytes_cons, Mem.writeBytes_append, natLe_length]
    cases i with
    | zero =>
      obtain rfl : x = v := by simpa using h
      have hback := m.readBytes_writeBytes a (natLe 4 x.toNat)
      rw [natLe_length] at hback
      exact (Mem.readBytes_writeBytes_before _ _ _ _ _ (Nat.le_refl _)).trans hback
    | succ i =>
      rw [show a + 4 * (i + 1) = a + 4 + 4 * i by omega]
      exact ih _ _ _ (by simpa using h)

/-- DWORDs written in a row to the aperture stand there in order, and change nothing else. -/
theorem State.foldl_regWrite_aperture (s : State) (p n : Nat) {off : Nat} (l : List Word) (h4 : off % 4 = 0) (hlo : 0x110000 ≤ off)
    (hhi : off + 4 * (n + l.length) ≤ 0x120000) :
    (l.zipIdx n).foldl (fun s x => s.regWrite p (off + 4 * x.2) x.1.toNat) s =
      s.putAperture (s.ward.aperture.writeBytes (off - 0x110000 + 4 * n) (dwordBytes l)) := by
  induction l generalizing s n with
  | nil => exact s.putAperture_self.symm
  | cons v t ih =>
    rw [List.length_cons] at hhi
    rw [List.zipIdx_cons, List.foldl_cons, ih _ _ (by omega), State.regWrite_aperture _ _ _ (by omega) (by omega) (by omega),
      dwordBytes_cons, State.putAperture_putAperture, State.putAperture_aperture, Mem.writeBytes_append, natLe_length,
      show off + 4 * n - 0x110000 = off - 0x110000 + 4 * n by omega, Nat.mul_add, Nat.mul_one, Nat.add_assoc]

theorem State.wideOk_aperture {s : State} {p off n : Nat} (h : s.wideOk p off n = true) (hhi : off < 0x120000) :
    off % 4 = 0 ∧ 0x110000 ≤ off ∧ off + 4 * n ≤ 0x120000 := by
  simp only [State.wideOk, Bool.and_eq_true, beq_iff_eq, decide_eq_true_eq, List.any_eq_true] at h
  obtain ⟨⟨h4, -⟩, a, ha, hlo, hin⟩ := h
  simp only [wideApertures, List.mem_cons, List.mem_map, List.mem_range] at ha
  obtain rfl | ⟨q, -, rfl⟩ := ha <;> simp only at hlo hin <;> omega

/-- A long request to the loader's aperture stores its DWORDs there in order, and nothing else (R359). -/
theorem exec_registerWrite_aperture {s : State} {w : RegWrite} (h : arrives s w.port) (hm : w.more ≠ [])
    (hw : s.wideOk w.port w.off (w.more.length + 1) = true) (hhi : w.off < 0x120000) :
    exec (.registerWrite w) s =
      .next (s.putAperture (s.ward.aperture.writeBytes (w.off - 0x110000) (dwordBytes (w.value :: w.more)))) := by
  obtain ⟨h4, hlo, hin⟩ := State.wideOk_aperture hw hhi
  have hwrites :
      s.regWrites w = s.putAperture (s.ward.aperture.writeBytes (w.off - 0x110000) (dwordBytes (w.value :: w.more))) := by
    unfold State.regWrites
    rw [if_neg (by simpa using hm), if_neg (by simp [hw]), if_neg (by simp [s.allows_aperture w.port h4 hlo hhi]),
      s.foldl_regWrite_aperture w.port 0 _ h4 hlo (by rw [List.length_cons]; omega), Nat.mul_zero, Nat.add_zero]
  rw [exec_registerWrite, execRegisterWrite, State.onPort_arrives h, hwrites, commitRegs_putAperture _ _ (by omega)]

/-! ### Reads (R10 to R12, R361, R370, R448) -/

theorem State.readReg_reserved (s : State) (p : Nat) {off : Nat} (h : rowAt off = none) : s.readReg p off = none := by
  unfold State.readReg
  rw [h]

/-- A register reads 0 in a block that is not ready, and where the port may not read it. -/
theorem State.readReg_withheld {s : State} {p off : Nat} {r : Row} {ix : List Nat} (hr : rowAt off = some (r, ix))
    (h : s.phaseOk off = false ∨ s.mayRead p r ix off = false) : s.readReg p off = some 0 := by
  unfold State.readReg
  rw [hr]
  obtain h | h := h <;> simp [h]

theorem State.readReg_allowed {s : State} {p off : Nat} {r : Row} {ix : List Nat} (hr : rowAt off = some (r, ix))
    (hphase : s.phaseOk off = true) (hmay : s.mayRead p r ix off = true) (hchan : s.chanOff off = false) :
    s.readReg p off =
      some ((s.viewOf p (s.readOff off) (s.stored p r (s.readOff off))).getD (s.stored p r (s.readOff off))) := by
  unfold State.readReg
  rw [hr]
  simp [hphase, hmay, hchan]

section
variable {s : State} {p off : Nat} {r : Row} {ix : List Nat}

theorem State.mayRead_queue (hrule : r.rule = .queue) (hb : ((s.bindOf (s.selected p)).any fun b => b.port == p) = false) :
    s.mayRead p r ix off = false := by
  simpa only [State.mayRead, hrule] using hb

theorem State.mayRead_part (hrule : r.rule = .part) (hslot : off / 0x100000 = 7 ∨ off / 0x100000 = 11)
    (hb : s.bound (ix.headD 0) p = false) : s.mayRead p r ix off = false := by
  simp only [State.mayRead, hrule, if_pos hslot, hb]

theorem State.mayRead_core (hrule : r.rule = .core) (hid : off % 0x100000 ≠ 0)
    (hb : ((s.partOfCore (ix.headD 0)).any fun x => s.bound x p) = false) : s.mayRead p r ix off = false := by
  simp only [State.mayRead, State.mayWrite, hrule, hb, Bool.or_false]
  simpa using hid

theorem State.stored_shadow (hc : r.counter = false) (hacc : r.acc = .rwl) :
    s.stored p r off = s.regs.shadow (s.regKey p r off) := by
  simp [State.stored, hc, hacc]

theorem State.stored_counter (hc : r.counter = true) : s.stored p r off =
    (alGet (s.ports.getD p .reset).holding (off / 8 * 8)).getD 0 / 2 ^ (off % 8 * 8) % 2 ^ 32 := by
  simp [State.stored, hc]

theorem State.chanOff_outside (h : off < 0xC10000 ∨ 0xC28000 ≤ off) : s.chanOff off = false := by
  unfold State.chanOff
  obtain h | h := h
  · simp [Nat.not_le.2 h]
  · simp [Nat.not_lt.2 h]

theorem State.readOff_outside (h : off < 0xC10000 ∨ 0xC28000 ≤ off) : s.readOff off = off := by
  unfold State.readOff
  rw [if_neg (by omega)]

/-- A counter outside the control channels reads from the port's holding set (R370). -/
theorem State.readReg_counter (hr : rowAt off = some (r, ix)) (hphase : s.phaseOk off = true) (hmay : s.mayRead p r ix off = true)
    (hout : off < 0xC10000 ∨ 0xC28000 ≤ off) (hc : r.counter = true) (hview : ∀ x, s.viewOf p off x = none) :
    s.readReg p off = some ((alGet (s.ports.getD p .reset).holding (off / 8 * 8)).getD 0 / 2 ^ (off % 8 * 8) % 2 ^ 32) := by
  rw [State.readReg_allowed hr hphase hmay (State.chanOff_outside hout), State.readOff_outside hout, State.stored_counter hc,
    hview]
  rfl

/-- What a port may read depends on the image in force and on the queue it selects. -/
theorem State.mayRead_congr {t : State} (hward : t.ward = s.ward) (hsel : t.selected p = s.selected p) :
    t.mayRead p r ix off = s.mayRead p r ix off := by
  unfold State.mayRead
  cases hrule : r.rule <;>
    simp only [State.mayWrite, hrule, State.partOfCore, State.bindOf, State.bound, hward, hsel]

end

/-! ### The snapshot (R370) -/

theorem State.takeSnapshot_ports {s : State} {p v : Nat} (h : tbit v 0 = true) :
    (s.takeSnapshot p v).ports = lmod s.ports p fun x => { x with holding := s.counterList } := by
  unfold State.takeSnapshot
  rw [if_neg (by simp [h]), State.setRegs_ports, State.setReg_ports, State.modPort]

theorem lmod_getD {α : Type} (l : List α) (i : Nat) (f : α → α) (d : α) (h : i < l.length) :
    (lmod l i f).getD i d = f (l.getD i d) := by
  simp [lmod, List.getD, h]

/-- The value in force of a register stands in its block alone. -/
theorem Regs.val_congr {r r' : Regs} {k : Nat} (h : r.blk (slotOf k) = r'.blk (slotOf k)) : r.val k = r'.val k := by
  unfold Regs.val
  rw [h]

/-- A snapshot that is taken leaves the port with the counters of this instant, and every register outside GLOBAL alone. -/
theorem exec_snapshot_takes {s : State} {p : Port} {v : Word} (ha : admits s p 0x20) (hv : tbit v.toNat 0 = true)
    (hp : p.val < s.ports.length) :
    ∃ t, exec (.snapshot p v) s = .next t ∧ t.boot = s.boot ∧ t.ward = s.ward ∧ t.selected p = s.selected p ∧
      (t.ports.getD p .reset).holding = s.counterList := by
  refine ⟨commitSnap s (s.takeSnapshot p v.toNat), ?_, rfl, rfl, ?_, ?_⟩
  · rw [exec_snapshot, execSnapshot, State.gate_admits ha]
  · have hslot : slotOf (portKey p 0x700000) = 7 := slotOf_portKey (by omega) (by decide)
    refine Regs.val_congr ?_
    rw [hslot]
    rfl
  · show ((s.takeSnapshot p v.toNat).ports.getD p .reset).holding = _
    rw [State.takeSnapshot_ports hv, lmod_getD _ _ _ _ hp]

/-- After a snapshot the two words of a counter outside the control channels read as its value at that instant (R370). -/
theorem readReg_snapshot {s t : State} {p off : Nat} {r r' : Row} {ix ix' : List Nat}
    (hboot : t.boot = s.boot) (hward : t.ward = s.ward) (hsel : t.selected p = s.selected p)
    (hheld : (t.ports.getD p .reset).holding = s.counterList) (h8 : off % 8 = 0) (hout : off < 0xC10000 ∨ 0xC28000 ≤ off)
    (hr : rowAt off = some (r, ix)) (hr' : rowAt (off + 4) = some (r', ix')) (hc : r.counter = true) (hc' : r'.counter = true)
    (hphase : s.phaseOk off = true) (hmay : s.mayRead p r ix off = true) (hmay' : s.mayRead p r' ix' (off + 4) = true)
    (hview : ∀ x, t.viewOf p off x = none ∧ t.viewOf p (off + 4) x = none) :
    t.readReg p off = some ((alGet s.counterList off).getD 0 % 2 ^ 32) ∧
    t.readReg p (off + 4) = some ((alGet s.counterList off).getD 0 / 2 ^ 32 % 2 ^ 32) := by
  have hphase_t : t.phaseOk off = true := by rw [State.phaseOk, hboot]; exact hphase
  have hphase_t' : t.phaseOk (off + 4) = true := by
    rw [State.phaseOk, show (off + 4) / 0x100000 = off / 0x100000 by omega]
    exact hphase_t
  constructor
  · rw [State.readReg_counter hr hphase_t ((State.mayRead_congr hward hsel).trans hmay) hout hc fun x => (hview x).1, hheld,
      show off / 8 * 8 = off by omega, h8]
    simp
  · rw [State.readReg_counter hr' hphase_t' ((State.mayRead_congr hward hsel).trans hmay') (by omega) hc' fun x => (hview x).2,
      hheld, show (off + 4) / 8 * 8 = off by omega, show (off + 4) % 8 * 8 = 32 by omega]

/-! ### Buffered writes (R11, R366) -/

theorem Regs.shadow_setShadow_ne (r : Regs) (k k' v : Nat) (h : k' ≠ k) : (r.setShadow k v).shadow k' = r.shadow k' := by
  simp only [Regs.setShadow, Regs.shadow, Regs.blk_setBlk]
  by_cases e : min (slotOf k) 15 = min (slotOf k') 15
  · simp only [if_pos e, alGet_alPut_ne _ _ _ _ _ h, Regs.blk_min _ _ _ e]
  · simp only [if_neg e]

/-- A shadow set leaves what is in force, pending or counted in every block. -/
theorem Regs.blk_setShadow (r : Regs) (k v b : Nat) :
    ((r.setShadow k v).blk b).vals = (r.blk b).vals ∧ ((r.setShadow k v).blk b).caps = (r.blk b).caps ∧
    ((r.setShadow k v).blk b).counters = (r.blk b).counters := by
  simp only [Regs.setShadow, Regs.blk_setBlk]
  by_cases e : min (slotOf k) 15 = min b 15
  · simp only [if_pos e, Regs.blk_min _ _ _ e, and_self]
  · simp only [if_neg e, and_self]

theorem Regs.val_setShadow (r : Regs) (k k' v : Nat) : (r.setShadow k v).val k' = r.val k' := by
  unfold Regs.val
  rw [(r.blk_setShadow k v _).1]

/-- A buffered write to a register without a field that acts at once reaches the shadow alone (R366). -/
theorem State.regShadow_plain (s : State) (p k x : Nat) {off : Nat} (hcan : ¬(slotOf off = 13 ∧ off % 0x20000 = 0))
    (hvdec : ¬(slotOf off = 9 ∧ off < 0x940000 ∧ off % 0x1000 = 0)) :
    s.regShadow p off k x = s.withRO (s.regs.setShadow k x) s.out := by
  unfold State.regShadow
  rw [if_neg hcan, if_neg hvdec]
  rfl

/-! ### Writes of ones (R11, R365) -/

theorem rowsOfSlot_beyond {n : Nat} (h : 32 ≤ n) : rowsOfSlot n = [] := by
  obtain ⟨m, rfl⟩ := Nat.exists_eq_add_of_le' h
  show (if m + 32 < 32 then rowsCore else []) = []
  exact if_neg (by omega)

/-- The documented locations lie in the first 32 MiB of BAR0 (R360). -/
theorem rowAt_lt {off : Nat} {x : Row × List Nat} (h : rowAt off = some x) : off < 2 ^ 25 := by
  by_contra hge
  rw [rowAt, rowsOfSlot_beyond (by omega)] at h
  cases h

/-- QUEUE_ERR has no enable register (R246). -/
theorem hasEnable_queueKey (q o : Nat) : hasEnable (queueKey q o) = false := by
  rw [hasEnable, decide_eq_false (by unfold queueKey; omega), Bool.false_and]

/-- An event register that sends a message is no pending-bit word of a port. -/
theorem State.regKey_ne_pbaKey (s : State) {p off : Nat} {r : Row} (hoff : off < 2 ^ 26) (hout : off < 0x640000 ∨ 0x650000 ≤ off)
    (hen : hasEnable (s.regKey p r off) = true) (q : Nat) {v : Nat} (hv : v < 2048) : s.regKey p r off ≠ pbaKey q v := by
  obtain ⟨o, hlo, hhi, e⟩ := pbaKey_eq q hv
  rw [e]
  unfold State.regKey at hen ⊢
  split
  · intro he
    have := (portKey_inj hoff (by omega) he).2
    omega
  · next hport =>
    split
    · next hrule =>
      rw [if_neg hport, if_pos hrule] at hen
      exact absurd hen (by rw [hasEnable_queueKey]; decide)
    · unfold portKey
      omega

/-- A write of ones clears those bits of the register. -/
theorem State.rv_w1c_self (s : State) (k v : Nat) (h : hasEnable k = true → ∀ p u, u < 2048 → k ≠ pbaKey p u) :
    (s.w1c k v).rv k = clearBits (s.rv k) v % 2 ^ 32 := by
  unfold State.w1c
  simp only
  split
  · next hsend =>
    rw [Bool.and_eq_true] at hsend
    rw [State.rv_sendSource_ne _ _ _ fun p _ u hu => h hsend.1 p u hu, State.rv_setReg_self]
  · exact State.rv_setReg_self _ _ _

theorem exec_eventRegisterW1c_withRO {s : State} {w : RegWrite} {r : Row} {ix : List Nat} (h : arrives s w.port)
    (h4 : w.off % 4 = 0) (hr : rowAt w.off = some (r, ix)) (hacc : r.acc = .w1c) (hw : ∃ x o, s.regWrites w = s.withRO x o) :
    exec (.eventRegisterW1c w) s = .next (s.regWrites w) := by
  rw [exec_eventRegisterW1c, execEventRegisterW1c, State.onPort_arrives h]
  obtain ⟨x, o, e⟩ := hw
  rw [hr, e]
  simp [hacc, h4, State.withRO]

end Sys2Proof.Machine
end

section
open Sys2Proof Sys2Proof.Machine Sys2Proof.Safety

/-- Settles O16: each rule of a write by the branch of `regWrites` that it names, the long write by an induction over its DWORDs,
the reads and the snapshot by the branches of `readReg`. -/
theorem registerWriteRules : Obligations.RegisterWriteRules := by
  unfold Obligations.RegisterWriteRules
  refine ⟨fun s w harr => ⟨fun hm => ⟨fun hwide => ?_, fun hwide hallow => ?_, fun hwide hoff => ?_⟩, fun hm h4 => ?_,
    fun hm h4 hr => ?_, fun r ix hm h4 hr => ⟨fun hforbid => ?_, fun hphase hmay hown hacc => ?_⟩⟩, ?reads, ?snapshot⟩
  · exact exec_registerWrite_busError harr (by simp [State.regWrites, hm, hwide])
  · exact exec_registerWrite_busError harr (by simp [State.regWrites, hm, hwide, hallow])
  · obtain ⟨h4, hlo, hin⟩ := State.wideOk_aperture hwide hoff
    refine ⟨_, exec_registerWrite_aperture harr hm hwide hoff, fun i v hv => ?_, fun a ha => ?_, s.putAperture_frame _⟩
    · rw [State.putAperture_aperture, Mem.readBytes_dwords _ _ _ _ _ hv]
    · rw [State.putAperture_aperture, Mem.read_writeBytes_out]
      rw [dwordBytes_length, List.length_cons]
      omega
  · exact exec_registerWrite_busError harr (by rw [State.regWrites_one hm, State.regWrite_misaligned h4])
  · exact exec_registerWrite_busError harr (by rw [State.regWrites_one hm, State.regWrite_reserved h4 hr])
  · have hallow : s.allows w.port w.off = false := by
      rw [State.allows_row hr]
      obtain h | h | h := hforbid <;> simp [h]
    exact exec_registerWrite_busError harr (by rw [State.regWrites_one hm, State.regWrite_forbidden h4 hr hallow])
  · have hallow : s.allows w.port w.off = true := by rw [State.allows_row hr, hphase, hmay, hown]; rfl
    have hsame : s.regWrites w = s := by rw [State.regWrites_one hm, State.regWrite_ro _ h4 hr hallow hacc]
    exact (exec_registerWrite_withRO harr ⟨s.regs, s.out, hsame⟩).trans (congrArg _ hsame)
  case reads =>
    refine fun s p off => ⟨s.readReg_reserved p, fun r ix hr => ⟨fun hphase => ?_, fun hrule hb => ?_, fun hrule hslot hb => ?_,
      fun hrule hid hb => ?_, fun hphase hmay hchan hacc hc hview => ?_⟩⟩
    · exact State.readReg_withheld hr (.inl hphase)
    · exact State.readReg_withheld hr (.inr (State.mayRead_queue hrule hb))
    · exact State.readReg_withheld hr (.inr (State.mayRead_part hrule hslot hb))
    · exact State.readReg_withheld hr (.inr (State.mayRead_core hrule hid hb))
    · rw [State.readReg_allowed hr hphase hmay hchan, State.stored_shadow hc hacc, hview]
      rfl
  case snapshot =>
    intro s p v off r ix r' ix' hadm hv hp h8 hout hr hr' hc hc' hphase hmay hmay' hview
    obtain ⟨t, hexec, hboot, hward, hsel, hheld⟩ := exec_snapshot_takes hadm hv hp
    exact ⟨t, _, hexec, rfl, readReg_snapshot hboot hward hsel hheld h8 hout hr hr' hc hc' hphase hmay hmay' (hview t)⟩

/-- Settles O17: a buffered write sets one shadow, whose laws say what else stands; a write of ones sets the register to its bits
less those written, and the message that may follow touches no event register. -/
theorem bufferedAndClearingWrites : Obligations.BufferedAndClearingWrites := by
  unfold Obligations.BufferedAndClearingWrites
  intro s w r ix harr hm h4 hr hphase hmay hown
  have hallow : s.allows w.port w.off = true := by rw [State.allows_row hr, hphase, hmay, hown]; rfl
  constructor
  · intro hacc hcan hvdec
    have hwrite : s.regWrites w =
        s.withRO (s.regs.setShadow (s.regKey w.port r w.off) (r.fix (w.value.toNat &&& r.mask))) s.out := by
      rw [State.regWrites_one hm, State.regWrite_rwl _ h4 hr hallow hacc, State.regShadow_plain _ _ _ _ hcan hvdec]
    refine ⟨_, exec_registerWrite_withRO harr ⟨_, _, hwrite⟩, ?_⟩
    rw [hwrite]
    exact ⟨Regs.shadow_setShadow_self _ _ _, fun k hk => Regs.shadow_setShadow_ne _ _ _ _ hk, fun k => Regs.val_setShadow _ _ k _,
      fun b _ => (Regs.blk_setShadow _ _ _ b).2, rfl⟩
  · intro hacc hfix hout
    have hwrite : s.regWrites w = s.w1c (s.regKey w.port r w.off) (w.value.toNat &&& r.mask) := by
      rw [State.regWrites_one hm, State.regWrite_w1c _ h4 hr hallow hacc, hfix]
      rfl
    have hframe := s.w1c_frame (s.regKey w.port r w.off) (w.value.toNat &&& r.mask)
    rw [← hwrite] at hframe
    refine ⟨_, exec_registerWrite_withRO harr hframe, exec_eventRegisterW1c_withRO harr h4 hr hacc hframe, fun i hi => ?_, ?_⟩
    · have hoff := rowAt_lt hr
      rw [hwrite, State.rv_w1c_self _ _ _ fun hen q u hu => s.regKey_ne_pbaKey (by omega) hout hen q hu, tbit_mod_word _ hi,
        tbit_clearBits _ _ hi, tbit_and]
    · obtain ⟨x, o, e⟩ := hframe
      rw [e]
      rfl

end

section
/-!
PROOFS. The end of a mailbox chunk's copy where the configuration master is no port of the module (R57, R353, R425).
-/
namespace Sys2Proof.Machine

/-- The security engine's commands leave every register outside the blocks SEC and PCI alone. -/
theorem State.rv_commitSec_outside (s t : State) {k : Nat} (hsec : slotOf k ≠ 3) (hpci : slotOf k ≠ 6) :
    (commitSec s t).rv k = s.rv k := by
  refine Regs.val_congr ?_
  unfold Regs.blk
  split <;> simp_all [commitSec]

/-- The keys of a port 15 would be those of the queues' registers, which begin at 2^30 (R246). -/
theorem slotOf_portKey_fifteen (off : Nat) : slotOf (portKey 15 off) = 7 := by
  unfold slotOf keyOff portKey
  rw [if_pos (by omega)]
  omega

theorem exec_mbChunkCopyDone_clocked {s : State} (h : s.boot.refOsc = true) :
    exec .mbChunkCopyDone s = .next (commitSec s s.mbCopyDone) := by
  rw [exec_mbChunkCopyDone, execMbChunkCopyDone, State.clocked_on h]

/-- A copy of the mailbox runs while the straps name port 15 of 16 as the configuration master; the module has four ports. -/
def copyUnderPortFifteen : State := { State.reset with
  boot := { State.reset.boot with refOsc := true, laneCfg := 15, cfgmSel := 15 }
  sec := { State.reset.sec with mb := { State.reset.sec.mb with busyCopy := true } } }

theorem copyUnderPortFifteen_master : copyUnderPortFifteen.master = 15 := rfl

/-- SEC_EVENT of port 15 holds no MB_DONE after the copy: its key lies outside the blocks that the engine's commands commit. -/
theorem no_mbDone_under_portFifteen (u : State) (h : exec .mbChunkCopyDone copyUnderPortFifteen = .next u) :
    tbit (u.rv (portKey copyUnderPortFifteen.master 0x300004)) 1 = false := by
  obtain rfl : _ = u := by injection (exec_mbChunkCopyDone_clocked rfl).symm.trans h
  rw [copyUnderPortFifteen_master,
    State.rv_commitSec_outside _ _ (by rw [slotOf_portKey_fifteen]; decide) (by rw [slotOf_portKey_fifteen]; decide)]
  decide

end Sys2Proof.Machine
end

section
open Sys2Proof Sys2Proof.Machine Sys2Proof.Safety

/-- Refutes O55: its clause on the end of a chunk's copy speaks of every state, also of one whose straps name a configuration master
that no module has (POWER_GOOD and WAKE carry straps below 4, so that no run comes to it). At master 15 the key of SEC_EVENT lies
outside SEC and PCI, which alone are committed, and MB_DONE is not set. -/
theorem not_mailboxAndTrust : ¬ Obligations.MailboxAndTrust := by
  unfold Obligations.MailboxAndTrust
  rintro ⟨-, hcopy, -⟩
  obtain ⟨u, hu, hdone, -⟩ := (hcopy copyUnderPortFifteen).2 rfl rfl
  rw [no_mbDone_under_portFifteen u hu] at hdone
  cases hdone

end

section
/-!
PROOFS. The safety island: causes, the entry into the safe state and its frame, the guard (R381 to R384, R397, R399).
-/
namespace Sys2Proof.Machine
open Sys2Proof.Safety

/-! ### Registers and outputs as an event leaves them -/

theorem lmod_getElem?_self {α : Type} {l : List α} {i : Nat} {x : α} (f : α → α) (h : l[i]? = some x) :
    (lmod l i f)[i]? = some (f x) := by
  have hlt : i < l.length := (List.getElem?_eq_some_iff.1 h).1
  rw [lmod, h]
  simp [hlt]

/-- Of the registers that the ports share, an event changes its own alone (R365). -/
theorem State.rv_raise_shared (s : State) (k bits : Nat) {x : Nat} (hx : x < 2 ^ 26) :
    (s.raise k bits).rv x = (s.setReg k (s.rv k ||| bits)).rv x := by
  unfold State.raise
  simp only
  split
  · refine State.rv_sendSource_ne _ _ _ fun p _ v hv => ?_
    obtain ⟨o, -, -, e⟩ := pbaKey_eq p hv
    rw [e]
    unfold portKey
    omega
  · rfl

theorem State.rv_raise_shared_ne (s : State) {k x : Nat} (bits : Nat) (hx : x < 2 ^ 26) (h : x ≠ k) :
    (s.raise k bits).rv x = s.rv x := by
  rw [s.rv_raise_shared k bits hx, State.rv_setReg_ne _ _ _ _ h]

/-- An event's bits are set in its register. -/
theorem State.tbit_raise_shared (s : State) {k i : Nat} (bits : Nat) (hk : k < 2 ^ 26) (hi : i < 32)
    (hbit : tbit bits i = true) : tbit ((s.raise k bits).rv k) i = true := by
  rw [s.rv_raise_shared k bits hk, State.rv_setReg_self, tbit_mod_word _ hi, tbit_or, hbit, Bool.or_true]

theorem State.emit_out (s : State) (o : Out) : (s.emit o).out = s.out ++ [o] := rfl

theorem State.mem_out_sendVector {s : State} {o : Out} (p v : Nat) (h : o ∈ s.out) : o ∈ (s.sendVector p v).out := by
  unfold State.sendVector
  simp only
  split
  · exact h
  · split
    · rwa [State.setReg_out]
    · rw [State.emit_out]
      exact List.mem_append_left _ h

theorem State.mem_out_sendSource {s : State} {o : Out} (k : Nat) (h : o ∈ s.out) : o ∈ (s.sendSource k).out := by
  unfold State.sendSource
  generalize s.eventPorts k = l
  induction l generalizing s with
  | nil => exact h
  | cons p t ih => exact ih (State.mem_out_sendVector _ _ h)

/-- What has left the block before an event has left it after the event. -/
theorem State.mem_out_raise {s : State} {o : Out} (k bits : Nat) (h : o ∈ s.out) : o ∈ (s.raise k bits).out := by
  unfold State.raise
  simp only
  split
  · exact State.mem_out_sendSource k h
  · exact h

/-! ### What the commands of the safe state commit -/

theorem commitState_self (s : State) : commitState s s = s := rfl

/-- A register of the SAFE block is committed. -/
theorem State.rv_commitState_safe (s t : State) {k : Nat} (h : slotOf k = 2) : (commitState s t).rv k = t.rv k := by
  refine Regs.val_congr ?_
  rw [h]
  rfl

theorem slotOf_of_lt {k : Nat} (h : k < 2 ^ 26) : slotOf k = k / 0x100000 := by rw [slotOf, keyOff_of_lt h]

/-! ### Fault records and causes (R381, R397) -/

theorem State.logFault_safe (s : State) (r : FaultRec) : (s.logFault r).safe = { s.safe with
    flog := (s.safe.flog ++ [r]).drop ((s.safe.flog ++ [r]).length - 64)
    flogHead := min (s.safe.flogHead + 1) 0xFFFFFFFF } := by
  unfold State.logFault
  exact State.raise_safe _ _ _

/-- The fault log holds the record that it has just taken. -/
theorem State.mem_flog_logFault (s : State) (r : FaultRec) : r ∈ (s.logFault r).safe.flog := by
  rw [s.logFault_safe]
  show r ∈ List.drop _ (s.safe.flog ++ [r])
  rw [List.drop_append_of_le_length (by simp)]
  simp

theorem State.rv_logFault_shared_ne (s : State) (r : FaultRec) {x : Nat} (hx : x < 2 ^ 26) (h : x ≠ 0x200020) :
    (s.logFault r).rv x = s.rv x := by
  unfold State.logFault
  exact State.rv_raise_shared_ne _ _ hx h

/-- The entry into the safe state that is due once a cause is detected: the first cause stays. -/
def State.dueAfter (s : State) (c : Nat) : Option (Nat × Nat) :=
  s.safe.entryDue.or (if s.drive && s.safe.state == 1 then some (c, s.now) else none)

theorem State.dueAfter_first {s : State} (c : Nat) (hdrive : s.drive = true) (hstate : s.safe.state = 1)
    (hdue : s.safe.entryDue = none) : s.dueAfter c = some (c, s.now) := by
  simp [State.dueAfter, hdrive, hstate, hdue]

/-- No entry is newly due under a depot image, outside RUNNING, or behind an earlier cause. -/
theorem State.dueAfter_same {s : State} (c : Nat)
    (h : s.drive = false ∨ s.safe.state ≠ 1 ∨ s.safe.entryDue ≠ none) : s.dueAfter c = s.safe.entryDue := by
  unfold State.dueAfter
  obtain h | h | h := h
  · simp [h]
  · simp [h]
  · obtain ⟨d, hd⟩ := Option.ne_none_iff_exists'.1 h
    rw [hd]
    rfl

theorem State.detect_entryDue (s : State) (c unit response : Nat) :
    (s.detect c unit response).safe.entryDue = s.dueAfter c := by
  have hl := s.logFault_safe ⟨response, unit, 0x0410 + c, s.now⟩
  have hdrive : (s.logNow response unit (0x0410 + c)).drive = s.drive := by
    rw [State.drive, State.logNow_ward]
    rfl
  have hnow : (s.logNow response unit (0x0410 + c)).now = s.now := by
    rw [State.now, State.logNow_time]
    rfl
  unfold State.detect State.dueAfter
  simp only [hdrive, hnow, State.logNow_safe_state]
  rw [State.logNow, hl]
  cases s.safe.entryDue <;> rfl

theorem State.mem_flog_detect (s : State) (c unit response : Nat) :
    ⟨response, unit, 0x0410 + c, s.now⟩ ∈ (s.detect c unit response).safe.flog :=
  s.mem_flog_logFault ⟨response, unit, 0x0410 + c, s.now⟩

/-- A hard cause is remembered (R381). -/
theorem State.mem_hard_detect (s : State) {c : Nat} (unit response : Nat) (h : 5 ≤ c ∧ c ≤ 7) :
    c ∈ (s.detect c unit response).safe.hard := by
  unfold State.detect
  simp only
  split
  · simp
  · next hold => simpa [h] using hold

theorem State.rv_detect_shared_ne (s : State) (c unit response : Nat) {x : Nat} (hx : x < 2 ^ 26) (h : x ≠ 0x200020) :
    (s.detect c unit response).rv x = s.rv x := s.rv_logFault_shared_ne _ hx h

/-! ### The deadbolt and the safe-state frame (R382 to R384) -/

@[simp] theorem State.stopHeartbeat_safe (s : State) : s.stopHeartbeat.safe = { s.safe with heartbeat := false } := by
  unfold State.stopHeartbeat
  split
  · rfl
  · next h =>
    rw [Bool.not_eq_true] at h
    rw [← h]

theorem State.stopHeartbeat_frame (s : State) : ∃ o, s.stopHeartbeat =
    { s with safe := { s.safe with heartbeat := false }, out := o } := by
  refine ⟨s.stopHeartbeat.out, ?_⟩
  rw [← s.stopHeartbeat_safe]
  unfold State.stopHeartbeat
  split <;> rfl

theorem State.deadbolt_mem_out_stopHeartbeat {s : State} (h : s.safe.heartbeat = true) :
    .deadbolt false ∈ s.stopHeartbeat.out := by
  unfold State.stopHeartbeat
  rw [if_pos h]
  exact List.mem_append_right _ List.mem_cons_self

/-- A safe-state frame changes nothing but the controller that it goes to. -/
theorem State.putSafeFrame_frame (s : State) (c ts n : Nat) :
    s.putSafeFrame c ts n = { s with can := (s.putSafeFrame c ts n).can } := by
  unfold State.putSafeFrame
  split <;> rfl

@[simp] theorem State.putSafeFrame_safe (s : State) (c ts n : Nat) : (s.putSafeFrame c ts n).safe = s.safe := by
  rw [s.putSafeFrame_frame]

@[simp] theorem State.putSafeFrame_out (s : State) (c ts n : Nat) : (s.putSafeFrame c ts n).out = s.out := by
  rw [s.putSafeFrame_frame]

@[simp] theorem State.putSafeFrame_fresh (s : State) (c ts n : Nat) : (s.putSafeFrame c ts n).fresh = s.fresh := by
  rw [s.putSafeFrame_frame]

@[simp] theorem State.putSafeFrame_ward (s : State) (c ts n : Nat) : (s.putSafeFrame c ts n).ward = s.ward := by
  rw [s.putSafeFrame_frame]

/-- The frame stands at the controller that the image names. -/
theorem State.putSafeFrame_can {s : State} {i : Image} {e : SafetyEntry} {x : CanSt} (c ts n : Nat)
    (hi : s.ward.image = some i) (he : i.safety = some e)
    (hx : s.can[e.safeCan]? = some x) :
    (s.putSafeFrame c ts n).can[e.safeCan]? = some { x with safe := some (safeFrame e c ts n) } := by
  have hbind : s.ward.image.bind (·.safety) = some e := by rw [hi, Option.bind_some, he]
  unfold State.putSafeFrame
  rw [hbind]
  exact lmod_getElem?_self _ hx

/-- The island once it has entered the safe state (R382). -/
def SafeSt.entered (x : SafeSt) (c ts : Nat) : SafeSt :=
  { x with state := 2, cause := c, entryTs := ts, entryCnt := (x.entryCnt + 1) % 2 ^ 32, repeatNo := 0, entryDue := none,
           heartbeat := false }

theorem State.enterSafe_safe (s : State) (c ts : Nat) : (s.enterSafe c ts).safe = s.safe.entered c ts := by
  simp only [State.enterSafe, State.raise_safe, State.queueSafeFrame, State.putSafeFrame_safe, State.stopHeartbeat_safe]
  rfl

@[simp] theorem State.stopHeartbeat_fresh (s : State) : s.stopHeartbeat.fresh = s.fresh := by
  obtain ⟨o, h⟩ := s.stopHeartbeat_frame
  rw [h]

@[simp] theorem State.stopHeartbeat_ward (s : State) : s.stopHeartbeat.ward = s.ward := by
  obtain ⟨o, h⟩ := s.stopHeartbeat_frame
  rw [h]

@[simp] theorem State.stopHeartbeat_can (s : State) : s.stopHeartbeat.can = s.can := by
  obtain ⟨o, h⟩ := s.stopHeartbeat_frame
  rw [h]

@[simp] theorem State.stopHeartbeat_boot (s : State) : s.stopHeartbeat.boot = s.boot := by
  obtain ⟨o, h⟩ := s.stopHeartbeat_frame
  rw [h]

@[simp] theorem State.stopHeartbeat_pwr (s : State) : s.stopHeartbeat.pwr = s.pwr := by
  obtain ⟨o, h⟩ := s.stopHeartbeat_frame
  rw [h]

@[simp] theorem State.stopHeartbeat_time (s : State) : s.stopHeartbeat.time = s.time := by
  obtain ⟨o, h⟩ := s.stopHeartbeat_frame
  rw [h]

@[simp] theorem State.enterSafe_fresh (s : State) (c ts : Nat) : (s.enterSafe c ts).fresh = s.fresh := by
  simp [State.enterSafe, State.queueSafeFrame]

@[simp] theorem State.enterSafe_ward (s : State) (c ts : Nat) : (s.enterSafe c ts).ward = s.ward := by
  simp [State.enterSafe, State.queueSafeFrame]

theorem State.enterSafe_event (s : State) (c ts : Nat) : tbit ((s.enterSafe c ts).rv 0x200020) 0 = true :=
  State.tbit_raise_shared _ _ (by decide) (by decide) rfl

theorem State.deadbolt_mem_out_enterSafe {s : State} (c ts : Nat) (h : s.safe.heartbeat = true) :
    .deadbolt false ∈ (s.enterSafe c ts).out := by
  refine State.mem_out_raise _ _ ?_
  rw [State.queueSafeFrame, State.putSafeFrame_out]
  exact State.deadbolt_mem_out_stopHeartbeat h

theorem State.enterSafe_can {s : State} {i : Image} {e : SafetyEntry} {x : CanSt} (c ts : Nat)
    (hi : s.ward.image = some i) (he : i.safety = some e)
    (hx : s.can[e.safeCan]? = some x) :
    (s.enterSafe c ts).can[e.safeCan]? = some { x with safe := some (safeFrame e c ts 0) } := by
  simp only [State.enterSafe, State.raise_can, State.queueSafeFrame, State.stopHeartbeat_safe]
  exact State.putSafeFrame_can _ _ _ (by rw [State.stopHeartbeat_ward]; exact hi) he (by rw [State.stopHeartbeat_can]; exact hx)

/-! ### The guard (R399) -/

/-- The guard's answer before its frame: the entry where one is due in RUNNING, and the pins low in every case. -/
def State.guardStops (s : State) : State := match s.safe.entryDue with
  | some (c, ts) => if s.safe.state = 1 then s.enterSafe c ts else s.stopHeartbeat
  | none => s.stopHeartbeat

theorem State.guardActs_eq (s : State) (c : Nat) :
    s.guardActs c = (s.detect c 0xFF 2).guardStops.putSafeFrame c s.now 0 := rfl

/-- All that the guard can do to the pins and the state: the entry that is due, or the pins alone. -/
theorem State.guardStops_cases (s : State) :
    (∃ c ts, s.safe.entryDue = some (c, ts) ∧ s.safe.state = 1 ∧ s.guardStops = s.enterSafe c ts) ∨
    s.guardStops = s.stopHeartbeat := by
  unfold State.guardStops
  split
  · next c ts hdue =>
    split
    · next hstate => exact .inl ⟨c, ts, hdue, hstate, rfl⟩
    · exact .inr rfl
  · exact .inr rfl

/-- Whatever the state, the pins are low, and records, hard causes, image and free values stand. -/
theorem State.guardStops_keeps (s : State) : s.guardStops.safe.heartbeat = false ∧ s.guardStops.safe.hard = s.safe.hard ∧
    s.guardStops.safe.flog = s.safe.flog ∧ s.guardStops.ward = s.ward ∧ s.guardStops.fresh = s.fresh := by
  obtain ⟨c, ts, -, -, h⟩ | h := s.guardStops_cases <;> rw [h]
  · rw [State.enterSafe_safe]
    exact ⟨rfl, rfl, rfl, s.enterSafe_ward c ts, s.enterSafe_fresh c ts⟩
  · rw [State.stopHeartbeat_safe]
    exact ⟨rfl, rfl, rfl, s.stopHeartbeat_ward, s.stopHeartbeat_fresh⟩

theorem State.guardStops_safe_due {s : State} {c ts : Nat} (hdue : s.safe.entryDue = some (c, ts)) (hstate : s.safe.state = 1) :
    s.guardStops.safe = s.safe.entered c ts := by
  rw [State.guardStops, hdue]
  simp only
  rw [if_pos hstate, State.enterSafe_safe]

/-- Of a controller the guard's answer can change the safe-state frame alone. -/
theorem State.guardStops_can {s : State} {i : Image} {e : SafetyEntry} {x : CanSt} (hi : s.ward.image = some i)
    (he : i.safety = some e) (hx : s.can[e.safeCan]? = some x) :
    ∃ f, s.guardStops.can[e.safeCan]? = some { x with safe := f } := by
  obtain ⟨c, ts, -, -, h⟩ | h := s.guardStops_cases <;> rw [h]
  · exact ⟨_, State.enterSafe_can c ts hi he hx⟩
  · exact ⟨x.safe, by rw [State.stopHeartbeat_can]; exact hx⟩

theorem State.guardActs_can {s : State} {i : Image} {e : SafetyEntry} {x : CanSt} (c : Nat) (hi : s.ward.image = some i)
    (he : i.safety = some e) (hx : s.can[e.safeCan]? = some x) :
    (s.guardActs c).can[e.safeCan]? = some { x with safe := some (safeFrame e c s.now 0) } := by
  obtain ⟨-, -, -, hward, -⟩ := (s.detect c 0xFF 2).guardStops_keeps
  rw [State.detect_ward] at hward
  obtain ⟨f, hf⟩ := State.guardStops_can (s := s.detect c 0xFF 2) (by rw [State.detect_ward]; exact hi) he
    (by rw [State.detect_can]; exact hx)
  rw [s.guardActs_eq]
  exact State.putSafeFrame_can (x := { x with safe := f }) _ _ _ (by rw [hward]; exact hi) he hf

/-- The guard's pins, hard cause and record. -/
theorem State.guardActs_keeps (s : State) {c : Nat} (hc : 5 ≤ c ∧ c ≤ 7) : (s.guardActs c).safe.heartbeat = false ∧
    c ∈ (s.guardActs c).safe.hard ∧ ⟨2, 0xFF, 0x0410 + c, s.now⟩ ∈ (s.guardActs c).safe.flog := by
  obtain ⟨hbeat, hhard, hlog, -⟩ := (s.detect c 0xFF 2).guardStops_keeps
  rw [s.guardActs_eq, State.putSafeFrame_safe, hbeat, hhard, hlog]
  exact ⟨rfl, s.mem_hard_detect _ _ hc, s.mem_flog_detect _ _ _⟩

theorem State.guardActs_fresh (s : State) (c : Nat) : (s.guardActs c).fresh = s.fresh := by
  obtain ⟨-, -, -, -, hfresh⟩ := (s.detect c 0xFF 2).guardStops_keeps
  rw [s.guardActs_eq, State.putSafeFrame_fresh, hfresh, State.detect_fresh]

/-- Where no cause came before it, the guard's own is the cause of the entry. -/
theorem State.guardActs_first {s : State} (c : Nat) (hdrive : s.drive = true) (hstate : s.safe.state = 1)
    (hdue : s.safe.entryDue = none) : (s.guardActs c).safe = (s.detect c 0xFF 2).safe.entered c s.now := by
  rw [s.guardActs_eq, State.putSafeFrame_safe]
  refine State.guardStops_safe_due ?_ (by rw [State.detect_safe_state, hstate])
  rw [State.detect_entryDue, State.dueAfter_first c hdrive hstate hdue]

end Sys2Proof.Machine
end

section
/-!
PROOFS. The age monitors, and the commands of the safety island (R160, R376 to R402).
-/
namespace Sys2Proof.Machine
open Sys2Proof.Safety

/-! ### One evaluation of one monitor (R378, R379, R381) -/

/-- What an evaluation reads besides the monitors stands, and so do the deadbolt's state and pins and the free values. Of the registers
that the ports share only the island's event register, 0x200020, may differ. -/
structure SameIsland (s t : State) : Prop where
  ward : t.ward = s.ward
  time : t.time = s.time
  fresh : t.fresh = s.fresh
  state : t.safe.state = s.safe.state
  heartbeat : t.safe.heartbeat = s.safe.heartbeat
  rv : ∀ x, x < 2 ^ 26 → x ≠ 0x200020 → t.rv x = s.rv x

namespace SameIsland
variable {s t u : State}

theorem refl (s : State) : SameIsland s s := ⟨rfl, rfl, rfl, rfl, rfl, fun _ _ _ => rfl⟩

theorem trans (h : SameIsland s t) (k : SameIsland t u) : SameIsland s u :=
  ⟨k.ward.trans h.ward, k.time.trans h.time, k.fresh.trans h.fresh, k.state.trans h.state, k.heartbeat.trans h.heartbeat,
    fun x hx hne => (k.rv x hx hne).trans (h.rv x hx hne)⟩

theorem raise (s : State) (bits : Nat) : SameIsland s (s.raise 0x200020 bits) :=
  ⟨State.raise_ward _ _ _, State.raise_time _ _ _, State.raise_fresh _ _ _, by rw [State.raise_safe], by rw [State.raise_safe],
    fun _ hx hne => State.rv_raise_shared_ne _ _ hx hne⟩

theorem logNow (s : State) (response unit code : Nat) : SameIsland s (s.logNow response unit code) :=
  ⟨State.logNow_ward _ _ _ _, State.logNow_time _ _ _ _, State.logNow_fresh _ _ _ _, State.logNow_safe_state _ _ _ _,
    State.logNow_safe_heartbeat _ _ _ _, fun _ hx hne => State.rv_logFault_shared_ne _ _ hx hne⟩

theorem detect (s : State) (c unit response : Nat) : SameIsland s (s.detect c unit response) :=
  ⟨State.detect_ward _ _ _ _, State.detect_time _ _ _ _, State.detect_fresh _ _ _ _, State.detect_safe_state _ _ _ _,
    State.detect_safe_heartbeat _ _ _ _, fun _ hx hne => State.rv_detect_shared_ne _ _ _ _ hx hne⟩

variable (h : SameIsland s t)
include h

theorem drive : t.drive = s.drive := by
  rw [State.drive, h.ward]
  rfl

theorem now : t.now = s.now := by
  rw [State.now, h.time]
  rfl

theorem esc {m : Nat} (hm : m < 256) : t.esc m = s.esc m := by
  rw [State.esc, h.rv _ (by omega) (by omega)]
  rfl

theorem monLimit (m : Nat) : t.monLimit m = s.monLimit m := by
  rw [State.monLimit, h.ward]
  rfl

end SameIsland

/-- A monitor as an evaluation leaves it (R378, R379). -/
def State.aged (s : State) (m : Nat) (x : MonSt) : MonSt :=
  let age := tdiff s.now x.ts
  let late := decide ((s.monLimit m * 1000 : Nat) < age)
  { x with exceeded := late, caused := late && (x.caused || s.esc m),
           age := if age < 0 then 0 else min (age.toNat / 1000) 0xFFFFFFFF }

theorem SameIsland.aged {s t : State} {m : Nat} (h : SameIsland s t) (hm : m < 256) : t.aged m = s.aged m := by
  funext x
  simp only [State.aged, h.now, h.monLimit, h.esc hm]

/-- The state with a monitor aged. -/
def State.putAged (s : State) (m : Nat) (x : MonSt) : State :=
  { s with safe := { s.safe with mons := alSet s.safe.mons m (s.aged m x) } }

/-- The monitor aged, and what a new exceedance brings about that is no cause: a record where it does not escalate, and the event. -/
def State.lateNoted (s : State) (m : Nat) (x : MonSt) : State :=
  if (s.aged m x).exceeded && !x.exceeded then
    (if s.esc m then s.putAged m x else (s.putAged m x).logNow 0 0xFF 0x0425).raise 0x200020 4
  else s.putAged m x

theorem State.evalMon_some {s : State} {m : Nat} {x : MonSt} (h : alGet s.safe.mons m = some x) :
    s.evalMon m = if (s.aged m x).caused && !x.caused then (s.lateNoted m x).detect 0 0xFF 2 else s.lateNoted m x := by
  unfold State.evalMon
  rw [h]
  rfl

theorem State.lateNoted_same (s : State) (m : Nat) (x : MonSt) : SameIsland s (s.lateNoted m x) := by
  have haged : SameIsland s (s.putAged m x) := ⟨rfl, rfl, rfl, rfl, rfl, fun _ _ _ => rfl⟩
  unfold State.lateNoted
  split
  · refine .trans ?_ (.raise _ 4)
    split
    · exact haged
    · exact haged.trans (.logNow _ _ _ _)
  · exact haged

theorem State.lateNoted_mons (s : State) (m : Nat) (x : MonSt) :
    (s.lateNoted m x).safe.mons = alSet s.safe.mons m (s.aged m x) := by
  unfold State.lateNoted
  split
  · rw [State.raise_safe]
    split
    · rfl
    · rw [State.logNow_safe_mons]
      rfl
  · rfl

theorem State.lateNoted_entryDue (s : State) (m : Nat) (x : MonSt) : (s.lateNoted m x).safe.entryDue = s.safe.entryDue := by
  unfold State.lateNoted
  split
  · rw [State.raise_safe]
    split
    · rfl
    · rw [State.logNow, State.logFault_safe]
      rfl
  · rfl

theorem State.evalMon_none {s : State} {m : Nat} (h : alGet s.safe.mons m = none) : s.evalMon m = s := by
  unfold State.evalMon
  rw [h]

theorem State.evalMon_same (s : State) (m : Nat) : SameIsland s (s.evalMon m) := by
  cases h : alGet s.safe.mons m with
  | none =>
    rw [State.evalMon_none h]
    exact .refl s
  | some x =>
    have hsame := s.lateNoted_same m x
    rw [State.evalMon_some h]
    split
    · exact hsame.trans (.detect _ _ _ _)
    · exact hsame

theorem State.evalMon_mons {s : State} {m : Nat} {x : MonSt} (h : alGet s.safe.mons m = some x) :
    (s.evalMon m).safe.mons = alSet s.safe.mons m (s.aged m x) := by
  rw [State.evalMon_some h]
  split
  · rw [State.detect_safe_mons, State.lateNoted_mons]
  · exact s.lateNoted_mons m x

theorem State.alGet_evalMon_self {s : State} {m : Nat} {x : MonSt} (h : alGet s.safe.mons m = some x) :
    alGet (s.evalMon m).safe.mons m = some (s.aged m x) := by
  rw [State.evalMon_mons h, alGet_alSet_self]

theorem State.alGet_evalMon_ne (s : State) {m n : Nat} (hne : n ≠ m) :
    alGet (s.evalMon m).safe.mons n = alGet s.safe.mons n := by
  cases h : alGet s.safe.mons m with
  | none => rw [State.evalMon_none h]
  | some x => rw [State.evalMon_mons h, alGet_alSet_ne _ _ _ _ hne]

theorem SameIsland.dueAfter {s t : State} (h : SameIsland s t) (hdue : t.safe.entryDue = s.safe.entryDue) (c : Nat) :
    t.dueAfter c = s.dueAfter c := by
  simp only [State.dueAfter, hdue, h.drive, h.now, h.state]

/-- An escalated exceedance that no evaluation has met before makes the entry due. -/
theorem State.evalMon_due_caused {s : State} {m : Nat} {x : MonSt} (h : alGet s.safe.mons m = some x)
    (hlate : (s.aged m x).exceeded = true) (hnew : x.caused = false) (hesc : s.esc m = true) :
    (s.evalMon m).safe.entryDue = s.dueAfter 0 := by
  have hcaused : (s.aged m x).caused = true := by
    show ((s.aged m x).exceeded && (x.caused || s.esc m)) = true
    rw [hlate, hesc, Bool.or_true]
    rfl
  rw [State.evalMon_some h, if_pos (by rw [hcaused, hnew]; rfl), State.detect_entryDue,
    (s.lateNoted_same m x).dueAfter (s.lateNoted_entryDue m x)]

/-- All that an evaluation can do to the entry that is due. -/
theorem State.evalMon_due_cases (s : State) (m : Nat) :
    (s.evalMon m).safe.entryDue = s.safe.entryDue ∨ (s.evalMon m).safe.entryDue = s.dueAfter 0 := by
  cases h : alGet s.safe.mons m with
  | none => exact .inl (by rw [State.evalMon_none h])
  | some x =>
    have hdue := s.lateNoted_entryDue m x
    rw [State.evalMon_some h]
    split
    · exact .inr (by rw [State.detect_entryDue, (s.lateNoted_same m x).dueAfter hdue])
    · exact .inl hdue

/-- An entry that is due stays due, with its cause and its instant. -/
theorem State.evalMon_due_some {s : State} (m : Nat) {d : Nat × Nat} (h : s.safe.entryDue = some d) :
    (s.evalMon m).safe.entryDue = some d := by
  obtain e | e := s.evalMon_due_cases m <;> rw [e]
  · exact h
  · rw [State.dueAfter_same 0 (.inr (.inr (by simp [h]))), h]

/-! ### One evaluation of a list of monitors -/

theorem State.evalMons_same (s : State) (l : List Nat) : SameIsland s (l.foldl State.evalMon s) := by
  induction l generalizing s with
  | nil => exact .refl s
  | cons m t ih => exact (s.evalMon_same m).trans (ih _)

theorem State.alGet_evalMons_of_notMem (s : State) {l : List Nat} {m : Nat} (h : m ∉ l) :
    alGet (l.foldl State.evalMon s).safe.mons m = alGet s.safe.mons m := by
  induction l generalizing s with
  | nil => rfl
  | cons n t ih =>
    obtain ⟨hne, ht⟩ := not_or.1 (mt List.mem_cons.2 h)
    rw [List.foldl_cons, ih _ ht, State.alGet_evalMon_ne _ hne]

theorem State.evalMons_due_some {s : State} (l : List Nat) {d : Nat × Nat} (h : s.safe.entryDue = some d) :
    (l.foldl State.evalMon s).safe.entryDue = some d := by
  induction l generalizing s with
  | nil => exact h
  | cons m t ih => exact ih (State.evalMon_due_some m h)

section
variable {s : State} (hdrive : s.drive = true) (hstate : s.safe.state = 1)
include hdrive hstate

/-- The entry that evaluations make due is that of cause 0 at the present instant. -/
theorem State.evalMons_due (l : List Nat) (hdue : s.safe.entryDue = none) :
    (l.foldl State.evalMon s).safe.entryDue = none ∨ (l.foldl State.evalMon s).safe.entryDue = some (0, s.now) := by
  induction l generalizing s with
  | nil => exact .inl hdue
  | cons m t ih =>
    have hsame := s.evalMon_same m
    rw [List.foldl_cons, ← hsame.now]
    obtain e | e := s.evalMon_due_cases m
    · exact ih (hsame.drive.trans hdrive) (hsame.state.trans hstate) (e.trans hdue)
    · rw [State.dueAfter_first 0 hdrive hstate hdue, ← hsame.now] at e
      exact .inr (State.evalMons_due_some t e)

end

section
variable {s : State} {m : Nat} {x : MonSt} {l : List Nat} (hm : m < 256) (hmem : m ∈ l) (hnodup : l.Nodup)
  (hx : alGet s.safe.mons m = some x)
include hm hmem hnodup hx

/-- Each monitor of the list ages, once. -/
theorem State.alGet_evalMons_of_mem : alGet (l.foldl State.evalMon s).safe.mons m = some (s.aged m x) := by
  obtain ⟨l₁, l₂, rfl⟩ := List.append_of_mem hmem
  obtain ⟨-, hnodup₂, hdisj⟩ := List.nodup_append.1 hnodup
  have hbefore : m ∉ l₁ := fun h => hdisj m h m List.mem_cons_self rfl
  have hafter : m ∉ l₂ := (List.nodup_cons.1 hnodup₂).1
  rw [List.foldl_append, List.foldl_cons, State.alGet_evalMons_of_notMem _ hafter, ← (s.evalMons_same l₁).aged hm]
  exact State.alGet_evalMon_self ((s.alGet_evalMons_of_notMem hbefore).trans hx)

/-- The first monitor that exceeds its limit where it escalates makes the entry due, and those behind it change nothing. -/
theorem State.evalMons_due_of_mem (hdrive : s.drive = true) (hstate : s.safe.state = 1) (hdue : s.safe.entryDue = none)
    (hlate : (s.aged m x).exceeded = true) (hnew : x.caused = false) (hesc : s.esc m = true) :
    (l.foldl State.evalMon s).safe.entryDue = some (0, s.now) := by
  obtain ⟨l₁, l₂, rfl⟩ := List.append_of_mem hmem
  obtain ⟨-, -, hdisj⟩ := List.nodup_append.1 hnodup
  have hbefore : m ∉ l₁ := fun h => hdisj m h m List.mem_cons_self rfl
  have hsame := s.evalMons_same l₁
  rw [List.foldl_append, List.foldl_cons]
  refine State.evalMons_due_some l₂ ?_
  obtain hnone | hsome := State.evalMons_due hdrive hstate l₁ hdue
  · rw [State.evalMon_due_caused ((s.alGet_evalMons_of_notMem hbefore).trans hx) (by rw [hsame.aged hm, hlate]) hnew
        (by rw [hsame.esc hm, hesc]),
      State.dueAfter_first 0 (hsame.drive.trans hdrive) (hsame.state.trans hstate) hnone, hsame.now]
  · exact State.evalMon_due_some m hsome

end

/-! ### The evaluation (R378, R380, R402) -/

theorem State.latchDone_fresh (t s : State) : (t.latchDone s).fresh = t.fresh := by
  unfold State.latchDone
  generalize List.range s.nPorts = l
  induction l generalizing t with
  | nil => rfl
  | cons p l ih =>
    rw [List.foldl_cons, ih]
    split
    · exact State.raise_fresh _ _ _
    · rfl

theorem State.safeBoundary_fresh (s : State) : s.safeBoundary.fresh = s.fresh := by
  unfold State.safeBoundary State.applyReady
  simp only
  split
  · rfl
  · rw [State.latchDone_fresh]
    rfl

/-- Without a capture of the SAFE block none applies. -/
theorem State.safeBoundary_self {s : State} (h : ∀ y ∈ s.regs.safe.caps, groupOf y.key ≠ 15) : s.safeBoundary = s := by
  have hnone : (s.regs.blk 2).caps.filter (fun c => groupOf c.key == 15) = [] := by
    simpa [List.filter_eq_nil_iff, Regs.blk] using h
  unfold State.safeBoundary State.applyReady
  rw [hnone]
  rfl

theorem State.evalAges_fresh (s : State) : s.evalAges.fresh = s.fresh := by
  unfold State.evalAges
  split
  · rw [(State.evalMons_same _ _).fresh, State.safeBoundary_fresh]
  · rfl

theorem exec_ageEvaluation_idle {s : State} (h : s.drive = false ∨ s.boot.refOsc = false ∨ s.onMicro = false) :
    exec .ageEvaluation s = .next s := by
  have hidle : s.boot.refOsc = true → (if s.onMicro = true then s.evalAges else s) = s := by
    intro hosc
    obtain h | h | h := h
    · rw [State.evalAges, h]
      simp
    · rw [h] at hosc
      cases hosc
    · rw [h]
      rfl
  rw [exec_ageEvaluation, execAgeEvaluation, State.clocked]
  split
  · next hosc => rw [hidle hosc, commitState_self]
  · rfl

theorem exec_ageEvaluation_runs {s : State} (hdrive : s.drive = true) (hosc : s.boot.refOsc = true) (hmicro : s.onMicro = true)
    (hcaps : ∀ y ∈ s.regs.safe.caps, groupOf y.key ≠ 15) :
    exec .ageEvaluation s = .next (commitState s ((List.range 256).foldl State.evalMon s)) := by
  rw [exec_ageEvaluation, execAgeEvaluation, State.clocked_on hosc, if_pos hmicro, State.evalAges, if_pos hdrive,
    State.safeBoundary_self hcaps]

theorem commitState_safe (s t : State) : (commitState s t).safe = t.safe := rfl

/-! ### The entry and the repeated frame (R382, R384) -/

theorem exec_safeStateEntry_none {s : State} (h : s.safe.entryDue = none) : exec .safeStateEntry s = .next s := by
  rw [exec_safeStateEntry, execSafeStateEntry, h]
  rfl

/-- Outside RUNNING an entry that was due is dropped. -/
theorem exec_safeStateEntry_late {s : State} (h : s.safe.state ≠ 1) :
    exec .safeStateEntry s = .next { s with safe := { s.safe with entryDue := none } } := by
  cases hdue : s.safe.entryDue with
  | none => rw [exec_safeStateEntry_none hdue, ← hdue]
  | some d =>
    rw [exec_safeStateEntry, execSafeStateEntry, hdue]
    simp only
    rw [if_neg h]
    rfl

theorem exec_safeStateEntry_due {s : State} {c ts : Nat} (hdue : s.safe.entryDue = some (c, ts)) (hstate : s.safe.state = 1) :
    exec .safeStateEntry s = .next (commitState s (s.enterSafe c ts)) := by
  rw [exec_safeStateEntry, execSafeStateEntry, hdue]
  simp only
  rw [if_pos hstate]

theorem exec_safeFrameRepeat_outside {s : State} (h : s.safe.state ≠ 2) : exec .safeFrameRepeat s = .next s := by
  rw [exec_safeFrameRepeat, execSafeFrameRepeat, if_neg h, commitState_self]

/-- The island with the next repeat number, before its frame. -/
def State.nextRepeat (s : State) : State := { s with safe := { s.safe with repeatNo := (s.safe.repeatNo + 1) % 256 } }

theorem exec_safeFrameRepeat_inside {s : State} (h : s.safe.state = 2) : exec .safeFrameRepeat s =
    .next (commitState s (s.nextRepeat.putSafeFrame s.safe.cause s.safe.entryTs ((s.safe.repeatNo + 1) % 256))) := by
  rw [exec_safeFrameRepeat, execSafeFrameRepeat, if_pos h]
  rfl

/-! ### ENTER, the pins read back, the kick (R383, R386, R399) -/

theorem exec_enter_safetyPort {s : State} {p : Port} (v : Word) (ha : admits s p 0x200004) (hp : s.isSafetyPort p = true) :
    exec (.enter p v) s = .next (commitState s (s.detect 4 0xFF 2)) := by
  rw [exec_enter, execEnter, State.gate_may ha hp]

theorem exec_enter_otherPort {s : State} {p : Port} (v : Word) (ha : admits s p 0x200004) (hp : s.isSafetyPort p = false) :
    exec (.enter p v) s = .next (s.busError p 0 3 0x200004) := by
  rw [exec_enter, execEnter, State.gate_forbidden ha.1 (by rw [hp, Bool.and_false])]

theorem exec_deadboltReadback_differs {s : State} (h : s.safe.heartbeat = true) :
    exec (.deadboltReadback true) s = .next (commitState s (s.detect 5 0xFF 2)) := by
  rw [exec_deadboltReadback, execDeadboltReadback, if_pos (by rw [h]; rfl)]

theorem exec_guardKick_eq (s : State) : exec .guardKick s =
    .next (if s.boot.refOsc = true then { s with safe := { s.safe with lastKick := s.time.safeClk } } else s) := by
  rw [exec_guardKick, execGuardKick, State.clocked]
  split <;> rfl

theorem exec_guard {c : Instr} {k : Nat} (h : c = .guardTimeout ∧ k = 7 ∨ c = .islandLockstepTrip ∧ k = 6) (s : State) :
    exec c s = .next (commitState s (s.guardActs k)) := by
  obtain ⟨rfl, rfl⟩ | ⟨rfl, rfl⟩ := h <;> rfl

/-! ### The loss of the reference oscillator (R334, R399) -/

/-- The state in which the oscillator's loss is a cause: coarse and FREE. -/
def State.oscStopped (s : State) : State :=
  { s with boot := { s.boot with refOsc := false }, pwr := { s.pwr with oscLost := true },
           time := { s.time with coarse := true, mode := .free, inSync := false } }

/-- The loss as the island meets it: a cause where it is new. -/
def State.oscNoted (s : State) : State := if s.pwr.oscLost then s.oscStopped else s.oscStopped.detect 8 0xFF 2

theorem exec_referenceOscillatorStop_eq (s : State) :
    exec .referenceOscillatorStop s = .next (commitOsc s s.oscNoted.stopHeartbeat) := rfl

theorem State.oscNoted_frame (s : State) : s.oscNoted.boot = s.oscStopped.boot ∧ s.oscNoted.pwr = s.oscStopped.pwr ∧
    s.oscNoted.time = s.oscStopped.time := by
  unfold State.oscNoted
  split
  · exact ⟨rfl, rfl, rfl⟩
  · exact ⟨State.detect_boot _ _ _ _, State.detect_pwr _ _ _ _, State.detect_time _ _ _ _⟩

theorem State.mem_flog_oscNoted {s : State} (h : s.pwr.oscLost = false) : ⟨2, 0xFF, 0x0418, s.now⟩ ∈ s.oscNoted.safe.flog := by
  unfold State.oscNoted
  rw [if_neg (by rw [h]; decide)]
  exact s.oscStopped.mem_flog_detect 8 0xFF 2

/-! ### The memory counters and their log (R160) -/

/-- Registers of the SAFE block set in a row change nothing but values of that block. -/
theorem State.setRegs_safeBlock (s : State) {k : Nat} (l : List Nat) (hlo : 0x200000 ≤ k) (hhi : k + 4 * l.length ≤ 0x300000) :
    s.setRegs k l = { s with regs := { s.regs with safe := (s.setRegs k l).regs.safe } } := by
  induction l generalizing s k with
  | nil => rfl
  | cons v t ih =>
    rw [List.length_cons] at hhi
    have hset : s.setReg k v = { s with regs := { s.regs with safe := (s.setReg k v).regs.safe } } := by
      unfold State.setReg Regs.setVal
      rw [slotOf_of_lt (by omega), show k / 0x100000 = 2 by omega]
      rfl
    have hrest := ih (s.setReg k v) (k := k + 4) (by omega) (by omega)
    rw [hset] at hrest
    rw [State.setRegs, hset]
    exact hrest

theorem State.rv_setRegs_zeros (s : State) (k : Nat) {n i : Nat} (h : i < n) :
    (s.setRegs k (List.replicate n 0)).rv (k + 4 * i) = 0 := by
  rw [State.rv_setRegs_in _ _ _ _ (by simpa using h), List.getElem_replicate, Nat.zero_mod]

theorem State.memCountersClear_frame (s : State) :
    s.memCountersClear = { s with regs := { s.regs with safe := s.memCountersClear.regs.safe } } := by
  have hlow := s.setRegs_safeBlock (k := 0x240000) (List.replicate 32 0) (by decide) (by decide)
  have hhigh := (s.setRegs 0x240000 (List.replicate 32 0)).setRegs_safeBlock (k := 0x240080) (List.replicate 8 0) (by decide)
    (by decide)
  rw [hlow] at hhigh
  rw [State.memCountersClear, hlow]
  exact hhigh

theorem State.memLogClear_frame (s : State) :
    s.memLogClear = { s with regs := { s.regs with safe := s.memLogClear.regs.safe } } :=
  s.setRegs_safeBlock _ (by decide) (by decide)

theorem commitState_of_safeRegs {s t : State} (h : t = { s with regs := { s.regs with safe := t.regs.safe } }) :
    commitState s t = t := by
  rw [h]
  rfl

theorem State.rv_memCountersClear_in (s : State) {i : Nat} (h : i < 40) : s.memCountersClear.rv (0x240000 + 4 * i) = 0 := by
  unfold State.memCountersClear
  by_cases hlow : i < 32
  · rw [State.rv_setRegs_out _ _ _ _ (by omega), State.rv_setRegs_zeros _ _ hlow]
  · rw [show 0x240000 + 4 * i = 0x240080 + 4 * (i - 32) by omega, State.rv_setRegs_zeros _ _ (by omega)]

theorem State.rv_memCountersClear_out (s : State) {k : Nat} (h : k < 0x240000 ∨ 0x2400A0 ≤ k) :
    s.memCountersClear.rv k = s.rv k := by
  unfold State.memCountersClear
  rw [State.rv_setRegs_out _ _ _ _ (by rw [List.length_replicate]; omega),
    State.rv_setRegs_out _ _ _ _ (by rw [List.length_replicate]; omega)]

theorem exec_safeMemCounterClear_eq {s : State} {p : Port} (ha : admits s p 0x2400C0) :
    exec (.safeMemCounterClear p) s = .next s.memCountersClear := by
  rw [exec_safeMemCounterClear, execSafeMemCounterClear, State.gate_admits ha, commitState_of_safeRegs s.memCountersClear_frame]

theorem exec_safeMemLogClear_eq {s : State} {p : Port} (ha : admits s p 0x2400C0) :
    exec (.safeMemLogClear p) s = .next s.memLogClear := by
  rw [exec_safeMemLogClear, execSafeMemLogClear, State.gate_admits ha, commitState_of_safeRegs s.memLogClear_frame]

/-! ### What the island's own commands leave alone -/

/-- The commands that the island runs of itself, and those of the guard. -/
def islandCommands : List Instr :=
  [.ageEvaluation, .safeStateEntry, .safeFrameRepeat, .deadboltReadback true, .guardKick, .guardTimeout, .islandLockstepTrip]

/-- Each commits, as the safe state's commands do, a state that has drawn no free value. -/
theorem exec_islandCommand {c : Instr} (hc : c ∈ islandCommands) (s : State) :
    ∃ t, exec c s = .next (commitState s t) ∧ t.fresh = s.fresh := by
  simp only [islandCommands, List.mem_cons, List.not_mem_nil, or_false] at hc
  obtain rfl | rfl | rfl | rfl | rfl | rfl | rfl := hc
  · rw [exec_ageEvaluation, execAgeEvaluation, State.clocked]
    split
    · refine ⟨_, rfl, ?_⟩
      split
      · exact s.evalAges_fresh
      · rfl
    · exact ⟨s, rfl, rfl⟩
  · refine ⟨_, exec_safeStateEntry s, ?_⟩
    split
    · split
      · exact s.enterSafe_fresh _ _
      · rfl
    · rfl
  · refine ⟨_, exec_safeFrameRepeat s, ?_⟩
    split
    · exact State.putSafeFrame_fresh _ _ _ _
    · rfl
  · refine ⟨_, exec_deadboltReadback true s, ?_⟩
    split
    · exact s.detect_fresh _ _ _
    · rfl
  · rw [exec_guardKick, execGuardKick, State.clocked]
    split
    · exact ⟨_, rfl, rfl⟩
    · exact ⟨s, rfl, rfl⟩
  · exact ⟨_, exec_guardTimeout s, s.guardActs_fresh 7⟩
  · exact ⟨_, exec_islandLockstepTrip s, s.guardActs_fresh 6⟩

theorem commitState_frame {s t : State} (h : t.fresh = s.fresh) : commitState s t = { s with
    safe := t.safe, out := t.out, can := t.can,
    regs := { s.regs with global := t.regs.global, safe := t.regs.safe, pci := t.regs.pci } } := by
  rw [commitState, h]

end Sys2Proof.Machine
end

section
open Sys2Proof Sys2Proof.Machine Sys2Proof.Safety

/-- Settles O51: an evaluation by an induction over the monitors, each of which ages once and keeps an entry that is due; the entry,
the frames, the guard and the oscillator by what each operation leaves of the island. -/
theorem safetyIsland : Obligations.SafetyIsland := by
  unfold Obligations.SafetyIsland
  intro s p
  refine ⟨exec_ageEvaluation_idle, fun hdrive hosc hmicro hcaps => ?evaluation, exec_safeStateEntry_none, exec_safeStateEntry_late,
    fun c ts hdue hstate => ?entry, exec_safeFrameRepeat_outside, fun hstate => ?frameRepeat, fun hbeat => ?readback, rfl,
    fun v hadm => ⟨fun hport => ?enter, fun hport => ?enterForbidden⟩, exec_guardKick_eq s, fun c k hk => ?guard, ?oscillator,
    fun hadm => ⟨?counters, ?log⟩, fun c u hc hu => ?frame⟩
  case evaluation =>
    have hsame := s.evalMons_same (List.range 256)
    refine ⟨_, exec_ageEvaluation_runs hdrive hosc hmicro hcaps, ?_⟩
    rw [commitState_safe]
    refine ⟨hsame.state, hsame.heartbeat, fun m x hm hx => ⟨?_, fun hlate hnew hesc hstate hdue => ?_⟩⟩
    · exact State.alGet_evalMons_of_mem hm (List.mem_range.2 hm) List.nodup_range hx
    · exact State.evalMons_due_of_mem hm (List.mem_range.2 hm) List.nodup_range hx hdrive hstate hdue hlate hnew hesc
  case entry =>
    refine ⟨_, exec_safeStateEntry_due hdue hstate, s.enterSafe_safe c ts, ?_, State.deadbolt_mem_out_enterSafe c ts,
      fun i e x hi he hx => State.enterSafe_can c ts hi he hx⟩
    rw [State.rv_commitState_safe _ _ (slotOf_of_lt (by decide))]
    exact s.enterSafe_event c ts
  case frameRepeat =>
    exact ⟨_, exec_safeFrameRepeat_inside hstate, State.putSafeFrame_safe _ _ _ _,
      fun i e x hi he hx => State.putSafeFrame_can (s := s.nextRepeat) _ _ _ hi he hx⟩
  case readback =>
    exact ⟨_, exec_deadboltReadback_differs hbeat, s.mem_hard_detect _ _ (by decide), s.mem_flog_detect 5 _ _⟩
  case enter =>
    exact ⟨_, exec_enter_safetyPort v hadm hport, s.mem_flog_detect 4 _ _, s.detect_safe_state _ _ _,
      s.detect_safe_heartbeat _ _ _, fun h => (s.detect_entryDue 4 _ _).trans (State.dueAfter_same 4 h)⟩
  case enterForbidden =>
    exact ⟨_, exec_enter_otherPort v hadm hport, busErrorOn_busError s 0 3 0x200004 (by omega)⟩
  case guard =>
    obtain ⟨hbeat, hhard, hlog⟩ := s.guardActs_keeps (c := k) (by omega)
    refine ⟨_, exec_guard hk s, hbeat, hhard, hlog, fun hdrive hstate hdue => ?_,
      fun i e x hi he hx => State.guardActs_can k hi he hx⟩
    rw [commitState_safe, State.guardActs_first k hdrive hstate hdue, ← s.detect_safe_entryCnt k 0xFF 2]
    exact ⟨rfl, rfl, rfl, rfl⟩
  case oscillator =>
    obtain ⟨hboot, hpwr, htime⟩ := s.oscNoted_frame
    refine ⟨_, exec_referenceOscillatorStop_eq s, ?_, ?_, ?_, ?_, fun h => ?_⟩
    · show (s.safe.heartbeat && s.oscNoted.stopHeartbeat.safe.heartbeat) = false
      rw [State.stopHeartbeat_safe, Bool.and_false]
    · show { s.boot with refOsc := s.oscNoted.stopHeartbeat.boot.refOsc } = _
      rw [State.stopHeartbeat_boot, hboot]
      rfl
    · exact (State.stopHeartbeat_pwr _).trans hpwr
    · exact (State.stopHeartbeat_time _).trans htime
    · show _ ∈ s.oscNoted.stopHeartbeat.safe.flog
      rw [State.stopHeartbeat_safe]
      exact State.mem_flog_oscNoted h
  case counters =>
    exact ⟨_, exec_safeMemCounterClear_eq hadm, s.memCountersClear_frame, fun i hi => s.rv_memCountersClear_in hi,
      fun k hk => s.rv_memCountersClear_out hk⟩
  case log =>
    exact ⟨_, exec_safeMemLogClear_eq hadm, s.memLogClear_frame, fun i hi => s.rv_setRegs_zeros _ hi,
      fun k hk => s.rv_setRegs_out _ _ _ (by rw [List.length_replicate]; omega)⟩
  case frame =>
    obtain ⟨t, ht, hfresh⟩ := exec_islandCommand hc s
    obtain rfl : commitState s t = u := by injection ht.symm.trans hu
    exact commitState_frame hfresh

end

section
/-!
PROOFS. The queue of waiting commands under every command; the loader where power goes or comes (R446, R455, R456, R465).
-/
namespace Sys2Proof.Machine
open Sys2Proof.Safety

/-! ### Folds over the state -/

/-- What every pass of a fold leaves alone, the fold leaves alone. -/
theorem foldl_keeps {α β : Type} (g : State → β) (f : State → α → State) (h : ∀ s x, g (f s x) = g s) (l : List α) (s : State) :
    g (l.foldl f s) = g s := by
  induction l generalizing s with
  | nil => rfl
  | cons a l ih => exact (ih (f s a)).trans (h s a)

/-! ### The loss and the return of power (R446, R455, R456, R465) -/

theorem State.initClear_keeps (s : State) (n : Nat) :
    (s.initClear n).pending = s.pending ∧ (s.initClear n).ward = s.ward := by
  unfold State.initClear
  simp only [State.canEvent]
  split
  · simp
  · split
    · split <;> simp
    · simp

/-- A wake leaves the state alone, or starts every block but the queue anew (R456). -/
theorem State.wakeUp_keeps (s : State) (laneCfg cfgmSel : Nat) : (s.wakeUp laneCfg cfgmSel).pending = s.pending ∧
    ((s.wakeUp laneCfg cfgmSel).ward = s.ward ∨ (s.wakeUp laneCfg cfgmSel).ward = .reset) := by
  unfold State.wakeUp
  split
  · exact ⟨rfl, .inl rfl⟩
  · simp only
    refine ⟨foldl_keeps State.pending _ (fun s n => ?_) _ _, .inr (foldl_keeps State.ward _ (fun s n => ?_) _ _)⟩ <;> split
    · exact (s.initClear_keeps n).1
    · rfl
    · exact (s.initClear_keeps n).2
    · rfl

theorem State.wakePattern_keeps (s : State) (n laneCfg cfgmSel : Nat) : (s.wakePattern n laneCfg cfgmSel).pending = s.pending ∧
    ((s.wakePattern n laneCfg cfgmSel).ward = s.ward ∨ (s.wakePattern n laneCfg cfgmSel).ward = .reset) := by
  unfold State.wakePattern
  simp only
  split
  · split
    · exact State.wakeUp_keeps _ _ _
    · exact ⟨rfl, .inl rfl⟩
  · exact ⟨rfl, .inl rfl⟩

theorem State.park_keeps (s : State) : s.park.pending = s.pending ∧ (s.park.ward = s.ward ∨ s.park.ward = .reset) := by
  unfold State.park
  split
  · exact ⟨rfl, .inl rfl⟩
  · exact ⟨rfl, .inr rfl⟩

/-- Where power goes or comes, the queue stands, and the loader stands or starts anew. -/
theorem exec_power {c : Instr} {s t : State} (hc : powerCommand c = true) (h : exec c s = .next t) :
    t.pending = s.pending ∧ (t.ward = s.ward ∨ t.ward = .reset) := by
  cases c
  case powerGood => cases h; exact ⟨rfl, .inr rfl⟩
  case powerStageShutdown => cases h; exact ⟨rfl, .inr rfl⟩
  case wake => cases h; exact s.wakeUp_keeps _ _
  case parked => cases h; exact s.park_keeps
  case wakeUpPattern => cases h; exact s.wakePattern_keeps _ _ _
  all_goals cases hc

/-! ### The queue -/

/-- No family of commands but those of power names the queue among what it commits. -/
theorem commitOf_pending {c : Instr} (hc : powerCommand c = false) (s u : State) : (commitOf c s u).pending = s.pending := by
  cases c
  case powerGood | powerStageShutdown | wake | parked | wakeUpPattern => cases hc
  all_goals rfl

theorem exec_pending {c : Instr} {s t : State} (h : exec c s = .next t) : t.pending = s.pending := by
  cases hc : powerCommand c with
  | true => exact (exec_power hc h).1
  | false =>
    obtain rfl | ⟨r, o, rfl⟩ | ⟨u, rfl⟩ := exec_frame c s t h
    · rfl
    · rfl
    · exact commitOf_pending hc s u

end Sys2Proof.Machine
end

section
/-!
PROOFS. The loader's own commands: what each leaves of the image in force and of the image held (R50 to R53, R57).
-/
namespace Sys2Proof.Machine
open Sys2Proof.Safety

/-- The loader holds the same images, and waits for the switch in both states or in neither. -/
def SameImages (w w' : WardSt) : Prop := w'.image = w.image ∧ w'.cand = w.cand ∧ (w'.state = .holding ↔ w.state = .holding)

theorem SameImages.refl (w : WardSt) : SameImages w w := ⟨rfl, rfl, Iff.rfl⟩

theorem SameImages.of_eq {w w' : WardSt} (h : w' = w) : SameImages w w' := h ▸ .refl w

/-- A change of other fields of the loader that keeps it out of HOLDING. -/
theorem SameImages.outside {w w' : WardSt} (himage : w'.image = w.image) (hcand : w'.cand = w.cand) (h : w.state ≠ .holding)
    (h' : w'.state ≠ .holding) : SameImages w w' := ⟨himage, hcand, iff_of_false h' h⟩

/-! ### Commands written to WARD_CMD -/

@[simp] theorem State.wardEvent_ward (s : State) (bit : Nat) : (s.wardEvent bit).ward = s.ward := s.raise_ward _ _

@[simp] theorem State.wardFail_ward (s : State) (status sect off : Nat) : (s.wardFail status sect off).ward = s.ward := by
  unfold State.wardFail State.wardError
  rw [State.wardEvent_ward, State.setReg_ward, State.setReg_ward]

@[simp] theorem State.engineStart_ward (s : State) : s.engineStart.ward = s.ward := by
  unfold State.engineStart
  split <;> rfl

theorem State.wardBegin_images (s : State) (p : Nat) : SameImages s.ward (s.wardBegin p).ward := by
  unfold State.wardBegin
  simp only
  split
  · exact .of_eq (s.wardEvent_ward 2)
  · split
    · exact .of_eq (s.wardEvent_ward 2)
    · exact .of_eq (s.wardEvent_ward 2)
    · next hv hh =>
      split
      · exact .outside rfl rfl hh (by simp [State.modWard])
      · rw [State.wardFail_ward]
        exact .outside rfl rfl hh (by simp [State.modWard])

theorem State.wardChunk_images (s : State) : SameImages s.ward s.wardChunk.ward := by
  unfold State.wardChunk
  simp only
  split
  · exact .of_eq (s.wardEvent_ward 2)
  · split
    · exact ⟨rfl, rfl, Iff.rfl⟩
    · exact .of_eq (s.wardFail_ward _ _ _)

theorem WardSt.copyDone_images (w : WardSt) : SameImages w w.copyDone := by
  unfold WardSt.copyDone
  split
  · exact ⟨rfl, rfl, Iff.rfl⟩
  · exact .refl w

theorem State.wardFinish_images (s : State) : SameImages s.ward s.wardFinish.ward := by
  obtain ⟨himage, hcand, -⟩ := s.ward.copyDone_images
  unfold State.wardFinish
  simp only
  split
  · exact .of_eq (s.wardEvent_ward 2)
  · next hs =>
    have hout : s.ward.state ≠ .holding := by simp [not_not.1 hs]
    split
    · unfold State.engineAdd
      rw [State.engineStart_ward]
      exact .outside himage hcand hout (by simp [State.modWard])
    · rw [State.wardFail_ward]
      exact .outside himage hcand hout (by simp [State.modWard])

theorem State.wardAbort_images (s : State) : SameImages s.ward s.wardAbort.ward := by
  unfold State.wardAbort
  split
  · exact .of_eq (s.wardEvent_ward 2)
  · next hs => exact .outside rfl rfl (by simp [not_not.1 hs]) (by simp [State.modWard])

theorem State.wardCmd_images (s : State) (p v : Nat) : SameImages s.ward (s.wardCmd p v).ward := by
  unfold State.wardCmd
  split
  · exact s.wardBegin_images p
  · exact s.wardChunk_images
  · exact s.wardFinish_images
  · exact s.wardAbort_images
  · exact .of_eq (s.wardEvent_ward 2)

/-! ### The counter advance (R56) -/

/-- The state with another security engine, other free values drawn, other registers and outputs. -/
def State.withSec (s : State) (x : SecSt) (n : Nat) (r : Regs) (o : List Out) : State :=
  { s with sec := x, fresh := n, regs := r, out := o }

theorem State.random_frame (s : State) : ∃ x n, s.random.2 = s.withSec x n s.regs s.out := by
  unfold State.random
  split
  · exact ⟨_, s.fresh, rfl⟩
  · exact ⟨_, _, rfl⟩

theorem State.transact_frame (s : State) (c v : Nat) (write : Bool) :
    ∃ x n, s.transact c v write = s.withSec x n s.regs s.out := by
  obtain ⟨x, n, e⟩ := s.random_frame
  have hkeep : s.transact c v write = { s.random.2 with sec := (s.transact c v write).sec } := rfl
  rw [e] at hkeep
  exact ⟨_, n, hkeep⟩

/-- All that a counter's read can do (R410, R411). -/
theorem State.readCounter_frame (s : State) (c : Nat) (ok : Bool) : ∃ x n r o, s.readCounter c ok = s.withSec x n r o := by
  obtain ⟨x, n, e⟩ := s.transact_frame c (s.sec.counters.getD c 0) false
  unfold State.readCounter
  rw [e]
  cases ok with
  | true => exact ⟨_, _, _, _, rfl⟩
  | false =>
    rw [if_neg (by decide), State.secEvent]
    obtain ⟨r, o, e'⟩ := State.raise_frame _ (portKey s.master (secKey 4)) (2 ^ 4)
    exact ⟨_, _, r, o, e'⟩

/-- All that a counter's write can do (R410, R411). -/
theorem State.writeCounter_frame (s : State) (c v : Nat) (ok : Bool) : ∃ x n r o, s.writeCounter c v ok = s.withSec x n r o := by
  obtain ⟨x, n, e⟩ := s.transact_frame c v true
  unfold State.writeCounter
  rw [e]
  cases ok with
  | true =>
    rw [if_pos rfl]
    obtain ⟨x', n', r, o, e'⟩ := State.readCounter_frame
      ({ s.withSec x n s.regs s.out with sec := { x with counters := x.advanced c v } } : State) c true
    exact ⟨x', n', r, o, e'⟩
  | false => exact ⟨_, _, _, _, rfl⟩

theorem State.advanceDone_ward (s : State) (ok : Bool) : (s.advanceDone ok).ward = s.ward := by
  unfold State.advanceDone
  split
  · next c v _ _ =>
    refine (State.engineStart_ward _).trans ?_
    obtain ⟨x, n, r, o, e⟩ := s.writeCounter_frame c v ok
    split
    · rw [e]
      rfl
    · rw [e]
      rfl
  · rfl

/-! ### Register writes into the loader's block (R11, R50, R359) -/

/-- Of the commands behind WO registers the loader's block has those of WARD_CMD and of the aperture. -/
theorem State.regCommand_loader (s : State) (p v : Nat) {off : Nat} (h : off / 0x100000 = 1) : s.regCommand p off v =
    if off = 0x100000 then s.wardCmd p v
    else if 0x110000 ≤ off ∧ off < 0x120000 then s.putAperture (s.ward.aperture.writeBytes (off - 0x110000) (natLe 4 v))
    else s := by
  have hslot : slotOf off = 1 := (slotOf_of_lt (by omega)).trans h
  have hobj : objAt off = none := by simp [objAt, hslot]
  unfold State.regCommand
  extract_lets code
  rw [if_neg (by omega), if_neg (by omega)]
  by_cases hcmd : off = 0x100000
  · rw [if_pos hcmd, if_pos hcmd]
  · rw [if_neg hcmd, if_neg hcmd]
    by_cases hbuf : 0x110000 ≤ off ∧ off < 0x120000
    · rw [if_pos hbuf, if_pos hbuf]
      rfl
    · rw [if_neg hbuf, if_neg hbuf]
      iterate 12 rw [if_neg (by omega)]
      rw [hobj]

theorem State.regCommand_images (s : State) (p v : Nat) {off : Nat} (h : off / 0x100000 = 1) :
    SameImages s.ward (s.regCommand p off v).ward := by
  rw [s.regCommand_loader p v h]
  split
  · exact s.wardCmd_images p v
  · split
    · exact ⟨rfl, rfl, Iff.rfl⟩
    · exact .refl _

theorem State.regShadow_loader (s : State) (p k x : Nat) {off : Nat} (h : off / 0x100000 = 1) :
    (s.regShadow p off k x).ward = s.ward := by
  have hslot : slotOf off = 1 := (slotOf_of_lt (by omega)).trans h
  unfold State.regShadow
  rw [if_neg (by omega), if_neg (by omega)]

theorem State.regNow_loader (s : State) (p k x : Nat) {off : Nat} (h : off / 0x100000 = 1) :
    (s.regNow p off k x).ward = s.ward := by
  have hslot : slotOf off = 1 := (slotOf_of_lt (by omega)).trans h
  have hobj : objAt off = none := by simp [objAt, hslot]
  unfold State.regNow
  simp only
  iterate 6 rw [if_neg (by omega)]
  rw [hobj]
  simp only
  rw [if_neg (by omega), State.setReg_ward]

theorem State.regWrite_images (s : State) (p v : Nat) {off : Nat} (h : off / 0x100000 = 1) :
    SameImages s.ward (s.regWrite p off v).ward := by
  unfold State.regWrite
  split
  · exact .of_eq (s.busError_ward _ _ _ _)
  · split
    · exact .of_eq (s.busError_ward _ _ _ _)
    · simp only
      split
      · exact .of_eq (s.busError_ward _ _ _ _)
      · split
        · exact .refl _
        · exact s.regCommand_images p v h
        · exact .of_eq (s.w1c_ward _ _)
        · exact .of_eq (s.regShadow_loader p _ _ h)
        · exact .of_eq (s.regNow_loader p _ _ h)

/-- Longer writes go to an aperture: in the loader's block to WARD_CHUNK_BUF (R359). -/
theorem State.wideOk_loader {s : State} {p off n : Nat} (h : s.wideOk p off (n + 1) = true) (hb : off / 0x100000 = 1) :
    off < 0x120000 := by
  simp only [State.wideOk, Bool.and_eq_true, List.any_eq_true, decide_eq_true_eq] at h
  obtain ⟨-, a, ha, hlo, hin⟩ := h
  simp only [wideApertures, List.mem_cons, List.mem_map, List.mem_range] at ha
  obtain rfl | ⟨q, -, rfl⟩ := ha <;> simp only at hlo hin <;> omega

theorem State.regWrites_images (s : State) (w : RegWrite) (h : w.off / 0x100000 = 1) :
    SameImages s.ward (s.regWrites w).ward := by
  unfold State.regWrites
  split
  · exact s.regWrite_images _ _ h
  · split
    · exact .of_eq (s.busError_ward _ _ _ _)
    · next hw =>
      have hok : s.wideOk w.port w.off (w.more.length + 1) = true := by simpa using hw
      split
      · exact .of_eq (s.busError_ward _ _ _ _)
      · obtain ⟨h4, hlo, hin⟩ := State.wideOk_aperture hok (State.wideOk_loader hok h)
        rw [s.foldl_regWrite_aperture w.port 0 _ h4 hlo (by rw [List.length_cons]; omega)]
        exact ⟨rfl, rfl, Iff.rfl⟩

theorem commitRegs_images (s : State) (w : RegWrite) : SameImages s.ward (commitRegs w.off s (s.regWrites w)).ward := by
  show SameImages s.ward (if w.off / 0x100000 = 1 then (s.regWrites w).ward else s.ward)
  split
  · next h => exact s.regWrites_images w h
  · exact .refl _

end Sys2Proof.Machine
end

section
/-!
PROOFS. The end of a validation, the switch and the release; what every command does to the loader (R48, R51, R53, R54).
-/
namespace Sys2Proof.Machine
open Sys2Proof.Safety

/-! ### The end of a validation (R48, R51) -/

/-- The bytes that a validation reads. -/
def State.stagedBytes (s : State) : List Byte := s.ward.staging.readBytes 0 s.ward.total

/-- The outcome of the validation: its first failure, or none. -/
def State.verdict (s : State) (ok : Bool) : Option WardFail := validate s.stagedBytes (s.wardInputs s.stagedBytes ok)

/-- The state once a validation of this outcome has left the engine: the counter read where its step was reached, the next
operation begun. -/
def State.leftEngine (s : State) (ok : Bool) (r : Option WardFail) : State :=
  (if counterReached r then s.readCounter (profileCounter (leAt s.stagedBytes 0x0E 1)) ok else s).enginePop

/-- What the loader does with the outcome of a validation (R51): a failure is reported, the first image is switched to at once, a
later one is held. -/
def State.settleVerdict (s : State) (ok : Bool) : Option WardFail → State
  | some e =>
    ((s.leftEngine ok (some e)).modWard fun w => { w.clearStaging with state := .idle }).wardFail e.status e.sect e.offset
  | none => match s.ward.image with
    | none => (s.leftEngine ok none).switch (parseImage s.stagedBytes) []
    | some _ => (s.leftEngine ok none).modWard fun w => { w with state := .holding, cand := some (parseImage s.stagedBytes) }

theorem State.validated_run {s : State} {l : List SecOp} (ok : Bool) (he : s.sec.engine = .validate :: l)
    (hs : s.ward.state = .validating) : s.validated ok = s.settleVerdict ok (s.verdict ok) := by
  unfold State.validated
  split
  · unfold State.verdict State.stagedBytes
    dsimp only
    generalize validate _ _ = r
    cases r <;> rfl
  · next h => exact absurd hs (h _ he)

theorem State.engineStart_frame (s : State) : ∃ x n, s.engineStart = s.withSec x n s.regs s.out := by
  unfold State.engineStart
  split
  · exact ⟨_, _, rfl⟩
  · exact ⟨s.sec, s.fresh, rfl⟩

/-- A validation that leaves the engine touches the engine, registers and outputs only. -/
theorem State.leftEngine_frame (s : State) (ok : Bool) (v : Option WardFail) :
    ∃ x n r o, s.leftEngine ok v = s.withSec x n r o := by
  have hread : ∃ x n r o, (if counterReached v then
      s.readCounter (profileCounter (leAt s.stagedBytes 0x0E 1)) ok else s) = s.withSec x n r o := by
    split
    · exact s.readCounter_frame _ ok
    · exact ⟨s.sec, s.fresh, s.regs, s.out, rfl⟩
  obtain ⟨x, n, r, o, e⟩ := hread
  unfold State.leftEngine State.enginePop
  rw [e]
  obtain ⟨x', n', e'⟩ := State.engineStart_frame
    ({ s.withSec x n r o with sec := { x with engine := x.engine.drop 1 } } : State)
  exact ⟨x', n', r, o, e'⟩

theorem State.leftEngine_ward (s : State) (ok : Bool) (v : Option WardFail) : (s.leftEngine ok v).ward = s.ward := by
  obtain ⟨x, n, r, o, e⟩ := s.leftEngine_frame ok v
  rw [e]
  rfl

theorem State.settleVerdict_fails_ward (s : State) (ok : Bool) (e : WardFail) :
    (s.settleVerdict ok (some e)).ward = { s.ward.clearStaging with state := .idle } := by
  unfold State.settleVerdict
  rw [State.wardFail_ward, State.modWard, s.leftEngine_ward]

theorem State.settleVerdict_first {s : State} (ok : Bool) (h : s.ward.image = none) :
    s.settleVerdict ok none = (s.leftEngine ok none).switch (parseImage s.stagedBytes) [] := by
  unfold State.settleVerdict
  rw [h]

theorem State.settleVerdict_held_ward {s : State} (ok : Bool) (h : s.ward.image.isSome = true) :
    (s.settleVerdict ok none).ward = { s.ward with state := .holding, cand := some (parseImage s.stagedBytes) } := by
  obtain ⟨i, hi⟩ := Option.isSome_iff_exists.1 h
  unfold State.settleVerdict
  rw [hi]
  simp only
  rw [State.modWard, s.leftEngine_ward, hi]

/-- Without a validation at the head of the engine its end changes nothing. -/
theorem State.validated_none {s : State} (ok : Bool)
    (h : ¬((∃ l, s.sec.engine = .validate :: l) ∧ s.ward.state = .validating)) : s.validated ok = s := by
  unfold State.validated
  split
  · next l he hs => exact absurd ⟨⟨l, he⟩, hs⟩ h
  · rfl

/-! ### The switch and the release (R51, R53, R54) -/

/-- The loader once an image is in force: IDLE, nothing staged, no image held. -/
def WardSt.apply (w : WardSt) (i : Image) : WardSt := { w.clearStaging with state := .idle, image := some i, cand := none }

theorem State.switch_ward (s : State) (i : Image) (l : List Nat) : (s.switch i l).ward = s.cutJobs.ward.apply i := rfl

theorem commitSwitch_ward (s t : State) : (commitSwitch s t).ward = t.ward := rfl

theorem commitRelease_ward (s t : State) : (commitRelease s t).ward = t.ward := rfl

theorem State.holdEnds_run {s : State} {i : Image} (l : List Nat) (hs : s.ward.state = .holding) (hc : s.ward.cand = some i)
    (hh : s.allHeld = true) : s.holdEnds l = s.switch i l := by
  unfold State.holdEnds
  rw [hs, hc]
  exact if_pos hh

theorem State.holdEnds_cases (s : State) (l : List Nat) :
    s.holdEnds l = s ∨ ∃ i, s.ward.state = .holding ∧ s.ward.cand = some i ∧ s.holdEnds l = s.switch i l := by
  cases hh : s.allHeld with
  | false =>
    left
    unfold State.holdEnds
    rw [hh]
    split <;> rfl
  | true =>
    unfold State.holdEnds
    rw [hh]
    split
    · next i hs hc => exact .inr ⟨i, hs, hc, rfl⟩
    · exact .inl rfl

theorem State.holdReleased_ward {s : State} (h : s.ward.state = .holding) : s.holdReleased.ward = s.ward.release := by
  unfold State.holdReleased
  rw [h]

theorem State.holdReleased_none {s : State} (h : s.ward.state ≠ .holding) : s.holdReleased = s := by
  unfold State.holdReleased
  split
  · next hs => exact absurd hs h
  · rfl

/-! ### What every command does to the loader -/

/-- All that a command can do to the loader. -/
inductive LoaderStep (c : Instr) (w : WardSt) : WardSt → Prop
  /-- The images stand. -/
  | same {w' : WardSt} (h : SameImages w w') : LoaderStep c w w'
  /-- The first image is in force at once. -/
  | applied {w' : WardSt} {ok : Bool} {i : Image} (hc : c = .validationDone ok) (hnone : w.image = none) (hi : Accepted i)
      (h : w'.image = some i ∧ w'.cand = none ∧ w'.state = .idle) : LoaderStep c w w'
  /-- A later image is held. -/
  | held {w' : WardSt} {i : Image} (hsome : w.image.isSome = true) (hi : Accepted i)
      (h : w'.image = w.image ∧ w'.cand = some i ∧ w'.state = .holding) : LoaderStep c w w'
  /-- The image held is in force. -/
  | switched {w' : WardSt} {l : List ChanIx} {i : Image} (hc : c = .switch l) (hold : w.state = .holding) (hi : w.cand = some i)
      (h : w'.image = some i ∧ w'.cand = none ∧ w'.state = .idle) : LoaderStep c w w'
  /-- The image held is dropped. -/
  | released {w' : WardSt} (h : w'.image = w.image ∧ w'.cand = none ∧ w'.state = .idle) : LoaderStep c w w'
  /-- The loader starts anew. -/
  | anew (hc : powerCommand c = true ∨ selfTestEnd c = true) : LoaderStep c w .reset

theorem LoaderStep.of_eq {c : Instr} {w w' : WardSt} (h : w' = w) : LoaderStep c w w' := .same (.of_eq h)

/-- The commands whose family commits the loader, but for those of power and the ends of self-tests. -/
def loaderCommand : Instr → Bool
  | .begin _ | .chunk _ | .chunkCopyDone | .finish _ | .abort _ | .wardCmdUnknown _ _ | .antiRollbackAdvance _
  | .validationDone _ | .switch _ | .holdRelease | .registerWrite _ => true
  | _ => false

theorem commitOf_ward {c : Instr} (hl : loaderCommand c = false) (hp : powerCommand c = false) (ht : selfTestEnd c = false)
    (s u : State) : (commitOf c s u).ward = s.ward := by
  cases c
  case powerGood | powerStageShutdown | wake | parked | wakeUpPattern => cases hp
  case lbistComplete | keyOffLbistComplete => cases ht
  case begin | chunk | chunkCopyDone | finish | abort | wardCmdUnknown | antiRollbackAdvance | validationDone | switch
    | holdRelease | registerWrite => cases hl
  all_goals rfl

/-- A command outside the loader leaves it alone. -/
theorem exec_ward {c : Instr} (hl : loaderCommand c = false) (hp : powerCommand c = false) (ht : selfTestEnd c = false)
    {s t : State} (h : exec c s = .next t) : t.ward = s.ward := by
  obtain rfl | ⟨r, o, rfl⟩ | ⟨u, rfl⟩ := exec_frame c s t h
  · rfl
  · rfl
  · exact commitOf_ward hl hp ht s u

theorem loaderStep_gate {c : Instr} {s t : State} {p : Port} {off : Nat} {may : Bool} {f : State → State}
    (h : s.gate p off may f = .next t) (hf : SameImages s.ward (f s).ward) : LoaderStep c s.ward t.ward := by
  obtain e | e | e := s.gate_cases p off may f <;> obtain rfl := Host.Outcome.next.inj (e.symm.trans h)
  · exact .of_eq rfl
  · exact .same hf
  · exact .of_eq (s.busError_ward _ _ _ _)

theorem loaderStep_clocked {c : Instr} {s t : State} {f : State → State} (h : s.clocked f = .next t)
    (hf : LoaderStep c s.ward (f s).ward) : LoaderStep c s.ward t.ward := by
  obtain e | e := s.clocked_cases f <;> obtain rfl := Host.Outcome.next.inj (e.symm.trans h)
  · exact .of_eq rfl
  · exact hf

theorem State.logicReset_ward (s : State) (ports buses : Bool) : (s.logicReset ports buses).ward = .reset := by
  unfold State.logicReset
  cases buses with
  | false => rfl
  | true =>
    obtain ⟨x, o, e⟩ := State.restPins_frame
      ({ s.resetPd2 with can := State.reset.can, t1s := State.reset.t1s, eth := State.reset.eth, time := _ } : State)
    rw [if_pos rfl]
    unfold State.resetPd4
    simp only
    rw [e]
    rfl

/-- The reset that ends a self-test starts the loader anew (R449). -/
theorem exec_selfTestEnd_ward {c : Instr} {s t : State} (hc : selfTestEnd c = true) (h : exec c s = .next t) :
    t.ward = s.ward ∨ t.ward = .reset := by
  cases c
  case lbistComplete fails invalid =>
    cases h
    show (State.lbistDone' _ _ _).ward = _ ∨ (State.lbistDone' _ _ _).ward = _
    unfold State.lbistDone'
    split
    · exact .inl rfl
    · exact .inr (s.logicReset_ward false _)
  case keyOffLbistComplete fails =>
    cases h
    show (State.keyOffTested _ _).ward = _ ∨ (State.keyOffTested _ _).ward = _
    unfold State.keyOffTested
    split
    · exact .inr (s.logicReset_ward true true)
    · exact .inl rfl
  all_goals cases hc

theorem State.validated_step (s : State) (ok : Bool) : LoaderStep (.validationDone ok) s.ward (s.validated ok).ward := by
  by_cases hrun : (∃ l, s.sec.engine = .validate :: l) ∧ s.ward.state = .validating
  · obtain ⟨⟨l, he⟩, hs⟩ := hrun
    rw [State.validated_run ok he hs]
    cases hv : s.verdict ok with
    | some e =>
      rw [s.settleVerdict_fails_ward ok e]
      exact .same (.outside rfl rfl (by simp [hs]) (by simp))
    | none =>
      have hi : Accepted (parseImage s.stagedBytes) := ⟨_, _, hv, rfl⟩
      cases himage : s.ward.image with
      | none =>
        rw [State.settleVerdict_first ok himage]
        exact .applied rfl himage hi ⟨rfl, rfl, rfl⟩
      | some j =>
        rw [State.settleVerdict_held_ward ok (by simp [himage])]
        exact .held (by simp [himage]) hi ⟨rfl, rfl, rfl⟩
  · rw [State.validated_none ok hrun]
    exact .of_eq rfl

theorem State.holdEnds_step (s : State) (l : List ChanIx) :
    LoaderStep (.switch l) s.ward (s.holdEnds (l.map (·.val))).ward := by
  obtain e | ⟨i, hs, hi, e⟩ := s.holdEnds_cases (l.map (·.val))
  · exact .of_eq (by rw [e])
  · rw [e, State.switch_ward]
    exact .switched rfl hs hi ⟨rfl, rfl, rfl⟩

theorem State.holdReleased_step (s : State) (c : Instr) : LoaderStep c s.ward s.holdReleased.ward := by
  by_cases hs : s.ward.state = .holding
  · rw [State.holdReleased_ward hs]
    exact .released ⟨rfl, rfl, rfl⟩
  · rw [State.holdReleased_none hs]
    exact .of_eq rfl

theorem exec_loaderCommand {c : Instr} {s t : State} (hc : loaderCommand c = true) (h : exec c s = .next t) :
    LoaderStep c s.ward t.ward := by
  cases c
  case begin p =>
    rw [exec_begin, execBegin] at h
    exact loaderStep_gate h (s.wardBegin_images p)
  case chunk p =>
    rw [exec_chunk, execChunk] at h
    exact loaderStep_gate h s.wardChunk_images
  case chunkCopyDone => cases h; exact .same s.ward.copyDone_images
  case finish p =>
    rw [exec_finish, execFinish] at h
    exact loaderStep_gate h s.wardFinish_images
  case abort p =>
    rw [exec_abort, execAbort] at h
    exact loaderStep_gate h s.wardAbort_images
  case wardCmdUnknown p v =>
    rw [exec_wardCmdUnknown, execWardCmdUnknown] at h
    exact loaderStep_gate h (s.wardCmd_images p v.toNat)
  case antiRollbackAdvance ok =>
    rw [exec_antiRollbackAdvance, execAntiRollbackAdvance] at h
    exact loaderStep_clocked h (.of_eq (s.advanceDone_ward ok))
  case validationDone ok =>
    rw [exec_validationDone, execValidationDone] at h
    refine loaderStep_clocked h ?_
    rw [commitSwitch_ward]
    exact s.validated_step ok
  case switch l =>
    rw [exec_switch, execSwitch] at h
    rw [← Host.Outcome.next.inj h, commitSwitch_ward]
    exact s.holdEnds_step l
  case holdRelease =>
    rw [exec_holdRelease, execHoldRelease] at h
    rw [← Host.Outcome.next.inj h, commitRelease_ward]
    exact s.holdReleased_step _
  case registerWrite w =>
    obtain e | e := s.onPort_cases w.port fun s => commitRegs w.off s (s.regWrites w)
    · obtain rfl := Host.Outcome.next.inj (e.symm.trans h)
      exact .of_eq rfl
    · obtain rfl := Host.Outcome.next.inj (e.symm.trans h)
      exact .same (commitRegs_images s w)
  all_goals cases hc

/-- All that a command that goes on can do to the loader. -/
theorem exec_loader {c : Instr} {s t : State} (h : exec c s = .next t) : LoaderStep c s.ward t.ward := by
  have anew (hkind : powerCommand c = true ∨ selfTestEnd c = true) (hward : t.ward = s.ward ∨ t.ward = .reset) :
      LoaderStep c s.ward t.ward := by
    obtain hward | hward := hward
    · exact .of_eq hward
    · exact hward ▸ .anew hkind
  cases hl : loaderCommand c with
  | true => exact exec_loaderCommand hl h
  | false =>
    cases hp : powerCommand c with
    | true => exact anew (.inl hp) (exec_power hp h).2
    | false =>
      cases ht : selfTestEnd c with
      | true => exact anew (.inr ht) (exec_selfTestEnd_ward ht h)
      | false => exact .of_eq (exec_ward hl hp ht h)

/-! ### The invariant (R51) and the image in force -/

theorem LoaderStep.keeps {c : Instr} {s t : State} (h : LoaderStep c s.ward t.ward) (hs : LoaderInv s) : LoaderInv t := by
  obtain ⟨himage, hcand, hhold, hbeside⟩ := hs
  unfold LoaderInv
  generalize t.ward = w' at h
  cases h with
  | same h =>
    obtain ⟨e, e', hiff⟩ := h
    rw [e, e', hiff]
    exact ⟨himage, hcand, hhold, hbeside⟩
  | applied hc hnone hi h =>
    obtain ⟨e, e', e''⟩ := h
    simp [e, e', e'', hi]
  | held hsome hi h =>
    obtain ⟨e, e', e''⟩ := h
    simpa [e, e', e'', hi, hsome] using himage
  | switched hc hold hi h =>
    obtain ⟨e, e', e''⟩ := h
    simp [e, e', e'', hcand _ hi]
  | released h =>
    obtain ⟨e, e', e''⟩ := h
    simpa [e, e', e''] using himage
  | anew hc => simp [WardSt.reset]

theorem LoaderStep.image_changes {c : Instr} {w w' : WardSt} (h : LoaderStep c w w') (hne : w'.image ≠ w.image) :
    (∃ ok, c = .validationDone ok ∧ w.image = none ∧ ∃ i, w'.image = some i ∧ Accepted i) ∨
    (∃ l, c = .switch l ∧ w.state = .holding ∧ w'.image = w.cand) ∨
    ((powerCommand c = true ∨ selfTestEnd c = true) ∧ w'.image = none) := by
  cases h with
  | same h => exact absurd h.1 hne
  | applied hc hnone hi h => exact .inl ⟨_, hc, hnone, _, h.1, hi⟩
  | held hsome hi h => exact absurd h.1 hne
  | switched hc hold hi h => exact .inr (.inl ⟨_, hc, hold, h.1.trans hi.symm⟩)
  | released h => exact absurd h.1 hne
  | anew hc => exact .inr (.inr ⟨hc, rfl⟩)

theorem State.pgSkip_ward (s : State) (g n : Nat) : (s.pgSkip g n).ward = s.ward := by
  unfold State.pgSkip
  split
  · rfl
  · extract_lets count single lim
    split
    · rfl
    · exact (State.raise_ward _ _ _).trans rfl

/-- Pulse edges that a tick passes are no matter of the loader. -/
theorem State.pgPassed_ward (s : State) : s.pgPassed.ward = s.ward := by
  refine foldl_keeps State.ward _ (fun s g => ?_) _ s
  split
  · split
    · exact s.pgSkip_ward _ _
    · rfl
  · rfl

theorem State.idle_ward (s : State) : s.idle.ward = s.ward := by
  unfold State.idle State.ticked
  split
  · rw [State.noteDemand_ward, State.pgPassed_ward]
  · rfl

end Sys2Proof.Machine
end

section
open Sys2Proof Sys2Proof.Machine Sys2Proof.Safety

/-- Settles O3: a command of power carries the queue over, and every other commits a part of the state that does not hold it. -/
theorem queueIsFirstInFirstOut : Obligations.QueueIsFirstInFirstOut := by
  unfold Obligations.QueueIsFirstInFirstOut
  exact ⟨fun _ _ _ => exec_pending, fun _ _ _ _ => exec_pending⟩

/-- Settles O6: each command moves the loader in one of six ways, and each way keeps the invariant. -/
theorem loaderInvariant : Obligations.LoaderInvariant := by
  unfold Obligations.LoaderInvariant
  intro s t hs h
  unfold step at h
  split at h
  · cases h
    unfold LoaderInv
    rwa [s.idle_ward]
  · exact (exec_loader h).keeps hs

/-- Settles O7: of the six ways in which a command moves the loader three change the image in force. -/
theorem imageChangesOnlyBySwitch : Obligations.ImageChangesOnlyBySwitch := by
  unfold Obligations.ImageChangesOnlyBySwitch
  exact fun c s t h => (exec_loader h).image_changes

end

section
/-!
PROOFS. BEGIN, CHUNK, FINISH and ABORT of the loader, one rule for each outcome (R50 to R52, R448).
-/
namespace Sys2Proof.Machine
open Sys2Proof.Safety

/-! ### What the loader's commands commit and report -/

theorem commitWard_ward (s t : State) : (commitWard s t).ward = t.ward := rfl

/-- A register of the WARD block is committed. -/
theorem State.rv_commitWard (s t : State) {k : Nat} (h : slotOf k = 1) : (commitWard s t).rv k = t.rv k := by
  refine Regs.val_congr ?_
  rw [h]
  rfl

theorem State.commitWard_modWard (s : State) (f : WardSt → WardSt) : commitWard s (s.modWard f) = s.modWard f := rfl

/-- An event of the loader sets its bit in WARD_INT_STAT. -/
theorem State.rv_wardEvent_stat (s : State) (bit : Nat) : (s.wardEvent bit).rv 0x100030 = (s.rv 0x100030 ||| 2 ^ bit) % 2 ^ 32 :=
  (s.rv_raise_shared 0x100030 _ (by decide)).trans (s.rv_setReg_self _ _)

/-- An event of the loader leaves every other register that the ports share alone. -/
theorem State.rv_wardEvent_ne (s : State) (bit : Nat) {x : Nat} (hx : x < 2 ^ 26) (h : x ≠ 0x100030) :
    (s.wardEvent bit).rv x = s.rv x := s.rv_raise_shared_ne (k := 0x100030) _ hx h

/-- WARD_ERROR, WARD_ERROR_OFF and WARD_INT_STAT after a load that ends without applying (R50, R51). -/
theorem State.rv_wardFail (s : State) (status sect off : Nat) :
    (s.wardFail status sect off).rv 0x100014 = (status * 2 ^ 16 + sect * 2 ^ 8) % 2 ^ 32 ∧
    (s.wardFail status sect off).rv 0x100018 = off % 2 ^ 32 ∧
    (s.wardFail status sect off).rv 0x100030 = (s.rv 0x100030 ||| 2) % 2 ^ 32 := by
  have hstat : (s.wardError status sect off).rv 0x100030 = s.rv 0x100030 :=
    (State.rv_setReg_ne _ _ _ _ (by decide)).trans (State.rv_setReg_ne _ _ _ _ (by decide))
  unfold State.wardFail
  refine ⟨?_, ?_, ?_⟩
  · rw [State.rv_wardEvent_ne _ _ (by decide) (by decide)]
    exact (State.rv_setReg_ne _ _ _ _ (by decide)).trans (s.rv_setReg_self _ _)
  · rw [State.rv_wardEvent_ne _ _ (by decide) (by decide)]
    exact State.rv_setReg_self _ _ _
  · rw [State.rv_wardEvent_stat, hstat]
    rfl

/-- A refused command sets REFUSED, and leaves the loader, the engine and WARD_ERROR alone (R51). -/
theorem State.refused (s : State) : (commitWard s (s.wardEvent 2)).ward = s.ward ∧ (commitWard s (s.wardEvent 2)).sec = s.sec ∧
    (commitWard s (s.wardEvent 2)).rv 0x100014 = s.rv 0x100014 ∧
    (commitWard s (s.wardEvent 2)).rv 0x100030 = (s.rv 0x100030 ||| 4) % 2 ^ 32 := by
  refine ⟨s.wardEvent_ward 2, State.raise_sec _ _ _, ?_, ?_⟩
  · rw [State.rv_commitWard _ _ (slotOf_of_lt (by decide)), State.rv_wardEvent_ne _ _ (by decide) (by decide)]
  · rw [State.rv_commitWard _ _ (slotOf_of_lt (by decide)), State.rv_wardEvent_stat]
    rfl

/-- What a load that ends without applying commits of the registers. -/
theorem State.rv_commitWard_wardFail (s t : State) (status sect off : Nat) :
    (commitWard s (t.wardFail status sect off)).rv 0x100014 = (status * 2 ^ 16 + sect * 2 ^ 8) % 2 ^ 32 ∧
    (commitWard s (t.wardFail status sect off)).rv 0x100018 = off % 2 ^ 32 ∧
    (commitWard s (t.wardFail status sect off)).rv 0x100030 = (t.rv 0x100030 ||| 2) % 2 ^ 32 := by
  rw [State.rv_commitWard _ _ (slotOf_of_lt (by decide)), State.rv_commitWard _ _ (slotOf_of_lt (by decide)),
    State.rv_commitWard _ _ (slotOf_of_lt (by decide))]
  exact t.rv_wardFail status sect off

/-! ### The commands of a port whose write is let through -/

section
variable {s : State} {p : Port} (ha : admits s p 0x100000)
include ha

theorem exec_begin_admits : exec (.begin p) s = .next (commitWard s (s.wardBegin p)) :=
  (exec_begin p s).trans (State.gate_admits ha _)

theorem exec_chunk_admits : exec (.chunk p) s = .next (commitWard s s.wardChunk) :=
  (exec_chunk p s).trans (State.gate_admits ha _)

theorem exec_finish_admits : exec (.finish p) s = .next (commitWard s s.wardFinish) :=
  (exec_finish p s).trans (State.gate_admits ha _)

theorem exec_abort_admits : exec (.abort p) s = .next (commitWard s s.wardAbort) :=
  (exec_abort p s).trans (State.gate_admits ha _)

theorem exec_wardCmdUnknown_admits (v : Word) : exec (.wardCmdUnknown p v) s = .next (commitWard s (s.wardCmd p v.toNat)) :=
  (exec_wardCmdUnknown p v s).trans (State.gate_admits ha _)

end

/-! ### BEGIN (R51, R52, R448) -/

theorem State.wardBegin_notReady {s : State} (p : Nat) (h : s.boot.ready = false) : s.wardBegin p = s.wardEvent 2 := by
  unfold State.wardBegin
  rw [h]
  rfl

theorem State.wardBegin_refused {s : State} (p : Nat) (h : s.ward.state = .validating ∨ s.ward.state = .holding) :
    s.wardBegin p = s.wardEvent 2 := by
  unfold State.wardBegin
  obtain h | h := h <;> simp only [h, ite_self]

/-- BEGIN in IDLE and RECEIVING, by the length. -/
theorem State.wardBegin_taken {s : State} (p : Nat) (hr : s.boot.ready = true)
    (h : s.ward.state = .idle ∨ s.ward.state = .receiving) : s.wardBegin p =
      if totalOk (s.rv 0x100004) then
        s.modWard fun w => { w.clearStaging with state := .receiving, beginPort := p, total := s.rv 0x100004 }
      else (s.modWard fun w => { w.clearStaging with state := .idle }).wardFail 0x0605 0xFF 0 := by
  unfold State.wardBegin
  rw [hr]
  obtain h | h := h <;> rw [h] <;> rfl

/-! ### CHUNK (R51, R52) -/

theorem State.wardChunk_refused {s : State} (h : s.ward.state ≠ .receiving ∨ s.ward.busy = true) : s.wardChunk = s.wardEvent 2 :=
  if_pos h

/-- CHUNK in RECEIVING where no copy runs, by the bounds. -/
theorem State.wardChunk_taken {s : State} (h : s.ward.state = .receiving) (hb : s.ward.busy = false) : s.wardChunk =
    if chunkOk (s.rv 0x100008) (s.rv 0x10000C) s.ward.total then
      s.modWard fun w => { w with busy := true, chunk := (s.rv 0x100008, s.rv 0x10000C) }
    else s.wardFail 0x0602 0xFF 0 :=
  if_neg (by simp [h, hb])

/-- A byte of a memory copied to another from an offset on. -/
theorem Mem.read_copied_in (m a : Mem) {n i : Nat} (o : Nat) (h : i < n) :
    (m.writeBytes o (a.readBytes 0 n)).read (o + i) = a.read i := by
  rw [Mem.read_writeBytes_in _ _ _ _ (by rwa [Mem.readBytes_length]), Mem.readBytes_get, Nat.zero_add]

/-- A byte outside the range copied to. -/
theorem Mem.read_copied_out (m a : Mem) {o n x : Nat} (h : x < o ∨ o + n ≤ x) :
    (m.writeBytes o (a.readBytes 0 n)).read x = m.read x :=
  Mem.read_writeBytes_out _ _ _ _ (by rwa [Mem.readBytes_length])

theorem exec_chunkCopyDone_eq (s : State) : exec .chunkCopyDone s = .next (s.modWard WardSt.copyDone) := rfl

theorem WardSt.copyDone_idle {w : WardSt} (h : w.busy = false) : w.copyDone = w := if_neg (by simp [h])

theorem WardSt.copyDone_busy {w : WardSt} (h : w.busy = true) : w.copyDone =
    { w with busy := false, staging := w.staging.writeBytes w.chunk.1 (w.aperture.readBytes 0 w.chunk.2)
             covered := w.covered ++ [w.chunk] } := if_pos h

/-! ### FINISH and ABORT (R51) -/

theorem State.wardFinish_refused {s : State} (h : s.ward.state ≠ .receiving) : s.wardFinish = s.wardEvent 2 := if_pos h

/-- FINISH in RECEIVING where no copy runs, by the coverage. -/
theorem State.wardFinish_taken {s : State} (h : s.ward.state = .receiving) (hb : s.ward.busy = false) : s.wardFinish =
    if fullyCovered s.ward.covered s.ward.total then (s.modWard fun w => { w with state := .validating }).engineAdd .validate
    else (s.modWard fun w => { w.clearStaging with state := .idle }).wardFail 0x0603 0xFF 0 := by
  have hidle : s.modWard WardSt.copyDone = s := congrArg (fun w => { s with ward := w }) (WardSt.copyDone_idle hb)
  unfold State.wardFinish
  rw [if_neg (by simp [h]), hidle]

theorem State.wardAbort_refused {s : State} (h : s.ward.state ≠ .receiving) : s.wardAbort = s.wardEvent 2 := if_pos h

theorem State.wardAbort_taken {s : State} (h : s.ward.state = .receiving) :
    s.wardAbort = s.modWard fun w => { w.clearStaging with state := .idle } := if_neg (by simp [h])

/-- A validation that comes to an idle engine is its one operation. -/
theorem State.engineAdd_validate {s : State} (h : s.sec.engine = []) :
    s.engineAdd .validate = { s with sec := { s.sec with engine := [.validate] } } := by
  unfold State.engineAdd
  rw [h]
  rfl

/-! ### Undefined codes (R50, R51) -/

theorem State.wardCmd_undefined (s : State) (p : Nat) {v : Nat} (h : v % 8 = 0 ∨ 5 ≤ v % 8) : s.wardCmd p v = s.wardEvent 2 := by
  have hcode : field v 0 3 = v % 8 := by simp [field]
  unfold State.wardCmd
  rw [hcode]
  split
  case h_5 => rfl
  all_goals omega

end Sys2Proof.Machine
end

section
open Sys2Proof Sys2Proof.Machine Sys2Proof.Safety

/-- Settles O10: each clause by the rule of its outcome; the copied bytes by the laws of a memory written in a row. -/
theorem wardStagesAnImage : Obligations.WardStagesAnImage := by
  unfold Obligations.WardStagesAnImage
  refine ⟨fun s p ha hready => ⟨fun hs htot => ?begins, fun hs => ?beginRefused, fun hs htot => ?beginLength⟩,
    fun s p ha hready => ?beginEarly, fun s p ha hs => ⟨fun hb => ?chunkBusy, fun hb hbounds => ?chunkBounds⟩,
    fun s p ha hs hb hbounds => ?chunkCopies, fun s => ?copyEnds⟩
  case begins =>
    rw [exec_begin_admits ha, State.wardBegin_taken p hready hs, if_pos htot]
    rfl
  case beginRefused =>
    obtain ⟨hward, -, herr, hstat⟩ := s.refused
    exact ⟨_, (exec_begin_admits ha).trans (by rw [State.wardBegin_refused p hs]), hward, herr, hstat⟩
  case beginLength =>
    have hexec := exec_begin_admits ha
    rw [State.wardBegin_taken p hready hs, if_neg (by simp [htot])] at hexec
    refine ⟨_, hexec, ?_⟩
    rw [commitWard_ward, State.wardFail_ward]
    exact ⟨rfl, rfl, rfl, rfl, (State.rv_commitWard_wardFail _ _ _ _ _).1⟩
  case beginEarly =>
    obtain ⟨hward, -, herr, hstat⟩ := s.refused
    exact ⟨_, (exec_begin_admits ha).trans (by rw [State.wardBegin_notReady p hready]), hward, herr, hstat⟩
  case chunkBusy =>
    obtain ⟨hward, -, herr, hstat⟩ := s.refused
    exact ⟨_, (exec_chunk_admits ha).trans (by rw [State.wardChunk_refused (.inr hb)]), hward, herr, hstat⟩
  case chunkBounds =>
    have hexec := exec_chunk_admits ha
    rw [State.wardChunk_taken hs hb, if_neg (by simp [hbounds])] at hexec
    obtain ⟨herr, hoff, hstat⟩ := s.rv_commitWard_wardFail s 0x0602 0xFF 0
    exact ⟨_, hexec, s.wardFail_ward _ _ _, herr, hoff, hstat⟩
  case chunkCopies =>
    have hexec := exec_chunk_admits ha
    rw [State.wardChunk_taken hs hb, if_pos hbounds, State.commitWard_modWard] at hexec
    exact ⟨_, _, hexec, rfl, exec_chunkCopyDone_eq _, rfl, rfl, fun i hi => Mem.read_copied_in _ _ _ hi,
      fun a hout => Mem.read_copied_out _ _ hout, rfl⟩
  case copyEnds =>
    rw [exec_chunkCopyDone_eq, State.modWard]
    cases hb : s.ward.busy with
    | true =>
      rw [WardSt.copyDone_busy hb]
      rfl
    | false =>
      rw [WardSt.copyDone_idle hb]
      rfl

/-- Settles O11: each clause by the rule of its outcome; every refusal is one and the same. -/
theorem wardFinishAbortAndRefusals : Obligations.WardFinishAbortAndRefusals := by
  unfold Obligations.WardFinishAbortAndRefusals
  refine fun s p ha => ⟨fun hs hb hfull hidle => ?complete, fun hs hb hfull => ?incomplete, fun hs => ?aborts,
    fun c hc => ?refusals⟩
  case complete =>
    rw [exec_finish_admits ha, State.wardFinish_taken hs hb, if_pos hfull, State.engineAdd_validate (s := s.modWard _) hidle]
    rfl
  case incomplete =>
    have hexec := exec_finish_admits ha
    rw [State.wardFinish_taken hs hb, if_neg (by simp [hfull])] at hexec
    refine ⟨_, hexec, ?_⟩
    rw [commitWard_ward, State.wardFail_ward]
    exact ⟨rfl, rfl, (State.rv_commitWard_wardFail _ _ _ _ _).1⟩
  case aborts =>
    rw [exec_abort_admits ha, State.wardAbort_taken hs]
    rfl
  case refusals =>
    refine ⟨_, ?_, s.refused⟩
    obtain ⟨rfl | rfl | rfl, hs⟩ | ⟨v, rfl, hv⟩ := hc
    · rw [exec_finish_admits ha, State.wardFinish_refused hs]
    · rw [exec_abort_admits ha, State.wardAbort_refused hs]
    · rw [exec_chunk_admits ha, State.wardChunk_refused (.inl hs)]
    · rw [exec_wardCmdUnknown_admits ha, s.wardCmd_undefined p hv]

end

section
/-!
PROOFS. The end of a validation as it is committed (R48, R51, R53).
-/
namespace Sys2Proof.Machine
open Sys2Proof.Safety

theorem exec_validationDone_runs {s : State} {l : List SecOp} (ok : Bool) (hosc : s.boot.refOsc = true)
    (he : s.sec.engine = .validate :: l) (hs : s.ward.state = .validating) :
    exec (.validationDone ok) s = .next (commitSwitch s (s.settleVerdict ok (s.verdict ok))) := by
  rw [exec_validationDone, execValidationDone, State.clocked_on hosc, State.validated_run ok he hs]

/-- A load that ends without applying touches registers and outputs only. -/
theorem State.wardFail_frame (s : State) (status sect off : Nat) : ∃ r o, s.wardFail status sect off = s.withRO r o :=
  withRO_trans (withRO_trans (s.setReg_frame _ _) (State.setReg_frame _ _ _)) (State.raise_frame _ _ _)

/-- A validation that fails touches the loader, the engine, registers and outputs only. -/
theorem State.settleVerdict_fails_frame (s : State) (ok : Bool) (e : WardFail) : ∃ w x n r o, s.settleVerdict ok (some e) =
    ({ s with ward := w } : State).withSec x n r o := by
  obtain ⟨x, n, r, o, hleft⟩ := s.leftEngine_frame ok (some e)
  show ∃ w x n r o, ((s.leftEngine ok (some e)).modWard _).wardFail e.status e.sect e.offset = _
  rw [hleft]
  obtain ⟨r', o', hfail⟩ := State.wardFail_frame
    ((s.withSec x n r o).modWard fun w => { w.clearStaging with state := .idle }) e.status e.sect e.offset
  exact ⟨_, x, n, r', o', hfail⟩

end Sys2Proof.Machine
end

section
/-!
PROOFS. What the switch clears: catches, running jobs, the cache (R54, R55, R121, R275).
-/
namespace Sys2Proof.Machine
open Sys2Proof.Safety

/-- What a switch clears and no later part of it fills again: the catches, the partitions' jobs, the cache. -/
def State.cleared (s : State) : List (Nat × Nat) × List PartSt × List (Nat × CacheEntry) :=
  (s.comp.catches, s.comp.parts, s.ing.cache)

/-! ### Partitions and catches -/

/-- No partition runs a job under a new image. -/
theorem State.job_of_mem_freshParts {s : State} {i : Image} {q : PartSt} (h : q ∈ s.freshParts i) : q.job = none := by
  unfold State.freshParts at h
  obtain ⟨p, -, rfl⟩ := List.mem_map.1 h
  split <;> rfl

theorem State.switchPart_comp (s old : State) (p : Nat) : (s.switchPart old p).comp = s.comp := by
  unfold State.switchPart
  extract_lets lost bare bits s1
  split
  · rfl
  · exact State.raise_comp _ _ _

theorem State.switchComp_clears (s old : State) (i : Image) :
    (s.switchComp old i).comp.catches = [] ∧ (s.switchComp old i).comp.parts = s.freshParts i := by
  unfold State.switchComp
  extract_lets parts s1
  rw [foldl_keeps State.comp _ (fun s p => s.switchPart_comp old p)]
  exact ⟨rfl, rfl⟩

/-! ### What follows leaves jobs and catches alone -/

theorem State.freeCtxs_comp (s : State) (p : Nat) : (s.freeCtxs p).comp = s.comp := s.random_comp

theorem State.switchKv_comp (s old : State) : (s.switchKv old).comp = s.comp := by
  refine foldl_keeps State.comp _ (fun s p => ?_) _ s
  split
  · rfl
  · exact s.freeCtxs_comp p

theorem State.switchCtl_comp (s old : State) (l : List Nat) : (s.switchCtl old l).comp = s.comp := rfl

theorem State.switchPwr_comp (s : State) (i : Image) : (s.switchPwr i).comp = s.comp :=
  foldl_keeps State.comp _ (fun s _ => (State.setReg_comp _ _ _).trans (s.setRegs_comp _ _)) _ _

/-- A ring at a switch changes the rings only. -/
theorem State.switchRing_frame (s old : State) (p : Nat) :
    (s.switchRing old p).comp = s.comp ∧ (s.switchRing old p).ing.cache = s.ing.cache := by
  unfold State.switchRing
  extract_lets stop
  split
  · exact ⟨rfl, rfl⟩
  · exact ⟨rfl, rfl⟩

theorem State.refreshRings_cleared (s : State) : s.refreshRings.cleared = s.cleared := by
  refine foldl_keeps State.cleared _ (fun s p => ?_) _ s
  split <;> rfl

theorem State.switchIng_cleared (s old : State) : (s.switchIng old).cleared = (s.comp.catches, s.comp.parts, []) := by
  unfold State.switchIng
  extract_lets s1
  rw [State.refreshRings_cleared, foldl_keeps State.cleared _ fun s p => ?_]
  · rfl
  · obtain ⟨hcomp, hcache⟩ := s.switchRing_frame old p
    rw [State.cleared, State.cleared, hcomp, hcache]

theorem State.raise_cleared (s : State) (k bits : Nat) : (s.raise k bits).cleared = s.cleared := by
  rw [State.cleared, State.cleared, State.raise_comp, State.raise_ing]

theorem State.leaveGranule_cleared (s : State) (u : Nat) : (s.leaveGranule u).cleared = s.cleared := by
  unfold State.leaveGranule
  split
  · rfl
  · split
    · rfl
    · simp only
      split <;> rfl

/-- Another island and another loader clear nothing and fill nothing. -/
theorem State.cleared_island (s : State) (x : SafeSt) (w : WardSt) :
    ({ s with safe := x, ward := w } : State).cleared = s.cleared := rfl

theorem State.startInterval_cleared (s : State) (plan : Option SafetyEntry) : (s.startInterval plan).cleared = s.cleared :=
  (State.cleared_island _ _ _).trans (foldl_keeps State.cleared State.leaveGranule State.leaveGranule_cleared (List.range 22) s)

theorem State.detect_cleared (s : State) (c unit response : Nat) : (s.detect c unit response).cleared = s.cleared := by
  rw [State.cleared, State.cleared, State.detect_comp, State.detect_ing]

theorem State.cleared_ite {P : Prop} [Decidable P] {a b s : State} (ha : a.cleared = s.cleared) (hb : b.cleared = s.cleared) :
    (if P then a else b).cleared = s.cleared := by
  split
  · exact ha
  · exact hb

theorem State.switchDrive_cleared (s : State) : s.switchDrive.cleared = s.cleared := by
  have harm : (if s.safe.state = 3 then { s with safe := { s.safe with state := 0 } } else s).cleared = s.cleared :=
    State.cleared_ite rfl rfl
  have hcause (t : State) (h : t.cleared = s.cleared) : (if t.standing 2 then t.detect 2 0xFF 2 else t).cleared = s.cleared :=
    State.cleared_ite ((t.detect_cleared 2 0xFF 2).trans h) h
  exact State.cleared_ite ((State.raise_cleared _ _ _).trans (hcause _ harm)) (hcause _ harm)

theorem State.stopHeartbeat_cleared (s : State) : s.stopHeartbeat.cleared = s.cleared := by
  unfold State.stopHeartbeat
  split <;> rfl

theorem State.switchDepot_cleared (s : State) : s.switchDepot.cleared = s.cleared :=
  State.cleared_ite ((State.raise_cleared _ _ _).trans s.stopHeartbeat_cleared) s.stopHeartbeat_cleared

theorem State.switchSafe_cleared (s old : State) (i : Image) : (s.switchSafe old i).cleared = s.cleared := by
  have hplan (t : State) (P : Prop) [Decidable P] (h : t.cleared = s.cleared) :
      ((if P then t else t.startInterval i.safety).refreshMons old).cleared = s.cleared :=
    State.cleared_ite h ((t.startInterval_cleared i.safety).trans h)
  exact State.cleared_ite ((State.switchDrive_cleared _).trans (hplan _ _ rfl))
    ((State.switchDepot_cleared _).trans (hplan _ _ rfl))

theorem State.setReg_cleared (s : State) (k v : Nat) : (s.setReg k v).cleared = s.cleared := rfl

theorem State.setRegs_cleared (s : State) (k : Nat) (l : List Nat) : (s.setRegs k l).cleared = s.cleared := by
  rw [State.cleared, State.cleared, State.setRegs_comp, State.setRegs_ing]

theorem State.switchReport_cleared (s : State) : s.switchReport.cleared = s.cleared := by
  unfold State.switchReport State.wardEvent State.wardError
  rw [State.raise_cleared, State.setReg_cleared, State.setReg_cleared, State.setReg_cleared, State.setRegs_cleared]

theorem State.switchAdvance_cleared (s : State) (i : Image) : (s.switchAdvance i).cleared = s.cleared := by
  unfold State.switchAdvance
  extract_lets c
  split
  · obtain ⟨x, n, e⟩ := State.engineStart_frame { s with sec := { s.sec with engine := s.sec.engine ++ [.advance c i.secver] } }
    rw [State.engineAdd, e]
    rfl
  · rfl

theorem State.latchDone_cleared (t s : State) : (t.latchDone s).cleared = t.cleared := by
  refine foldl_keeps State.cleared _ (fun t p => ?_) _ t
  split
  · exact t.raise_cleared _ _
  · rfl

/-- The state in which every block but the island and the loader has taken the new image. -/
def State.switchBlocks (s : State) (i : Image) (l : List Nat) : State :=
  (((((s.cutJobs.modWard fun w => w.apply i).switchComp s.cutJobs i).switchKv s.cutJobs).switchCtl s.cutJobs l).switchPwr
    i).switchIng s.cutJobs

theorem State.switchBlocks_cleared (s : State) (i : Image) (l : List Nat) :
    (s.switchBlocks i l).cleared = ([], (s.cutJobs.modWard fun w => w.apply i).freshParts i, []) := by
  obtain ⟨hcatches, hparts⟩ := (s.cutJobs.modWard fun w => w.apply i).switchComp_clears s.cutJobs i
  rw [State.switchBlocks, State.switchIng_cleared, State.switchPwr_comp, State.switchCtl_comp, State.switchKv_comp,
    hcatches, hparts]

/-- The island, the loader's report and the latches clear nothing and fill nothing. -/
theorem State.switch_cleared (s : State) (i : Image) (l : List Nat) : (s.switch i l).cleared = (s.switchBlocks i l).cleared := by
  have hparts : s.switch i l = { ((({ s.switchBlocks i l with
      safe := (s.switchBlocks i l).safe.carry s.safe, ward := s.cutJobs.ward.apply i } : State).switchSafe
        s.cutJobs i).switchReport.switchAdvance i).latchDone s.cutJobs with ward := s.cutJobs.ward.apply i } := rfl
  rw [hparts]
  refine (State.cleared_island _ _ _).trans ?_
  rw [State.latchDone_cleared, State.switchAdvance_cleared, State.switchReport_cleared, State.switchSafe_cleared]
  exact State.cleared_island _ _ _

/-- The switch leaves no catch, no running job and an empty cache. -/
theorem State.switch_clears (s : State) (i : Image) (l : List Nat) : (s.switch i l).comp.catches = [] ∧
    (∀ q ∈ (s.switch i l).comp.parts, q.job = none) ∧ (s.switch i l).ing.cache = [] := by
  have hclear := (s.switch_cleared i l).trans (s.switchBlocks_cleared i l)
  simp only [State.cleared, Prod.mk.injEq] at hclear
  obtain ⟨hcatches, hparts, hcache⟩ := hclear
  exact ⟨hcatches, fun q hq => State.job_of_mem_freshParts (hparts ▸ hq), hcache⟩

theorem exec_holdRelease_eq (s : State) : exec .holdRelease s = .next (commitRelease s s.holdReleased) := by
  rw [exec_holdRelease, execHoldRelease]

theorem commitSwitch_comp (s t : State) : (commitSwitch s t).comp = t.comp := rfl

theorem commitSwitch_ing (s t : State) : (commitSwitch s t).ing = t.ing := rfl

theorem commitSwitch_keeps (s t : State) : (commitSwitch s t).can = s.can ∧ (commitSwitch s t).t1s = s.t1s ∧
    (commitSwitch s t).eth = s.eth ∧ (commitSwitch s t).time = s.time ∧ (commitSwitch s t).ports = s.ports ∧
    (commitSwitch s t).boot = s.boot := ⟨rfl, rfl, rfl, rfl, rfl, rfl⟩

theorem commitRelease_keeps (s t : State) : (commitRelease s t).sec = s.sec ∧ (commitRelease s t).safe.state = s.safe.state ∧
    (commitRelease s t).can = s.can ∧ (commitRelease s t).time = s.time := ⟨rfl, rfl, rfl, rfl⟩

theorem exec_switch_runs {s : State} {i : Image} (l : List ChanIx) (hs : s.ward.state = .holding) (hc : s.ward.cand = some i)
    (hh : s.allHeld = true) : exec (.switch l) s = .next (commitSwitch s (s.switch i (l.map (·.val)))) := by
  rw [exec_switch, execSwitch, State.holdEnds_run _ hs hc hh]

end Sys2Proof.Machine
end

section
open Sys2Proof Sys2Proof.Machine Sys2Proof.Safety

/-- Settles O12: the engine's validation by its outcome. A failure touches the loader, the engine and registers only; a first
image goes through the switch, a later one is held. -/
theorem wardValidation : Obligations.WardValidation := by
  unfold Obligations.WardValidation
  intro s ok rest hosc he hs b
  have hexec := exec_validationDone_runs ok hosc he hs
  refine ⟨fun f hf => ?fails, fun hf hnone => ?applied, fun hf hsome => ?held⟩
  all_goals
    have hverdict : s.verdict ok = _ := hf
    rw [hverdict] at hexec
  case fails =>
    have hward : (commitSwitch s (s.settleVerdict ok (some f))).ward = { s.ward.clearStaging with state := .idle } :=
      (commitSwitch_ward _ _).trans (s.settleVerdict_fails_ward ok f)
    obtain ⟨herr, hoff, -⟩ := State.rv_wardFail
      ((s.leftEngine ok (some f)).modWard fun w => { w.clearStaging with state := .idle }) f.status f.sect f.offset
    obtain ⟨w, x, n, r, o, hframe⟩ := s.settleVerdict_fails_frame ok f
    refine ⟨_, hexec, by rw [hward], by rw [hward]; rfl, by rw [hward]; rfl, herr, hoff, ?_⟩
    rw [hframe]
    exact ⟨rfl, rfl, rfl, rfl, rfl⟩
  case applied =>
    rw [State.settleVerdict_first ok hnone] at hexec
    refine ⟨_, hexec, ?_⟩
    rw [commitSwitch_ward, State.switch_ward]
    exact ⟨rfl, rfl⟩
  case held =>
    refine ⟨_, hexec, ?_⟩
    rw [commitSwitch_ward, State.settleVerdict_held_ward ok hsome]
    exact ⟨rfl, rfl, rfl⟩

/-- Settles O13: what the switch puts in force and clears is followed through its parts; what neither command commits stands. -/
theorem wardSwitchAndRelease : Obligations.WardSwitchAndRelease := by
  unfold Obligations.WardSwitchAndRelease
  intro s i hs hc
  refine ⟨fun l hh => ?switch, ?release⟩
  case switch =>
    obtain ⟨hcatches, hjobs, hcache⟩ := s.switch_clears i (l.map (·.val))
    refine ⟨_, exec_switch_runs l hs hc hh, ?_⟩
    rw [commitSwitch_ward, State.switch_ward, commitSwitch_comp, commitSwitch_ing]
    exact ⟨rfl, rfl, rfl, hcatches, hjobs, hcache, commitSwitch_keeps _ _⟩
  case release =>
    refine ⟨_, exec_holdRelease_eq s, ?_⟩
    rw [commitRelease_ward, State.holdReleased_ward hs]
    exact ⟨rfl, rfl, rfl, commitRelease_keeps s s.holdReleased⟩

end

section
/-!
PROOFS. Exact dyadic values as rationals, the representable values of a format as a grid, and their codes (R61 to R63, R74).
-/
namespace Sys2Proof.Machine
open Sys2Proof.Safety

/-! ### Dyadic values as rationals -/

/-- The rational that an exact dyadic value stands for. -/
def Dy.val (d : Dy) : ℚ := d.m * 2 ^ d.e

/-- A mantissa brought down to a lower exponent. -/
theorem mul_two_pow_toNat_zpow {e e' : Int} (m : ℚ) (h : e' ≤ e) : m * 2 ^ (e - e').toNat * 2 ^ e' = m * 2 ^ e := by
  have hexp : (2 : ℚ) ^ (e - e').toNat = 2 ^ (e - e') := by rw [← zpow_natCast, Int.toNat_of_nonneg (by omega)]
  rw [hexp, mul_assoc, ← zpow_add₀ (by norm_num), sub_add_cancel]

theorem Dy.le_iff (a b : Dy) : a.le b = true ↔ a.val ≤ b.val := by
  have hpos : (0 : ℚ) < 2 ^ min a.e b.e := by positivity
  rw [Dy.val, Dy.val, ← mul_two_pow_toNat_zpow (a.m : ℚ) (min_le_left a.e b.e),
    ← mul_two_pow_toNat_zpow (b.m : ℚ) (min_le_right a.e b.e), mul_le_mul_iff_left₀ hpos, Dy.le, decide_eq_true_eq]
  exact_mod_cast Iff.rfl

theorem Dy.val_add (a b : Dy) : (a.add b).val = a.val + b.val := by
  rw [Dy.val, Dy.val, Dy.val, ← mul_two_pow_toNat_zpow (a.m : ℚ) (min_le_left a.e b.e),
    ← mul_two_pow_toNat_zpow (b.m : ℚ) (min_le_right a.e b.e), ← add_mul, Dy.add]
  push_cast
  rfl

theorem Dy.val_abs (a : Dy) : a.abs.val = |a.val| := by
  rw [Dy.val, Dy.val, Dy.abs, abs_mul, abs_of_pos (show (0 : ℚ) < 2 ^ a.e by positivity), Nat.cast_natAbs]
  push_cast
  rfl

theorem gap_val (f : Fmt) (n : Int) (v : Dy) : (gap f n v).val = |n * 2 ^ f.qe - v.val| := by
  rw [gap, Dy.val_abs, Dy.val_add, Dy.val, Dy.val, Dy.val]
  push_cast
  ring_nf

/-! ### The formats (R61) -/

/-- A float format has a mantissa, at least two exponent bits, and its sign bit on top; infinities come with NaNs. -/
theorem fmtOf_float {k : Nat} {f : Fmt} (h : fmtOf k = some f) (hf : f.isInt = false) :
    1 ≤ f.p ∧ 2 ≤ f.eb ∧ f.width = f.eb + f.p + 1 := by
  unfold fmtOf at h
  split at h <;> cases h <;> simp at hf ⊢

/-- An integer format has at least one bit besides the sign. -/
theorem fmtOf_int {k : Nat} {f : Fmt} (h : fmtOf k = some f) (hf : f.isInt = true) : 2 ≤ f.width := by
  unfold fmtOf at h
  split at h <;> cases h <;> simp at hf ⊢

/-! ### The grid of representable values -/

/-- Steps of 2^d units with at least 2^p of them below a value are the spacing of a format's values there: none lies between two. -/
theorem float_on_grid {p a g d n : Nat} (ha : a < 2 ^ (p + 1)) (hd : d = 0 ∨ 2 ^ p ≤ n) :
    a * 2 ^ g ≤ n * 2 ^ d ∨ (n + 1) * 2 ^ d ≤ a * 2 ^ g := by
  by_cases hgd : d ≤ g
  · obtain ⟨i, rfl⟩ := Nat.exists_eq_add_of_le hgd
    have hmul : a * 2 ^ (d + i) = a * 2 ^ i * 2 ^ d := by ring
    rw [hmul]
    rcases Nat.lt_or_ge n (a * 2 ^ i) with h | h
    · exact .inr (Nat.mul_le_mul_right _ h)
    · exact .inl (Nat.mul_le_mul_right _ h)
  · obtain ⟨i, rfl⟩ := Nat.exists_eq_add_of_le (show g + 1 ≤ d by omega)
    have hn : 2 ^ p ≤ n := hd.resolve_left (by omega)
    left
    calc a * 2 ^ g ≤ 2 ^ (p + 1) * 2 ^ g := Nat.mul_le_mul_right _ ha.le
      _ = 2 ^ p * 2 ^ (g + 1) := by ring
      _ ≤ n * 2 ^ (g + 1 + i) := Nat.mul_le_mul hn (Nat.pow_le_pow_right (by norm_num) (by omega))

/-- The magnitude of a float code without its sign, in units of q (R62). -/
def floatMag (p c : Nat) : Nat := if c / 2 ^ p = 0 then c % 2 ^ p else (2 ^ p + c % 2 ^ p) * 2 ^ (c / 2 ^ p - 1)

/-- A magnitude is a mantissa of at most p + 1 bits at some exponent. -/
theorem floatMag_eq (p c : Nat) : ∃ a g, floatMag p c = a * 2 ^ g ∧ a < 2 ^ (p + 1) := by
  have hm : c % 2 ^ p < 2 ^ p := Nat.mod_lt _ (by positivity)
  have hp : 2 ^ (p + 1) = 2 * 2 ^ p := by ring
  unfold floatMag
  split
  · exact ⟨c % 2 ^ p, 0, by simp, by omega⟩
  · exact ⟨_, _, rfl, by omega⟩

/-- Codes in a row are values in steps of 2^d: n steps above the d-th power carry over into the next exponent of themselves. -/
theorem floatMag_code {p d n : Nat} (hn : n ≤ 2 ^ (p + 1)) (hd : d = 0 ∨ 2 ^ p ≤ n) :
    floatMag p (d * 2 ^ p + n) = n * 2 ^ d := by
  have hp : 0 < 2 ^ p := by positivity
  have h2 : 2 ^ (p + 1) = 2 * 2 ^ p := by ring
  have hdiv : (d * 2 ^ p + n) / 2 ^ p = d + n / 2 ^ p := by rw [add_comm, Nat.add_mul_div_right _ _ hp, add_comm]
  have hmod : (d * 2 ^ p + n) % 2 ^ p = n % 2 ^ p := by rw [add_comm, Nat.add_mul_mod_self_right]
  unfold floatMag
  rw [hdiv, hmod]
  rcases Nat.lt_or_ge n (2 ^ p) with h | h
  · obtain rfl : d = 0 := hd.resolve_right (by omega)
    simp [Nat.div_eq_of_lt h, Nat.mod_eq_of_lt h]
  · rcases Nat.lt_or_ge n (2 ^ (p + 1)) with h' | h'
    · have h1 : n / 2 ^ p = 1 := Nat.div_eq_of_lt_le (by omega) (by omega)
      have hm : n % 2 ^ p = n - 2 ^ p := by rw [Nat.mod_eq_sub_mod h, Nat.mod_eq_of_lt (by omega)]
      rw [h1, hm, if_neg (by omega), Nat.add_sub_cancel' h, Nat.add_sub_cancel]
    · obtain rfl : n = 2 * 2 ^ p := by omega
      rw [Nat.mul_div_cancel _ hp, Nat.mul_mod_left, if_neg (by omega), show d + 2 - 1 = d + 1 by omega]
      ring

/-! ### Decoding (R62, R63) -/

/-- The exponent of a code rests on the bits below its sign. -/
theorem field_exponent (c p eb : Nat) : field c p eb = c % 2 ^ (p + eb) / 2 ^ p := by
  rw [field, pow_add, Nat.mod_mul_right_div_self]

/-- The mantissa of a code rests on the bits below its sign. -/
theorem field_mantissa (c p eb : Nat) : field c 0 p = c % 2 ^ (p + eb) % 2 ^ p := by
  rw [field, pow_zero, Nat.div_one, Nat.mod_mod_of_dvd _ (pow_dvd_pow 2 (Nat.le_add_right _ _))]

/-- The exponent and mantissa of a code are those of a NaN or an infinity. -/
def Fmt.special (f : Fmt) (c : Nat) : Bool :=
  if f.hasInf then field c f.p f.eb == 2 ^ f.eb - 1
  else f.hasNan && field c f.p f.eb == 2 ^ f.eb - 1 && field c 0 f.p == 2 ^ f.p - 1

theorem Fmt.decode_float {f : Fmt} (hf : f.isInt = false) (c : Nat) : f.decode c =
    if f.special c then .nonFinite
    else .num (if tbit c (f.width - 1) then -(floatMag f.p (c % 2 ^ (f.p + f.eb)) : Int)
      else floatMag f.p (c % 2 ^ (f.p + f.eb))) := by
  unfold Fmt.decode floatMag Fmt.special
  rw [hf, ← field_exponent, ← field_mantissa]
  rfl

theorem Fmt.decode_int {f : Fmt} (hf : f.isInt = true) (c : Nat) : f.decode c = .num (sgn f.width c) := by
  rw [Fmt.decode, if_pos hf]

/-- No representable value, nor its negation, lies strictly between two steps. -/
theorem Fmt.decode_on_grid {f : Fmt} {c d n : Nat} {m z : Int} (h : f.decode c = .num m) (hz : z = m ∨ z = -m)
    (hd : d = 0 ∨ f.isInt = false ∧ 2 ^ f.p ≤ n) : z ≤ n * 2 ^ d ∨ ((n : Int) + 1) * 2 ^ d ≤ z := by
  by_cases hd0 : d = 0
  · subst hd0
    rw [pow_zero, mul_one, mul_one]
    omega
  obtain ⟨hf, hn⟩ := hd.resolve_left hd0
  rw [Fmt.decode_float hf] at h
  split at h
  · cases h
  obtain ⟨a, g, hmag, ha⟩ := floatMag_eq f.p (c % 2 ^ (f.p + f.eb))
  rw [hmag] at h
  have hstep : (0 : Int) ≤ n * 2 ^ d := by positivity
  have habs : m = (a * 2 ^ g : Nat) ∨ m = -(a * 2 ^ g : Nat) := by
    injection h with h
    rw [← h]
    split
    · exact .inr rfl
    · exact .inl rfl
  have hsign : z = (a * 2 ^ g : Nat) ∨ z ≤ 0 := by omega
  obtain rfl | hneg := hsign
  · exact_mod_cast float_on_grid ha (.inr hn)
  · exact .inl (hneg.trans hstep)

/-- A mantissa short of p + 1 bits full is below the next power of two. -/
theorem mantissa_mul_lt {p a e : Nat} (ha : a < 2 ^ (p + 1)) : a * 2 ^ e < 2 ^ p * 2 ^ (e + 1) := by
  calc a * 2 ^ e < 2 ^ (p + 1) * 2 ^ e := Nat.mul_lt_mul_of_pos_right ha (by positivity)
    _ = 2 ^ p * 2 ^ (e + 1) := by ring

/-- The exponent of the code of a magnitude below a power of two. -/
theorem floatMag_exponent_le {p c e m : Nat} (h : floatMag p c ≤ m) (hm : m < 2 ^ p * 2 ^ e) : c / 2 ^ p ≤ e := by
  by_cases hzero : c / 2 ^ p = 0
  · omega
  rw [floatMag, if_neg hzero] at h
  have hlt : 2 ^ p * 2 ^ (c / 2 ^ p - 1) < 2 ^ p * 2 ^ e :=
    ((Nat.mul_le_mul_right _ (Nat.le_add_right _ _)).trans h).trans_lt hm
  have := (Nat.pow_lt_pow_iff_right (a := 2) (by norm_num)).1 (Nat.lt_of_mul_lt_mul_left hlt)
  omega

/-- A magnitude within the range of a float format has its code among those without a sign, and no special one. -/
theorem Fmt.code_of_floatMag_le {f : Fmt} {c : Nat} (hf : f.isInt = false) (heb : 2 ≤ f.eb) (h : floatMag f.p c ≤ f.maxN) :
    c < 2 ^ (f.p + f.eb) ∧ f.special c = false := by
  have hpow : 0 < 2 ^ f.p := by positivity
  have hp : 2 ^ (f.p + 1) = 2 * 2 ^ f.p := by ring
  have hebs : 4 ≤ 2 ^ f.eb := Nat.pow_le_pow_right (n := 2) (by norm_num) heb
  have hcode : c / 2 ^ f.p ≤ 2 ^ f.eb - 1 → c < 2 ^ (f.p + f.eb) := fun hle => by
    rw [pow_add, mul_comm]
    exact (Nat.div_lt_iff_lt_mul hpow).1 (by omega)
  have hexp : c < 2 ^ (f.p + f.eb) → field c f.p f.eb = c / 2 ^ f.p := fun hc => by
    rw [field_exponent, Nat.mod_eq_of_lt hc]
  unfold Fmt.maxN at h
  simp only [hf, Bool.false_eq_true, if_false] at h
  unfold Fmt.special
  split at h
  · next hinf =>
    have hle := floatMag_exponent_le h (mantissa_mul_lt (by omega))
    have hc := hcode (by omega)
    exact ⟨hc, by simp only [hinf, if_true, hexp hc, beq_eq_false_iff_ne]; omega⟩
  · next hinf =>
    split at h
    · next hnan =>
      have hle := floatMag_exponent_le h (mantissa_mul_lt (by omega))
      have hc := hcode (by omega)
      refine ⟨hc, ?_⟩
      simp only [hinf, hnan, hexp hc, if_false, Bool.true_and, Bool.and_eq_false_iff, beq_eq_false_iff_ne, Bool.false_eq_true]
      by_contra! hspecial
      obtain ⟨he, hm⟩ := hspecial
      rw [field, pow_zero, Nat.div_one] at hm
      rw [floatMag, he, hm, if_neg (by omega), show 2 ^ f.eb - 1 - 1 = 2 ^ f.eb - 2 by omega] at h
      have := Nat.le_of_mul_le_mul_right h (by positivity)
      omega
    · next hnan =>
      have hle := floatMag_exponent_le h (mantissa_mul_lt (by omega))
      exact ⟨hcode (by omega), by simp [hinf, hnan]⟩

theorem sgn_unsgn {w : Nat} {z : Int} (hw : 1 ≤ w) (hlo : -(2 ^ (w - 1) : Nat) ≤ z) (hhi : z < (2 ^ (w - 1) : Nat)) :
    sgn w (unsgn w z) = z := by
  have h2 : 2 ^ w = 2 * 2 ^ (w - 1) := by rw [← pow_succ', Nat.sub_add_cancel hw]
  have hun : ((unsgn w z : Nat) : Int) = if z < 0 then z + (2 ^ w : Nat) else z := by
    rw [unsgn, Int.toNat_of_nonneg (Int.emod_nonneg _ (by positivity))]
    split
    · rw [← Int.add_emod_right, Int.emod_eq_of_lt (by omega) (by omega)]
    · exact Int.emod_eq_of_lt (by omega) (by omega)
  have hmod : unsgn w z % 2 ^ w = unsgn w z := Nat.mod_eq_of_lt (by split at hun <;> omega)
  rw [sgn, hmod]
  split at hun <;> split <;> omega

/-- Whether a code is special rests on its exponent and mantissa. -/
theorem Fmt.special_congr {f : Fmt} {a b : Nat} (h : a % 2 ^ (f.p + f.eb) = b % 2 ^ (f.p + f.eb)) : f.special a = f.special b := by
  unfold Fmt.special
  rw [field_exponent a f.p f.eb, field_exponent b f.p f.eb, field_mantissa a f.p f.eb, field_mantissa b f.p f.eb, h]

/-- A code with its sign bit: the sign, the magnitude and what is special are those of its parts. -/
theorem Fmt.decode_signed {f : Fmt} {c : Nat} (hf : f.isInt = false) (hw : f.width = f.eb + f.p + 1) (hc : c < 2 ^ (f.p + f.eb))
    (hs : f.special c = false) (neg : Bool) : f.decode ((if neg then 2 ^ (f.width - 1) else 0) + c) =
      .num (if neg then -(floatMag f.p c : Int) else floatMag f.p c) := by
  have hwidth : f.width - 1 = f.p + f.eb := by omega
  have hmod : ((if neg then 2 ^ (f.p + f.eb) else 0) + c) % 2 ^ (f.p + f.eb) = c := by
    cases neg <;> simp [Nat.mod_eq_of_lt hc]
  have hsign : tbit ((if neg then 2 ^ (f.p + f.eb) else 0) + c) (f.p + f.eb) = neg := by
    cases neg <;> simp [tbit, Nat.div_eq_of_lt hc, Nat.add_div_left _ (Nat.two_pow_pos (f.p + f.eb))]
  have hspecial : f.special ((if neg then 2 ^ (f.p + f.eb) else 0) + c) = f.special c :=
    Fmt.special_congr (by rw [hmod, Nat.mod_eq_of_lt hc])
  rw [Fmt.decode_float hf, hwidth, hspecial, hs, hmod, hsign]
  rfl

/-- The largest magnitude of each sign, in units of q (R61, R74). -/
def Fmt.bound (f : Fmt) (neg : Bool) : Nat := if neg then f.minN.natAbs else f.maxN

theorem Fmt.bound_float {f : Fmt} (hf : f.isInt = false) (neg : Bool) : f.bound neg = f.maxN := by
  cases neg <;> simp [Fmt.bound, Fmt.minN, hf]

theorem Fmt.bound_int {f : Fmt} (hf : f.isInt = true) (neg : Bool) :
    f.bound neg = if neg then 2 ^ (f.width - 1) else 2 ^ (f.width - 1) - 1 := by
  have hpos : 0 < 2 ^ (f.width - 1) := by positivity
  have hmax : f.maxN = 2 ^ (f.width - 1) - 1 := by rw [Fmt.maxN, if_pos hf]
  cases neg
  · exact hmax
  · simp only [Fmt.bound, Fmt.minN, hf, if_true, hmax]
    omega

section
variable {k : Nat} {f : Fmt} (hk : fmtOf k = some f)
include hk

/-- A number of steps within the range has a code that decodes to it. -/
theorem Fmt.decode_code {neg : Bool} {n : Nat} {se : Int} (hn : f.isInt = false → n ≤ 2 ^ (f.p + 1))
    (hd : se = f.qe ∨ f.isInt = false ∧ 2 ^ f.p ≤ n) (hb : n * 2 ^ (se - f.qe).toNat ≤ f.bound neg) :
    f.decode (f.code neg n se) =
      .num (if neg then -((n * 2 ^ (se - f.qe).toNat : Nat) : Int) else (n * 2 ^ (se - f.qe).toNat : Nat)) := by
  cases hf : f.isInt with
  | true =>
    obtain rfl : se = f.qe := hd.resolve_right (by simp [hf])
    have hw := fmtOf_int hk hf
    rw [Fmt.bound_int hf] at hb
    simp only [sub_self, Int.toNat_zero, pow_zero, mul_one] at hb ⊢
    have hrange : -((2 ^ (f.width - 1) : Nat) : Int) ≤ (if neg then -(n : Int) else n) ∧
        (if neg then -(n : Int) else n) < (2 ^ (f.width - 1) : Nat) := by
      have hpos : 0 < 2 ^ (f.width - 1) := by positivity
      generalize 2 ^ (f.width - 1) = w at hb hpos ⊢
      cases neg <;> simp only [Bool.false_eq_true, if_true, if_false] at hb ⊢ <;> omega
    rw [Fmt.decode_int hf, Fmt.code, if_pos hf, sgn_unsgn (by omega) hrange.1 hrange.2]
  | false =>
    obtain ⟨-, heb, hw⟩ := fmtOf_float hk hf
    rw [Fmt.bound_float hf] at hb
    by_cases hzero : n = 0
    · have h0 : f.code neg n se = (if false then 2 ^ (f.width - 1) else 0) + 0 := by simp [Fmt.code, hf, hzero]
      have hmag : floatMag f.p 0 = 0 := by simp [floatMag]
      obtain ⟨hc, hs⟩ := Fmt.code_of_floatMag_le hf heb (hmag.trans_le (Nat.zero_le _))
      rw [h0, Fmt.decode_signed hf hw hc hs, hmag, hzero]
      cases neg <;> simp
    · have hmag : floatMag f.p ((se - f.qe).toNat * 2 ^ f.p + n) = n * 2 ^ (se - f.qe).toNat :=
        floatMag_code (hn hf) (hd.imp (by rintro rfl; simp) And.right)
      obtain ⟨hc, hs⟩ := Fmt.code_of_floatMag_le hf heb (hmag.trans_le hb)
      rw [Fmt.code, if_neg (by simp [hf]), if_neg hzero, Fmt.decode_signed hf hw hc hs, hmag]

/-- The lowest bit of a code is that of its number of steps. -/
theorem Fmt.code_even {neg : Bool} {n : Nat} (se : Int) (hn : n % 2 = 0) : f.code neg n se % 2 = 0 := by
  cases hf : f.isInt with
  | true =>
    have hw := fmtOf_int hk hf
    rw [Fmt.code, if_pos hf, unsgn]
    obtain ⟨i, hi⟩ := Nat.exists_eq_add_of_le (show 1 ≤ f.width by omega)
    have h2 : ((2 ^ f.width : Nat) : Int) = 2 * (2 ^ i : Nat) := by rw [hi]; push_cast; ring
    have := Int.emod_emod_of_dvd (if neg then -(n : Int) else n) (show (2 : Int) ∣ (2 ^ f.width : Nat) from ⟨_, h2⟩)
    have hnn := Int.emod_nonneg (if neg then -(n : Int) else n) (show ((2 ^ f.width : Nat) : Int) ≠ 0 by positivity)
    cases neg <;> simp at this hnn ⊢ <;> omega
  | false =>
    obtain ⟨hp, heb, hw⟩ := fmtOf_float hk hf
    have he : ∀ j, 1 ≤ j → 2 ^ j % 2 = 0 := fun j hj => by
      obtain ⟨i, rfl⟩ := Nat.exists_eq_add_of_le' hj
      rw [pow_succ, Nat.mul_mod_left]
    have hs := he (f.width - 1) (by omega)
    have hm : (se - f.qe).toNat * 2 ^ f.p % 2 = 0 := by rw [Nat.mul_mod, he _ hp]; simp
    rw [Fmt.code, if_neg (by simp [hf])]
    split
    · rfl
    · split <;> omega

end

end Sys2Proof.Machine
end

section
/-!
PROOFS. The neighbours of a value among the representable ones, rounding to the nearer of them with ties to even, conversion
(R74, R76).
-/
namespace Sys2Proof.Machine
open Sys2Proof.Safety

/-! ### Neighbours and rounding (R74, R76) -/

/-- How far a magnitude lies above the step below it, in steps. -/
def Near.frac (x : Near) : ℚ := x.rest / 2 ^ (x.se - x.re).toNat

/-- Rounding to nearest moves by less than a step, and to an even number of steps from the middle. -/
theorem Near.rne_cases (x : Near) : (x.rne = x.n ∧ x.frac ≤ 1 / 2 ∧ (x.frac = 1 / 2 → x.rne % 2 = 0)) ∨
    (x.rne = x.n + 1 ∧ 1 / 2 ≤ x.frac ∧ (x.frac = 1 / 2 → x.rne % 2 = 0)) := by
  have hfull : (0 : ℚ) < ((2 ^ (x.se - x.re).toNat : Nat) : ℚ) := by positivity
  have hle : x.frac ≤ 1 / 2 ↔ 2 * x.rest ≤ 2 ^ (x.se - x.re).toNat := by
    rw [Near.frac, ← @Nat.cast_le ℚ, div_le_div_iff₀ (by positivity) (by norm_num)]
    push_cast
    constructor <;> intro <;> linarith
  have hge : 1 / 2 ≤ x.frac ↔ 2 ^ (x.se - x.re).toNat ≤ 2 * x.rest := by
    rw [Near.frac, ← @Nat.cast_le ℚ, div_le_div_iff₀ (by norm_num) (by positivity)]
    push_cast
    constructor <;> intro <;> linarith
  have heq : x.frac = 1 / 2 ↔ 2 * x.rest = 2 ^ (x.se - x.re).toNat := by
    rw [le_antisymm_iff, hle, hge, ← le_antisymm_iff]
  rw [hle, hge, heq]
  unfold Near.rne
  simp only
  split
  · right; omega
  · split
    · right; omega
    · left; omega

/-- The step chosen is as near as any value that does not lie between the two neighbours; a tie with another means an even step. -/
theorem Near.rne_nearest {x : Near} (h0 : 0 ≤ x.frac) (h1 : x.frac < 1) {y : ℚ} (hy : y ≤ x.n ∨ x.n + 1 ≤ y) :
    |x.rne - (x.n + x.frac)| ≤ |y - (x.n + x.frac)| ∧
      (|y - (x.n + x.frac)| ≤ |x.rne - (x.n + x.frac)| → y ≠ x.rne → x.rne % 2 = 0) := by
  have hdist : x.frac ≤ |y - (x.n + x.frac)| ∧ y ≤ x.n ∨ 1 - x.frac ≤ |y - (x.n + x.frac)| ∧ x.n + 1 ≤ y := by
    obtain hy | hy := hy
    · exact .inl ⟨by rw [abs_of_nonpos (by linarith)]; linarith, hy⟩
    · exact .inr ⟨by rw [abs_of_nonneg (by linarith)]; linarith, hy⟩
  obtain ⟨hr, hhalf, htie⟩ | ⟨hr, hhalf, htie⟩ := x.rne_cases
  · have hown : |(x.rne : ℚ) - (x.n + x.frac)| = x.frac := by rw [hr, abs_of_nonpos (by linarith)]; ring
    rw [hown]
    obtain ⟨hd, hle⟩ | ⟨hd, hle⟩ := hdist
    · refine ⟨hd, fun hback hne => ?_⟩
      rw [abs_of_nonpos (by linarith)] at hback
      exact absurd (by rw [hr]; linarith) hne
    · exact ⟨by linarith, fun hback _ => htie (by linarith)⟩
  · have hown : |(x.rne : ℚ) - (x.n + x.frac)| = 1 - x.frac := by
      rw [hr, Nat.cast_add, Nat.cast_one, abs_of_nonneg (by linarith)]; ring
    rw [hown]
    obtain ⟨hd, hle⟩ | ⟨hd, hle⟩ := hdist
    · exact ⟨by linarith, fun hback _ => htie (by linarith)⟩
    · refine ⟨hd, fun hback hne => ?_⟩
      rw [abs_of_nonneg (by linarith)] at hback
      exact absurd (by rw [hr, Nat.cast_add, Nat.cast_one]; linarith) hne

/-- The exponent of the step around a magnitude. -/
def Fmt.stepExp (f : Fmt) (m : Nat) (e : Int) : Int := if f.isInt then 0 else max ((Nat.log2 m : Int) + e - f.p) f.qe

theorem Fmt.near_fine {f : Fmt} {m : Nat} {e : Int} (h : f.stepExp m e ≤ e) :
    f.near m e = ⟨m * 2 ^ (e - f.stepExp m e).toNat, f.stepExp m e, 0, e⟩ := if_pos h

theorem Fmt.near_coarse {f : Fmt} {m : Nat} {e : Int} (h : ¬f.stepExp m e ≤ e) :
    f.near m e = ⟨m / 2 ^ (f.stepExp m e - e).toNat, f.stepExp m e, m % 2 ^ (f.stepExp m e - e).toNat, e⟩ := if_neg h

@[simp] theorem Fmt.near_se (f : Fmt) (m : Nat) (e : Int) : (f.near m e).se = f.stepExp m e := by
  by_cases h : f.stepExp m e ≤ e
  · rw [Fmt.near_fine h]
  · rw [Fmt.near_coarse h]

theorem Fmt.near_frac (f : Fmt) (m : Nat) (e : Int) : 0 ≤ (f.near m e).frac ∧ (f.near m e).frac < 1 := by
  refine ⟨by unfold Near.frac; positivity, ?_⟩
  unfold Near.frac
  rw [div_lt_one (by positivity)]
  by_cases h : f.stepExp m e ≤ e
  · rw [Fmt.near_fine h]
    simp only [Nat.cast_zero]
    positivity
  · rw [Fmt.near_coarse h]
    exact_mod_cast Nat.mod_lt m (Nat.two_pow_pos _)

/-- A magnitude is its steps and the rest above them. -/
theorem Fmt.near_val (f : Fmt) (m : Nat) (e : Int) :
    ((f.near m e).n + (f.near m e).frac) * 2 ^ f.stepExp m e = (m : ℚ) * 2 ^ e := by
  by_cases h : f.stepExp m e ≤ e
  · rw [Fmt.near_fine h, ← mul_two_pow_toNat_zpow _ h, Near.frac]
    push_cast
    ring
  · have hle : e ≤ f.stepExp m e := by omega
    rw [Fmt.near_coarse h, ← mul_two_pow_toNat_zpow _ hle, Near.frac]
    have hdiv : ((m / 2 ^ (f.stepExp m e - e).toNat : Nat) : ℚ) * 2 ^ (f.stepExp m e - e).toNat +
        (m % 2 ^ (f.stepExp m e - e).toNat : Nat) = m := by
      exact_mod_cast Nat.div_add_mod' m _
    rw [add_mul, div_mul_cancel₀ _ (by positivity), hdiv]

theorem Fmt.qe_le_stepExp (f : Fmt) (m : Nat) (e : Int) : f.qe ≤ f.stepExp m e := by
  unfold Fmt.stepExp
  split
  · next h => rw [Fmt.qe, if_pos h]
  · exact le_max_right _ _

/-- A magnitude lies between the powers of two of its logarithm. -/
theorem log2_bounds {m : Nat} (hm : m ≠ 0) (e : Int) :
    (2 : ℚ) ^ (Nat.log2 m + e) ≤ m * 2 ^ e ∧ (m : ℚ) * 2 ^ e < 2 ^ (Nat.log2 m + e + 1) := by
  have hpos : (0 : ℚ) < 2 ^ e := by positivity
  rw [zpow_add_one₀ (by norm_num), zpow_add₀ (by norm_num), zpow_natCast, mul_right_comm]
  refine ⟨mul_le_mul_of_nonneg_right ?_ hpos.le, mul_lt_mul_of_pos_right ?_ hpos⟩
  · exact_mod_cast Nat.log2_self_le hm
  · exact_mod_cast (pow_succ 2 (Nat.log2 m)) ▸ Nat.lt_log2_self

section
variable {f : Fmt} {m : Nat} (hm : m ≠ 0) (e : Int) (hf : f.isInt = false)
include hm hf

/-- The steps of a float below a magnitude fit its mantissa. -/
theorem Fmt.near_n_lt : (f.near m e).n < 2 ^ (f.p + 1) := by
  have hval := f.near_val m e
  have hfrac := (f.near_frac m e).1
  have hse : Nat.log2 m + e + 1 ≤ (f.p + 1 : Nat) + f.stepExp m e := by
    rw [Fmt.stepExp, hf]
    simp only [Bool.false_eq_true, if_false]
    omega
  have hpos : (0 : ℚ) < 2 ^ f.stepExp m e := by positivity
  have hlt : ((f.near m e).n : ℚ) * 2 ^ f.stepExp m e < 2 ^ (f.p + 1) * 2 ^ f.stepExp m e := by
    calc ((f.near m e).n : ℚ) * 2 ^ f.stepExp m e ≤ m * 2 ^ e :=
          hval ▸ mul_le_mul_of_nonneg_right (by linarith) hpos.le
      _ < 2 ^ (Nat.log2 m + e + 1) := (log2_bounds hm e).2
      _ ≤ 2 ^ ((f.p + 1 : Nat) + f.stepExp m e) := zpow_le_zpow_right₀ (by norm_num) hse
      _ = 2 ^ (f.p + 1) * 2 ^ f.stepExp m e := by rw [zpow_add₀ (by norm_num), zpow_natCast]
  exact_mod_cast lt_of_mul_lt_mul_right hlt hpos.le

/-- Above the smallest step the mantissa of the step below a magnitude is full (R62). -/
theorem Fmt.near_normal (hse : f.stepExp m e ≠ f.qe) : 2 ^ f.p ≤ (f.near m e).n := by
  have hval := f.near_val m e
  have hfrac := (f.near_frac m e).2
  have hexp : Nat.log2 m + e = (f.p : Int) + f.stepExp m e := by
    rw [Fmt.stepExp, hf] at hse ⊢
    simp only [Bool.false_eq_true, if_false] at hse ⊢
    omega
  have hpos : (0 : ℚ) < 2 ^ f.stepExp m e := by positivity
  have hle : (2 : ℚ) ^ f.p * 2 ^ f.stepExp m e ≤ ((f.near m e).n + (f.near m e).frac) * 2 ^ f.stepExp m e := by
    rw [hval, ← zpow_natCast, ← zpow_add₀ (by norm_num), ← hexp]
    exact (log2_bounds hm e).1
  have hlt : (2 : ℚ) ^ f.p < (f.near m e).n + 1 := by linarith [le_of_mul_le_mul_right hle hpos]
  exact Nat.lt_add_one_iff.1 (by exact_mod_cast hlt)

end

/-- The steps below a magnitude lie on the grid of the format: they are units, or full mantissas. -/
theorem Fmt.near_on_grid (f : Fmt) {m : Nat} (hm : m ≠ 0) (e : Int) :
    f.stepExp m e = f.qe ∨ f.isInt = false ∧ 2 ^ f.p ≤ (f.near m e).n := by
  by_cases hse : f.stepExp m e = f.qe
  · exact .inl hse
  cases hf : f.isInt with
  | true => exact .inl (by rw [Fmt.stepExp, Fmt.qe, if_pos hf, if_pos hf])
  | false => exact .inr ⟨rfl, Fmt.near_normal hm e hf hse⟩

/-- The limits of a format are on its grid. -/
theorem Fmt.bound_on_grid (f : Fmt) (neg : Bool) {d n : Nat} (hd : d = 0 ∨ f.isInt = false ∧ 2 ^ f.p ≤ n) :
    f.bound neg ≤ n * 2 ^ d ∨ (n + 1) * 2 ^ d ≤ f.bound neg := by
  by_cases hd0 : d = 0
  · subst hd0
    omega
  obtain ⟨hf, hn⟩ := hd.resolve_left hd0
  have hpow : 0 < 2 ^ (f.p + 1) := by positivity
  rw [Fmt.bound_float hf, Fmt.maxN, hf]
  simp only [Bool.false_eq_true, if_false]
  split
  · exact float_on_grid (by omega) (.inr hn)
  · split <;> exact float_on_grid (by omega) (.inr hn)

/-- Rounding to nearest stays within the range that the magnitude lies in. -/
theorem Fmt.rne_le_bound (f : Fmt) {m : Nat} (hm : m ≠ 0) (e : Int) (neg : Bool)
    (h : (m : ℚ) * 2 ^ e ≤ f.bound neg * 2 ^ f.qe) :
    (f.near m e).rne * 2 ^ (f.stepExp m e - f.qe).toNat ≤ f.bound neg := by
  obtain ⟨h0, -⟩ := f.near_frac m e
  have hpos : (0 : ℚ) < 2 ^ f.qe := by positivity
  have hstep : (0 : ℚ) < 2 ^ (f.stepExp m e - f.qe).toNat := by positivity
  rw [← f.near_val m e, ← mul_two_pow_toNat_zpow _ (f.qe_le_stepExp m e)] at h
  have hval := le_of_mul_le_mul_right h hpos
  obtain ⟨hr, -⟩ | ⟨hr, hhalf, -⟩ := (f.near m e).rne_cases
  · rw [hr, ← @Nat.cast_le ℚ]
    push_cast
    exact (mul_le_mul_of_nonneg_right (by linarith) hstep.le).trans hval
  · rw [hr]
    refine (f.bound_on_grid neg ((f.near_on_grid hm e).imp_left fun hse => ?_)).resolve_left fun hle => ?_
    · simp [hse]
    · have hle' : (f.bound neg : ℚ) ≤ (f.near m e).n * 2 ^ (f.stepExp m e - f.qe).toNat := by exact_mod_cast hle
      have := le_of_mul_le_mul_right (hval.trans hle') hstep
      linarith

/-! ### Conversion to nearest (R74, R76) -/

/-- A value with its magnitude and its sign. -/
theorem Dy.val_eq_signed (v : Dy) : v.val = if v.m < 0 then -((v.m.natAbs : ℚ) * 2 ^ v.e) else v.m.natAbs * 2 ^ v.e := by
  rw [Dy.val, Nat.cast_natAbs]
  split
  · next h => rw [abs_of_neg h]; push_cast; ring
  · next h => rw [abs_of_nonneg (by omega)]

/-- In range, conversion writes the code of the rounded steps, and nothing saturates. -/
theorem Fmt.convert_in_range {f : Fmt} {v : Dy} (h0 : v.m ≠ 0) (hlo : Dy.le ⟨f.minN, f.qe⟩ v = true)
    (hhi : Dy.le v ⟨f.maxN, f.qe⟩ = true) :
    f.convert .nearest v =
      (f.code (decide (v.m < 0)) (f.near v.m.natAbs v.e).rne (f.stepExp v.m.natAbs v.e), false) := by
  unfold Fmt.convert Dy.lt
  simp [h0, hlo, hhi]

/-- A magnitude in range is at most the limit of its sign. -/
theorem Fmt.magnitude_le_bound {f : Fmt} {v : Dy} (hlo : Dy.le ⟨f.minN, f.qe⟩ v = true)
    (hhi : Dy.le v ⟨f.maxN, f.qe⟩ = true) :
    (v.m.natAbs : ℚ) * 2 ^ v.e ≤ f.bound (decide (v.m < 0)) * 2 ^ f.qe := by
  have hmin : f.minN ≤ 0 := by unfold Fmt.minN; split <;> omega
  rw [Dy.le_iff, Dy.val_eq_signed v, Dy.val] at hlo hhi
  by_cases hneg : v.m < 0
  · simp only [hneg, decide_true, if_true, Fmt.bound] at hlo ⊢
    rw [Nat.cast_natAbs f.minN, abs_of_nonpos hmin]
    push_cast
    linarith
  · simp only [hneg, decide_false, if_false, Fmt.bound, Bool.false_eq_true] at hhi ⊢
    exact_mod_cast hhi

/-- The distance from a value in steps of the value's own exponent, the signs taken off both. -/
theorem gap_steps (f : Fmt) (v : Dy) (z : Int) : (gap f (if v.m < 0 then -z else z) v).val =
    |z / 2 ^ (f.stepExp v.m.natAbs v.e - f.qe).toNat - ((f.near v.m.natAbs v.e).n + (f.near v.m.natAbs v.e).frac)| *
      2 ^ f.stepExp v.m.natAbs v.e := by
  have hz : (z : ℚ) / 2 ^ (f.stepExp v.m.natAbs v.e - f.qe).toNat * 2 ^ f.stepExp v.m.natAbs v.e = z * 2 ^ f.qe := by
    rw [← one_mul (2 ^ f.stepExp v.m.natAbs v.e : ℚ), ← mul_two_pow_toNat_zpow 1 (f.qe_le_stepExp v.m.natAbs v.e), one_mul,
      ← mul_assoc, div_mul_cancel₀ _ (by positivity)]
  have habs : ∀ y : ℚ, |y| * 2 ^ f.stepExp v.m.natAbs v.e = |y * 2 ^ f.stepExp v.m.natAbs v.e| := fun y => by
    rw [abs_mul, abs_of_pos (show (0 : ℚ) < 2 ^ f.stepExp v.m.natAbs v.e by positivity)]
  rw [gap_val, Dy.val_eq_signed, ← f.near_val v.m.natAbs v.e, habs, sub_mul, hz]
  split
  · rw [← abs_neg]
    push_cast
    ring_nf
  · rfl

/-- The distance of a format's value from zero. -/
theorem gap_zero_of_zero {f : Fmt} {v : Dy} (h : v.m = 0) (n : Int) : (gap f n v).val = |(n : ℚ)| * 2 ^ f.qe := by
  rw [gap_val, Dy.val, h, Int.cast_zero, zero_mul, sub_zero, abs_mul, abs_of_pos (show (0 : ℚ) < 2 ^ f.qe by positivity)]

theorem Fmt.decode_zero {k : Nat} {f : Fmt} (hk : fmtOf k = some f) : f.decode 0 = .num 0 := by
  have hcode : f.code false 0 f.qe = 0 := by cases hf : f.isInt <;> simp [Fmt.code, hf, unsgn]
  have h := Fmt.decode_code hk (neg := false) (n := 0) (fun _ => Nat.zero_le _) (.inl rfl) (by simp)
  rw [hcode] at h
  simpa using h

/-- The value, in units of q, to which conversion to nearest takes a value in range. -/
def Fmt.rounded (f : Fmt) (v : Dy) : Int :=
  let steps : Nat := (f.near v.m.natAbs v.e).rne * 2 ^ (f.stepExp v.m.natAbs v.e - f.qe).toNat
  if v.m < 0 then -(steps : Int) else steps

/-- A code is a nearest one to a value, and even where another is as near. -/
def Fmt.IsNearest (f : Fmt) (v : Dy) (code : Nat) (n : Int) : Prop :=
  ∀ c m, c < 2 ^ f.width → f.decode c = .num m →
    Dy.le (gap f n v) (gap f m v) = true ∧ (Dy.le (gap f m v) (gap f n v) = true → m ≠ n → code % 2 = 0)

/-- Zero converts to the code 0, which is exact and even. -/
theorem Fmt.zero_isNearest {f : Fmt} {v : Dy} (h : v.m = 0) : f.IsNearest v 0 0 := by
  intro c m _ _
  refine ⟨?_, fun _ _ => rfl⟩
  rw [Dy.le_iff, gap_zero_of_zero h, gap_zero_of_zero h, Int.cast_zero, abs_zero, zero_mul]
  positivity

section
variable {k : Nat} {f : Fmt} {v : Dy} (hk : fmtOf k = some f) (h0 : v.m ≠ 0)
include hk h0

/-- The rounded steps are nearest among all that the format represents. -/
theorem Fmt.rne_isNearest : f.IsNearest v
    (f.code (decide (v.m < 0)) (f.near v.m.natAbs v.e).rne (f.stepExp v.m.natAbs v.e)) (f.rounded v) := by
  intro c m _ hm
  obtain ⟨z, hz, hmz⟩ : ∃ z : Int, (z = m ∨ z = -m) ∧ m = if v.m < 0 then -z else z :=
    ⟨if v.m < 0 then -m else m, by split <;> simp, by split <;> simp⟩
  have hstep : (0 : ℚ) < 2 ^ (f.stepExp v.m.natAbs v.e - f.qe).toNat := by positivity
  have hgrid := Fmt.decode_on_grid hm hz ((f.near_on_grid (Int.natAbs_ne_zero.2 h0) v.e).imp_left fun hse => by
    rw [hse, sub_self, Int.toNat_zero] : (f.stepExp v.m.natAbs v.e - f.qe).toNat = 0 ∨ _)
  have hy : (z : ℚ) / 2 ^ (f.stepExp v.m.natAbs v.e - f.qe).toNat ≤ (f.near v.m.natAbs v.e).n ∨
      (f.near v.m.natAbs v.e).n + 1 ≤ (z : ℚ) / 2 ^ (f.stepExp v.m.natAbs v.e - f.qe).toNat := by
    rw [div_le_iff₀ hstep, le_div_iff₀ hstep]
    exact_mod_cast hgrid
  obtain ⟨hfrac0, hfrac1⟩ := f.near_frac v.m.natAbs v.e
  obtain ⟨hle, htie⟩ := Near.rne_nearest hfrac0 hfrac1 hy
  have hpos : (0 : ℚ) < 2 ^ f.stepExp v.m.natAbs v.e := by positivity
  have hown : ((((f.near v.m.natAbs v.e).rne * 2 ^ (f.stepExp v.m.natAbs v.e - f.qe).toNat : Nat) : Int) : ℚ) /
      2 ^ (f.stepExp v.m.natAbs v.e - f.qe).toNat = (f.near v.m.natAbs v.e).rne := by
    push_cast
    exact mul_div_cancel_right₀ _ hstep.ne'
  rw [Fmt.rounded, Dy.le_iff, Dy.le_iff, hmz, gap_steps, gap_steps, hown, mul_le_mul_iff_left₀ hpos, mul_le_mul_iff_left₀ hpos]
  refine ⟨hle, fun hback hne => Fmt.code_even hk _ (htie hback fun heq => hne ?_)⟩
  rw [div_eq_iff hstep.ne'] at heq
  have hzn : z = ((f.near v.m.natAbs v.e).rne * 2 ^ (f.stepExp v.m.natAbs v.e - f.qe).toNat : Nat) := by exact_mod_cast heq
  rw [hzn]

/-- The code that conversion writes decodes to the rounded steps. -/
theorem Fmt.decode_rne (hlo : Dy.le ⟨f.minN, f.qe⟩ v = true) (hhi : Dy.le v ⟨f.maxN, f.qe⟩ = true) :
    f.decode (f.code (decide (v.m < 0)) (f.near v.m.natAbs v.e).rne (f.stepExp v.m.natAbs v.e)) =
      .num (f.rounded v) := by
  have hm := Int.natAbs_ne_zero.2 h0
  have hrne : (f.near v.m.natAbs v.e).n ≤ (f.near v.m.natAbs v.e).rne ∧
      (f.near v.m.natAbs v.e).rne ≤ (f.near v.m.natAbs v.e).n + 1 := by
    obtain ⟨hr, -⟩ | ⟨hr, -⟩ := (f.near v.m.natAbs v.e).rne_cases <;> omega
  have hn := fun hf => (Nat.lt_of_lt_of_le (Nat.lt_succ_of_le hrne.2) (Nat.succ_le_succ (Fmt.near_n_lt hm v.e hf)))
  rw [Fmt.decode_code hk (fun hf => Nat.le_of_lt_succ (hn hf))
    ((f.near_on_grid hm v.e).imp_right fun h => ⟨h.1, h.2.trans hrne.1⟩)
    (f.rne_le_bound hm v.e _ (Fmt.magnitude_le_bound hlo hhi))]
  simp only [decide_eq_true_eq, Fmt.rounded]

end

/-- With ROUND = 0 the seed has no part in read-out: every element converts to nearest (R76). -/
theorem readOutRow_nearest {ar : Arith} (seed base gsz : Nat) (accs : List Acc) (h : ar.stoch = false) :
    (readOutRow ar seed base gsz accs).1 = accs.zipIdx.map fun p =>
      readOut (fmtD ar.outFmt) (if ar.outExp = 0xFF then (readOutRow ar seed base gsz accs).2.getD (p.2 / gsz) 127 else ar.outExp)
        .nearest ar.accLsb p.1 := by
  unfold readOutRow
  simp only [h, Bool.false_eq_true, if_false]
  split <;> rfl

end Sys2Proof.Machine
end

section
open Sys2Proof Sys2Proof.Machine Sys2Proof.Safety

/-- Settles O33: a value in range lies between two neighbours on the format's grid, nothing that the format represents lies between
them, and rounding takes the nearer, or the even one. -/
theorem conversionRoundsToNearestEven : Obligations.ConversionRoundsToNearestEven := by
  unfold Obligations.ConversionRoundsToNearestEven
  refine ⟨fun w seed base gsz accs hround => readOutRow_nearest seed base gsz accs hround, fun k f v hk hlo hhi => ?_⟩
  by_cases h0 : v.m = 0
  · have hconv : f.convert .nearest v = (0, false) := if_pos h0
    rw [hconv]
    exact ⟨0, Fmt.decode_zero hk, rfl, Fmt.zero_isNearest h0⟩
  · rw [Fmt.convert_in_range h0 hlo hhi]
    exact ⟨_, Fmt.decode_rne hk h0 hlo hhi, rfl, Fmt.rne_isNearest hk h0⟩

end

section
/-!
PROOFS. One step of a target: what stands when its effect takes place, and what its effect leaves (R97, R98, R102, R133).
-/
namespace Sys2Proof.Machine
open Sys2Proof.Safety

/-! ### What a step's command commits -/

theorem commitStep_self (s : State) : commitStep s s = s := rfl

theorem commitStep_trans {z s u : State} (h : commitStep z s = s) (h' : commitStep s u = u) : commitStep z u = u := by
  have hz : commitStep (commitStep z s) u = commitStep z u := rfl
  rw [← hz, h, h']

theorem foldl_commitStep {α : Type} {f : State → α → State} (h : ∀ s x, commitStep s (f s x) = f s x) (l : List α)
    (s : State) : commitStep s (l.foldl f s) = l.foldl f s := by
  induction l generalizing s with
  | nil => rfl
  | cons x l ih => exact commitStep_trans (h s x) (ih _)

/-- The blocks of registers that the start of a step may reach, all of which its command commits: GLOBAL, PCI, QUEUE, CORE. -/
def startSlots : List Nat := [0, 6, 7, 15]

theorem commitStep_setBlk {n : Nat} (h : n ∈ startSlots) (s : State) (b : RegBlock) :
    commitStep s { s with regs := s.regs.setBlk n b } = { s with regs := s.regs.setBlk n b } := by
  simp only [startSlots, List.mem_cons, List.not_mem_nil, or_false] at h
  obtain rfl | rfl | rfl | rfl := h <;> rfl

theorem commitStep_setReg {k : Nat} (h : slotOf k ∈ startSlots) (s : State) (v : Nat) :
    commitStep s (s.setReg k v) = s.setReg k v :=
  commitStep_setBlk h s _

/-- The keys of a port beyond the fifteenth would be those of queues (R246). -/
theorem slotOf_portKey_beyond {p : Nat} (hp : 15 ≤ p) (off : Nat) : slotOf (portKey p off) = 7 := by
  unfold slotOf keyOff portKey
  rw [if_pos (by omega)]
  omega

theorem slotOf_portKey_mem {off : Nat} (p : Nat) (h : off / 0x100000 = 0 ∨ off / 0x100000 = 6) :
    slotOf (portKey p off) ∈ startSlots := by
  rcases Nat.lt_or_ge p 15 with hp | hp
  · rw [slotOf_portKey hp (by omega)]
    obtain h | h := h <;> simp [h, startSlots]
  · simp [slotOf_portKey_beyond hp, startSlots]

theorem commitStep_sendVector (s : State) (p : Nat) {v : Nat} (hv : v < 2048) :
    commitStep s (s.sendVector p v) = s.sendVector p v := by
  obtain ⟨o, hlo, hhi, ho⟩ := pbaKey_eq p hv
  unfold State.sendVector
  dsimp only
  split
  · rfl
  · split
    · exact commitStep_setReg (ho ▸ slotOf_portKey_mem p (by omega)) s _
    · rfl

theorem commitStep_raise {k : Nat} (h : slotOf k ∈ startSlots) (s : State) (bits : Nat) :
    commitStep s (s.raise k bits) = s.raise k bits := by
  have hset := commitStep_setReg h s (s.rv k ||| bits)
  unfold State.raise
  dsimp only
  split
  · exact commitStep_trans hset (foldl_commitStep (fun s p => commitStep_sendVector s p (field_lt _ 0 11)) _ _)
  · exact hset

theorem commitStep_latchDone (t s : State) : commitStep t (t.latchDone s) = t.latchDone s := by
  refine foldl_commitStep (fun t p => ?_) _ t
  split
  · exact commitStep_raise (slotOf_portKey_mem p (.inl rfl)) t 1
  · rfl

/-- The captures of a core that apply touch its registers, and those of the ports that wait for them (R126, R369). -/
theorem commitStep_applyCore (s : State) (n : Nat) : commitStep s (s.applyCore n) = s.applyCore n := by
  unfold State.applyCore State.applyReady
  dsimp only
  split
  · rfl
  · exact commitStep_trans (commitStep_setBlk (n := 15) (by decide) s _) (commitStep_latchDone _ s)

theorem State.latchDone_comp (t s : State) : (t.latchDone s).comp = t.comp := by
  refine foldl_keeps State.comp _ (fun t p => ?_) _ t
  split
  · exact State.raise_comp _ _ _
  · rfl

theorem State.applyCore_comp (s : State) (n : Nat) : (s.applyCore n).comp = s.comp := by
  unfold State.applyCore State.applyReady
  dsimp only
  split
  · rfl
  · exact State.latchDone_comp _ s

/-! ### Targets, hosts and scratchpads -/

theorem lmod_getElem? {α : Type} (l : List α) (i j : Nat) (f : α → α) :
    (lmod l i f)[j]? = if j = i then l[j]?.map f else l[j]? := by
  unfold lmod
  cases h : l[i]? with
  | none => split <;> simp_all
  | some x =>
    by_cases hj : j = i
    · subst hj
      obtain ⟨hlt, rfl⟩ := List.getElem?_eq_some_iff.1 h
      simp [hlt]
    · simp [hj, Ne.symm hj]

/-- A change of each of some places of a list. -/
theorem foldl_lmod_getElem? {α : Type} (f : α → α) {l : List Nat} (h : l.Nodup) (xs : List α) (j : Nat) :
    (l.foldl (fun xs i => lmod xs i f) xs)[j]? = if j ∈ l then xs[j]?.map f else xs[j]? := by
  induction l generalizing xs with
  | nil => simp
  | cons i l ih =>
    obtain ⟨hi, hl⟩ := List.nodup_cons.1 h
    rw [List.foldl_cons, ih hl, lmod_getElem?]
    by_cases hj : j = i
    · subst hj
      simp [hi]
    · simp [hj]

@[simp] theorem State.hostOf_modJob (s : State) (q p t : Nat) (f : Job → Job) : (s.modJob q f).hostOf p t = s.hostOf p t := by
  unfold State.hostOf State.modJob
  rw [lmod_getElem?]
  split
  · cases s.comp.parts[p]? <;> rfl
  · rfl

@[simp] theorem State.hostOf_modTgt (s : State) (q i p t : Nat) (f : TargetSt → TargetSt) :
    (s.modTgt q i f).hostOf p t = s.hostOf p t := s.hostOf_modJob q p t _

@[simp] theorem State.padOf_modTgt (s : State) (q i p t : Nat) (f : TargetSt → TargetSt) :
    (s.modTgt q i f).padOf p t = s.padOf p t := by
  unfold State.padOf
  rw [State.hostOf_modTgt]
  rfl

theorem State.tgt_modJob (s : State) (p t : Nat) {f : Job → Job} (h : ∀ j, (f j).targets = j.targets) :
    (s.modJob p f).tgt p t = s.tgt p t := by
  unfold State.tgt State.modJob
  rw [lmod_getElem?, if_pos rfl]
  cases s.comp.parts[p]? with
  | none => rfl
  | some q => cases hj : q.job <;> simp [hj, h]

/-- A target changed is the target with the change. -/
theorem State.tgt_modTgt (s : State) (p t : Nat) {f : TargetSt → TargetSt} (h : ∀ x, (f x).id = x.id) :
    (s.modTgt p t f).tgt p t = (s.tgt p t).map f := by
  have hid : ∀ x : TargetSt, (if x.id = t then f x else x).id = x.id := fun x => by split <;> simp [h]
  have hfind : ∀ l : List TargetSt, (l.map fun x => if x.id = t then f x else x).find? (fun x => x.id == t) =
      (l.find? fun x => x.id == t).map f := by
    intro l
    rw [List.find?_map]
    have hsame : (fun x : TargetSt => x.id == t) ∘ (fun x => if x.id = t then f x else x) = fun x => x.id == t := by
      funext x
      simp [hid]
    rw [hsame]
    cases hx : l.find? fun x => x.id == t with
    | none => rfl
    | some x =>
      have hxt : x.id = t := by simpa using List.find?_some hx
      rw [Option.map_some, Option.map_some, if_pos hxt]
  unfold State.tgt State.modTgt State.modJob
  rw [lmod_getElem?, if_pos rfl]
  cases s.comp.parts[p]? with
  | none => rfl
  | some q => cases hj : q.job <;> simp [hj, hfind]

theorem lmod_lmod {α : Type} (l : List α) (i : Nat) (f g : α → α) : lmod (lmod l i f) i g = lmod l i (g ∘ f) := by
  refine List.ext_getElem? fun j => ?_
  rw [lmod_getElem?, lmod_getElem?, lmod_getElem?]
  split
  · rw [Option.map_map]
  · rfl

theorem State.modJob_modJob (s : State) (p : Nat) (f g : Job → Job) : (s.modJob p f).modJob p g = s.modJob p (g ∘ f) := by
  unfold State.modJob
  dsimp only
  rw [lmod_lmod]
  congr 3
  funext q
  simp only [Function.comp_apply, Option.map_map]

/-- Two changes of a target are one. -/
theorem State.modTgt_modTgt (s : State) (p t : Nat) {f g : TargetSt → TargetSt} (h : ∀ x, (f x).id = x.id) :
    (s.modTgt p t f).modTgt p t g = s.modTgt p t (g ∘ f) := by
  unfold State.modTgt
  rw [State.modJob_modJob]
  congr 1
  funext j
  simp only [Function.comp_apply, List.map_map]
  congr 2
  funext x
  by_cases hx : x.id = t <;> simp [hx, h]

theorem State.modTgt_id (s : State) (p t : Nat) : s.modTgt p t id = s := by
  have hlmod : lmod s.comp.parts p (fun q => { q with job := q.job.map fun j =>
      { j with targets := j.targets.map fun x => if x.id = t then id x else x } }) = s.comp.parts := by
    refine List.ext_getElem? fun j => ?_
    rw [lmod_getElem?]
    simp
  unfold State.modTgt State.modJob
  rw [hlmod]

/-! ### What the start of a step leaves -/

/-- Between two states of a step's command the target's steps stand, and the cores that they run on. -/
structure State.StepFrame (p t : Nat) (z s : State) : Prop where
  commits : commitStep z s = s
  host : s.hostOf p t = z.hostOf p t
  loaded : ∀ n : Nat, (s.comp.cores[n]?).map CoreSt.loaded = (z.comp.cores[n]?).map CoreSt.loaded
  steps : (s.tgt p t).map TargetSt.steps = (z.tgt p t).map TargetSt.steps

namespace State.StepFrame

variable {p t : Nat} {z s u : State}

theorem refl (s : State) : State.StepFrame p t s s := ⟨rfl, rfl, fun _ => rfl, rfl⟩

theorem trans (h : State.StepFrame p t z s) (h' : State.StepFrame p t s u) : State.StepFrame p t z u :=
  ⟨commitStep_trans h.commits h'.commits, h'.host.trans h.host, fun n => (h'.loaded n).trans (h.loaded n),
    h'.steps.trans h.steps⟩

theorem of_comp (hcommits : commitStep z s = s) (h : s.comp = z.comp) : State.StepFrame p t z s := by
  refine ⟨hcommits, ?_, fun n => by rw [h], ?_⟩
  · rw [State.hostOf, h, State.hostOf]
  · rw [State.tgt, h, State.tgt]

theorem part (h : State.StepFrame p t z s) (q : Nat) : s.part q = z.part q := by
  rw [← h.commits]
  rfl

theorem modJob (s : State) {f : Job → Job} (h : ∀ j, (f j).targets = j.targets) : State.StepFrame p t s (s.modJob p f) :=
  ⟨rfl, s.hostOf_modJob p p t f, fun _ => rfl, by rw [s.tgt_modJob p t h]⟩

theorem modTgt (s : State) {f : TargetSt → TargetSt} (hid : ∀ x, (f x).id = x.id) (hsteps : ∀ x, (f x).steps = x.steps) :
    State.StepFrame p t s (s.modTgt p t f) := by
  refine ⟨rfl, s.hostOf_modTgt p t p t f, fun _ => rfl, ?_⟩
  rw [s.tgt_modTgt p t hid]
  cases s.tgt p t <;> simp [hsteps]

theorem setCatch (s : State) (k v : Nat) : State.StepFrame p t s (s.setCatch k v) := ⟨rfl, rfl, fun _ => rfl, rfl⟩

end State.StepFrame

theorem CoreSt.setPadOf_loaded (c : CoreSt) (i : Nat) (a : Pad) : (c.setPadOf i a).loaded = c.loaded := by
  unfold CoreSt.setPadOf
  split <;> rfl

theorem State.coresOf_nodup (s : State) (p t : Nat) : (s.coresOf p t).Nodup := by
  unfold State.coresOf
  split
  · split <;> simp
  · exact List.nodup_nil

/-- The cores of a target take the change, and no others. -/
theorem State.modPadOf_core (s : State) (p t : Nat) (f : Pad → Pad) (n : Nat) : (s.modPadOf p t f).comp.cores[n]? =
    if n ∈ s.coresOf p t then s.comp.cores[n]?.map fun c => c.setPadOf t (f (c.padOf t)) else s.comp.cores[n]? :=
  foldl_lmod_getElem? _ (s.coresOf_nodup p t) _ n

theorem State.StepFrame.modPadOf {p t : Nat} (s : State) (f : Pad → Pad) : State.StepFrame p t s (s.modPadOf p t f) := by
  refine ⟨rfl, rfl, fun n => ?_, rfl⟩
  rw [s.modPadOf_core]
  split
  · cases s.comp.cores[n]? <;> simp [CoreSt.setPadOf_loaded]
  · rfl

theorem State.StepFrame.openCommand (s : State) (c : StepCtx) : State.StepFrame c.p c.t s (s.openCommand c) := by
  have hbound : State.StepFrame c.p c.t s (s.coreBoundary c.p c.t) :=
    .of_comp (foldl_commitStep commitStep_applyCore _ s) (foldl_keeps State.comp _ State.applyCore_comp _ s)
  unfold State.openCommand
  split
  · exact .refl s
  · exact hbound.trans (.modTgt _ (fun _ => rfl) fun _ => rfl)

theorem State.StepFrame.startStep (s : State) {c : StepCtx} (h : c.t < 16) : State.StepFrame c.p c.t s (s.startStep c) := by
  have hpad : State.StepFrame c.p c.t s (if c.first then
      { s.modPadOf c.p c.t (fun a => a.openCommand (s.actBank c.core) s.fresh) with
        fresh := (s.modPadOf c.p c.t fun a => a.openCommand (s.actBank c.core) s.fresh).fresh + 1 } else s) := by
    split
    · exact (State.StepFrame.modPadOf s _).trans ⟨rfl, rfl, fun _ => rfl, rfl⟩
    · exact .refl s
  unfold State.startStep State.markLapsed
  rw [if_neg (by omega)]
  refine .trans (.trans (.trans hpad (.modTgt _ ?_ ?_)) (.modJob _ ?_)) (.modJob _ ?_) <;> exact fun _ => rfl

/-! ### The step that a command runs -/

/-- What the step at the head of a target rests on: the target, its first step, and below 16 the core that has it loaded. -/
theorem State.stepAt_spec {z : State} {p t : Nat} {pick : List Byte → Bool} {c : StepCtx} (h : z.stepAt p t pick = some c) :
    c.p = p ∧ c.t = t ∧ (z.part p).isSome ∧ z.tgt p t = some c.tgt ∧ c.tgt.steps.head? = some (c.idx, c.b) ∧
      (t < 16 → ∃ n k, z.hostOf p t = some n ∧ z.comp.cores[n]? = some k ∧ k.loaded = some t) := by
  unfold State.stepAt at h
  simp only [Option.bind_eq_bind, Option.bind_eq_some_iff] at h
  obtain ⟨e, he, q, hq, j, hj, x, hx, ⟨i, b⟩, hhead, h⟩ := h
  dsimp only at h
  split at h
  · next hmay =>
    cases h
    have hid : x.id = t := by simpa using List.find?_some hx
    refine ⟨rfl, rfl, by rw [he]; rfl, by rw [State.tgt, hq]; simpa [hj] using hx, hhead, fun ht => ?_⟩
    simp only [Bool.and_eq_true] at hmay
    have hfree := hmay.2
    rw [State.targetFree, if_neg (by omega), hid] at hfree
    cases hn : z.hostOf p t with
    | none => simp [hn] at hfree
    | some n =>
      rw [hn] at hfree
      cases hk : z.comp.cores[n]? with
      | none => simp [hk] at hfree
      | some k => exact ⟨n, k, rfl, hk, by simp_all⟩
  · cases h

/-- A step whose effect takes place now runs it on the state in which it has started. -/
theorem State.runStep_effect {z s : State} {p t : Nat} {pick : List Byte → Bool} {check : State → StepCtx → Nat} {c : StepCtx}
    (body : State → StepCtx → Option (State × StepPhase)) (hat : z.stepAt p t pick = some c) (h : effectOn z c check s) :
    z.runStep p t pick check body = s.effect c body := by
  unfold State.runStep
  rw [hat]
  obtain ⟨hph, rfl⟩ | ⟨hph, rfl⟩ | ⟨hph, hcode, ⟨hwait, rfl⟩ | ⟨hwait, y, hy, rfl⟩⟩ := h
  · simp [hph]
  · simp [hph]
  · simp [hph, hcode, hwait]
  · simp [hph, hcode, hwait, hy]

/-- Where a step's effect takes place its target's steps and cores stand as before the command. -/
theorem effectOn_frame {z s : State} {c : StepCtx} {check : State → StepCtx → Nat} (ht : c.t < 16) (h : effectOn z c check s) :
    State.StepFrame c.p c.t z s := by
  obtain ⟨-, rfl⟩ | ⟨-, rfl⟩ | ⟨-, -, ⟨-, rfl⟩ | ⟨-, y, hy, rfl⟩⟩ := h
  · exact .refl s
  · exact .startStep z ht
  · exact (State.StepFrame.openCommand z c).trans (.startStep _ ht)
  · have htake : State.StepFrame c.p c.t (z.openCommand c) y := by
      unfold State.tryTake at hy
      split at hy
      · cases hy
        exact .setCatch _ _ _
      · cases hy
    exact ((State.StepFrame.openCommand z c).trans htake).trans (.startStep _ ht)

end Sys2Proof.Machine
end

section
/-!
PROOFS. The compute steps of a core: what an error-free one writes (R82, R104, R105, R108, R111, R118, R139).
-/
namespace Sys2Proof.Machine
open Sys2Proof.Safety

/-! ### A step without memory errors -/

theorem stepRank_le (c : Nat) : stepRank c ≤ 1000 := by
  unfold stepRank
  split
  · exact le_refl _
  · exact List.idxOf_le_length.trans (by decide)

/-- Success ranks below every code (R82). -/
@[simp] theorem worse_zero (c : Nat) : worse c 0 = c := if_neg (Nat.not_lt.2 (stepRank_le c))

theorem Pad.poisonWords_none {p : Pad} (w : Nat) (xs : List Ext) (h : p.poison = []) : p.poisonWords w xs = [] := by
  rw [Pad.poisonWords, h]
  rfl

/-- Reads of a core whose scratchpad holds no poison, with no error on the way, leave the block as it is (R139). -/
theorem State.coreErrors_none {s : State} {i core : Nat} (w : Nat) (reads : List Ext)
    (h : ∀ k, s.comp.cores[core]? = some k → (k.padOf i).poison = []) : s.coreErrors w i core 0 [] reads = (s, false) := by
  unfold State.coreErrors
  cases hk : s.comp.cores[core]? with
  | none => simp [Pad.poisonWords_none, Pad.reset, State.spCorrected]
  | some k => simp [Pad.poisonWords_none, h k hk, State.spCorrected]

/-- Steps that leave a value leave it in a row. -/
theorem foldl_fixed_of_mem {α β : Type} {f : β → α → β} {b : β} {l : List α} (h : ∀ x ∈ l, f b x = b) :
    l.foldl f b = b := by
  induction l with
  | nil => rfl
  | cons x l ih =>
    rw [List.foldl_cons, h x List.mem_cons_self]
    exact ih fun y hy => h y (List.mem_cons_of_mem x hy)

theorem State.padErrors_none {s : State} {c : StepCtx} (reads : List Ext) (h : ∀ a ∈ s.padsOf c.p c.t, a.poison = []) :
    s.padErrors c {} reads = (s, false) := by
  refine foldl_fixed_of_mem fun n hn => ?_
  have hcore : s.coreErrors (s.weights c.core) c.t n 0 [] reads = (s, false) :=
    State.coreErrors_none _ _ fun k hk => h _ (List.mem_filterMap.2 ⟨n, hn, by rw [hk]; rfl⟩)
  simp only [ite_self, hcore, Bool.or_false]

/-- A scratchpad without poison is read as it stands. -/
theorem State.padRead_clean {s : State} {c : StepCtx} (h : (s.padOf c.p c.t).poison = []) :
    s.padRead c {} = s.padOf c.p c.t := by
  simp [State.padRead, Pad.badExts, Pad.garble, h]

/-- A compute step that no bank holds or refuses and that meets no error writes its pieces (R139, R155). -/
theorem State.computeStep_clean {s : State} {c : StepCtx} {reads : List Ext} (needs : Nat → List Ext) (status : Nat) {rows : Nat}
    {parts : Nat → List (Nat × List Byte)} {out : List (Nat × List Byte)} (hout : parts rows = out)
    (h : padReady s c.p c.t (reads ++ partExts out)) :
    s.computeStep c {} reads needs status rows parts = some (s.writeParts c out, .done status) := by
  obtain ⟨-, hpoison, hheld, hrefused⟩ := h
  unfold State.computeStep
  simp [hout, hheld, hrefused, State.padErrors_none reads hpoison, State.markUe, codeIf]

/-! ### The effect of a step -/

theorem TargetSt.stopNow_id (x : TargetSt) : x.stopNow.id = x.id := by
  unfold TargetSt.stopNow
  dsimp only
  split
  · rfl
  · rfl
  · split <;> rfl

/-- Only a target that waits changes where a stopping job is met (R123, R231). -/
theorem State.meetWait_modTgt (s : State) (p t : Nat) : ∃ g : TargetSt → TargetSt, (∀ x, (g x).id = x.id) ∧
    (∀ x, x.isWaiting = false → g x = x) ∧ s.meetWait p t = s.modTgt p t g := by
  have hid : ∃ g : TargetSt → TargetSt, (∀ x, (g x).id = x.id) ∧ (∀ x, x.isWaiting = false → g x = x) ∧
      s = s.modTgt p t g :=
    ⟨id, fun _ => rfl, fun _ _ => rfl, (s.modTgt_id p t).symm⟩
  unfold State.meetWait
  split
  · split
    · refine ⟨_, fun x => ?_, fun x hx => ?_, rfl⟩
      · split
        · exact x.stopNow_id
        · rfl
      · rw [hx]
        rfl
    · exact hid
  · exact hid

/-- The effect of a step that is over: its target stands at its end, and nothing else differs from what its body left. -/
theorem State.effect_done {s s1 : State} {c : StepCtx} {body : State → StepCtx → Option (State × StepPhase)} {status : Nat}
    {wrote : Bool} {x : TargetSt} (hbody : body s c = some (s1, .done status wrote)) (hx : s1.tgt c.p c.t = some x)
    (hhead : (x.steps.head?.map (·.1)) = some c.idx) :
    ∃ f : TargetSt → TargetSt, s.effect c body = s1.modTgt c.p c.t f ∧
      (s1.modTgt c.p c.t f).tgt c.p c.t = some { x with phase := .done status wrote } := by
  obtain ⟨g, hid, hg, hmeet⟩ := (s1.setPhase c.p c.t c.idx (.done status wrote)).meetWait_modTgt c.p c.t
  have hphase : ∀ x : TargetSt,
      (if (x.steps.head?.map (·.1)) = some c.idx then { x with phase := .done status wrote } else x).id = x.id :=
    fun x => by split <;> rfl
  have heffect : s.effect c body = (s1.setPhase c.p c.t c.idx (.done status wrote)).meetWait c.p c.t := by
    rw [State.effect, hbody]
  rw [heffect, hmeet, State.setPhase, State.modTgt_modTgt _ _ _ hphase]
  refine ⟨_, rfl, (State.tgt_modTgt _ _ _ fun x => (hid _).trans (hphase x)).trans ?_⟩
  rw [hx, Option.map_some, if_pos hhead, hg]
  cases x.steps <;> simp [TargetSt.isWaiting]

/-- A logical core's scratchpad after a change of it, where its host has it loaded (R242). -/
theorem State.padOf_modPadOf {s : State} {p t n : Nat} {k : CoreSt} (f : Pad → Pad) (hpart : (s.part p).isSome)
    (hhost : s.hostOf p t = some n) (hcore : s.comp.cores[n]? = some k) (hload : k.loaded = some t) :
    (s.modPadOf p t f).padOf p t = f (s.padOf p t) := by
  have hmem : n ∈ s.coresOf p t := by
    obtain ⟨e, he⟩ := Option.isSome_iff_exists.1 hpart
    rw [State.coresOf, hhost, he]
    dsimp only
    split <;> simp
  have hown : ∀ u : State, u.hostOf p t = some n → ∀ k' : CoreSt, u.comp.cores[n]? = some k' → u.padOf p t = k'.padOf t :=
    fun u hu k' hk' => by rw [State.padOf, hu, Option.bind_some, hk']
  rw [hown s hhost k hcore, hown (s.modPadOf p t f) hhost (k.setPadOf t (f (k.padOf t)))
    (by rw [s.modPadOf_core, if_pos hmem, hcore]; rfl), CoreSt.setPadOf, if_pos (.inl hload), CoreSt.padOf, if_pos hload]

/-- Pieces go to the target's own cores alone. -/
theorem State.writeParts_core {s : State} {c : StepCtx} {n : Nat} (parts : List (Nat × List Byte)) (h : n ∉ s.coresOf c.p c.t) :
    (s.writeParts c parts).comp.cores[n]? = s.comp.cores[n]? := by
  rw [State.writeParts, State.modPadOf_core, if_neg h]

/-- What a step whose body writes pieces to its scratchpad has done when its command is over. -/
theorem wroteParts_of_body {z s : State} {p t : Nat} {pick : List Byte → Bool} {check : State → StepCtx → Nat} {c : StepCtx}
    {body : State → StepCtx → Option (State × StepPhase)} {n status : Nat} {parts : List (Nat × List Byte)} (ht : t < 16)
    (hat : z.stepAt p t pick = some c) (heff : effectOn z c check s)
    (hbody : body s c = some (State.writeParts { s with fresh := n } c parts, .done status)) :
    wroteParts s (commitStep z (z.runStep p t pick check body)) c status parts := by
  obtain ⟨rfl, rfl, hpart, htgt, hhead, hcore⟩ := State.stepAt_spec hat
  have hframe := effectOn_frame ht heff
  obtain ⟨h, k, hhost, hk, hload⟩ := hcore ht
  obtain ⟨x, hx, hsteps⟩ : ∃ x, s.tgt c.p c.t = some x ∧ x.steps = c.tgt.steps := by
    have := hframe.steps
    rw [htgt, Option.map_some, Option.map_eq_some_iff] at this
    exact this
  obtain ⟨k', hk', hload'⟩ : ∃ k', s.comp.cores[h]? = some k' ∧ k'.loaded = some c.t := by
    have := hframe.loaded h
    rw [hk, Option.map_some, hload, Option.map_eq_some_iff] at this
    exact this
  obtain ⟨f, heq, hdone⟩ := State.effect_done hbody hx (by rw [hsteps, hhead]; rfl)
  have hcommit : commitStep z (s.effect c body) = (State.writeParts { s with fresh := n } c parts).modTgt c.p c.t f := by
    rw [heq]
    exact commitStep_trans hframe.commits rfl
  rw [State.runStep_effect body hat heff, hcommit]
  refine ⟨⟨x, true, hx, hdone⟩, ⟨f, rfl⟩, ?_, fun m hm => ?_, rfl⟩
  · rw [State.padOf_modTgt]
    exact State.padOf_modPadOf (s := { s with fresh := n }) _ (by rw [← hframe.part] at hpart; exact hpart)
      (hframe.host.trans hhost) hk' hload'
  · exact State.writeParts_core (s := { s with fresh := n }) parts hm

/-! ### MATMUL, VECTOR and FFT2D -/

/-- MATMUL without an error writes its output rows (R104, R105). -/
theorem mmEffect_clean {s : State} {c : StepCtx} {x : MmBody} {rows : List OutRow} {parts : List (Nat × List Byte)}
    (hx : x = mmBody c.b) (hrows : rows = x.rows (s.padOf c.p c.t).bytes c.job.seed)
    (hparts : parts = outParts x.ar x.post x.o x.os x.fmap (outBytes x.ar x.post rows) rows)
    (h : padReady s c.p c.t (x.ins ++ partExts parts)) :
    mmEffect {} s c = some (s.writeParts c parts, .done (rowsStatus rows)) := by
  have htake : rows.take x.m = rows := List.take_of_length_le (by rw [hrows]; simp [MmBody.rows])
  unfold mmEffect
  rw [State.padRead_clean h.1, ← hx]
  dsimp only
  rw [← hrows]
  exact State.computeStep_clean _ _ (by rw [htake, hparts]) h

/-- VECTOR without an error writes its stores in order, and draws two free values (R111). -/
theorem vecEffect_clean {s : State} {c : StepCtx} {b : List Byte} {x : VecSt} (hb : b = vecOf (s.padOf c.p c.t).bytes c.b)
    (hx : x = (vecProg b).run c.job.seed (s.fresh + 1) (s.padOf c.p c.t)) (hcode : x.code = 0)
    (h : padReady s c.p c.t ((vecProg b).reads (leAt c.b 8 4) b.length ++ partExts x.stores)) :
    vecEffect {} s c = some (State.writeParts { s with fresh := s.fresh + 2 } c x.stores, .done x.cond.status) := by
  unfold vecEffect
  rw [State.padRead_clean h.1]
  dsimp only
  rw [← hb, ← hx, if_neg fun hne => hne.1 hcode]
  exact State.computeStep_clean (s := { s with fresh := s.fresh + 2 }) _ _ rfl h

theorem length_flatMap_const {α β : Type} {f : α → List β} {l : List α} {n : Nat} (h : ∀ x ∈ l, (f x).length = n) :
    (l.flatMap f).length = l.length * n := by
  rw [List.length_flatMap, List.sum_eq_card_nsmul _ n (by simpa using h)]
  simp

/-- A transformed tile has 64 × 64 elements of 8 bytes (R118). -/
theorem tileBytes_fft2d_length (fwd : Bool) (exp : Int) (t : List (List Cx)) : (tileBytes (fft2d fwd exp t)).length = 32768 := by
  have hrow : ∀ r ∈ fft2d fwd exp t, (r.flatMap fun z => natLe 4 z.1 ++ natLe 4 z.2).length = 512 := by
    intro r hr
    rw [length_flatMap_const (n := 8) fun z _ => by simp [natLe_length]]
    obtain ⟨q, hq, rfl⟩ := List.mem_map.1 hr
    obtain ⟨j, -, rfl⟩ := List.mem_map.1 hq
    simp [transpose64]
  rw [tileBytes, length_flatMap_const hrow]
  simp [fft2d, transpose64]

/-- FFT2D without an error writes its transformed tiles (R118, R119). -/
theorem fftEffect_clean {s : State} {c : StepCtx} {i n : Nat} {body : List Byte} (hi : i = leAt c.b 8 4) (hn : n = leAt c.b 0x10 2)
    (hbody : body = (List.range n).flatMap fun k => tileBytes (fft2d (leAt c.b 0x12 1 == 0) (sgn 8 (leAt c.b 0x13 1))
      (tileOf ((s.padOf c.p c.t).bytes (i + 32768 * k) 32768))))
    (h : padReady s c.p c.t [⟨i, 32768 * n⟩, ⟨leAt c.b 0x0C 4, body.length⟩]) :
    fftEffect {} s c = some (s.writeParts c [(leAt c.b 0x0C 4, body)], .done 0) := by
  have hlen : body.length = 32768 * n := by
    rw [hbody, length_flatMap_const fun k _ => tileBytes_fft2d_length _ _ _, List.length_range, mul_comm]
  unfold fftEffect
  rw [State.padRead_clean h.1]
  dsimp only
  rw [← hi, ← hn, ← hbody]
  exact State.computeStep_clean _ _ (by rw [← hlen, List.take_length]) h

end Sys2Proof.Machine
end

section
open Sys2Proof Sys2Proof.Machine Sys2Proof.Safety

/-- Settles O30: each of the three effects, where no error is met, is one write of its pieces, which the command commits on the
state in which the step has started. -/
theorem arrayStepsWriteTheirResults : Obligations.ArrayStepsWriteTheirResults := by
  unfold Obligations.ArrayStepsWriteTheirResults
  intro z s p t c ht
  refine ⟨fun x rows parts hready hx hrows hparts hpad => ?matmul, fun b x hready hb hx hcode hpad => ?vector,
    fun i n body hready hi hn hbody hpad => ?fft2d⟩
  all_goals
    obtain ⟨_, _, pick, check, hof, hat, heff⟩ := hready
    cases hof
    obtain ⟨hp, ht', -⟩ := State.stepAt_spec hat
  case matmul =>
    rw [← hp, ← ht'] at hrows hpad
    exact ⟨_, rfl, wroteParts_of_body (n := s.fresh) ht hat heff (mmEffect_clean hx hrows hparts hpad)⟩
  case vector =>
    rw [← hp, ← ht'] at hb hx hpad
    exact ⟨_, rfl, wroteParts_of_body ht hat heff (vecEffect_clean hb hx hcode hpad)⟩
  case fft2d =>
    rw [← hp, ← ht'] at hbody hpad
    exact ⟨_, rfl, wroteParts_of_body (n := s.fresh) ht hat heff (fftEffect_clean hi hn hbody hpad)⟩

end

section
/-!
PROOFS. The steps of a target between their start and their end: the running job, its targets, and what leaves them alone
(R97, R126, R231).
-/
namespace Sys2Proof.Machine
open Sys2Proof.Safety

/-! ### The running job and its targets -/

theorem runningJob_modJob (s : State) (p : Nat) (f : Job → Job) : runningJob (s.modJob p f) p = (runningJob s p).map f := by
  unfold runningJob State.modJob
  rw [lmod_getElem?, if_pos rfl]
  cases s.comp.parts[p]? <;> rfl

theorem runningJob_modTgt (s : State) (p t : Nat) (f : TargetSt → TargetSt) : runningJob (s.modTgt p t f) p =
    (runningJob s p).map fun j => { j with targets := j.targets.map fun x => if x.id = t then f x else x } :=
  runningJob_modJob s p _

theorem runningJob_of_parts {s u : State} (h : u.comp.parts = s.comp.parts) (p : Nat) : runningJob u p = runningJob s p := by
  rw [runningJob, runningJob, h]

theorem State.tgt_of_parts {s u : State} (h : u.comp.parts = s.comp.parts) (p t : Nat) : u.tgt p t = s.tgt p t := by
  rw [State.tgt, State.tgt, h]

/-- A target changed leaves the others of its job. -/
theorem State.tgt_modTgt_ne (s : State) (p : Nat) {t i : Nat} {f : TargetSt → TargetSt} (hid : ∀ x, (f x).id = x.id)
    (h : i ≠ t) : (s.modTgt p t f).tgt p i = s.tgt p i := by
  have hfind : ∀ l : List TargetSt, (l.map fun x => if x.id = t then f x else x).find? (fun x => x.id == i) =
      l.find? fun x => x.id == i := by
    intro l
    have hsame : (fun x : TargetSt => x.id == i) ∘ (fun x => if x.id = t then f x else x) = fun x => x.id == i := by
      funext x
      by_cases hx : x.id = t <;> simp [hx, hid]
    rw [List.find?_map, hsame]
    cases hx : l.find? fun x => x.id == i with
    | none => rfl
    | some x =>
      have hxi : x.id = i := by simpa using List.find?_some hx
      rw [Option.map_some, if_neg (hxi ▸ h)]
  have htgt : ∀ u : State, u.tgt p i = (runningJob u p).bind fun j => j.targets.find? fun x => x.id == i := fun _ => rfl
  rw [htgt, htgt, runningJob_modTgt]
  cases runningJob s p with
  | none => rfl
  | some j => exact hfind j.targets

theorem State.tgt_setPhase {s : State} {p t idx : Nat} {x : TargetSt} (ph : StepPhase) (hx : s.tgt p t = some x)
    (hhead : x.steps.head?.map (·.1) = some idx) : (s.setPhase p t idx ph).tgt p t = some { x with phase := ph } := by
  rw [State.setPhase, s.tgt_modTgt p t (fun y => by split <;> rfl), hx, Option.map_some, if_pos hhead]

/-- A job stops where it has stopped before, whatever happens to its targets. -/
theorem runningJob_modTgt_stopping {s : State} {p : Nat} {j : Job} (t : Nat) (f : TargetSt → TargetSt)
    (hj : runningJob s p = some j) : ∃ k, runningJob (s.modTgt p t f) p = some k ∧ k.stopping = j.stopping :=
  ⟨_, (runningJob_modTgt s p t f).trans (congrArg _ hj), rfl⟩

/-- A job that goes on does not abandon its waits (R123, R231). -/
theorem State.meetWait_goes_on {s : State} {p : Nat} {j : Job} (t : Nat) (hj : runningJob s p = some j)
    (h : j.stopping = false) : s.meetWait p t = s := by
  unfold State.meetWait
  rw [show s.comp.parts[p]?.bind (·.job) = some j from hj]
  exact if_neg (by simp [h])

/-- A wait that a stopping job meets is abandoned (R123, R231). -/
theorem State.meetWait_stops {s : State} {p : Nat} (t : Nat) {j : Job} (hj : runningJob s p = some j)
    (h : j.stopping = true) : s.meetWait p t = s.modTgt p t fun x => if x.isWaiting then x.stopNow else x := by
  unfold State.meetWait
  rw [show s.comp.parts[p]?.bind (·.job) = some j from hj]
  exact if_pos h

/-- The step at the head of a target is one of the running job. -/
theorem State.stepAt_job {z : State} {p t : Nat} {pick : List Byte → Bool} {c : StepCtx} (h : z.stepAt p t pick = some c) :
    runningJob z p = some c.job := by
  unfold State.stepAt at h
  simp only [Option.bind_eq_bind, Option.bind_eq_some_iff] at h
  obtain ⟨e, -, q, hq, j, hj, x, -, ⟨i, b⟩, -, h⟩ := h
  rw [runningJob, hq, Option.bind_some, hj]
  dsimp only at h
  split at h
  · cases h
    rfl
  · cases h

/-! ### A command boundary changes registers and messages only -/

theorem State.withRO_self (s : State) : ∃ r o, s = s.withRO r o := ⟨s.regs, s.out, rfl⟩

theorem State.latchDone_frame (t s : State) : ∃ r o, t.latchDone s = t.withRO r o := by
  refine foldl_withRO _ (fun t p => ?_) _ t
  split
  · exact State.raise_frame _ _ _
  · exact t.withRO_self

theorem State.applyCore_frame (s : State) (n : Nat) : ∃ r o, s.applyCore n = s.withRO r o := by
  unfold State.applyCore State.applyReady
  dsimp only
  split
  · exact s.withRO_self
  · exact withRO_trans (b := State.latchDone _ s) ⟨_, s.out, rfl⟩ (State.latchDone_frame _ s)

theorem State.coreBoundary_frame (s : State) (p t : Nat) : ∃ r o, s.coreBoundary p t = s.withRO r o :=
  foldl_withRO _ State.applyCore_frame _ s

/-- The opening of a command changes registers and messages, and its target (R98, R126). -/
theorem State.openCommand_frame (s : State) (c : StepCtx) : ∃ r o f, s.openCommand c = (s.withRO r o).modTgt c.p c.t f := by
  unfold State.openCommand
  split
  · exact ⟨s.regs, s.out, id, (s.modTgt_id c.p c.t).symm⟩
  · obtain ⟨r, o, h⟩ := s.coreBoundary_frame c.p c.t
    rw [h]
    exact ⟨r, o, _, rfl⟩

theorem State.winRefused_frame (s : State) (p : Nat) : ∃ r o, s.winRefused p = s.withRO r o :=
  foldl_withRO _ (fun s _ => s.raise_frame _ _) _ s

end Sys2Proof.Machine
end

section
/-!
PROOFS. Steps that are refused or that wait (R97, R102, R103, R123).
-/
namespace Sys2Proof.Machine
open Sys2Proof.Safety

/-! ### What the command of a step commits of its run -/

/-- A command that starts on s and runs to r has committed u: all that its step has done to the compute units and memories. -/
structure CommitsRun (s r u : State) : Prop where
  comp : u.comp = r.comp
  dram : u.dram = r.dram
  kv : u.kv = r.kv
  ctl : r.ctl = s.ctl → u.ctl = s.ctl
  idle : r = s → u = s

theorem commitStep_commitsRun (s r : State) : CommitsRun s r (commitStep s r) :=
  ⟨rfl, rfl, rfl, fun _ => rfl, fun h => h ▸ rfl⟩

theorem commitSetpt_commitsRun (s r : State) : CommitsRun s r (commitSetpt s r) :=
  ⟨rfl, rfl, rfl, id, fun h => h ▸ rfl⟩

/-- What the serving engine counts beside a step touches its registers alone (R217). -/
theorem engineRun_commitsRun (s : State) (p t : Nat) (env : StepEnv) (pick : List Byte → Bool) (check : State → StepCtx → Nat)
    (body : State → StepCtx → Option (State × StepPhase)) :
    CommitsRun s (s.runStep p t pick check body) (commitStep s (s.engineRun p t env pick check body)) := by
  unfold State.engineRun
  dsimp only
  split
  · split
    · split
      · exact commitStep_commitsRun _ _
      · next hne => exact ⟨rfl, rfl, rfl, fun _ => rfl, fun h => absurd (congrArg State.comp h) hne⟩
    · exact commitStep_commitsRun _ _
  · exact commitStep_commitsRun _ _

/-- A command for a step runs it and commits the run. -/
theorem exec_of_stepOf {i : Instr} {p t : Nat} {pick : List Byte → Bool} {check : State → StepCtx → Nat}
    (h : stepOf i = some (p, t, pick, check)) (s : State) :
    ∃ body u, exec i s = .next u ∧ CommitsRun s (s.runStep p t pick check body) u := by
  cases i with
  | setpt => cases h; exact ⟨_, _, rfl, commitSetpt_commitsRun _ _⟩
  | attn | kvAppend | kvMap | kvCtxOpen | kvCtxClose | kvCtxTruncate | kvCtxAccept | kvCtxFlush | kvCtxSetPrio | kvCtxPrefetch =>
    cases h; exact ⟨_, _, rfl, engineRun_commitsRun _ _ _ _ _ _ _⟩
  | matmul | vector | fft2d | catchPost | catchWait | catchSet | resetBlock | spFill | spCopy | dma | bankClose | bankOpen
  | tagCheck | tagSet | conv | fconv | pool | nceConv => cases h; exact ⟨_, _, rfl, commitStep_commitsRun _ _⟩
  | _ => cases h

/-! ### The first part of a run -/

section
variable {s : State} {p t : Nat} {pick : List Byte → Bool} {check : State → StepCtx → Nat} {c : StepCtx}
  (body : State → StepCtx → Option (State × StepPhase))

theorem State.runStep_none (h : s.stepAt p t pick = none) : s.runStep p t pick check body = s := by
  rw [State.runStep, h]

/-- A step that begins and fails a check is refused (R102). -/
theorem State.runStep_refused (h : s.stepAt p t pick = some c) (hfresh : c.tgt.phase = .fresh)
    (hcode : worse (headerCheck c.part c.b) (check ((s.openCommand c).startStep c) c) ≠ 0) :
    s.runStep p t pick check body =
      (s.openCommand c).refuseStep c (worse (headerCheck c.part c.b) (check ((s.openCommand c).startStep c) c)) := by
  simp [State.runStep, h, hfresh, hcode]

/-- A step that begins and whose header WAIT finds no count waits (R97). -/
theorem State.runStep_waits (h : s.stepAt p t pick = some c) (hfresh : c.tgt.phase = .fresh)
    (hcode : worse (headerCheck c.part c.b) (check ((s.openCommand c).startStep c) c) = 0) (hwait : hWait c.b = true)
    (htake : (s.openCommand c).tryTake c.p c.t (catchKey c.p (hCblk c.b) (hWaitIx c.b)) 1 = none) :
    s.runStep p t pick check body = ((s.openCommand c).setPhase c.p c.t c.idx .waitHead).meetWait c.p c.t := by
  simp [State.runStep, h, hfresh, hcode, hwait, htake]

end

/-! ### No effect -/

/-- Nothing that a step may have an effect on has changed: memories, contexts, catches, cores, setpoints. -/
structure NoEffect (s u : State) : Prop where
  dram : u.dram = s.dram
  kv : u.kv = s.kv
  catches : u.comp.catches = s.comp.catches
  cores : u.comp.cores = s.comp.cores
  ctl : u.ctl = s.ctl

namespace NoEffect

variable {s r u : State}

theorem trans (h : NoEffect s r) (h' : NoEffect r u) : NoEffect s u :=
  ⟨h'.dram.trans h.dram, h'.kv.trans h.kv, h'.catches.trans h.catches, h'.cores.trans h.cores, h'.ctl.trans h.ctl⟩

theorem withRO (h : ∃ r o, u = s.withRO r o) : NoEffect s u := by
  obtain ⟨r, o, rfl⟩ := h
  exact ⟨rfl, rfl, rfl, rfl, rfl⟩

theorem modTgt (s : State) (p t : Nat) (f : TargetSt → TargetSt) : NoEffect s (s.modTgt p t f) := ⟨rfl, rfl, rfl, rfl, rfl⟩

theorem openCommand (s : State) (c : StepCtx) : NoEffect s (s.openCommand c) := by
  obtain ⟨r, o, f, h⟩ := s.openCommand_frame c
  rw [h]
  exact (withRO ⟨r, o, rfl⟩).trans (modTgt _ _ _ f)

theorem commitsRun (h : NoEffect s r) (hu : CommitsRun s r u) : NoEffect s u :=
  ⟨hu.dram.trans h.dram, hu.kv.trans h.kv, by rw [hu.comp, h.catches], by rw [hu.comp, h.cores], hu.ctl h.ctl⟩

/-- What the command of a step without an effect leaves: the step's target in its new phase, and the rest as it was. -/
theorem committed {p t : Nat} {x : TargetSt} (h : NoEffect s r) (hu : CommitsRun s r u) (hx : r.tgt p t = some x) :
    ∃ y, u.tgt p t = some y ∧ y.phase = x.phase ∧ u.dram = s.dram ∧ u.kv = s.kv ∧ u.comp.catches = s.comp.catches ∧
      u.comp.cores = s.comp.cores ∧ u.ctl = s.ctl := by
  obtain ⟨hdram, hkv, hcatches, hcores, hctl⟩ := h.commitsRun hu
  exact ⟨x, (State.tgt_of_parts (by rw [hu.comp]) p t).trans hx, rfl, hdram, hkv, hcatches, hcores, hctl⟩

end NoEffect

/-- A target keeps its steps where its command opens. -/
theorem State.openCommand_head {s : State} {p t : Nat} {pick : List Byte → Bool} {c : StepCtx} (h : s.stepAt p t pick = some c) :
    ∃ x, (s.openCommand c).tgt c.p c.t = some x ∧ x.steps.head?.map (·.1) = some c.idx := by
  obtain ⟨rfl, rfl, -, htgt, hhead, -⟩ := State.stepAt_spec h
  have hsteps := (State.StepFrame.openCommand s c).steps
  rw [htgt, Option.map_some, Option.map_eq_some_iff] at hsteps
  obtain ⟨x, hx, heq⟩ := hsteps
  exact ⟨x, hx, by rw [heq, hhead]; rfl⟩

/-- A refused step ends with its code and has no effect (R103). -/
theorem State.refuseStep_noEffect {s : State} {c : StepCtx} {x : TargetSt} (code : Nat) (hx : s.tgt c.p c.t = some x)
    (hhead : x.steps.head?.map (·.1) = some c.idx) :
    NoEffect s (s.refuseStep c code) ∧ (s.refuseStep c code).tgt c.p c.t = some { x with phase := .done code false } := by
  have htgt := State.tgt_setPhase (.done code false) hx hhead
  have heff : NoEffect s (s.setPhase c.p c.t c.idx (.done code false)) := .modTgt s _ _ _
  unfold State.refuseStep
  dsimp only
  split
  · obtain ⟨r, o, h⟩ := (s.setPhase c.p c.t c.idx (.done code false)).winRefused_frame c.p
    rw [h]
    exact ⟨heff.trans (.withRO ⟨r, o, rfl⟩), htgt⟩
  · exact ⟨heff, htgt⟩

/-- The job that runs stops where it has stopped before its command opened. -/
theorem State.openCommand_stopping {s : State} {c : StepCtx} {j : Job} (hj : runningJob s c.p = some j) :
    ∃ k, runningJob (s.openCommand c) c.p = some k ∧ k.stopping = j.stopping := by
  obtain ⟨r, o, f, h⟩ := s.openCommand_frame c
  rw [h]
  exact runningJob_modTgt_stopping c.t f (s := s.withRO r o) hj

/-- A step that waits on its header catch in a job that goes on has no effect (R97). -/
theorem State.waitHead_noEffect {s : State} {c : StepCtx} {x : TargetSt} {j : Job} (hx : s.tgt c.p c.t = some x)
    (hhead : x.steps.head?.map (·.1) = some c.idx) (hj : runningJob s c.p = some j) (hgo : j.stopping = false) :
    NoEffect s ((s.setPhase c.p c.t c.idx .waitHead).meetWait c.p c.t) ∧
      ((s.setPhase c.p c.t c.idx .waitHead).meetWait c.p c.t).tgt c.p c.t = some { x with phase := .waitHead } := by
  obtain ⟨k, hk, hstop⟩ := runningJob_modTgt_stopping c.t _ hj
  rw [State.meetWait_goes_on c.t (s := s.setPhase c.p c.t c.idx .waitHead) hk (hstop.trans hgo)]
  exact ⟨.modTgt s _ _ _, State.tgt_setPhase _ hx hhead⟩

/-- A catch that holds no count gives none. -/
theorem State.tryTake_empty {s : State} {k : Nat} (p t : Nat) (h : s.catchAt k = 0) : s.tryTake p t k 1 = none := by
  simp [State.tryTake, h]

end Sys2Proof.Machine
end

section
open Sys2Proof Sys2Proof.Machine Sys2Proof.Safety

/-- Settles O25: the command commits its run, and a run that stops at the checks or at the header WAIT has opened the command and
set the step's phase. -/
theorem refusedAndWaitingSteps : Obligations.RefusedAndWaitingSteps := by
  unfold Obligations.RefusedAndWaitingSteps
  intro i p t pick check s hof
  obtain ⟨body, u, hexec, hu⟩ := exec_of_stepOf hof s
  refine ⟨fun hnone => ?none, fun c hat hfresh => ⟨fun code hcode hne => ?refused, fun hcode hwait hgo hcatch => ?waits⟩⟩
  case none => rw [hexec, hu.idle (State.runStep_none body hnone)]
  all_goals
    obtain ⟨rfl, rfl, -⟩ := State.stepAt_spec hat
    obtain ⟨x, hx, hhead⟩ := State.openCommand_head hat
  case refused =>
    obtain ⟨heff, htgt⟩ := State.refuseStep_noEffect code hx hhead
    rw [State.runStep_refused body hat hfresh (hcode ▸ hne), hcode] at hu
    obtain ⟨y, hy⟩ := ((NoEffect.openCommand s c).trans heff).committed hu htgt
    exact ⟨u, y, hexec, hy⟩
  case waits =>
    have hempty : (s.openCommand c).catchAt (catchKey c.p (hCblk c.b) (hWaitIx c.b)) = 0 := by
      rw [State.catchAt, (NoEffect.openCommand s c).catches]
      exact hcatch
    obtain ⟨k, hk, hstop⟩ := State.openCommand_stopping (State.stepAt_job hat)
    obtain ⟨heff, htgt⟩ := State.waitHead_noEffect hx hhead hk (hstop.trans hgo)
    rw [State.runStep_waits body hat hfresh hcode hwait (State.tryTake_empty _ _ hempty)] at hu
    obtain ⟨y, hy⟩ := ((NoEffect.openCommand s c).trans heff).committed hu htgt
    exact ⟨u, y, hexec, hy⟩

end

section
/-!
PROOFS. The catches: their counts, the CATCH steps, the waiters (R121 to R123).
-/
namespace Sys2Proof.Machine
open Sys2Proof.Safety

/-! ### Counts -/

@[simp] theorem State.catchAt_setCatch_self (s : State) (k v : Nat) : (s.setCatch k v).catchAt k = v :=
  alGet_alPut_self 0 s.comp.catches k v

theorem State.catchAt_setCatch_ne (s : State) {k n : Nat} (v : Nat) (h : n ≠ k) : (s.setCatch k v).catchAt n = s.catchAt n :=
  congrArg (Option.getD · 0) (alGet_alPut_ne 0 s.comp.catches k n v h)

theorem State.catchAt_of_catches {s u : State} (h : u.comp.catches = s.comp.catches) (k : Nat) : u.catchAt k = s.catchAt k := by
  rw [State.catchAt, State.catchAt, h]

theorem alGet_filter {α : Type} (f : Nat → Bool) (l : List (Nat × α)) (k : Nat) :
    alGet (l.filter fun x => f x.1) k = if f k then alGet l k else none := by
  induction l with
  | nil => simp [alGet]
  | cons x l ih =>
    obtain ⟨i, v⟩ := x
    by_cases hi : k = i
    · subst hi
      cases hf : f k <;> simp [hf, alGet, ih]
    · cases hf : f i <;> simp [hf, alGet, ih, hi]

@[simp] theorem State.catchAt_modTgt (s : State) (p t : Nat) (f : TargetSt → TargetSt) (k : Nat) :
    (s.modTgt p t f).catchAt k = s.catchAt k := rfl

@[simp] theorem State.tgt_setCatch (s : State) (k v p t : Nat) : (s.setCatch k v).tgt p t = s.tgt p t := rfl

/-- The state with other catches. -/
def State.withCatches (s : State) (l : List (Nat × Nat)) : State := { s with comp := { s.comp with catches := l } }

/-- A block's catches cleared are 0, and the others stand (R122). -/
theorem State.catchAt_clearBlock (s : State) (blk k : Nat) :
    (s.withCatches (s.comp.catches.filter fun x => x.1 / 64 != blk)).catchAt k = if k / 64 = blk then 0 else s.catchAt k := by
  have hget : (s.withCatches (s.comp.catches.filter fun x => x.1 / 64 != blk)).catchAt k =
      (if k / 64 != blk then alGet s.comp.catches k else none).getD 0 :=
    congrArg (Option.getD · 0) (alGet_filter (fun i => i / 64 != blk) s.comp.catches k)
  rw [hget]
  by_cases h : k / 64 = blk <;> simp [h, State.catchAt]

/-! ### Taking a count (R123) -/

theorem State.tryTake_takes {s : State} {p t k v : Nat} (hcount : v ≤ s.catchAt k) (hfirst : ∀ w ∈ s.waiters p k, t ≤ w) :
    s.tryTake p t k v = some (s.setCatch k (s.catchAt k - v)) := by
  refine if_pos ⟨hcount, ?_⟩
  simpa using hfirst

theorem State.tryTake_waits {s : State} {p t k v : Nat} (h : s.catchAt k < v ∨ ∃ w ∈ s.waiters p k, w < t) :
    s.tryTake p t k v = none := by
  refine if_neg fun htake => ?_
  obtain ⟨hcount, hfirst⟩ := htake
  obtain hless | ⟨w, hw, hbefore⟩ := h
  · omega
  · have hnot : ¬ w < t := by
      simp only [Bool.not_eq_true', List.any_eq_false, decide_eq_true_eq] at hfirst
      exact hfirst w hw
    exact hnot hbefore

/-! ### What the start of a step leaves of its job -/

/-- Between two states of a step's command its target's steps stand, and whether its job stops. -/
structure State.JobFrame (p t : Nat) (z s : State) : Prop where
  commits : commitStep z s = s
  steps : (s.tgt p t).map TargetSt.steps = (z.tgt p t).map TargetSt.steps
  stopping : (runningJob s p).map Job.stopping = (runningJob z p).map Job.stopping

namespace State.JobFrame

variable {p t : Nat} {z s u : State}

theorem trans (h : State.JobFrame p t z s) (h' : State.JobFrame p t s u) : State.JobFrame p t z u :=
  ⟨commitStep_trans h.commits h'.commits, h'.steps.trans h.steps, h'.stopping.trans h.stopping⟩

theorem of_parts (hcommits : commitStep z s = s) (h : s.comp.parts = z.comp.parts) : State.JobFrame p t z s :=
  ⟨hcommits, by rw [State.tgt_of_parts h], by rw [runningJob_of_parts h]⟩

theorem modJob (s : State) {f : Job → Job} (htargets : ∀ j, (f j).targets = j.targets)
    (hstopping : ∀ j, (f j).stopping = j.stopping) : State.JobFrame p t s (s.modJob p f) := by
  refine ⟨rfl, by rw [s.tgt_modJob p t htargets], ?_⟩
  rw [runningJob_modJob, Option.map_map]
  congr 1
  funext j
  exact hstopping j

theorem modTgt (s : State) {f : TargetSt → TargetSt} (hid : ∀ x, (f x).id = x.id) (hsteps : ∀ x, (f x).steps = x.steps) :
    State.JobFrame p t s (s.modTgt p t f) := by
  refine ⟨rfl, (State.StepFrame.modTgt s hid hsteps).steps, ?_⟩
  rw [runningJob_modTgt, Option.map_map]
  rfl

theorem openCommand (s : State) (c : StepCtx) : State.JobFrame c.p c.t s (s.openCommand c) := by
  have hframe := State.StepFrame.openCommand s c
  refine ⟨hframe.commits, hframe.steps, ?_⟩
  obtain ⟨r, o, f, h⟩ := s.openCommand_frame c
  rw [h, runningJob_modTgt, Option.map_map]
  rfl

theorem startStep (s : State) (c : StepCtx) : State.JobFrame c.p c.t s (s.startStep c) := by
  unfold State.startStep State.markLapsed
  refine .trans (.trans (.trans ?unit (.modTgt _ ?_ ?_)) (.modJob _ ?_ ?_)) (.modJob _ ?_ ?_)
  case unit =>
    split
    · split <;> exact .of_parts rfl rfl
    · split <;> exact .of_parts rfl rfl
  all_goals exact fun _ => rfl

end State.JobFrame

/-- Where a step's effect takes place its target's steps stand as before the command, and whether its job stops. -/
theorem effectOn_job {z s : State} {c : StepCtx} {check : State → StepCtx → Nat} (h : effectOn z c check s) :
    State.JobFrame c.p c.t z s := by
  obtain ⟨-, rfl⟩ | ⟨-, rfl⟩ | ⟨-, -, ⟨-, rfl⟩ | ⟨-, y, hy, rfl⟩⟩ := h
  · exact .of_parts rfl rfl
  · exact .startStep z c
  · exact (State.JobFrame.openCommand z c).trans (.startStep _ c)
  · have htake : State.JobFrame c.p c.t (z.openCommand c) y := by
      unfold State.tryTake at hy
      split at hy
      · cases hy
        exact .of_parts rfl rfl
      · cases hy
    exact ((State.JobFrame.openCommand z c).trans htake).trans (.startStep _ c)

/-! ### The CATCH steps -/

/-- The step that a command runs, and the state on which it has its effect. -/
theorem readyStep_of_stepOf {i : Instr} {p t : Nat} {pick : List Byte → Bool} {check : State → StepCtx → Nat} {z s : State}
    {c : StepCtx} (hof : stepOf i = some (p, t, pick, check)) (h : readyStep i z s c) :
    z.stepAt p t pick = some c ∧ effectOn z c check s := by
  obtain ⟨_, _, _, _, hof', hat, heff⟩ := h
  rw [hof] at hof'
  cases hof'
  exact ⟨hat, heff⟩

section
variable {z s : State} {p t : Nat} {pick : List Byte → Bool} {check : State → StepCtx → Nat} {c : StepCtx}

theorem effectOn_head (hat : z.stepAt p t pick = some c) (h : effectOn z c check s) :
    ∃ x, s.tgt c.p c.t = some x ∧ x.steps.head?.map (·.1) = some c.idx := by
  have hsteps := (effectOn_job h).steps
  obtain ⟨rfl, rfl, -, htgt, hhead, -⟩ := State.stepAt_spec hat
  rw [htgt, Option.map_some, Option.map_eq_some_iff] at hsteps
  obtain ⟨x, hx, heq⟩ := hsteps
  exact ⟨x, hx, by rw [heq, hhead]; rfl⟩

theorem effectOn_stopping (hat : z.stepAt p t pick = some c) (h : effectOn z c check s) :
    ∃ j, runningJob s c.p = some j ∧ j.stopping = c.job.stopping := by
  have hstop := (effectOn_job h).stopping
  obtain ⟨rfl, -⟩ := State.stepAt_spec hat
  rw [State.stepAt_job hat, Option.map_some, Option.map_eq_some_iff] at hstop
  exact hstop

/-- A CATCH step is over with a status: the catches are those of a list, its target stands at its end, and nothing else has
changed. -/
structure CatchDone (s u : State) (c : StepCtx) (p t status : Nat) (l : List (Nat × Nat)) : Prop where
  done : stepDone s u c status
  only : onlyTgt s u p t
  catches : u.comp.catches = l
  frame : u = { s with comp := { s.comp with catches := u.comp.catches, parts := u.comp.parts } }

theorem CatchDone.catchAt {u : State} {status : Nat} {l : List (Nat × Nat)} (h : CatchDone s u c p t status l) (k : Nat) :
    u.catchAt k = (s.withCatches l).catchAt k :=
  State.catchAt_of_catches h.catches k

/-- Where the catches stand, nothing but the target has changed. -/
theorem CatchDone.frame_parts {u : State} {status : Nat} (h : CatchDone s u c p t status s.comp.catches) :
    u = { s with comp := { s.comp with parts := u.comp.parts } } := by
  have hframe := h.frame
  rw [h.catches] at hframe
  exact hframe

/-- What a step whose body leaves a list of catches has done when its command is over. -/
theorem catchDone_of_body {body : State → StepCtx → Option (State × StepPhase)} {l : List (Nat × Nat)} {status : Nat}
    {wrote : Bool} (hat : z.stepAt p t pick = some c) (heff : effectOn z c check s)
    (hbody : body s c = some (s.withCatches l, .done status wrote)) :
    CatchDone s (commitStep z (z.runStep p t pick check body)) c p t status l := by
  obtain ⟨x, hx, hhead⟩ := effectOn_head hat heff
  obtain ⟨f, heq, hdone⟩ := State.effect_done hbody (x := x) hx hhead
  have hcommit : commitStep z (s.effect c body) = (s.withCatches l).modTgt c.p c.t f := by
    rw [heq]
    exact commitStep_trans (effectOn_job heff).commits rfl
  obtain ⟨rfl, rfl, -⟩ := State.stepAt_spec hat
  rw [State.runStep_effect body hat heff, hcommit]
  exact ⟨⟨x, wrote, hx, hdone⟩, ⟨f, rfl⟩, rfl, rfl⟩

/-- A CATCH WAIT that takes no count waits, or, in a job that stops, ends its command (R123, R231). -/
theorem catchWaits_of_body {body : State → StepCtx → Option (State × StepPhase)} {v : Nat}
    (hat : z.stepAt p t pick = some c) (heff : effectOn z c check s) (hbody : body s c = some (s, .catchWait v)) :
    ∃ u x, commitStep z (z.runStep p t pick check body) = u ∧ s.tgt p t = some x ∧ onlyTgt s u p t ∧
      (c.job.stopping = false → u.tgt p t = some { x with phase := .catchWait v }) ∧
      (c.job.stopping = true → ∃ y, u.tgt p t = some y ∧ y.cmdOpen = false ∧ y.steps = []) ∧
      u = { s with comp := { s.comp with parts := u.comp.parts } } := by
  obtain ⟨rfl, rfl, -⟩ := State.stepAt_spec hat
  obtain ⟨x, hx, hhead⟩ := effectOn_head hat heff
  obtain ⟨j, hj, hjob⟩ := effectOn_stopping hat heff
  obtain ⟨k, hk, hstop⟩ : ∃ k, runningJob (s.setPhase c.p c.t c.idx (.catchWait v)) c.p = some k ∧ k.stopping = j.stopping :=
    runningJob_modTgt_stopping c.t _ hj
  have hphase := State.tgt_setPhase (.catchWait v) hx hhead
  have heffect : s.effect c body = (s.setPhase c.p c.t c.idx (.catchWait v)).meetWait c.p c.t := by
    rw [State.effect, hbody]
  obtain ⟨f, hf⟩ : ∃ f, s.effect c body = s.modTgt c.p c.t f := by
    obtain ⟨g, -, -, hmeet⟩ := (s.setPhase c.p c.t c.idx (.catchWait v)).meetWait_modTgt c.p c.t
    rw [heffect, hmeet, State.setPhase, State.modTgt_modTgt _ _ _ fun x => by split <;> rfl]
    exact ⟨_, rfl⟩
  have hcommit : commitStep z (s.effect c body) = s.effect c body := by
    rw [hf]
    exact commitStep_trans (effectOn_job heff).commits rfl
  refine ⟨s.effect c body, x, by rw [State.runStep_effect body hat heff, hcommit], hx, ⟨f, by rw [hf]⟩, fun hgo => ?goes_on,
    fun hst => ?stops, by rw [hf]; rfl⟩
  case goes_on => rw [heffect, State.meetWait_goes_on _ hk (by rw [hstop, hjob, hgo]), hphase]
  case stops =>
    rw [heffect, State.meetWait_stops _ hk (by rw [hstop, hjob, hst]),
      State.tgt_modTgt _ _ _ (fun x => by split <;> simp [TargetSt.stopNow_id]), hphase]
    refine ⟨_, rfl, ?_⟩
    cases hs : x.steps with
    | nil => simp [hs] at hhead
    | cons y l => simp [TargetSt.isWaiting, TargetSt.stopNow]

end

/-- A CATCH step that sets one catch leaves the others. -/
theorem CatchDone.setCatch {s u : State} {c : StepCtx} {p t status k v : Nat}
    (h : CatchDone s u c p t status (s.setCatch k v).comp.catches) :
    u.catchAt k = v ∧ ∀ n, n ≠ k → u.catchAt n = s.catchAt n :=
  ⟨(h.catchAt k).trans (s.catchAt_setCatch_self k v), fun n hn => (h.catchAt n).trans (s.catchAt_setCatch_ne v hn)⟩

/-- A write that leaves a pair whose copies agree is not withheld (R125). -/
theorem withheld_agrees {m : Bool} {c : StepCtx} (f : State → StepCtx → Option (State × StepPhase)) (s : State)
    (h : (m && c.part.hinged) = false) : withheld m f s c = f s c :=
  if_neg (by simp [h])

theorem withheld_differs {m : Bool} {c : StepCtx} (f : State → StepCtx → Option (State × StepPhase)) (s : State)
    (h : (m && c.part.hinged) = true) : withheld m f s c = some (s, .done 0x0403 false) :=
  if_pos h

theorem catchPostBody_eq (s : State) (c : StepCtx) : catchPostBody s c =
    some (s.setCatch c.catch' (min (s.catchAt c.catch' + leAt c.b 0x0A 2) 65535),
      .done (if 65535 < s.catchAt c.catch' + leAt c.b 0x0A 2 then 0x0342 else 0)) := by
  simp [catchPostBody, State.postCatch, codeIf]

theorem catchWaitBody_takes {s : State} {c : StepCtx} (hcount : leAt c.b 0x0A 2 ≤ s.catchAt c.catch')
    (hfirst : ∀ w ∈ s.waiters c.p c.catch', c.t ≤ w) : catchWaitBody s c =
      some (s.setCatch c.catch' (s.catchAt c.catch' - leAt c.b 0x0A 2), .done 0 false) := by
  rw [catchWaitBody, State.tryTake_takes hcount hfirst]

theorem catchWaitBody_waits {s : State} {c : StepCtx}
    (h : s.catchAt c.catch' < leAt c.b 0x0A 2 ∨ ∃ w ∈ s.waiters c.p c.catch', w < c.t) :
    catchWaitBody s c = some (s, .catchWait (leAt c.b 0x0A 2)) := by
  rw [catchWaitBody, State.tryTake_waits h]

/-! ### The waiters -/

/-- The state u is s but for catches and the partitions' jobs. -/
def catchPart (s u : State) : State := { s with comp := { s.comp with catches := u.comp.catches, parts := u.comp.parts } }

theorem catchPart_trans {s r u : State} (h : catchPart s r = r) (h' : catchPart r u = u) : catchPart s u = u := by
  have hcatch : catchPart (catchPart s r) u = catchPart s u := rfl
  rw [← hcatch, h, h']

theorem commitStep_of_catchPart {s u : State} (h : catchPart s u = u) : commitStep s u = u := by
  have hcommit : commitStep s (catchPart s u) = catchPart s u := rfl
  rwa [h] at hcommit

/-- A target whose wait has been served (R123). -/
def TargetSt.served (x : TargetSt) : TargetSt := { x with phase := if x.phase = .waitHead then .ready else .done 0 false }

/-- What the waiters of a list may have taken of a catch. -/
structure CatchServed (p k : Nat) (l : List Nat) (s u : State) : Prop where
  takes : u.catchAt k ≤ s.catchAt k
  others : ∀ j, j ≠ k → u.catchAt j = s.catchAt j
  tgts : ∀ y, y ∉ l → u.tgt p y = s.tgt p y
  frame : catchPart s u = u

theorem CatchServed.refl (p k : Nat) (l : List Nat) (s : State) : CatchServed p k l s s :=
  ⟨le_refl _, fun _ _ => rfl, fun _ _ => rfl, rfl⟩

theorem CatchServed.cons {p k t : Nat} {l : List Nat} {s r u : State} (h : CatchServed p k [t] s r)
    (h' : CatchServed p k l r u) : CatchServed p k (t :: l) s u where
  takes := h'.takes.trans h.takes
  others j hj := (h'.others j hj).trans (h.others j hj)
  tgts y hy := by
    obtain ⟨hne, hmem⟩ := not_or.1 (mt List.mem_cons.2 hy)
    exact (h'.tgts y hmem).trans (h.tgts y (by simpa using hne))
  frame := catchPart_trans h.frame h'.frame

/-- One waiter served takes its count, and no other catch or target changes. -/
theorem catchServed_take (s : State) (p k t v : Nat) :
    CatchServed p k [t] s ((s.setCatch k (s.catchAt k - v)).modTgt p t TargetSt.served) where
  takes := by
    rw [State.catchAt_modTgt, State.catchAt_setCatch_self]
    exact Nat.sub_le _ _
  others j hj := by rw [State.catchAt_modTgt, State.catchAt_setCatch_ne _ _ hj]
  tgts y hy := State.tgt_modTgt_ne _ p (fun _ => rfl) (by simpa using hy)
  frame := rfl

/-- A waiter is served where the catch holds its count. -/
theorem State.serveOne_takes {s : State} {p k t i v : Nat} {x : TargetSt} (hx : s.tgt p t = some x)
    (hwaits : x.waits p = some (i, v)) (hv : v ≤ s.catchAt k) :
    s.serveOne p k t = some ((s.setCatch k (s.catchAt k - v)).modTgt p t TargetSt.served) := by
  simp only [State.serveOne, hx, hwaits, Option.bind_eq_bind, Option.bind_some]
  exact if_pos hv

theorem State.serveOne_stops {s : State} {p k t i v : Nat} {x : TargetSt} (hx : s.tgt p t = some x)
    (hwaits : x.waits p = some (i, v)) (hv : s.catchAt k < v) : s.serveOne p k t = none := by
  simp [State.serveOne, hx, hwaits, hv]

/-- A waiter that is served takes a count that the catch holds. -/
theorem State.serveOne_eq_some {s u : State} {p k t : Nat} (h : s.serveOne p k t = some u) :
    ∃ v, u = (s.setCatch k (s.catchAt k - v)).modTgt p t TargetSt.served := by
  simp only [State.serveOne, Option.bind_eq_bind, Option.bind_eq_some_iff] at h
  obtain ⟨x, -, ⟨i, v⟩, -, h⟩ := h
  dsimp only at h
  split at h
  · cases h
    exact ⟨v, rfl⟩
  · cases h

theorem State.serveCatch_served (p k : Nat) (l : List Nat) (s : State) : CatchServed p k l s (s.serveCatch p k l) := by
  induction l generalizing s with
  | nil => exact .refl p k [] s
  | cons t l ih =>
    unfold State.serveCatch
    cases h : s.serveOne p k t with
    | none => exact .refl p k _ s
    | some r =>
      obtain ⟨v, rfl⟩ := State.serveOne_eq_some h
      exact (catchServed_take s p k t v).cons (ih _)

theorem State.serveCatch_goes_on {s r : State} {p k t : Nat} (l : List Nat) (h : s.serveOne p k t = some r) :
    s.serveCatch p k (t :: l) = r.serveCatch p k l := by
  rw [State.serveCatch, h]

theorem State.serveCatch_stops {s : State} {p k t : Nat} (l : List Nat) (h : s.serveOne p k t = none) :
    s.serveCatch p k (t :: l) = s := by
  rw [State.serveCatch, h]

/-- The first waiter in target order is served where the catch holds its count (R123). -/
theorem State.serveCatch_first {s : State} {p k t i v : Nat} {x : TargetSt} {l : List Nat} (hx : s.tgt p t = some x)
    (hwaits : x.waits p = some (i, v)) (hv : v ≤ s.catchAt k) (hnot : t ∉ l) :
    (s.serveCatch p k (t :: l)).tgt p t = some x.served ∧ (s.serveCatch p k (t :: l)).catchAt k ≤ s.catchAt k - v ∧
      (l = [] → (s.serveCatch p k (t :: l)).catchAt k = s.catchAt k - v) := by
  have hrest := State.serveCatch_served p k l ((s.setCatch k (s.catchAt k - v)).modTgt p t TargetSt.served)
  rw [State.serveCatch_goes_on l (State.serveOne_takes hx hwaits hv)]
  refine ⟨?_, by simpa using hrest.takes, fun hl => ?_⟩
  · rw [hrest.tgts t hnot, State.tgt_modTgt _ _ _ (f := TargetSt.served) fun _ => rfl, State.tgt_setCatch, hx]
    rfl
  · subst hl
    exact s.catchAt_setCatch_self k _

theorem State.waiters_nodup (s : State) (p k : Nat) : (s.waiters p k).Nodup := List.nodup_range.filter _

@[simp] theorem State.tgt_pullBack (s : State) (p i t : Nat) : (s.pullBack p i).tgt p t = s.tgt p t :=
  s.tgt_modJob p t fun _ => rfl

/-- Delivery goes back where a command is to run again (R234). -/
theorem State.pullBack_dispatch {s : State} {p : Nat} {j : Job} (i : Nat) (hj : runningJob s p = some j) :
    ∃ k, runningJob (s.pullBack p i) p = some k ∧ k.dispatch = min j.dispatch i :=
  ⟨_, (runningJob_modJob s p _).trans (congrArg _ hj), rfl⟩

/-- A target whose wait is abandoned: its command runs again from its first step (R123, R234). -/
def TargetSt.abandoned (stopped : Bool) (x : TargetSt) : TargetSt :=
  { x with steps := [], phase := .fresh, cmdOpen := false, skip := 0, resume := x.cmdStart, stopped := stopped }

/-- A wait is abandoned where no further post can come (R53, R123, R188). -/
theorem State.abandonWait_eq {s : State} {p t : Nat} {x : TargetSt} {j : Job} (hx : s.tgt p t = some x)
    (hwaits : (x.waits p).isSome = true) (hj : runningJob s p = some j) (hwhy : j.suspending = true ∨ s.held = true)
    (hposts : ∀ y ∈ j.targets, y.cmdOpen = false ∨ (y.waits p).isSome = true) :
    s.abandonWait p t = (s.modTgt p t (TargetSt.abandoned j.suspending)).pullBack p x.cmdStart := by
  have hjob : s.comp.parts[p]?.bind (·.job) = some j := hj
  have hmore : j.noMorePosts p = true := by simpa [Job.noMorePosts] using hposts
  have hdue : ((x.waits p).isSome && (j.suspending || s.held) && j.noMorePosts p) = true := by simp [hwaits, hwhy, hmore]
  unfold State.abandonWait
  rw [hjob, hx]
  exact if_pos hdue

end Sys2Proof.Machine
end

section
open Sys2Proof Sys2Proof.Machine Sys2Proof.Safety

/-- Settles O26: a CATCH step's body leaves a list of catches and is over, or waits; the waiters are served by induction on their
list. -/
theorem catchStepsAndWaiters : Obligations.CatchStepsAndWaiters := by
  unfold Obligations.CatchStepsAndWaiters
  refine ⟨fun z s p t c => ⟨fun m hready => ⟨fun hagree => ?post, fun hdiffer => ?mismatch⟩, fun m hready hagree => ?set,
      fun m hready hagree => ?reset, fun hready => ⟨fun ⟨hcount, hfirst⟩ => ?takes, fun hno => ?waits⟩⟩,
    fun s blk ix w l x k v hw hx hwaits => ⟨fun hv => ?served, fun hv => ?stops⟩,
    fun s p t x hx hwaits => ⟨?timeout, fun j hj hwhy hposts => ?abandon⟩⟩
  case post =>
    obtain ⟨hat, heff⟩ := readyStep_of_stepOf rfl hready
    have hdone := catchDone_of_body hat heff ((withheld_agrees _ s hagree).trans (catchPostBody_eq s c))
    exact ⟨_, rfl, hdone.setCatch.1, hdone.setCatch.2, hdone.done, hdone.only, hdone.frame⟩
  case mismatch =>
    obtain ⟨hat, heff⟩ := readyStep_of_stepOf rfl hready
    have hdone := catchDone_of_body hat heff (withheld_differs catchPostBody s hdiffer)
    exact ⟨_, rfl, hdone.done, hdone.only, hdone.frame_parts⟩
  case set =>
    obtain ⟨hat, heff⟩ := readyStep_of_stepOf rfl hready
    have hdone := catchDone_of_body hat heff (withheld_agrees catchSetBody s hagree)
    exact ⟨_, rfl, hdone.setCatch.1, hdone.setCatch.2, hdone.done, hdone.only, hdone.frame⟩
  case reset =>
    obtain ⟨hat, heff⟩ := readyStep_of_stepOf rfl hready
    obtain ⟨hp, -⟩ := State.stepAt_spec hat
    have hdone := catchDone_of_body hat heff (withheld_agrees resetBlockBody s hagree)
    refine ⟨_, rfl, fun k => ?_, hdone.done, hdone.only, hdone.frame⟩
    rw [hdone.catchAt, State.catchAt_clearBlock, hp]
  case takes =>
    obtain ⟨hat, heff⟩ := readyStep_of_stepOf rfl hready
    obtain ⟨hp, ht, -⟩ := State.stepAt_spec hat
    rw [← hp, ← ht] at hfirst
    have hdone := catchDone_of_body hat heff (catchWaitBody_takes hcount hfirst)
    exact ⟨_, rfl, hdone.setCatch.1, hdone.setCatch.2, hdone.done, hdone.only, hdone.frame⟩
  case waits =>
    obtain ⟨hat, heff⟩ := readyStep_of_stepOf rfl hready
    obtain ⟨hp, ht, -⟩ := State.stepAt_spec hat
    rw [← hp, ← ht] at hno
    obtain ⟨u, x, hu, hwaits⟩ := catchWaits_of_body hat heff (catchWaitBody_waits hno)
    exact ⟨u, x, congrArg _ hu, hwaits⟩
  case served =>
    have hserved := State.serveCatch_served (blk.val / 8) (blk.val * 64 + ix.val) (w :: l) s
    have hnot : w ∉ l := (List.nodup_cons.1 (hw ▸ s.waiters_nodup _ _)).1
    obtain ⟨htgt, hless, hlast⟩ := State.serveCatch_first hx hwaits hv hnot
    refine ⟨_, ?_, htgt, hless, hlast, hserved.others, hserved.tgts, hserved.frame.symm⟩
    rw [exec_catchServe, execCatchServe, hw, commitStep_of_catchPart hserved.frame]
  case stops =>
    rw [exec_catchServe, execCatchServe, hw, State.serveCatch_stops l (State.serveOne_stops hx hwaits hv), commitStep_self]
  case timeout =>
    refine ⟨_, rfl, ?_, ⟨_, rfl⟩, rfl⟩
    exact (State.tgt_modTgt s p t fun y => by split <;> rfl).trans (by rw [hx, Option.map_some, if_pos hwaits])
  case abandon =>
    obtain ⟨k, hk, hdispatch⟩ := State.pullBack_dispatch x.cmdStart
      ((runningJob_modTgt s p t (TargetSt.abandoned j.suspending)).trans (congrArg _ hj))
    refine ⟨_, k, ?_, ?_, fun y hy => ?_, hk, hdispatch, rfl⟩
    · rw [exec_catchWaitAbandon, execCatchWaitAbandon, State.abandonWait_eq hx hwaits hj hwhy hposts]
      rfl
    · rw [State.tgt_pullBack, State.tgt_modTgt _ _ _ (f := TargetSt.abandoned j.suspending) fun _ => rfl, hx]
      rfl
    · rw [State.tgt_pullBack, State.tgt_modTgt_ne _ _ (f := TargetSt.abandoned j.suspending) (fun _ => rfl) hy]

end

section
/-!
PROOFS. The end of a step: its events and counts, its POST, its code, and what its target does next (R97, R98, R103, R228, R231).
-/
namespace Sys2Proof.Machine
open Sys2Proof.Safety

/-! ### Events and counts change registers and messages only -/

theorem State.bump_frame (s : State) (k n : Nat) : ∃ r o, s.bump k n = s.withRO r o := ⟨_, s.out, rfl⟩

theorem State.unitEvent_frame (s : State) (p t bits : Nat) : ∃ r o, s.unitEvent p t bits = s.withRO r o := by
  unfold State.unitEvent
  split
  · exact s.withRO_self
  · split
    · exact s.raise_frame _ _
    · exact foldl_withRO _ (fun s _ => s.raise_frame _ _) _ s

theorem State.coreCount_frame (s : State) (p t o n : Nat) : ∃ r o', s.coreCount p t o n = s.withRO r o' := by
  refine foldl_withRO _ (fun s k => ?_) _ s
  split
  · exact s.bump_frame _ _
  · exact s.withRO_self

theorem State.commandDone_frame (s : State) (p t : Nat) : ∃ r o, s.commandDone p t = s.withRO r o := by
  unfold State.commandDone
  dsimp only
  split
  · exact s.unitEvent_frame p t 1
  · exact withRO_trans (s.unitEvent_frame p t 1) (State.coreCount_frame _ _ _ _ _)

theorem State.lastStatus_frame (s : State) (p t status op : Nat) : ∃ r o, s.lastStatus p t status op = s.withRO r o := by
  unfold State.lastStatus
  dsimp only
  split
  · exact withRO_trans (s.setReg_frame _ _) (State.bump_frame _ _ _)
  · exact foldl_withRO _ (fun s _ => s.setReg_frame _ _) _ s

theorem State.engineEnd_frame (s : State) (p t op st : Nat) : ∃ r o, s.engineEnd p t op st = s.withRO r o := by
  unfold State.engineEnd
  split
  · exact s.withRO_self
  · split
    · split
      · exact withRO_trans (withRO_trans (s.setReg_frame _ _) (State.bump_frame _ _ _)) (State.raise_frame _ _ _)
      · exact s.withRO_self
    · exact s.withRO_self

/-! ### What a target's actions leave of its job -/

/-- The catches, the memories and the time stand; the job stands with its last write, and keeps the codes that it carries. -/
structure State.JobKept (p : Nat) (s u : State) : Prop where
  catches : u.comp.catches = s.comp.catches
  dram : u.dram = s.dram
  kv : u.kv = s.kv
  time : u.time = s.time
  job : ∀ j, runningJob s p = some j → ∃ k, runningJob u p = some k ∧ k.lastWrite = j.lastWrite ∧ j.raised ⊆ k.raised

namespace State.JobKept

variable {p : Nat} {s r u : State}

theorem refl (s : State) : State.JobKept p s s := ⟨rfl, rfl, rfl, rfl, fun j hj => ⟨j, hj, rfl, List.Subset.refl _⟩⟩

theorem trans (h : State.JobKept p s r) (h' : State.JobKept p r u) : State.JobKept p s u := by
  refine ⟨h'.catches.trans h.catches, h'.dram.trans h.dram, h'.kv.trans h.kv, h'.time.trans h.time, fun j hj => ?_⟩
  obtain ⟨k, hk, hlast, hraised⟩ := h.job j hj
  obtain ⟨l, hl, hlast', hraised'⟩ := h'.job k hk
  exact ⟨l, hl, hlast'.trans hlast, List.Subset.trans hraised hraised'⟩

theorem withRO (h : ∃ r o, u = s.withRO r o) : State.JobKept p s u := by
  obtain ⟨r, o, rfl⟩ := h
  exact ⟨rfl, rfl, rfl, rfl, fun j hj => ⟨j, hj, rfl, List.Subset.refl _⟩⟩

theorem modJob (s : State) {f : Job → Job} (hlast : ∀ j, (f j).lastWrite = j.lastWrite)
    (hraised : ∀ j, j.raised ⊆ (f j).raised) : State.JobKept p s (s.modJob p f) :=
  ⟨rfl, rfl, rfl, rfl, fun j hj => ⟨f j, by rw [runningJob_modJob, hj, Option.map_some], hlast j, hraised j⟩⟩

theorem modTgt (s : State) (t : Nat) (f : TargetSt → TargetSt) : State.JobKept p s (s.modTgt p t f) :=
  .modJob s (fun _ => rfl) fun _ => List.Subset.refl _

theorem pullBack (s : State) (i : Nat) : State.JobKept p s (s.pullBack p i) :=
  .modJob s (fun _ => rfl) fun _ => List.Subset.refl _

theorem stopJob (s : State) : State.JobKept p s (s.stopJob p) := .modJob s (fun _ => rfl) fun _ => List.Subset.refl _

theorem commandDone (s : State) (t : Nat) : State.JobKept p s (s.commandDone p t) := .withRO (s.commandDone_frame p t)

/-- Actions that keep the job do so in any number. -/
theorem foldl {α : Type} {f : State → α → State} (h : ∀ s x, State.JobKept p s (f s x)) (l : List α) (s : State) :
    State.JobKept p s (l.foldl f s) := by
  induction l generalizing s with
  | nil => exact .refl s
  | cons x l ih => exact (h s x).trans (ih _)

end State.JobKept

/-! ### Between steps -/

/-- Each action of a target between steps is a change of targets, of where delivery stands, or of registers (R98, R231, R234). -/
theorem State.settleOne_jobKept (s : State) (p t : Nat) : State.JobKept p s (s.settleOne p t).1 := by
  unfold State.settleOne
  split
  · split
    · exact .refl s
    split
    · -- the steps of a target that stops are dropped
      refine .trans ?_ (.modTgt _ _ _)
      split
      · exact (State.JobKept.modTgt s _ _).trans (.pullBack _ _)
      · exact .refl s
    split
    · -- no step is left: a command ends, or is cut
      split
      · exact (State.JobKept.modTgt s _ _).trans (.commandDone _ _)
      · split
        · exact (State.JobKept.modTgt s _ _).trans (.pullBack _ _)
        · exact .refl s
    · -- a step too many, a step skipped, a step refused before it runs
      split
      · exact .refl s
      split
      · exact .modTgt s _ _
      split
      · dsimp only
        split
        · exact (State.JobKept.modTgt s _ _).trans (.commandDone _ _)
        · exact .modTgt s _ _
      dsimp only
      split
      · refine .trans ?_ (.modTgt _ _ _)
        split
        · exact .refl s
        · exact .withRO (s.coreBoundary_frame p t)
      · exact .refl s
  · exact .refl s

theorem State.settleTgt_jobKept (n : Nat) (s : State) (p t : Nat) : State.JobKept p s (State.settleTgt n s p t) := by
  induction n generalizing s with
  | zero => exact .refl s
  | succ n ih =>
    unfold State.settleTgt
    have hone := s.settleOne_jobKept p t
    split
    · next r hr => exact (hr ▸ hone).trans (ih r)
    · exact .refl s

theorem State.settle_jobKept (s : State) (p : Nat) : State.JobKept p s (s.settle p) := by
  refine .foldl (fun s t => ?_) _ s
  split
  · exact s.settleTgt_jobKept _ p t
  · exact .refl s

/-! ### What the end of a step commits -/

theorem commitStep_parts (s u : State) : (commitStep s u).comp.parts = u.comp.parts := rfl

theorem commitStep_catches (s u : State) : (commitStep s u).comp.catches = u.comp.catches := rfl

theorem commitStep_dram (s u : State) : (commitStep s u).dram = u.dram := rfl

theorem commitStep_kv (s u : State) : (commitStep s u).kv = u.kv := rfl

/-! ### The end of a step -/

/-- A code that a step reports is one of its job's (R228). -/
theorem State.raiseCode_jobKept (s : State) (p : Nat) (r : Raised) : State.JobKept p s (s.raiseCode p r) := by
  have hraise : State.JobKept p s (s.modJob p fun j => { j with raised := j.raised ++ [r] }) :=
    .modJob s (fun _ => rfl) fun j => List.subset_append_left _ _
  unfold State.raiseCode
  dsimp only
  split
  · exact .refl s
  · split
    · exact hraise.trans (.stopJob _)
    · exact hraise

theorem State.raiseCode_raised {s : State} {p : Nat} {r : Raised} {j : Job} (hj : runningJob s p = some j) (hr : r.status ≠ 0) :
    ∃ k, runningJob (s.raiseCode p r) p = some k ∧ r ∈ k.raised := by
  unfold State.raiseCode
  rw [if_neg hr]
  dsimp only
  split
  · rw [State.stopJob, runningJob_modJob, runningJob_modJob, hj]
    exact ⟨_, rfl, by simp [Job.stop]⟩
  · rw [runningJob_modJob, hj]
    exact ⟨_, rfl, by simp⟩

/-- The header POST of a step that ends, where it posts, and whether the count saturates (R97, R122). -/
def State.endPost (s : State) (p : Nat) (b : List Byte) (post : Bool) : State × Bool :=
  if post then s.postCatch (catchKey p (hCblk b) (hPostIx b)) 1 else (s, false)

/-- What a step's end reports and counts, and its target without the step (R103, R126, R185, R217). -/
def State.endReport (s : State) (p t : Nat) (b : List Byte) (st : Nat) (cyc : Nat × Nat × Nat) : State :=
  let bits := flagBit 1 (isRefusal st) + flagBit 2 (st / 256 == 2) + flagBit 3 (st == 0x0341)
  let s2 := ((s.lastStatus p t st (hOp b)).unitEvent p t bits).engineEnd p t (hOp b) st
  let s3 := if 16 ≤ t then s2.bump (nceKey (t - 16) 0x10) cyc.1
    else ((s2.coreCount p t 0x20 cyc.1).coreCount p t 0x28 cyc.2.1).coreCount p t 0x30 cyc.2.2
  s3.modTgt p t fun x => x.endStep (isStopping st) (hLast b)

/-- The instant of a job's last write (R229). -/
def State.noteWrite (s : State) (p : Nat) (wrote : Bool) : State :=
  if wrote then s.modJob p fun j => { j with lastWrite := s.now } else s

/-- The command ends with its last step, or where the job stops (R103). -/
def State.endCommand (s : State) (p t : Nat) (ends : Bool) : State := if ends then s.commandDone p t else s

/-- The end of a step whose pair agrees: its parts in turn. The code is the step's own where the POST does not saturate. -/
theorem State.stepEnd_agrees {s : State} {p t st idx : Nat} {e : PartEntry} {x : TargetSt} {wrote post : Bool} {b : List Byte}
    (cyc : Nat × Nat × Nat) (he : s.part p = some e) (hx : s.tgt p t = some x) (hphase : x.phase = .done st wrote)
    (hhead : x.steps.head? = some (idx, b)) (hst : st ≠ 0x0403) (hpost : post = (hPost b && !isStopping st)) :
    ∃ code ends, ((s.endPost p b post).2 = false → code = st) ∧ s.stepEnd p t false cyc =
      (((((s.endPost p b post).1.endReport p t b code cyc).noteWrite p (wrote || post)).endCommand p t ends).raiseCode p
        ⟨code, t, idx⟩).settle p := by
  have hmis : (st == 0x0403) = false := by simpa using hst
  refine ⟨if (s.endPost p b post).2 then worse st 0x0342 else st,
    isStopping (if (s.endPost p b post).2 then worse st 0x0342 else st) || hLast b, fun h => by simp [h], ?_⟩
  subst hpost
  unfold State.stepEnd
  rw [he, hx]
  dsimp only
  rw [hphase, hhead]
  simp only [Bool.false_and, Bool.false_or, hmis]
  rfl

theorem State.endPost_catchAt (s : State) (p : Nat) (b : List Byte) (post : Bool) (n : Nat) :
    (s.endPost p b post).1.catchAt n = if post = true ∧ n = catchKey p (hCblk b) (hPostIx b)
      then min (s.catchAt n + 1) 65535 else s.catchAt n := by
  cases post with
  | false => rfl
  | true =>
    by_cases h : n = catchKey p (hCblk b) (hPostIx b)
    · subst h
      simp [State.endPost, State.postCatch]
    · simp [State.endPost, State.postCatch, State.catchAt_setCatch_ne _ _ h, h]

/-- A POST to a catch that holds less than the most does not saturate. -/
theorem State.endPost_room {s : State} {p : Nat} {b : List Byte} {post : Bool}
    (h : post = false ∨ s.catchAt (catchKey p (hCblk b) (hPostIx b)) < 65535) : (s.endPost p b post).2 = false := by
  cases post with
  | false => rfl
  | true =>
    have hroom : s.catchAt (catchKey p (hCblk b) (hPostIx b)) < 65535 := by simpa using h
    exact decide_eq_false (show ¬ 65535 < s.catchAt (catchKey p (hCblk b) (hPostIx b)) + 1 by omega)

/-- A POST changes nothing but its catch. -/
theorem State.endPost_keeps (s : State) (p : Nat) (b : List Byte) (post : Bool) :
    (s.endPost p b post).1 = s.withCatches (s.endPost p b post).1.comp.catches := by
  cases post <;> rfl

theorem State.endReport_jobKept (s : State) (p t : Nat) (b : List Byte) (st : Nat) (cyc : Nat × Nat × Nat) :
    State.JobKept p s (s.endReport p t b st cyc) := by
  have hreport := withRO_trans (withRO_trans (s.lastStatus_frame p t st (hOp b)) (State.unitEvent_frame _ p t
    (flagBit 1 (isRefusal st) + flagBit 2 (st / 256 == 2) + flagBit 3 (st == 0x0341)))) (State.engineEnd_frame _ p t (hOp b) st)
  unfold State.endReport
  dsimp only
  refine .trans (.withRO ?_) (.modTgt _ _ _)
  split
  · exact withRO_trans hreport (State.bump_frame _ _ _)
  · exact withRO_trans (withRO_trans (withRO_trans hreport (State.coreCount_frame _ _ _ _ _)) (State.coreCount_frame _ _ _ _ _))
      (State.coreCount_frame _ _ _ _ _)

theorem State.endCommand_jobKept (s : State) (p t : Nat) (ends : Bool) : State.JobKept p s (s.endCommand p t ends) := by
  cases ends with
  | false => exact .refl s
  | true => exact .commandDone s t

/-- A job that has written notes the instant, and keeps its codes. -/
theorem State.noteWrite_job {s : State} {p : Nat} {j : Job} (wrote : Bool) (hj : runningJob s p = some j) :
    ∃ k, runningJob (s.noteWrite p wrote) p = some k ∧ k.lastWrite = (if wrote = true then s.now else j.lastWrite) ∧
      k.raised = j.raised := by
  cases wrote with
  | false => exact ⟨j, hj, rfl, rfl⟩
  | true => exact ⟨_, (runningJob_modJob s p _).trans (congrArg _ hj), rfl, rfl⟩

theorem State.noteWrite_keeps (s : State) (p : Nat) (wrote : Bool) : (s.noteWrite p wrote).comp.catches = s.comp.catches ∧
    (s.noteWrite p wrote).dram = s.dram ∧ (s.noteWrite p wrote).kv = s.kv := by
  cases wrote <;> exact ⟨rfl, rfl, rfl⟩

/-- A job that carries a code carries it after what its targets do next. -/
theorem State.settle_raised {s : State} {p : Nat} {r : Raised} {j : Job} (hj : runningJob s p = some j) (hr : r.status ≠ 0) :
    ∀ k, runningJob ((s.raiseCode p r).settle p) p = some k → r ∈ k.raised := by
  intro k hk
  obtain ⟨i, hi, hmem⟩ := State.raiseCode_raised hj hr
  obtain ⟨l, hl, -, hraised⟩ := ((s.raiseCode p r).settle_jobKept p).job i hi
  rw [hl] at hk
  cases hk
  exact hraised hmem

end Sys2Proof.Machine
end

section
open Sys2Proof Sys2Proof.Machine Sys2Proof.Safety

/-- Settles O27: the end of a step is its POST, its report, the note of its write and its code, in turn; what follows keeps the
job, its codes and the memories. -/
theorem stepEndPostsAndRaises : Obligations.StepEndPostsAndRaises := by
  unfold Obligations.StepEndPostsAndRaises
  intro s p t e x j st idx wrote b a d v he hj hx hphase hhead hst
  obtain ⟨post, hpost⟩ : ∃ post, post = (hPost b && !isStopping st) := ⟨_, rfl⟩
  obtain ⟨code, ends, hcode, hend⟩ := State.stepEnd_agrees (a, d, v) he hx hphase hhead hst hpost
  have hkeeps := s.endPost_keeps p b post
  have hreport := (s.endPost p b post).1.endReport_jobKept p t b code (a, d, v)
  generalize (s.endPost p b post).1.endReport p t b code (a, d, v) = s1 at hend hreport
  obtain ⟨hcatches1, hdram1, hkv1⟩ := s1.noteWrite_keeps p (wrote || post)
  have hcommand := (s1.noteWrite p (wrote || post)).endCommand_jobKept p t ends
  generalize (s1.noteWrite p (wrote || post)).endCommand p t ends = s2 at hend hcommand
  have hrest := hcommand.trans ((s2.raiseCode_jobKept p ⟨code, t, idx⟩).trans (State.settle_jobKept _ p))
  have hj0 : runningJob (s.endPost p b post).1 p = some j := by rw [hkeeps]; exact hj
  obtain ⟨j1, hj1, hlast1, hraised1⟩ := hreport.job j hj0
  obtain ⟨j2, hj2, hlast2, hraised2⟩ := State.noteWrite_job (wrote || post) hj1
  obtain ⟨j3, hj3, -⟩ := hcommand.job j2 hj2
  obtain ⟨k, hk, hlast, hraised⟩ := hrest.job j2 hj2
  have hnow : s1.now = s.now := by rw [State.now, hreport.time, hkeeps]; rfl
  refine ⟨commitStep s (s.stepEnd p t false (a, d, v)), k, rfl, ?job, ?last, fun n => ?catches, fun hne hroom => ?code,
    fun r hr => ?codes, ?dram, ?kv⟩
  case job => exact (runningJob_of_parts (commitStep_parts _ _) p).trans (hend ▸ hk)
  case last =>
    rw [hlast, hlast2, hlast1, hnow]
    simp [hpost]
  case catches =>
    have hcatches : (s.stepEnd p t false (a, d, v)).comp.catches = (s.endPost p b post).1.comp.catches := by
      rw [hend, hrest.catches, hcatches1, hreport.catches]
    rw [State.catchAt_of_catches ((commitStep_catches _ _).trans hcatches), s.endPost_catchAt, hpost]
  case code =>
    have hroom' : (s.endPost p b post).2 = false := State.endPost_room (by
      rw [hpost]
      obtain h | h | h := hroom
      · simp [h]
      · simp [h]
      · exact .inr h)
    obtain rfl := hcode hroom'
    exact State.settle_raised (r := ⟨code, t, idx⟩) hj3 hne k hk
  case codes => exact hraised (hraised2 ▸ hraised1 hr)
  case dram =>
    rw [commitStep_dram, hend, hrest.dram, hdram1, hreport.dram, hkeeps]
    rfl
  case kv =>
    rw [commitStep_kv, hend, hrest.kv, hkv1, hreport.kv, hkeeps]
    rfl

end

section
/-!
PROOFS. Scratchpads: their bytes after a write, after banks change, and as a command of a step leaves them (R127, R135, R155).
-/
namespace Sys2Proof.Machine
open Sys2Proof.Safety

/-! ### Bytes of a scratchpad -/

theorem alGet_putCell_self (f : Fill) (l : List Host.Cell) (a : Nat) (b : Byte) :
    (alGet (putCell f l a b) a).getD (f.byte a) = b :=
  Mem.read_write_self ⟨f, l⟩ a b

theorem alGet_putCell_ne (f : Fill) (l : List Host.Cell) {a x : Nat} (b : Byte) (h : x ≠ a) :
    alGet (putCell f l a b) x = alGet l x := by
  unfold putCell
  split
  · exact alGet_alSet_ne l a x b h
  · exact alGet_alPut_ne 0#8 l a x b h

theorem Pad.byte_put_self (p : Pad) (a : Nat) (b : Byte) : (p.put a b).byte a = b := alGet_putCell_self _ p.cells a b

theorem Pad.byte_put_ne (p : Pad) {a x : Nat} (b : Byte) (h : x ≠ a) : (p.put a b).byte x = p.byte x := by
  unfold Pad.byte Pad.put
  rw [alGet_putCell_ne _ _ _ h]

theorem Pad.byte_putBytes_out (p : Pad) {a x : Nat} (bs : List Byte) (h : x < a ∨ a + bs.length ≤ x) :
    (p.putBytes a bs).byte x = p.byte x := by
  induction bs generalizing p a with
  | nil => rfl
  | cons b t ih =>
    rw [List.length_cons] at h
    rw [Pad.putBytes, ih _ (by omega), Pad.byte_put_ne _ _ (by omega)]

theorem Pad.byte_putBytes_in (p : Pad) (a : Nat) {i : Nat} (bs : List Byte) (h : i < bs.length) :
    (p.putBytes a bs).byte (a + i) = bs[i] := by
  induction bs generalizing p a i with
  | nil => exact absurd h (Nat.not_lt_zero i)
  | cons b t ih =>
    cases i with
    | zero => rw [Pad.putBytes, Pad.byte_putBytes_out _ _ (by omega), Nat.add_zero, Pad.byte_put_self]; rfl
    | succ i =>
      rw [Pad.putBytes, show a + (i + 1) = a + 1 + i by omega, ih _ _ (by simpa using h)]
      rfl

/-- The bytes of a scratchpad read its cells and its fills alone. -/
theorem Pad.byte_congr {p q : Pad} (hfills : p.fills = q.fills) (hcells : p.cells = q.cells) (a : Nat) : p.byte a = q.byte a := by
  rw [Pad.byte, Pad.byte, hfills, hcells]

theorem Pad.byte_write_in (p : Pad) (w a : Nat) {i : Nat} (bs : List Byte) (h : i < bs.length) :
    (p.write w a bs).byte (a + i) = bs[i] := p.byte_putBytes_in a bs h

theorem Pad.byte_write_out (p : Pad) (w : Nat) {a x : Nat} (bs : List Byte) (h : x < a ∨ a + bs.length ≤ x) :
    (p.write w a bs).byte x = p.byte x := p.byte_putBytes_out bs h

/-- Bytes computed one by one and written in a row stand in a row. -/
theorem Pad.byte_write_range (p : Pad) (w a : Nat) {i n : Nat} (f : Nat → Byte) (h : i < n) :
    (p.write w a ((List.range n).map f)).byte (a + i) = f i := by
  rw [p.byte_write_in w a _ (by simpa using h)]
  simp

end Sys2Proof.Machine
end

section
/-!
PROOFS. What the body of a step leaves when its command is over: its target's phase, and its core's scratchpad (R97, R125, R242).
-/
namespace Sys2Proof.Machine
open Sys2Proof.Safety

/-- A phase in which a target does not wait on a catch (R122, R123). -/
def StepPhase.movesOn : StepPhase → Prop
  | .waitHead => False
  | .catchWait _ => False
  | _ => True

theorem TargetSt.isWaiting_of_movesOn {x : TargetSt} (h : x.phase.movesOn) : x.isWaiting = false := by
  unfold TargetSt.isWaiting
  split
  · next hph => exact (hph ▸ h).elim
  · next hph => exact (hph ▸ h).elim
  · rfl

/-- Where a body has left r the command has left u: r with the step's target in a phase. -/
structure StepLeaves (r u : State) (p t : Nat) (ph : StepPhase) : Prop where
  tgt : ∀ x, r.tgt p t = some x → u.tgt p t = some { x with phase := ph }
  upd : ∃ f : TargetSt → TargetSt, u = r.modTgt p t f

section
variable {z s r u : State} {p t : Nat} {pick : List Byte → Bool} {check : State → StepCtx → Nat} {c : StepCtx}
  {body : State → StepCtx → Option (State × StepPhase)} {ph : StepPhase}

/-- The effect of a step that moves on sets its target's phase on what its body left. -/
theorem State.effect_leaves {x : TargetSt} (hbody : body s c = some (r, ph)) (hmoves : ph.movesOn)
    (hx : r.tgt c.p c.t = some x) (hhead : x.steps.head?.map (·.1) = some c.idx) :
    StepLeaves r (s.effect c body) c.p c.t ph := by
  have htgt := State.tgt_setPhase ph hx hhead
  obtain ⟨m, hid, hm, hmeet⟩ := (r.setPhase c.p c.t c.idx ph).meetWait_modTgt c.p c.t
  have heffect : s.effect c body = (r.setPhase c.p c.t c.idx ph).modTgt c.p c.t m := by rw [State.effect, hbody, ← hmeet]
  rw [heffect]
  refine ⟨fun y hy => ?_, ⟨_, State.modTgt_modTgt _ _ _ fun y => by split <;> rfl⟩⟩
  cases hx.symm.trans hy
  rw [State.tgt_modTgt _ _ _ hid, htgt, Option.map_some, hm _ (TargetSt.isWaiting_of_movesOn hmoves)]

/-- The command of a step whose effect takes place now commits what its body left. -/
theorem stepLeaves_of_body (hat : z.stepAt p t pick = some c) (heff : effectOn z c check s) (hbody : body s c = some (r, ph))
    (hmoves : ph.movesOn) (hcommits : commitStep s r = r)
    (hsteps : (r.tgt p t).map TargetSt.steps = (s.tgt p t).map TargetSt.steps) :
    StepLeaves r (commitStep z (z.runStep p t pick check body)) p t ph := by
  obtain ⟨y, hy, hhead⟩ := effectOn_head hat heff
  obtain ⟨rfl, rfl, -⟩ := State.stepAt_spec hat
  rw [hy, Option.map_some, Option.map_eq_some_iff] at hsteps
  obtain ⟨x, hx, heq⟩ := hsteps
  have hleaves := State.effect_leaves hbody hmoves hx (heq ▸ hhead)
  have hcommit : commitStep z (s.effect c body) = s.effect c body := by
    obtain ⟨f, hf⟩ := hleaves.upd
    rw [hf]
    exact commitStep_trans (effectOn_job heff).commits (commitStep_trans hcommits rfl)
  rwa [State.runStep_effect body hat heff, hcommit]

/-- Where the body left the jobs alone, its step is over with the status of its last phase. -/
theorem StepLeaves.stepDone {status : Nat} {wrote : Bool} (h : StepLeaves r u c.p c.t (.done status wrote))
    (hparts : r.comp.parts = s.comp.parts) {x : TargetSt} (hx : s.tgt c.p c.t = some x) : stepDone s u c status :=
  ⟨x, wrote, hx, h.tgt x ((State.tgt_of_parts hparts _ _).trans hx)⟩

/-- Where the body left the jobs alone, nothing of them has changed but the target. -/
theorem StepLeaves.onlyTgt (h : StepLeaves r u p t ph) (hparts : r.comp.parts = s.comp.parts) : onlyTgt s u p t := by
  obtain ⟨f, rfl⟩ := h.upd
  refine ⟨f, ?_⟩
  simp only [State.modTgt, State.modJob, hparts]

theorem StepLeaves.cores (h : StepLeaves r u p t ph) : u.comp.cores = r.comp.cores := by
  obtain ⟨f, rfl⟩ := h.upd
  rfl

theorem StepLeaves.dram (h : StepLeaves r u p t ph) : u.dram = r.dram := by
  obtain ⟨f, rfl⟩ := h.upd
  rfl

/-- The command leaves what the body left but for the partitions' jobs. -/
theorem StepLeaves.frame (h : StepLeaves r u p t ph) : u = { r with comp := { r.comp with parts := u.comp.parts } } := by
  obtain ⟨f, rfl⟩ := h.upd
  rfl

theorem StepLeaves.padOf (h : StepLeaves r u p t ph) (q i : Nat) : u.padOf q i = r.padOf q i := by
  obtain ⟨f, rfl⟩ := h.upd
  exact r.padOf_modTgt p t q i f

/-- The core of a step's target has the target loaded where the step's effect takes place (R242). -/
theorem effectOn_loaded (ht : t < 16) (hat : z.stepAt p t pick = some c) (heff : effectOn z c check s) :
    (s.part p).isSome ∧ ∃ n k, s.hostOf p t = some n ∧ s.comp.cores[n]? = some k ∧ k.loaded = some t := by
  obtain ⟨rfl, rfl, hpart, -, -, hcore⟩ := State.stepAt_spec hat
  have hframe := effectOn_frame ht heff
  obtain ⟨n, k, hhost, hk, hload⟩ := hcore ht
  have hloaded := hframe.loaded n
  rw [hk, Option.map_some, hload, Option.map_eq_some_iff] at hloaded
  obtain ⟨k', hk', hload'⟩ := hloaded
  exact ⟨hframe.part _ ▸ hpart, n, k', hframe.host.trans hhost, hk', hload'⟩

/-- What the command of a step has done whose body changes its scratchpad, on a state r that differs from s in its DRAM and the
registers that count accesses alone. -/
structure PadStep (s r u : State) (p t : Nat) (ph : StepPhase) (f : Pad → Pad) : Prop where
  leaves : StepLeaves (r.modPadOf p t f) u p t ph
  parts : r.comp.parts = s.comp.parts
  pad : u.padOf p t = f (s.padOf p t)
  cores : ∀ m, m ∉ s.coresOf p t → u.comp.cores[m]? = s.comp.cores[m]?

theorem padStep_of_body {f : Pad → Pad} (ht : t < 16) (hat : z.stepAt p t pick = some c) (heff : effectOn z c check s)
    (hbody : body s c = some (r.modPadOf p t f, ph)) (hmoves : ph.movesOn) (hcommits : commitStep s r = r)
    (hcomp : r.comp = s.comp) : PadStep s r (commitStep z (z.runStep p t pick check body)) p t ph f := by
  have hparts : r.comp.parts = s.comp.parts := by rw [hcomp]
  have hleaves := stepLeaves_of_body hat heff hbody hmoves (commitStep_trans hcommits rfl)
    (congrArg _ (State.tgt_of_parts (u := r.modPadOf p t f) hparts p t))
  obtain ⟨hpart, n, k, hhost, hk, hload⟩ := effectOn_loaded ht hat heff
  have hrpart : r.part p = s.part p := by rw [← hcommits]; rfl
  have hrhost : r.hostOf p t = s.hostOf p t := by rw [State.hostOf, hcomp, State.hostOf]
  have hrpad : r.padOf p t = s.padOf p t := by rw [State.padOf, hrhost, hcomp, State.padOf]
  have hrcores : r.coresOf p t = s.coresOf p t := by rw [State.coresOf, hrhost, hrpart, State.coresOf]
  refine ⟨hleaves, hparts, ?_, fun m hm => ?_⟩
  · rw [hleaves.padOf, State.padOf_modPadOf f (hrpart ▸ hpart) (hrhost.trans hhost) (hcomp ▸ hk) hload, hrpad]
  · rw [hleaves.cores, State.modPadOf_core, hrcores, if_neg hm, hcomp]

theorem PadStep.onlyTgt {f : Pad → Pad} (h : PadStep s r u p t ph f) : onlyTgt s u p t := h.leaves.onlyTgt h.parts

/-- Nothing but cores and jobs has changed where nothing else changed under the body. -/
theorem PadStep.frame {f : Pad → Pad} (h : PadStep s s u p t ph f) :
    u = { s with comp := { s.comp with cores := u.comp.cores, parts := u.comp.parts } } := by
  obtain ⟨g, rfl⟩ := h.leaves.upd
  rfl

end
end Sys2Proof.Machine
end

section
/-!
PROOFS. SP_FILL, SP_COPY and DMA: the bytes that an error-free step of one row moves (R141 to R147, R157).
-/
namespace Sys2Proof.Machine
open Sys2Proof.Safety

/-! ### SP_FILL (R141) -/

/-- The bytes of SP_FILL's pattern, repeated. -/
def fillBytes (b : List Byte) (n : Nat) : List Byte :=
  (List.range n).map fun i => BitVec.ofNat 8 (leAt b 0x14 4 / 256 ^ (i % 2 ^ leAt b 0x10 1))

theorem fillBody_clean {s : State} {c : StepCtx} {a n : Nat} (ha : a = leAt c.b 8 4) (hn : n = leAt c.b 0x0C 4)
    (hheld : s.padHeld c.p c.t [⟨a, n⟩] = false) (hreach : (s.padOf c.p c.t).reach a n = (n, 0)) :
    fillBody s c = some (s.modPadOf c.p c.t fun x => x.write (s.weights c.core) a (fillBytes c.b n), .done 0 (n != 0)) := by
  unfold fillBody
  rw [← ha, ← hn]
  dsimp only
  rw [hheld, hreach]
  rfl

/-! ### SP_COPY (R142) -/

theorem extOf_row (lo bytes pitch planePitch : Nat) : extOf lo bytes 1 pitch 1 planePitch = ⟨lo, bytes⟩ := by simp [extOf]

theorem rowsOf_row (lo pitch planePitch : Nat) : rowsOf lo 1 pitch 1 planePitch = [lo] := by simp [rowsOf]

@[simp] theorem Pad.copyIn_clean (p : Pad) (w a : Nat) (bs : List Byte) : p.copyIn w a bs [] = p.write w a bs := rfl

@[simp] theorem badIn_nil (a len : Nat) : badIn [] a len = [] := rfl

theorem Pad.badExts_clean {p : Pad} (w : Nat) (h : p.poison = []) : p.badExts w [] = [] := by simp [Pad.badExts, h]

/-- One row is copied as far as both its ends reach; a scratchpad that takes all of it holds the row. -/
theorem Pad.copyRows_row {src p : Pad} {a d n : Nat} (w : Nat) (ha : p.reach a n = (n, 0)) (hd : p.reach d n = (n, 0)) :
    src.copyRows w n [] [(a, d)] p = (p.write w d (src.bytes a n), 0, n) := by
  simp [Pad.copyRows, ha, hd, firstCode]

theorem copyBody_clean {s : State} {c : StepCtx} {a d n : Nat} (ha : a = leAt c.b 8 4) (hd : d = leAt c.b 0x0C 4)
    (hn : n = leAt c.b 0x10 4) (hrow : leAt c.b 0x14 2 = 1) (h : padReady s c.p c.t [⟨a, n⟩, ⟨d, n⟩])
    (hsrc : (s.padOf c.p c.t).reach a n = (n, 0)) (hdst : (s.padOf c.p c.t).reach d n = (n, 0)) :
    copyBody {} s c = some (s.modPadOf c.p c.t fun p =>
      ((s.padOf c.p c.t).copyRows (s.weights c.core) n [] [(a, d)] p).1, .done 0 (n != 0)) := by
  obtain ⟨hclean, hpoison, hheld, -⟩ := h
  unfold copyBody copyExts
  rw [← ha, ← hd, ← hn, hrow, State.padRead_clean hclean]
  simp only [extOf_row, rowsOf_row, hheld, State.padErrors_none _ hpoison, Pad.badExts_clean _ hclean, List.zip_cons_cons,
    List.zip_nil_right, Pad.copyRows_row _ hsrc hdst]
  simp [State.markUe, codeIf]

theorem byte_getElem_bytes (p : Pad) (a : Nat) {i n : Nat} (h : i < (p.bytes a n).length) : (p.bytes a n)[i] = p.byte (a + i) := by
  simp [Pad.bytes]

end Sys2Proof.Machine
end

section
/-!
PROOFS. Accesses to the stacked DRAM: the towers that serve them, what is counted, the errors of a read (R139, R149, R153, R159).
-/
namespace Sys2Proof.Machine
open Sys2Proof.Safety

/-! ### Bytes in a tower's lines (R149) -/

theorem mod_eq_iff_dvd {n j q : Nat} (hj : j < n) : n ∣ q + (n - 1 - j) + 1 ↔ q % n = j := by
  have hlt := Nat.mod_lt q (Nat.zero_lt_of_lt hj)
  have hsum : (q + (n - 1 - j) + 1) % n = (q % n + (n - j)) % n := by
    rw [show q + (n - 1 - j) + 1 = q + (n - j) by omega, Nat.mod_add_mod]
  rw [Nat.dvd_iff_mod_eq_zero, hsum]
  rcases Nat.lt_trichotomy (q % n) j with h | h | h
  · rw [Nat.mod_eq_of_lt (by omega)]
    omega
  · rw [h, show j + (n - j) = n by omega, Nat.mod_self]
    simp
  · rw [show q % n + (n - j) = q % n - j + n by omega, Nat.add_mod_right, Nat.mod_eq_of_lt (by omega)]
    omega

/-- Each byte is one byte more of its own tower, and of no other. -/
theorem lineBytes_succ {n j : Nat} (hj : j < n) (x : Nat) :
    lineBytes n j (x + 1) = lineBytes n j x + if x / 2048 % n = j then 1 else 0 := by
  unfold lineBytes
  by_cases hend : x % 2048 = 2047
  · have hline : (x + 1) / 2048 = x / 2048 + 1 := by omega
    have hbelow : x / 2048 + 1 + (n - 1 - j) = x / 2048 + (n - 1 - j) + 1 := by omega
    rw [hline, show (x + 1) % 2048 = 0 by omega, hend, hbelow, Nat.succ_div]
    simp only [mod_eq_iff_dvd hj, ite_self]
    split <;> omega
  · rw [show (x + 1) / 2048 = x / 2048 by omega, show (x + 1) % 2048 = x % 2048 + 1 by omega]
    split <;> omega

theorem lineBytes_mono {n j : Nat} (hj : j < n) (x k : Nat) : lineBytes n j x ≤ lineBytes n j (x + k) := by
  induction k with
  | zero => exact le_refl _
  | succ k ih => exact ih.trans (by rw [← Nat.add_assoc, lineBytes_succ hj]; omega)

/-- An access that touches a line of a tower has bytes there. -/
theorem lineBytes_lt {n j i len addr : Nat} (hj : j < n) (hi : i < len) (h : (addr + i) / 2048 % n = j) :
    lineBytes n j addr < lineBytes n j (addr + len) := by
  have hbefore := lineBytes_mono hj addr i
  have hafter := lineBytes_mono hj (addr + i + 1) (len - i - 1)
  rw [lineBytes_succ hj, if_pos h, show addr + i + 1 + (len - i - 1) = addr + len by omega] at hafter
  omega

/-! ### Towers that serve an access (R153) -/

theorem TowerSt.serve_serve (x : TowerSt) : x.serve.serve = x.serve := by
  unfold TowerSt.serve
  split <;> simp [*]

theorem TowerSt.serve_state (x : TowerSt) : x.serve.state ≠ .selfRefresh := by
  unfold TowerSt.serve
  split <;> simp_all

/-- The towers of a list with the number of bytes that each serves, served in turn. -/
def serveAll (g : Nat × Nat → Nat) (l : List (Nat × Nat)) (ts : List TowerSt) : List TowerSt :=
  l.foldl (fun ts x => if g x = 0 then ts else lmod ts x.1 TowerSt.serve) ts

theorem serveAll_getElem? (g : Nat × Nat → Nat) (l : List (Nat × Nat)) (ts : List TowerSt) (k : Nat) :
    (serveAll g l ts)[k]? = ts[k]?.map fun x => if l.any (fun y => y.1 == k && g y != 0) then x.serve else x := by
  induction l generalizing ts with
  | nil => simp [serveAll]
  | cons y l ih =>
    have hcons : serveAll g (y :: l) ts = serveAll g l (if g y = 0 then ts else lmod ts y.1 TowerSt.serve) := rfl
    rw [hcons, ih, List.any_cons]
    by_cases hg : g y = 0
    · rw [if_pos hg, show (y.1 == k && g y != 0) = false by simp [hg], Bool.false_or]
    · rw [if_neg hg, lmod_getElem?]
      by_cases hk : k = y.1
      · rw [if_pos hk, Option.map_map, show (y.1 == k && g y != 0) = true by simp [hg, hk], Bool.true_or]
        congr 1
        funext x
        simp [TowerSt.serve_serve]
      · rw [if_neg hk, show (y.1 == k && g y != 0) = false by simp [Ne.symm hk], Bool.false_or]

theorem serveAll_length (g : Nat × Nat → Nat) (l : List (Nat × Nat)) (ts : List TowerSt) :
    (serveAll g l ts).length = ts.length := by
  refine Nat.le_antisymm ?_ ?_ <;> rw [← List.getElem?_eq_none_iff]
  · simp [serveAll_getElem?]
  · simpa using serveAll_getElem? g l ts (serveAll g l ts).length

/-- The state with other towers and other registers of the PWR block. -/
def State.withTowers (s : State) (l : List TowerSt) (b : RegBlock) : State :=
  { s with dram := { s.dram with towers := l }, regs := { s.regs with pwr := b } }

/-- The counters of bytes that towers have read and written, of tower 0 (R159). -/
def towerCounters : List Nat := [0x480020, 0x480040]

theorem State.serveTower_frame (s : State) {k t : Nat} (n : Nat) (hk : k ∈ towerCounters) (ht : t < 4) :
    ∃ b, s.serveTower k t n = s.withTowers (if n = 0 then s.dram.towers else lmod s.dram.towers t TowerSt.serve) b := by
  have hslot : slotOf (k + 8 * t) = 4 := by
    simp only [towerCounters, List.mem_cons, List.not_mem_nil, or_false] at hk
    rw [slotOf_of_lt (by omega)]
    omega
  unfold State.serveTower
  split
  · exact ⟨s.regs.pwr, rfl⟩
  · unfold State.bump
    rw [hslot]
    exact ⟨_, rfl⟩

/-- All that an access served and counted changes (R153, R159). -/
theorem State.countDram_frame (s : State) {k : Nat} (addr len : Nat) (hk : k ∈ towerCounters) : ∃ b, s.countDram k addr len =
    s.withTowers (serveAll (fun x => lineBytes s.towersIn.length x.2 (addr + len) - lineBytes s.towersIn.length x.2 addr)
      s.towersIn.zipIdx s.dram.towers) b := by
  have hlist : ∀ (g : Nat × Nat → Nat) (l : List (Nat × Nat)), (∀ x ∈ l, x.1 < 4) → ∀ s : State,
      ∃ b, l.foldl (fun s x => s.serveTower k x.1 (g x)) s = s.withTowers (serveAll g l s.dram.towers) b := by
    intro g l
    induction l with
    | nil => exact fun _ s => ⟨s.regs.pwr, rfl⟩
    | cons x l ih =>
      intro hl s
      obtain ⟨b, hb⟩ := s.serveTower_frame (g x) hk (hl x List.mem_cons_self)
      obtain ⟨b', hb'⟩ := ih (fun y hy => hl y (List.mem_cons_of_mem x hy)) (s.serveTower k x.1 (g x))
      refine ⟨b', ?_⟩
      rw [List.foldl_cons, hb', hb]
      rfl
  refine hlist _ _ (fun x hx => ?_) s
  have hmem : x.1 ∈ s.towersIn := by
    obtain ⟨-, hlt, heq⟩ := List.mem_zipIdx hx
    rw [heq]
    exact List.getElem_mem _
  simpa using List.mem_of_mem_filter hmem

theorem State.towerOf_lt (s : State) (addr : Nat) : s.towerOf addr < 4 := by
  unfold State.towerOf
  dsimp only
  rw [List.getD_eq_getElem?_getD]
  cases h : s.towersIn[addr / 2048 % s.towersIn.length]? with
  | none => decide
  | some t => simpa using List.mem_of_mem_filter (List.mem_of_getElem? h)

/-- An access counted is one that its towers have served (R153). -/
theorem State.towersServe_countDram (s : State) {k : Nat} (addr len : Nat) (hk : k ∈ towerCounters) :
    towersServe s (s.countDram k addr len) addr len := by
  obtain ⟨b, hb⟩ := s.countDram_frame addr len hk
  rw [hb]
  unfold towersServe State.withTowers
  dsimp only
  generalize hg : (fun x : Nat × Nat => lineBytes s.towersIn.length x.2 (addr + len) - lineBytes s.towersIn.length x.2 addr) = g
  refine ⟨serveAll_length _ _ _, fun j x y hx hy => ?_, fun i hi hne y hy => ?_⟩
  · rw [serveAll_getElem?, hx, Option.map_some, Option.some_inj] at hy
    subst hy
    split <;> simp
  · have hpos : 0 < s.towersIn.length := List.length_pos_of_ne_nil hne
    have hline := Nat.mod_lt ((addr + i) / 2048) hpos
    have htower : s.towersIn[(addr + i) / 2048 % s.towersIn.length]? = some (s.towerOf (addr + i)) := by
      rw [List.getElem?_eq_getElem hline, State.towerOf]
      simp [List.getD, hline]
    have hserves : s.towersIn.zipIdx.any (fun x => x.1 == s.towerOf (addr + i) && g x != 0) = true := by
      refine List.any_eq_true.2 ⟨_, List.mk_mem_zipIdx_iff_getElem?.2 htower, ?_⟩
      have := lineBytes_lt hline hi rfl
      subst hg
      simp only [beq_self_eq_true, Bool.true_and, bne_iff_ne, ne_eq]
      omega
    rw [serveAll_getElem?, Option.map_eq_some_iff] at hy
    obtain ⟨x, -, rfl⟩ := hy
    rw [if_pos hserves]
    exact x.serve_state

/-! ### Bytes read and written -/

theorem State.countRead_eq {s : State} {p base size : Nat} (h : s.dramOf p = some (base, size)) (off len : Nat) :
    s.countRead p off len = s.countDram 0x480020 (base + off) len := by
  rw [State.countRead, h]

theorem State.writeDram_eq {s : State} {p base size : Nat} (h : s.dramOf p = some (base, size)) (off : Nat) (bs : List Byte) :
    s.writeDram p off bs = State.countDram { s with dram := s.dram.write (base + off) bs } 0x480040 (base + off) bs.length := by
  rw [State.writeDram, h]

theorem State.readDram_eq {s : State} {p base size : Nat} (h : s.dramOf p = some (base, size)) (off len : Nat) :
    s.readDram p off len = s.dram.mem.readBytes (base + off) len := by
  rw [State.readDram, h]

theorem State.countDram_mem (s : State) {k : Nat} (addr len : Nat) (hk : k ∈ towerCounters) :
    (s.countDram k addr len).dram.mem = s.dram.mem ∧ (s.countDram k addr len).dram.poison = s.dram.poison := by
  obtain ⟨b, hb⟩ := s.countDram_frame addr len hk
  rw [hb]
  exact ⟨rfl, rfl⟩

/-! ### Errors of a read (R139, R151, R161) -/

/-- The poisoned blocks that reads meet, by their addresses. -/
def State.poisonMet (s : State) (reads : List Ext) : List Nat :=
  (s.dram.poison.filter fun g => reads.any fun e => e.meets ⟨g * 32, 32⟩).map (· * 32)

/-- Uncorrected errors at addresses, each of its tower, logged in turn. -/
def State.logPoison (s : State) (l : List Nat) : State := l.foldl (fun s a => s.dramUncorrected (s.towerOf a) a) s

/-- Reads that meet no error but the poison that stands log it. -/
theorem State.dramErrors_eq (s : State) (reads : List Ext) : s.dramErrors [] [] reads =
    (if (s.poisonMet reads).isEmpty then s.logPoison (s.poisonMet reads)
      else { s.logPoison (s.poisonMet reads) with fresh := (s.logPoison (s.poisonMet reads)).fresh + 1 },
      !(s.poisonMet reads).isEmpty) := rfl

/-- Reads of blocks that hold no poison meet no error. -/
theorem State.dramErrors_none {s : State} {reads : List Ext} (h : s.poisonMet reads = []) :
    s.dramErrors [] [] reads = (s, false) := by
  rw [s.dramErrors_eq, h]
  rfl

theorem State.poisonMet_iff (s : State) (addr len : Nat) :
    s.poisonMet [⟨addr, len⟩] ≠ [] ↔ poisoned s.dram.poison 32 addr len = true := by
  simp only [State.poisonMet, poisoned, Ext.meets, List.any_cons, List.any_nil, Bool.or_false, ne_eq, List.map_eq_nil_iff,
    List.filter_eq_nil_iff, List.any_eq_true, Bool.and_eq_true, decide_eq_true_eq]
  push Not
  exact exists_congr fun g => and_congr_right fun _ => and_comm

end Sys2Proof.Machine
end

section
/-!
PROOFS. BAR4: accesses through a segment and outside of every segment (R139, R153, R361, R363).
-/
namespace Sys2Proof.Machine
open Sys2Proof.Safety

/-! ### Bus errors of reads -/

theorem State.markAbort_aer (s : State) (p : Nat) : onlyAer s (s.markAbort p) p := by
  intro q
  unfold State.markAbort
  dsimp only
  rw [lmod_getElem?]
  split
  · next h =>
    subst h
    cases hq : s.ports[q]? with
    | none => rfl
    | some x => simp [List.getD, lmod_getElem?, hq]
  · cases s.ports[q]? <;> rfl

/-- What a read adds to a bus error: the error status of its port, and the abort. -/
def State.abortRead (s : State) (p : Nat) : State := (s.markAbort p).emit (.readAbort p)

theorem State.readError_eq (s : State) (p bar kind off : Nat) :
    s.readError p bar kind off = (s.busError p bar kind off).abortRead p := rfl

theorem State.rv_abortRead (s : State) (p k : Nat) : (s.abortRead p).rv k = s.rv k := rfl

theorem State.abortRead_aer {s t : State} (p : Nat) (h : t.ports = s.ports) : onlyAer s (t.abortRead p) p := by
  have hports : (t.abortRead p).ports = (s.markAbort p).ports := by
    unfold State.abortRead State.markAbort
    rw [State.emit_ports, h]
  have hmark := s.markAbort_aer p
  unfold onlyAer at hmark ⊢
  rwa [hports]

/-- Where nothing but registers and outputs of PCI has changed, the abort of a read changes an error status more. -/
theorem OwnPci.abortRead {p : Nat} {s t : State} (h : OwnPci p s t) :
    onlyPci s (t.abortRead p) p ∧ otherPorts s (t.abortRead p) p ∧ commitBus s (t.abortRead p) = t.abortRead p := by
  obtain ⟨⟨v, o, rfl⟩, hrv⟩ := h
  exact ⟨⟨rfl, State.abortRead_aer p rfl⟩, ⟨hrv, rfl, rfl⟩, rfl⟩

/-- A read that is a bus error is counted and logged as any other, and marks its port's error status (R361). -/
theorem busErrorOn_readError {p : Nat} (s : State) (bar kind off : Nat) (hp : p < 15) :
    busErrorOn s (s.readError p bar kind off) p bar kind off := by
  obtain ⟨hcount, hclear, hfull, -⟩ := busErrorOn_busError s bar kind off hp
  obtain ⟨honly, hothers, -⟩ := (OwnPci.busError s bar kind off hp).abortRead
  have hrv := State.rv_abortRead (s.busError p bar kind off) p
  refine ⟨(hrv _).trans hcount, fun h => ?_, fun h => ?_, honly, hothers⟩
  · obtain ⟨hinfo, hlo, hhi, hevent⟩ := hclear h
    exact ⟨(hrv _).trans hinfo, (hrv _).trans hlo, (hrv _).trans hhi, (congrArg (tbit · 0) (hrv _)).trans hevent⟩
  · obtain ⟨hinfo, hlo⟩ := hfull h
    exact ⟨(hrv _).trans hinfo, (hrv _).trans hlo⟩

theorem State.readError_out (s : State) (p bar kind off : Nat) : (s.readError p bar kind off).out.getLast? = some (.readAbort p) := by
  rw [s.readError_eq, State.abortRead, State.emit_out, List.getLast?_append]
  rfl

theorem commitBus_busError {p : Nat} (s : State) (bar kind off : Nat) (hp : p < 15) :
    commitBus s (s.busError p bar kind off) = s.busError p bar kind off := by
  obtain ⟨⟨v, o, hown⟩, -⟩ := OwnPci.busError s bar kind off hp
  rw [hown]
  rfl

theorem commitBus_readError {p : Nat} (s : State) (bar kind off : Nat) (hp : p < 15) :
    commitBus s (s.readError p bar kind off) = s.readError p bar kind off :=
  (OwnPci.busError s bar kind off hp).abortRead.2.2

/-! ### The log of the first uncorrected error (R160, R161) -/

/-- What was output before is output after, and the word of the log that tells whether it is full stands. -/
structure LogKept (s t : State) : Prop where
  out : ∀ o, o ∈ s.out → o ∈ t.out
  word : t.rv 0x2400A0 = s.rv 0x2400A0

namespace LogKept

variable {s t u : State}

theorem refl (s : State) : LogKept s s := ⟨fun _ h => h, rfl⟩

theorem trans (h : LogKept s t) (h' : LogKept t u) : LogKept s u := ⟨fun o ho => h'.out o (h.out o ho), h'.word.trans h.word⟩

theorem of_eq (hregs : t.regs = s.regs) (hout : t.out = s.out) : LogKept s t :=
  ⟨fun _ h => hout ▸ h, by rw [State.rv, hregs, State.rv]⟩

theorem raise (s : State) {k : Nat} (bits : Nat) (h : 0x2400A0 ≠ k) : LogKept s (s.raise k bits) :=
  ⟨fun _ ho => State.mem_out_raise k bits ho, State.rv_raise_shared_ne s bits (by decide) h⟩

theorem setReg (s : State) {k : Nat} (v : Nat) (h : 0x2400A0 ≠ k) : LogKept s (s.setReg k v) :=
  ⟨fun _ ho => ho, State.rv_setReg_ne _ _ _ _ h⟩

theorem setRegs (s : State) {k : Nat} (l : List Nat) (h : 0x2400A0 < k) : LogKept s (s.setRegs k l) :=
  ⟨fun _ ho => by rwa [State.setRegs_out], State.rv_setRegs_out _ _ _ _ (.inl h)⟩

theorem logNow (s : State) (response unit code : Nat) : LogKept s (s.logNow response unit code) := by
  unfold State.logNow State.logFault
  refine .trans ?_ (.raise _ _ (by decide))
  exact of_eq rfl rfl

theorem foldl {α : Type} {f : State → α → State} (h : ∀ s x, LogKept s (f s x)) (l : List α) (s : State) :
    LogKept s (l.foldl f s) := by
  induction l generalizing s with
  | nil => exact .refl s
  | cons x l ih => exact (h s x).trans (ih _)

theorem loseCtx (s : State) (p c : Nat) : LogKept s (s.loseCtx p c) := by
  unfold State.loseCtx
  refine .trans ?_ (.raise _ _ (by unfold poolKey; omega))
  exact of_eq rfl rfl

theorem loseCtxs (s : State) (pick : CtxSt → Bool) : LogKept s (s.loseCtxs pick) := by
  unfold State.loseCtxs
  refine foldl (fun s p => ?_) _ s
  split
  · apply foldl
    intro s x
    exact loseCtx s p x.1
  · exact refl s

theorem partLosesOther (s : State) (p : Nat) (l : List Nat) : LogKept s (s.partLosesOther p l) := of_eq rfl rfl

end LogKept

/-- A tower out of service, with what is lost at once. -/
def State.towerGone (s : State) (t : Nat) : State :=
  { s with
    safe := { s.safe with towersOos := s.safe.towersOos ++ [t] }
    dram := { mem := ⟨.free s.fresh, []⟩, poison := [],
              towers := lmod s.dram.towers t fun x => { x with state := .outOfService } }
    fresh := s.fresh + 1
    ing := { s.ing with cache := [], rings := s.ing.rings.map RingSt.cut, vdecs := s.ing.vdecs.map VdecSt.lose } }

/-- The record of a tower's loss and its event. -/
def State.towerLogged (s : State) (t : Nat) (code : Option Nat) : State := match code with
  | some c => (s.logNow 1 (24 + t) c).raise 0x200020 0x40
  | none => s.raise 0x200020 0x40

/-- Every partition's DRAM is lost, and the jobs stop. -/
def State.dramGone (s : State) : State :=
  (List.range 8).foldl (fun s p => if (s.part p).isSome then s.partLosesOther p [] else s)
    { s with comp := { s.comp with parts := s.comp.parts.map fun q => { q with dramLost := true } } }

theorem State.loseTower_eq {s : State} {t : Nat} (code : Option Nat) (h : s.safe.towersOos.contains t = false) :
    s.loseTower t code = (((s.towerGone t).towerLogged t code).loseCtxs fun _ => true).dramGone := by
  unfold State.loseTower
  rw [if_neg (by rw [h]; exact Bool.false_ne_true)]
  cases code <;> simp only [State.dramGone, State.towerLogged, State.towerGone]

theorem LogKept.towerLogged (s : State) (t : Nat) (code : Option Nat) : LogKept s (s.towerLogged t code) := by
  cases code with
  | none => exact .raise _ _ (by decide)
  | some c => exact (LogKept.logNow _ _ _ _).trans (.raise _ _ (by decide))

theorem LogKept.dramGone (s : State) : LogKept s s.dramGone := by
  refine .trans ?_ (.foldl (fun s p => ?_) _ _)
  · exact .of_eq rfl rfl
  · split
    · exact .partLosesOther s p []
    · exact .refl s

/-- The loss of a tower raises events, none of which reaches the log (R150). -/
theorem LogKept.loseTower (s : State) (t : Nat) (code : Option Nat) : LogKept s (s.loseTower t code) := by
  cases h : s.safe.towersOos.contains t with
  | true =>
    unfold State.loseTower
    rw [if_pos h]
    exact .refl s
  | false =>
    have hgone : LogKept s (s.towerGone t) := .of_eq rfl rfl
    rw [State.loseTower_eq code h]
    exact (hgone.trans (.towerLogged _ _ _)).trans (.trans (.loseCtxs _ _) (.dramGone _))

/-- The log of the first uncorrected error is full. -/
def State.logFull (s : State) : Prop := tbit (s.rv 0x2400A0) 31 = true

theorem LogKept.full {s t : State} (h : LogKept s t) (hs : s.logFull) : t.logFull := by
  unfold State.logFull
  rwa [h.word]

theorem State.memLog_full (s : State) {src : Nat} (addr : Nat) (h : src < 2 ^ 31) : (s.memLog src addr).logFull := by
  unfold State.memLog
  split
  · assumption
  · refine LogKept.full (.trans (.trans (.setReg _ _ (by decide)) (.setReg _ _ (by decide))) (.setRegs _ _ (by decide))) ?_
    unfold State.logFull
    rw [State.rv_setReg_self, tbit]
    simp only [beq_iff_eq]
    omega

theorem State.memLog_out (s : State) (src addr : Nat) : (s.memLog src addr).out = s.out := by
  unfold State.memLog
  split
  · rfl
  · simp

/-- An uncorrected error of the DRAM fills the log, if none has before. -/
theorem State.dramUncorrected_full (s : State) {t : Nat} (addr : Nat) (ht : t < 4) : (s.dramUncorrected t addr).logFull ∧
    ∀ o, o ∈ s.out → o ∈ (s.dramUncorrected t addr).out := by
  have hlog := (s.memCount (0x240090 + 4 * t) 1).memLog_full addr (src := 16 + t) (by omega)
  have hrecent : ∀ u : State, LogKept u (u.recentErrors (300 + t) 1).1 := fun u => .of_eq rfl rfl
  have hkept : LogKept ((s.memCount (0x240090 + 4 * t) 1).memLog (16 + t) addr) (s.dramUncorrected t addr) := by
    unfold State.dramUncorrected
    dsimp only
    split
    · exact (hrecent _).trans (.loseTower _ _ _)
    · exact hrecent _
  exact ⟨hkept.full hlog, fun o ho => hkept.out o (by rwa [State.memLog_out])⟩

/-- Poison that a read meets fills the log, if nothing has before. -/
theorem State.logPoison_full (s : State) {l : List Nat} (h : l ≠ []) : (s.logPoison l).logFull ∧
    ∀ o, o ∈ s.out → o ∈ (s.logPoison l).out := by
  induction l generalizing s with
  | nil => exact absurd rfl h
  | cons a l ih =>
    obtain ⟨hfull, hout⟩ := s.dramUncorrected_full a (s.towerOf_lt a)
    cases l with
    | nil => exact ⟨hfull, hout⟩
    | cons b l =>
      obtain ⟨hfull', hout'⟩ := ih (s.dramUncorrected (s.towerOf a) a) (by simp)
      exact ⟨hfull', fun o ho => hout' o (hout o ho)⟩

/-! ### BAR4 -/

section
variable {s : State} {p : Port} {off : Nat}

theorem exec_bar4Write_segment {d : List Byte} {q x : Nat} (h : arrives s p) (hseg : s.segment p off d.length true = some (q, x)) :
    exec (.bar4Write p off d) s = .next { s with
      dram := (s.writeDram q x d).dram, regs := { s.regs with pwr := (s.writeDram q x d).regs.pwr } } := by
  rw [exec_bar4Write, execBar4Write, State.onPort_arrives h, hseg]

theorem exec_bar4Write_outside {d : List Byte} (h : arrives s p) (hseg : s.segment p off d.length true = none) :
    exec (.bar4Write p off d) s = .next (s.busError p 4 6 off) := by
  rw [exec_bar4Write, execBar4Write, State.onPort_arrives h, hseg]
  exact congrArg _ (commitBus_busError s 4 6 off (by omega))

theorem exec_bar4Read_segment {len q x : Nat} (h : arrives s p) (hseg : s.segment p off len false = some (q, x)) :
    exec (.bar4Read p off len) s = .next (commitStep s (s.bar4Serve p q x len)) := by
  rw [exec_bar4Read, execBar4Read, State.onPort_arrives h, hseg]

theorem exec_bar4Read_outside {len : Nat} (h : arrives s p) (hseg : s.segment p off len false = none) :
    exec (.bar4Read p off len) s = .next (s.readError p 4 6 off) := by
  rw [exec_bar4Read, execBar4Read, State.onPort_arrives h, hseg]
  exact congrArg _ (commitBus_readError s 4 6 off (by omega))

end

/-- The completion of a read of BAR4. -/
def State.bar4Data (s : State) (p q x len : Nat) : Out := .readData p (s.readDram q x len) (s.placePoisoned q (.dram x) len)

theorem State.placePoisoned_eq {s : State} {q base size : Nat} (h : s.dramOf q = some (base, size)) (x len : Nat) :
    s.placePoisoned q (.dram x) len = poisoned s.dram.poison 32 (base + x) len := by
  unfold State.placePoisoned
  rw [h]

/-- A read of BAR4 is counted, answered, and logs the poison that it meets. -/
theorem State.bar4Serve_eq {s : State} {q base size : Nat} (h : s.dramOf q = some (base, size)) (p x len : Nat) :
    s.bar4Serve p q x len =
      (((s.countDram 0x480020 (base + x) len).emit (s.bar4Data p q x len)).dramErrors [] [] [⟨base + x, len⟩]).1 := by
  rw [State.bar4Serve, s.countRead_eq h, h]
  rfl

end Sys2Proof.Machine
end

section
/-!
PROOFS. The accesses of BAR4, settled (R139, R153, R361, R363).
-/
namespace Sys2Proof.Machine
open Sys2Proof.Safety

/-- Bytes are written where the segment places them, and towers serve the write (R153, R363). -/
theorem bar4Write_stores {s : State} {q base size : Nat} (x : Nat) (d : List Byte) (h : s.dramOf q = some (base, size)) {t : State}
    (ht : t = { s with dram := (s.writeDram q x d).dram, regs := { s.regs with pwr := (s.writeDram q x d).regs.pwr } }) :
    (∀ i (h : i < d.length), t.dram.mem.read (base + x + i) = d[i]) ∧
      (∀ a, a < base + x ∨ base + x + d.length ≤ a → t.dram.mem.read a = s.dram.mem.read a) ∧
      towersServe s t (base + x) d.length ∧ t = { s with dram := t.dram, regs := { s.regs with pwr := t.regs.pwr } } := by
  have hmem : t.dram.mem = s.dram.mem.writeBytes (base + x) d := by
    rw [ht]
    dsimp only
    rw [State.writeDram_eq h, (State.countDram_mem _ _ _ (by decide)).1]
    rfl
  refine ⟨fun i hi => ?_, fun a ha => ?_, ?_, ?_⟩
  · rw [hmem, Mem.read_writeBytes_in]
  · rw [hmem, Mem.read_writeBytes_out _ _ _ _ ha]
  · have hserve := State.towersServe_countDram { s with dram := s.dram.write (base + x) d } (base + x) d.length
      (k := 0x480040) (by decide)
    rw [← State.writeDram_eq h] at hserve
    rw [ht]
    exact hserve
  · rw [ht]

/-- A read that meets no poison answers the bytes and changes nothing but its counters and the towers that serve it. -/
theorem bar4Read_clean {s : State} {q base size : Nat} (p x len : Nat) (h : s.dramOf q = some (base, size))
    (hclean : s.placePoisoned q (.dram x) len = false) :
    commitStep s (s.bar4Serve p q x len) = (s.countDram 0x480020 (base + x) len).emit (.readData p (s.readDram q x len) false) := by
  obtain ⟨b, hcount⟩ := s.countDram_frame (k := 0x480020) (base + x) len (by decide)
  have hpoison : poisoned s.dram.poison 32 (base + x) len = false := State.placePoisoned_eq h x len ▸ hclean
  have hmet : State.poisonMet ((s.countDram 0x480020 (base + x) len).emit (s.bar4Data p q x len)) [⟨base + x, len⟩] = [] := by
    by_contra hne
    rw [← ne_eq, State.poisonMet_iff, State.emit_dram, (s.countDram_mem _ _ (by decide)).2, hpoison] at hne
    exact Bool.false_ne_true hne
  rw [s.bar4Serve_eq h, State.dramErrors_none hmet, State.bar4Data, hclean, hcount]
  rfl

/-- A read that meets poison says so, and the log of the first uncorrected error is full after it (R139, R161). -/
theorem bar4Read_poisoned {s : State} {q base size : Nat} (p x len : Nat) (h : s.dramOf q = some (base, size))
    (hbad : s.placePoisoned q (.dram x) len = true) {t : State} (ht : t = commitStep s (s.bar4Serve p q x len)) :
    t.logFull ∧ Out.readData p (s.readDram q x len) true ∈ t.out := by
  let u := (s.countDram 0x480020 (base + x) len).emit (s.bar4Data p q x len)
  have hpoison : poisoned u.dram.poison 32 (base + x) len = true := by
    rw [State.emit_dram, (s.countDram_mem _ _ (by decide)).2, ← hbad, State.placePoisoned_eq h]
  have hmet : u.poisonMet [⟨base + x, len⟩] ≠ [] := (u.poisonMet_iff _ _).2 hpoison
  obtain ⟨hfull, hout⟩ := u.logPoison_full hmet
  have hserve : s.bar4Serve p q x len =
      { u.logPoison (u.poisonMet [⟨base + x, len⟩]) with fresh := (u.logPoison (u.poisonMet [⟨base + x, len⟩])).fresh + 1 } := by
    rw [s.bar4Serve_eq h, State.dramErrors_eq, if_neg (by simpa using hmet)]
  rw [ht, hserve]
  refine ⟨?_, hout _ ?_⟩
  · unfold State.logFull at hfull ⊢
    rw [← hfull]
    exact congrArg (tbit · 31) (Regs.val_congr (by rw [slotOf_of_lt (by decide)]; rfl))
  · rw [State.emit_out, State.bar4Data, hbad]
    exact List.mem_append_right _ (List.mem_singleton_self _)

end Sys2Proof.Machine
end

section
open Sys2Proof Sys2Proof.Machine Sys2Proof.Safety

/-- Settles O15: the segment gives the place; the towers of an access are `towersServe_countDram`; poison that is met fills
the log; outside of a segment an access is a bus error and nothing else. -/
theorem bar4ReachesOnlyItsSegment : Obligations.Bar4ReachesOnlyItsSegment := by
  unfold Obligations.Bar4ReachesOnlyItsSegment
  intro s p off harr
  have hp : p.val < 15 := by omega
  refine ⟨fun d q x base size hseg h => ?_, fun len q x base size hseg h hclean => ?_, fun len q x base size hseg h hbad => ?_,
    fun d hseg => ?_, fun len hseg => ?_⟩
  · exact ⟨_, exec_bar4Write_segment harr hseg, bar4Write_stores x d h rfl⟩
  · refine ⟨_, (exec_bar4Read_segment harr hseg).trans (congrArg _ (bar4Read_clean p x len h hclean)), ?_, ?_, ?_, ?_, ?_⟩
    · obtain ⟨b, hcount⟩ := s.countDram_frame (k := 0x480020) (base + x) len (by decide)
      rw [State.emit_out, hcount, State.readDram_eq h]
      rfl
    · exact s.towersServe_countDram (base + x) len (k := 0x480020) (by decide)
    · exact (s.countDram_mem (base + x) len (by decide)).1
    · exact (s.countDram_mem (base + x) len (by decide)).2
    · obtain ⟨b, hcount⟩ := s.countDram_frame (k := 0x480020) (base + x) len (by decide)
      rw [hcount]
      rfl
  · obtain ⟨hfull, hout⟩ := bar4Read_poisoned p x len h hbad rfl
    exact ⟨_, exec_bar4Read_segment harr hseg, hfull, by rwa [State.readDram_eq h] at hout⟩
  · exact ⟨_, exec_bar4Write_outside harr hseg, busErrorOn_busError s 4 6 off hp⟩
  · exact ⟨_, exec_bar4Read_outside harr hseg, busErrorOn_readError s 4 6 off hp, s.readError_out p 4 6 off⟩
end

section
/-!
PROOFS. What the commands of SP_FILL, SP_COPY and DMA leave (R141 to R147, R157).
-/
namespace Sys2Proof.Machine
open Sys2Proof.Safety

section
variable {z s u : State} {p t : Nat} {pick : List Byte → Bool} {check : State → StepCtx → Nat} {c : StepCtx}

theorem effectOn_tgt (hat : z.stepAt p t pick = some c) (heff : effectOn z c check s) : ∃ x, s.tgt c.p c.t = some x := by
  obtain ⟨rfl, rfl, -⟩ := State.stepAt_spec hat
  obtain ⟨x, hx, -⟩ := effectOn_head hat heff
  exact ⟨x, hx⟩

/-- Where the body left the jobs alone, the step that was taken is over with the status of its last phase. -/
theorem StepLeaves.done {r : State} {status : Nat} {wrote : Bool} (h : StepLeaves r u p t (.done status wrote))
    (hparts : r.comp.parts = s.comp.parts) (hat : z.stepAt p t pick = some c) (heff : effectOn z c check s) :
    Safety.stepDone s u c status := by
  obtain ⟨x, hx⟩ := effectOn_tgt hat heff
  obtain ⟨rfl, rfl, -⟩ := State.stepAt_spec hat
  exact h.stepDone hparts hx

theorem fill_leaves {a n : Nat} (ht : t < 16) (hat : z.stepAt p t pick = some c) (heff : effectOn z c check s)
    (ha : a = leAt c.b 8 4) (hn : n = leAt c.b 0x0C 4) (hheld : s.padHeld p t [⟨a, n⟩] = false)
    (hreach : (s.padOf p t).reach a n = (n, 0)) :
    PadStep s s (commitStep z (z.runStep p t pick check fillBody)) p t (.done 0 (n != 0))
      fun x => x.write (s.weights c.core) a (fillBytes c.b n) := by
  obtain ⟨rfl, rfl, -⟩ := State.stepAt_spec hat
  exact padStep_of_body ht hat heff (fillBody_clean ha hn hheld hreach) trivial rfl rfl

theorem copy_leaves {a d n : Nat} (ht : t < 16) (hat : z.stepAt p t pick = some c) (heff : effectOn z c check s)
    (ha : a = leAt c.b 8 4) (hd : d = leAt c.b 0x0C 4) (hn : n = leAt c.b 0x10 4) (hrow : leAt c.b 0x14 2 = 1)
    (hready : padReady s p t [⟨a, n⟩, ⟨d, n⟩])
    (hsrc : (s.padOf p t).reach a n = (n, 0)) (hdst : (s.padOf p t).reach d n = (n, 0)) :
    PadStep s s (commitStep z (z.runStep p t pick check (copyBody {}))) p t (.done 0 (n != 0))
      fun x => ((s.padOf p t).copyRows (s.weights c.core) n [] [(a, d)] x).1 := by
  obtain ⟨rfl, rfl, -⟩ := State.stepAt_spec hat
  exact padStep_of_body ht hat heff (copyBody_clean ha hd hn hrow hready hsrc hdst) trivial rfl rfl

end

/-! ### DMA (R143 to R147) -/

/-- A DMA step of one row that meets no DRAM error. -/
structure DmaRow (s : State) (c : StepCtx) : Prop where
  rows : leAt c.b 0x20 2 = 1
  planes : leAt c.b 0x22 2 = 1
  poison : s.dram.poison = []
  lost : s.dmaLost c = false

theorem DmaRow.dmaRows {s : State} {c : StepCtx} (h : DmaRow s c) (dst : Bool) (lo : Nat) : dmaRows c.b dst lo = [lo] := by
  rw [Machine.dmaRows, h.rows, h.planes, rowsOf_row]

theorem DmaRow.dmaExt {s : State} {c : StepCtx} (h : DmaRow s c) (dst : Bool) :
    dmaExt c.b dst = ⟨dmaOff c.b dst, dmaRow c.b⟩ := by
  rw [Machine.dmaExt, h.rows, h.planes, extOf_row]

theorem DmaRow.dramErrors {s : State} {c : StepCtx} (h : DmaRow s c) (reads : List Ext) :
    s.dramErrors [] [] reads = (s, false) :=
  State.dramErrors_none (by rw [State.poisonMet, h.poison]; rfl)

theorem DmaRow.dramRead {s : State} {c : StepCtx} (h : DmaRow s c) : s.dramRead {} = s.dram.mem := by
  rw [State.dramRead, DramSt.badExts, h.poison]
  rfl

theorem DmaRow.badExts {s : State} {c : StepCtx} (h : DmaRow s c) : s.dram.badExts [] = [] := by
  rw [DramSt.badExts, h.poison]
  rfl

/-- The only row of a step is read, counted where it comes from the DRAM, and written. -/
theorem dmaGo_row {s u : State} {c : StepCtx} {env : StepEnv} {x : DmaFrom} {i a d : Nat} {r : RowRead} {any : Bool}
    (hlost : x.lost = none) (hread : s.dmaRead c env x i a = r) (hcode : r.code = 0)
    (hwrite : (if dmaSpace c.b false = 1 then s.countRead c.p a (dmaRow c.b) else s).dmaWrite c d r = (u, 0, any)) :
    dmaGo c env x i [(a, d)] s = (u, 0, any) := by
  simp [dmaGo, hlost, hread, hcode, hwrite]

/-- A row from the DRAM is counted as read, and its bytes are written to the scratchpad. -/
theorem dmaBody_load {s : State} {c : StepCtx} {base size o : Nat} (h : DmaRow s c) (hdram : s.dramOf c.p = some (base, size))
    (hsrc : dmaSpace c.b false = 1) (hdst : dmaSpace c.b true = 0) (ho : s.dmaDram c false = some o)
    (hready : padReady s c.p c.t [dmaExt c.b true])
    (hreach : (s.padOf c.p c.t).reach (dmaOff c.b true) (dmaRow c.b) = (dmaRow c.b, 0)) :
    ∃ w any, dmaBody {} s c = some ((s.countRead c.p o (dmaRow c.b)).modPadOf c.p c.t
      fun x => x.write w (dmaOff c.b true) (s.dram.mem.readBytes (base + o) (dmaRow c.b)), .done 0 any) := by
  obtain ⟨-, -, hheld, -⟩ := hready
  let r := s.countRead c.p o (dmaRow c.b)
  let bytes := s.dram.mem.readBytes (base + o) (dmaRow c.b)
  have hpad : r.padOf c.p c.t = s.padOf c.p c.t := by
    obtain ⟨b, hcount⟩ := s.countDram_frame (k := 0x480020) (base + o) (dmaRow c.b) (by decide)
    rw [show r = _ from (s.countRead_eq hdram o _).trans hcount]
    rfl
  have hwrite : r.dmaWrite c (dmaOff c.b true) ⟨bytes, [], 0⟩ =
      (r.modPadOf c.p c.t fun x => x.write (r.weights ((r.hostOf c.p c.t).getD 0)) (dmaOff c.b true) bytes, 0,
        decide (0 < dmaRow c.b) && !bytes.isEmpty) := by
    have hlen : bytes.length = dmaRow c.b := Mem.readBytes_length _ _ _
    have htake : bytes.take (dmaRow c.b) = bytes := List.take_of_length_le hlen.le
    simp [State.dmaWrite, hdst, hlen, hpad, hreach, htake]
  have hgo := dmaGo_row (c := c) (s := s) (env := {}) (x := ⟨s.padRead c {}, s.dram.mem, [], none⟩) (i := 0) (a := o) (r := ⟨bytes, [], 0⟩)
    rfl (by simp [State.dmaRead, hsrc, hdram, bytes]) rfl (by rw [if_pos hsrc]; exact hwrite)
  refine ⟨r.weights ((r.hostOf c.p c.t).getD 0), decide (0 < dmaRow c.b) && !bytes.isEmpty, ?_⟩
  unfold dmaBody
  simp only [h.lost, hsrc, hdst, h.dmaRows, ho, h.dramRead, h.badExts]
  simp [h.dramErrors, State.pushHeld, dmaPads, hsrc, hdst, hheld, hgo, State.markUe, codeIf]
  rfl

/-- A row of the scratchpad is written to the DRAM. -/
theorem dmaBody_store {s : State} {c : StepCtx} {base size o : Nat} (h : DmaRow s c) (hdram : s.dramOf c.p = some (base, size))
    (hsrc : dmaSpace c.b false = 0) (hdst : dmaSpace c.b true = 1) (ho : s.dmaDram c true = some o)
    (hready : padReady s c.p c.t [dmaExt c.b false])
    (hreach : (s.padOf c.p c.t).reach (dmaOff c.b false) (dmaRow c.b) = (dmaRow c.b, 0)) :
    ∃ any, dmaBody {} s c = some (s.writeDram c.p o ((s.padOf c.p c.t).bytes (dmaOff c.b false) (dmaRow c.b)), .done 0 any) := by
  obtain ⟨hclean, hpoison, hheld, -⟩ := hready
  let bytes := (s.padOf c.p c.t).bytes (dmaOff c.b false) (dmaRow c.b)
  have hwrite : s.dmaWrite c o ⟨bytes, [], 0⟩ = (s.writeDram c.p o bytes, 0, !bytes.isEmpty) := by
    simp [State.dmaWrite, hdst, hdram]
    rfl
  have hgo := dmaGo_row (c := c) (s := s) (env := {}) (x := ⟨s.padOf c.p c.t, s.dram.mem, [], none⟩) (i := 0) (a := dmaOff c.b false)
    (r := ⟨bytes, [], 0⟩) rfl (by simp [State.dmaRead, hsrc, hreach, bytes]) rfl (by rw [if_neg (by rw [hsrc]; decide)]; exact hwrite)
  refine ⟨!bytes.isEmpty, ?_⟩
  unfold dmaBody
  simp only [h.lost, hsrc, hdst, h.dmaRows, ho, h.dramRead, State.padErrors_none _ hpoison, State.padRead_clean hclean,
    Pad.badExts_clean _ hclean]
  simp [State.pushHeld, dmaPads, hsrc, hdst, hheld, hgo, State.markUe, codeIf]
  rfl

section
variable {z s u : State} {p t : Nat} {pick : List Byte → Bool} {check : State → StepCtx → Nat} {c : StepCtx}

theorem dma_load_leaves {base size o : Nat} (ht : t < 16) (hat : z.stepAt p t pick = some c) (heff : effectOn z c check s)
    (h : DmaRow s c) (hdram : s.dramOf p = some (base, size)) (hsrc : dmaSpace c.b false = 1) (hdst : dmaSpace c.b true = 0)
    (ho : s.dmaDram c false = some o) (hready : padReady s p t [dmaExt c.b true])
    (hreach : (s.padOf p t).reach (dmaOff c.b true) (dmaRow c.b) = (dmaRow c.b, 0)) :
    ∃ w any r, sameDram s r ∧ PadStep s r (commitStep z (z.runStep p t pick check (dmaBody {}))) p t (.done 0 any)
      fun x => x.write w (dmaOff c.b true) (s.dram.mem.readBytes (base + o) (dmaRow c.b)) := by
  obtain ⟨rfl, rfl, -⟩ := State.stepAt_spec hat
  obtain ⟨w, any, hbody⟩ := dmaBody_load h hdram hsrc hdst ho hready hreach
  obtain ⟨b, hcount⟩ := s.countDram_frame (k := 0x480020) (base + o) (dmaRow c.b) (by decide)
  have hread := (s.countRead_eq hdram o (dmaRow c.b)).trans hcount
  refine ⟨w, any, _, ?_, padStep_of_body ht hat heff hbody trivial ?_ ?_⟩ <;> rw [hread]
  · exact ⟨rfl, rfl⟩
  · rfl
  · rfl

theorem dma_store_leaves {base size o : Nat} (hat : z.stepAt p t pick = some c) (heff : effectOn z c check s)
    (h : DmaRow s c) (hdram : s.dramOf p = some (base, size)) (hsrc : dmaSpace c.b false = 0) (hdst : dmaSpace c.b true = 1)
    (ho : s.dmaDram c true = some o) (hready : padReady s p t [dmaExt c.b false])
    (hreach : (s.padOf p t).reach (dmaOff c.b false) (dmaRow c.b) = (dmaRow c.b, 0)) :
    ∃ any r, r.comp = s.comp ∧ r.dram.poison = [] ∧
      r.dram.mem = s.dram.mem.writeBytes (base + o) ((s.padOf p t).bytes (dmaOff c.b false) (dmaRow c.b)) ∧
      StepLeaves r (commitStep z (z.runStep p t pick check (dmaBody {}))) p t (.done 0 any) := by
  obtain ⟨rfl, rfl, -⟩ := State.stepAt_spec hat
  obtain ⟨any, hbody⟩ := dmaBody_store h hdram hsrc hdst ho hready hreach
  let bytes := (s.padOf c.p c.t).bytes (dmaOff c.b false) (dmaRow c.b)
  obtain ⟨b, hcount⟩ := State.countDram_frame { s with dram := s.dram.write (base + o) bytes } (k := 0x480040) (base + o)
    bytes.length (by decide)
  have hwrite := (s.writeDram_eq hdram o bytes).trans hcount
  have hcomp : (s.writeDram c.p o bytes).comp = s.comp := by rw [hwrite]; rfl
  refine ⟨any, s.writeDram c.p o bytes, hcomp, ?_, ?_, stepLeaves_of_body hat heff hbody trivial ?_ ?_⟩
  · rw [hwrite]
    exact congrArg (unpoison · 32 _ _) h.poison
  · rw [hwrite]
    rfl
  · rw [hwrite]
    rfl
  · rw [State.tgt_of_parts (congrArg _ hcomp)]

/-! ### A host read that finds no answer (R157) -/

theorem dma_timeout_leaves (hat : z.stepAt p t pick = some c) (heff : effectOn z c check s) :
    StepLeaves s (commitStep z (z.runStep p t pick check fun s _ => some (s, .done 0x0312 false))) p t (.done 0x0312 false) :=
  stepLeaves_of_body hat heff rfl trivial rfl rfl

theorem exec_hostReadTimeout_step {part : PartIx} {target : TargetIx} {x : TargetSt} (hx : s.tgt part target = some x)
    (hphase : ∀ k, x.phase ≠ .swapWait k) : exec (.hostReadTimeout part target) s = .next (commitStep s (s.runStep part target
      (fun b => hOp b == 0x32 && dmaSpace b false == 2) dmaCheck fun s _ => some (s, .done 0x0312 false))) := by
  rw [exec_hostReadTimeout, execHostReadTimeout, hx]
  dsimp only
  split
  · next k hk => exact absurd hk (hphase k)
  · rfl

theorem exec_hostReadTimeout_swap {part : PartIx} {target : TargetIx} {x : TargetSt} {k : Nat} (hx : s.tgt part target = some x)
    (hphase : x.phase = .swapWait k) (hret : s.returning part = some k) :
    exec (.hostReadTimeout part target) s = .next (commitStep s (s.swapInFails part k 0x0312)) := by
  rw [exec_hostReadTimeout, execHostReadTimeout, hx]
  dsimp only
  rw [hphase]
  dsimp only
  rw [if_pos hret]

/-- A step that takes effect does not wait for a swap. -/
theorem effectOn_no_swap (heff : effectOn z c check s) (k : Nat) : c.tgt.phase ≠ .swapWait k := by
  rcases heff with ⟨h, -⟩ | ⟨h, -⟩ | ⟨h, -⟩ <;> rw [h] <;> exact StepPhase.noConfusion

end

/-! ### A context whose swap-in fails (R211, R213) -/

/-- A target whose step is done stays as it is. -/
def State.DoneKept (p t : Nat) (s u : State) : Prop :=
  ∀ x code wrote, s.tgt p t = some x → x.phase = .done code wrote → u.tgt p t = some x

theorem State.DoneKept.trans {p t : Nat} {s u v : State} (h : State.DoneKept p t s u) (h' : State.DoneKept p t u v) :
    State.DoneKept p t s v := fun x code wrote hx hph => h' x code wrote (h x code wrote hx hph) hph

theorem State.DoneKept.of_parts {p t : Nat} {s u : State} (h : u.comp.parts = s.comp.parts) : State.DoneKept p t s u :=
  fun _ _ _ hx _ => (State.tgt_of_parts h p t).trans hx

theorem State.DoneKept.raise {p t : Nat} (s : State) (k bits : Nat) : State.DoneKept p t s (s.raise k bits) :=
  .of_parts (by rw [State.raise_comp])

/-- Every target of a job changed (a change of one among them is a case of it). -/
theorem State.tgt_mapTargets (s : State) (p t : Nat) {f : TargetSt → TargetSt} (hid : ∀ x, (f x).id = x.id) :
    (s.modJob p fun j => { j with targets := j.targets.map f }).tgt p t = (s.tgt p t).map f := by
  have hsame : (fun x : TargetSt => x.id == t) ∘ f = fun x => x.id == t := funext fun x => congrArg (· == t) (hid x)
  unfold State.tgt State.modJob
  rw [lmod_getElem?, if_pos rfl]
  cases s.comp.parts[p]? with
  | none => rfl
  | some q =>
    cases hj : q.job with
    | none => simp [hj]
    | some j =>
      rw [Option.map_some, Option.bind_some, Option.bind_some, hj]
      dsimp only [Option.map_some, Option.bind_some]
      rw [List.find?_map, hsame]

/-- What takes up targets that wait leaves one whose step is done. -/
theorem State.DoneKept.mapTargets {p t : Nat} (s : State) {f : TargetSt → TargetSt} (hid : ∀ x, (f x).id = x.id)
    (hf : ∀ x code wrote, x.phase = .done code wrote → f x = x) :
    State.DoneKept p t s (s.modJob p fun j => { j with targets := j.targets.map f }) := by
  intro x code wrote hx hph
  rw [s.tgt_mapTargets p t hid, hx, Option.map_some, hf x code wrote hph]

theorem State.DoneKept.releaseSwap {p t : Nat} (s : State) (k : Nat) : State.DoneKept p t s (s.releaseSwap p k) := by
  refine .mapTargets s (fun x => by split <;> rfl) fun x code wrote h => if_neg ?_
  rw [h]
  exact StepPhase.noConfusion

theorem State.DoneKept.wakeHead {p t : Nat} (s : State) : State.DoneKept p t s (s.wakeHead p) := by
  unfold State.wakeHead
  split
  · refine .mapTargets s (fun x => ?_) fun x code wrote h => ?_
    · dsimp only
      split
      · split <;> rfl
      · rfl
    · dsimp only
      rw [h]
      exact ite_self _
  · exact .of_parts rfl

/-- The pool looked at again, before its first request is. -/
theorem State.poolLow_eq (s : State) (p : Nat) : s.poolLow p = s ∨
    ∃ (u : State) (low : Bool), u.comp = s.comp ∧ u.kv = { s.kv with pools := lmod s.kv.pools p fun q => { q with wasLow := low } } ∧
      s.poolLow p = u.wakeHead p := by
  unfold State.poolLow
  split
  · next e _ =>
    refine .inr ⟨_, decide (s.freeCount p e < s.rv (poolKey p 0x10)), ?_, ?_, rfl⟩
    · split
      · rw [State.raise_comp]
      · rfl
    · split
      · rw [State.raise_kv]
      · rfl
  · exact .inl rfl

theorem State.DoneKept.poolLow {p t : Nat} (s : State) : State.DoneKept p t s (s.poolLow p) := by
  obtain h | ⟨u, low, hcomp, -, h⟩ := s.poolLow_eq p <;> rw [h]
  · exact .of_parts rfl
  · exact .trans (.of_parts (congrArg _ hcomp)) (.wakeHead u)

theorem State.DoneKept.loseCtx {p t : Nat} (s : State) (k : Nat) : State.DoneKept p t s (s.loseCtx p k) :=
  .trans (.trans (.of_parts rfl) (.releaseSwap (s.modCtx p k _) k)) (.raise _ _ _)

theorem State.wakeHead_kv (s : State) (p : Nat) : (s.wakeHead p).kv = s.kv := by
  unfold State.wakeHead
  split <;> rfl

theorem State.ctx_of_kv {s u : State} (h : u.kv = s.kv) (p k : Nat) : u.ctx p k = s.ctx p k := by rw [State.ctx, State.ctx, h]

theorem State.ctx_poolLow (s : State) (p k : Nat) : (s.poolLow p).ctx p k = s.ctx p k := by
  obtain h | ⟨u, low, -, hkv, h⟩ := s.poolLow_eq p
  · rw [h]
  · rw [h, State.ctx_of_kv (u.wakeHead_kv p), State.ctx, hkv, lmod_getElem?, if_pos rfl, Option.bind_map]
    rfl

theorem State.ctx_modCtx {s : State} {p k : Nat} {x : CtxSt} (f : CtxSt → CtxSt) (h : s.ctx p k = some x) :
    (s.modCtx p k f).ctx p k = some (f x) := by
  rw [State.ctx, Option.bind_eq_some_iff] at h
  obtain ⟨q, hq, hx⟩ := h
  rw [State.ctx, State.modCtx, lmod_getElem?_self _ hq, Option.bind_some, hx]
  exact alGet_alSet_self _ _ _

theorem State.ctx_loseCtx {s : State} {p k : Nat} {x : CtxSt} (h : s.ctx p k = some x) :
    (s.loseCtx p k).ctx p k = some { x with state := .lost, heldSlots := [] } := by
  refine Eq.trans ?_ (State.ctx_modCtx (fun x => { x with state := .lost, heldSlots := [] }) h)
  exact State.ctx_of_kv (State.raise_kv _ _ _) p k

/-- A swap-in that fails loses its context and ends the step that asked for it, if that is no CLOSE (R197, R211, R213). -/
theorem State.swapInFails_spec {s : State} {p t k code : Nat} {x : TargetSt} {q : CtxSt} (hx : s.tgt p t = some x)
    (hphase : x.phase = .swapWait k) (hq : s.ctx p k = some q) (hasker : q.asker = some t) (hclose : x.isClose = false) :
    (s.swapInFails p k code).tgt p t = some { x with phase := .done code x.wrote } ∧
      (s.swapInFails p k code).ctx p k = some { q with state := .lost, heldSlots := [] } := by
  have hfails : s.swapInFails p k code = ((s.endAsker p t code).loseCtx p k).poolLow p := by
    unfold State.swapInFails
    rw [hq, Option.bind_some, hasker]
  have hends : (s.endAsker p t code).tgt p t = some { x with phase := .done code x.wrote } := by
    rw [State.endAsker, s.tgt_modTgt p t ?_, hx, Option.map_some, hphase]
    · dsimp only
      rw [hclose]
      rfl
    · intro y
      split
      · rfl
      · split <;> rfl
      · rfl
  rw [hfails, State.ctx_poolLow]
  refine ⟨?_, State.ctx_loseCtx ((State.ctx_of_kv rfl p k).trans hq)⟩
  exact (State.DoneKept.loseCtx _ k).trans (.poolLow _) _ _ _ hends rfl

end Sys2Proof.Machine
end

section
open Sys2Proof Sys2Proof.Machine Sys2Proof.Safety

/-- Settles O28: the body of each step leaves the bytes that it moves; `padStep_of_body` and `stepLeaves_of_body` say that its
command leaves no more than the body and the phase of its target. -/
theorem copiesMoveTheirBytes : Obligations.CopiesMoveTheirBytes := by
  unfold Obligations.CopiesMoveTheirBytes
  refine ⟨fun z s p t c ht => ⟨fun a n hready ha hn hheld hreach => ?fill, fun a d n hready ha hd hn hrow hpads hsrc hdst => ?copy⟩,
    fun z s p t c base size ht hdram => ⟨fun hready hrows hplanes _ hpoison hlost =>
      ⟨fun o hsrc hdst ho hpads hreach => ?load, fun o hsrc hdst ho hpads hreach => ?store⟩, fun hat heff => ?timeout⟩,
    fun s p t x k q hx hphase hret hq hasker hclose => ?swap⟩
  case fill =>
    obtain ⟨hat, heff⟩ := readyStep_of_stepOf rfl hready
    have hstep := fill_leaves ht hat heff ha hn hheld hreach
    refine ⟨_, rfl, hstep.leaves.done rfl hat heff, fun i hi => ?_, fun x hx => ?_, hstep.cores, hstep.onlyTgt, hstep.frame⟩ <;>
      rw [hstep.pad]
    · exact Pad.byte_write_range _ _ _ _ hi
    · exact Pad.byte_write_out _ _ _ (by simpa [fillBytes] using hx)
  case copy =>
    obtain ⟨hat, heff⟩ := readyStep_of_stepOf rfl hready
    have hstep := copy_leaves ht hat heff ha hd hn hrow hpads hsrc hdst
    refine ⟨_, rfl, hstep.leaves.done rfl hat heff, fun i hi => ?_, fun x hx => ?_, hstep.cores, hstep.onlyTgt, hstep.frame⟩ <;>
      rw [hstep.pad, Pad.copyRows_row _ hsrc hdst]
    · exact Pad.byte_write_range _ _ _ _ hi
    · exact Pad.byte_write_out _ _ _ (by simpa [Pad.bytes] using hx)
  case load =>
    obtain ⟨hat, heff⟩ := readyStep_of_stepOf rfl hready
    obtain ⟨w, any, r, hsame, hstep⟩ := dma_load_leaves ht hat heff ⟨hrows, hplanes, hpoison, hlost⟩ hdram hsrc hdst ho hpads hreach
    refine ⟨_, rfl, hstep.leaves.done hstep.parts hat heff, fun i hi => ?_, fun x hx => ?_, hstep.cores, hstep.onlyTgt, ?_⟩
    · rw [hstep.pad]
      exact Pad.byte_write_range _ _ _ _ hi
    · rw [hstep.pad]
      exact Pad.byte_write_out _ _ _ (by rwa [Mem.readBytes_length])
    · rw [sameDram, hstep.leaves.dram]
      exact hsame
  case store =>
    obtain ⟨hat, heff⟩ := readyStep_of_stepOf rfl hready
    obtain ⟨any, r, hcomp, hclean, hmem, hstep⟩ :=
      dma_store_leaves hat heff ⟨hrows, hplanes, hpoison, hlost⟩ hdram hsrc hdst ho hpads hreach
    have hparts : r.comp.parts = s.comp.parts := congrArg _ hcomp
    refine ⟨_, rfl, hstep.done hparts hat heff, fun i hi => ?_, fun x hx => ?_, ?_, hstep.onlyTgt hparts, ?_⟩
    · rw [hstep.dram, hmem, Mem.read_writeBytes_in _ _ _ _ (by simpa [Pad.bytes] using hi), byte_getElem_bytes]
    · rw [hstep.dram, hmem, Mem.read_writeBytes_out _ _ _ _ (by simpa [Pad.bytes] using hx)]
    · rw [hstep.dram, hclean]
    · rw [hstep.cores, hcomp]
  case timeout =>
    obtain ⟨-, -, -, htgt, -⟩ := State.stepAt_spec hat
    have hstep := dma_timeout_leaves hat heff
    exact ⟨_, exec_hostReadTimeout_step htgt (effectOn_no_swap heff), hstep.done rfl hat heff, hstep.onlyTgt rfl, hstep.dram,
      hstep.cores⟩
  case swap =>
    obtain ⟨htgt, hctx⟩ := State.swapInFails_spec (code := 0x0312) hx hphase hq hasker hclose
    exact ⟨_, _, exec_hostReadTimeout_swap hx hphase hret, htgt, hctx, rfl⟩
end

section
/-!
PROOFS. BANK, TAG and the scrubber (R136, R138, R139, R154, R155, R161).
-/
namespace Sys2Proof.Machine
open Sys2Proof.Safety

/-! ### Banks of a scratchpad (R155) -/

theorem Pad.byte_refill_ne (p : Pad) {a b : Nat} (f : Fill) (h : a / bankBytes ≠ b) : (p.refill b f).byte a = p.byte a := by
  unfold Pad.byte Pad.refill
  dsimp only
  rw [alGet_filter (fun k => k / bankBytes != b), if_pos (bne_iff_ne.2 h), List.getD_eq_getElem?_getD, List.getElem?_set_ne (Ne.symm h),
    List.getD_eq_getElem?_getD]

/-- A bank filled with zeros holds zeros, and so does one beyond the last. -/
theorem Pad.byte_refill_zero (p : Pad) (a : Nat) : (p.refill (a / bankBytes) .zero).byte a = 0#8 := by
  have hfill : (p.fills.set (a / bankBytes) .zero).getD (a / bankBytes) .zero = .zero := by
    rw [List.getD_eq_getElem?_getD, List.getElem?_set]
    split
    · split <;> rfl
    · exact absurd rfl ‹_›
  unfold Pad.byte Pad.refill
  dsimp only
  rw [alGet_filter (fun k => k / bankBytes != a / bankBytes), if_neg (by simp), hfill]
  rfl

theorem Pad.byte_modBanks (p : Pad) (l : List Nat) (f : BankSt → BankSt) (a : Nat) : (p.modBanks l f).byte a = p.byte a := rfl

theorem Pad.banks_modBanks (p : Pad) {l : List Nat} (h : l.Nodup) (f : BankSt → BankSt) (i : Nat) :
    (p.modBanks l f).banks[i]? = if i ∈ l then p.banks[i]?.map f else p.banks[i]? :=
  foldl_lmod_getElem? f h p.banks i

theorem bankSel_nodup (b : List Byte) : (bankSel b).Nodup := List.nodup_range.filter _

/-! ### BANK steps (R154, R155) -/

/-- The scratchpad as BANK CLOSE leaves it: a bank that opens is filled first. -/
def Pad.closeBanks (b : List Byte) (p : Pad) : Pad :=
  (((bankSel b).filter fun i => p.banks.getD i .on == .opening).foldl (fun q i => q.refill i .zero) p).modBanks (bankSel b)
    BankSt.close

theorem Pad.banks_refills (l : List Nat) (f : Fill) (p : Pad) : (l.foldl (fun q i => q.refill i f) p).banks = p.banks := by
  induction l generalizing p with
  | nil => rfl
  | cons i l ih => exact ih (p.refill i f)

theorem Pad.banks_closeBanks (b : List Byte) (p : Pad) (i : Nat) :
    (p.closeBanks b).banks[i]? = if i ∈ bankSel b then p.banks[i]?.map BankSt.close else p.banks[i]? := by
  rw [Pad.closeBanks, Pad.banks_modBanks _ (bankSel_nodup b), Pad.banks_refills]

/-- The phase of a target whose BANK step has had its effect: done where every selected bank is there, else waiting (R154). -/
def State.bankPhase (s : State) (p t : Nat) (b : List Byte) : StepPhase := if s.banksOver p t b then .done 0 false else .bankWait

theorem State.bankPhase_movesOn (s : State) (p t : Nat) (b : List Byte) : (s.bankPhase p t b).movesOn := by
  unfold State.bankPhase
  split <;> trivial

theorem State.banksOver_modTgt (s : State) (q i p t : Nat) (f : TargetSt → TargetSt) (b : List Byte) :
    (s.modTgt q i f).banksOver p t b = s.banksOver p t b := by
  unfold State.banksOver State.padsOf State.coresOf
  rw [State.hostOf_modTgt]
  rfl

section
variable {z s u : State} {p t : Nat} {pick : List Byte → Bool} {check : State → StepCtx → Nat} {c : StepCtx} {f : Pad → Pad}
  {body : State → StepCtx → Option (State × StepPhase)}

/-- A BANK step leaves the banks as its change of the scratchpad does, and its target in the phase that they give. -/
theorem bank_leaves (ht : t < 16) (hat : z.stepAt p t pick = some c) (heff : effectOn z c check s)
    (hbody : body s c = some (s.modPadOf c.p c.t f, (s.modPadOf c.p c.t f).bankPhase c.p c.t c.b))
    (hu : u = commitStep z (z.runStep p t pick check body)) :
    PadStep s s u p t (u.bankPhase p t c.b) f := by
  obtain ⟨rfl, rfl, -⟩ := State.stepAt_spec hat
  have hstep := padStep_of_body ht hat heff hbody (State.bankPhase_movesOn _ _ _ _) rfl rfl
  rw [← hu] at hstep
  have hphase : (s.modPadOf c.p c.t f).bankPhase c.p c.t c.b = u.bankPhase c.p c.t c.b := by
    obtain ⟨g, hg⟩ := hstep.leaves.upd
    rw [State.bankPhase, State.bankPhase, hg, State.banksOver_modTgt]
  rwa [hphase] at hstep

theorem bankClose_leaves (ht : t < 16) (hat : z.stepAt p t pick = some c) (heff : effectOn z c check s)
    (hu : u = commitStep z (z.runStep p t pick check bankCloseBody)) :
    PadStep s s u p t (u.bankPhase p t c.b) (Pad.closeBanks c.b) :=
  bank_leaves ht hat heff rfl hu

theorem bankOpen_leaves (ht : t < 16) (hat : z.stepAt p t pick = some c) (heff : effectOn z c check s)
    (hu : u = commitStep z (z.runStep p t pick check bankOpenBody)) :
    PadStep s s u p t (u.bankPhase p t c.b) fun x => x.modBanks (bankSel c.b) BankSt.open' :=
  bank_leaves ht hat heff rfl hu

theorem tagSet_leaves (ht : t < 16) (hat : z.stepAt p t pick = some c) (heff : effectOn z c check s) :
    PadStep s s (commitStep z (z.runStep p t pick check tagSetBody)) p t (.done 0 true)
      fun x => { x with tag := leAt c.b 0x0C 4 } := by
  obtain ⟨rfl, rfl, -⟩ := State.stepAt_spec hat
  exact padStep_of_body ht hat heff rfl trivial rfl rfl

theorem PadStep.tgt {ph : StepPhase} (h : PadStep s s u p t ph f) {x : TargetSt} (hx : s.tgt p t = some x) :
    u.tgt p t = some { x with phase := ph } :=
  h.leaves.tgt x ((State.tgt_of_parts rfl p t).trans hx)

/-! ### TAG (R135, R136) -/

/-- The scratchpad of a loaded core is one of its target's. -/
theorem effectOn_padOf_mem (ht : t < 16) (hat : z.stepAt p t pick = some c) (heff : effectOn z c check s) :
    s.padOf p t ∈ s.padsOf p t := by
  obtain ⟨hpart, n, k, hhost, hk, -⟩ := effectOn_loaded ht hat heff
  obtain ⟨e, he⟩ := Option.isSome_iff_exists.1 hpart
  refine List.mem_filterMap.2 ⟨n, ?_, ?_⟩
  · rw [State.coresOf, hhost, he]
    dsimp only
    split <;> simp
  · rw [State.padOf, hhost, Option.bind_some, hk]
    rfl

theorem tagCheckBody_agree (hmem : s.padOf c.p c.t ∈ s.padsOf c.p c.t) (h : ∀ a ∈ s.padsOf c.p c.t, a.tag = (s.padOf c.p c.t).tag) :
    tagCheckBody s c = some (if (s.padOf c.p c.t).tag = leAt c.b 0x0C 4
      then s.modTgt c.p c.t fun x => { x with skip := leAt c.b 9 1 } else s, .done 0 false) := by
  have hhit : ∀ v : Bool, ((s.padsOf c.p c.t).map fun x => x.tag == leAt c.b 0x0C 4).contains v =
      (v == ((s.padOf c.p c.t).tag == leAt c.b 0x0C 4)) := by
    intro v
    rw [Bool.eq_iff_iff, List.contains_iff_mem, List.mem_map, beq_iff_eq]
    constructor
    · rintro ⟨a, ha, rfl⟩
      rw [h a ha]
    · intro hv
      exact ⟨_, hmem, hv.symm⟩
  unfold tagCheckBody
  dsimp only
  rw [hhit, hhit]
  cases htag : (s.padOf c.p c.t).tag == leAt c.b 0x0C 4 with
  | true => simp [beq_iff_eq.1 htag]
  | false => simp [beq_eq_false_iff_ne.1 htag]

theorem tagCheckBody_differ {a b : Pad} (ha : a ∈ s.padsOf c.p c.t) (hb : b ∈ s.padsOf c.p c.t) (hhit : a.tag = leAt c.b 0x0C 4)
    (hmiss : b.tag ≠ leAt c.b 0x0C 4) : tagCheckBody s c = some (s, .done 0x0403 false) := by
  have hmem : ∀ x ∈ s.padsOf c.p c.t, ((s.padsOf c.p c.t).map fun x => x.tag == leAt c.b 0x0C 4).contains (x.tag == leAt c.b 0x0C 4) :=
    fun x hx => List.contains_iff_mem.2 (List.mem_map_of_mem hx)
  have hyes := hmem a ha
  have hno := hmem b hb
  rw [beq_iff_eq.2 hhit] at hyes
  rw [beq_eq_false_iff_ne.2 hmiss] at hno
  unfold tagCheckBody
  dsimp only
  rw [hyes, hno]
  rfl

theorem tagCheck_agree_leaves (ht : t < 16) (hat : z.stepAt p t pick = some c) (heff : effectOn z c check s)
    (h : ∀ a ∈ s.padsOf p t, a.tag = (s.padOf p t).tag) {x : TargetSt} (hx : s.tgt p t = some x)
    (hu : u = commitStep z (z.runStep p t pick check tagCheckBody)) :
    u.tgt p t = some { x with phase := .done 0 false, skip := if (s.padOf p t).tag = leAt c.b 0x0C 4 then leAt c.b 9 1 else x.skip } ∧
      ∃ g : TargetSt → TargetSt, u = s.modTgt p t g := by
  have hmem := effectOn_padOf_mem ht hat heff
  obtain ⟨rfl, rfl, -⟩ := State.stepAt_spec hat
  have hbody := tagCheckBody_agree hmem h
  by_cases htag : (s.padOf c.p c.t).tag = leAt c.b 0x0C 4
  · rw [if_pos htag] at hbody ⊢
    have hskip := s.tgt_modTgt c.p c.t (f := fun x => { x with skip := leAt c.b 9 1 }) fun _ => rfl
    rw [hx, Option.map_some] at hskip
    have hstep := stepLeaves_of_body hat heff hbody trivial rfl (by rw [hskip, hx]; rfl)
    rw [← hu] at hstep
    obtain ⟨g, hg⟩ := hstep.upd
    exact ⟨hstep.tgt _ hskip, _, hg.trans (State.modTgt_modTgt _ _ _ fun _ => rfl)⟩
  · rw [if_neg htag] at hbody ⊢
    have hstep := stepLeaves_of_body hat heff hbody trivial rfl rfl
    rw [← hu] at hstep
    exact ⟨hstep.tgt x hx, hstep.upd⟩

theorem tagCheck_differ_leaves {a b : Pad} (hat : z.stepAt p t pick = some c) (heff : effectOn z c check s)
    (ha : a ∈ s.padsOf p t) (hb : b ∈ s.padsOf p t) (hhit : a.tag = leAt c.b 0x0C 4) (hmiss : b.tag ≠ leAt c.b 0x0C 4) :
    StepLeaves s (commitStep z (z.runStep p t pick check tagCheckBody)) p t (.done 0x0403 false) := by
  obtain ⟨rfl, rfl, -⟩ := State.stepAt_spec hat
  exact stepLeaves_of_body hat heff (tagCheckBody_differ ha hb hhit hmiss) trivial rfl rfl

end

/-! ### Banks that reach their state (R155) -/

theorem State.bankDone_cores (s : State) (n : Nat) : (s.bankDone n).comp.cores = s.comp.cores := by
  unfold State.bankDone
  split
  · refine foldl_keeps (fun s => s.comp.cores) _ (fun s i => ?_) _ s
    split
    · split
      · split
        · split <;> rfl
        · rfl
      · rfl
    · rfl
  · rfl

theorem State.modPad_core {s : State} {n : Nat} {c : CoreSt} (f : Pad → Nat → Pad) (h : s.comp.cores[n]? = some c) :
    (s.modPad n f).comp.cores[n]? = some { c with pad := f c.pad s.fresh } :=
  lmod_getElem?_self _ h

theorem State.modPad_core_ne (s : State) {n m : Nat} (f : Pad → Nat → Pad) (h : m ≠ n) :
    (s.modPad n f).comp.cores[m]? = s.comp.cores[m]? := by
  rw [State.modPad, lmod_getElem?, if_neg h]

/-- A change of a core's scratchpad, then the BANK steps that it completes: of the cores that one has changed. -/
theorem State.modPad_bankDone {s : State} {n : Nat} {c : CoreSt} (f : Pad → Nat → Pad) (hc : s.comp.cores[n]? = some c) :
    ((s.modPad n f).bankDone n).comp.cores[n]? = some { c with pad := f c.pad s.fresh } ∧
      ∀ m, m ≠ n → ((s.modPad n f).bankDone n).comp.cores[m]? = s.comp.cores[m]? := by
  rw [State.bankDone_cores]
  exact ⟨State.modPad_core f hc, fun m hm => s.modPad_core_ne f hm⟩

section
variable {s : State} {n b : Nat} {c : CoreSt}

/-- A bank that closes loses its bytes as it reaches OFF. -/
theorem bankOff_cores (hc : s.comp.cores[n]? = some c) (hb : c.pad.banks[b]? = some .closing) :
    (s.bankOff n b).comp.cores[n]? = some { c with pad := (c.pad.refill b (.free s.fresh)).modBanks [b] fun _ => .off } ∧
      ∀ m, m ≠ n → (s.bankOff n b).comp.cores[m]? = s.comp.cores[m]? := by
  rw [State.bankOff, hc]
  dsimp only
  rw [if_pos (by rw [List.getD_eq_getElem?_getD, hb]; rfl)]
  exact State.modPad_bankDone (fun p e => (p.refill b (.free e)).modBanks [b] fun _ => .off) hc

/-- A bank that opens is filled with zeros as it reaches ON. -/
theorem bankOn_cores (hc : s.comp.cores[n]? = some c) (hb : c.pad.banks[b]? = some .opening) :
    (s.bankOn n b).comp.cores[n]? = some { c with pad := (c.pad.refill b .zero).modBanks [b] fun _ => .on } ∧
      ∀ m, m ≠ n → (s.bankOn n b).comp.cores[m]? = s.comp.cores[m]? := by
  rw [State.bankOn, hc]
  dsimp only
  rw [if_pos (by rw [List.getD_eq_getElem?_getD, hb]; rfl)]
  exact State.modPad_bankDone (fun p _ => (p.refill b .zero).modBanks [b] fun _ => .on) hc

end

theorem Pad.banks_refill_set (p : Pad) {b : Nat} {x : BankSt} (f : Fill) (y : BankSt) (h : p.banks[b]? = some x) :
    ((p.refill b f).modBanks [b] fun _ => y).banks[b]? = some y :=
  lmod_getElem?_self (fun _ => y) h

/-! ### The scrubber (R138, R139, R161) -/

theorem State.setScrub_core {s : State} {n : Nat} {c : CoreSt} (w : Nat) (h : s.comp.cores[n]? = some c) :
    (s.setScrub n w).comp.cores[n]? = some { c with scrubPos := w } :=
  lmod_getElem?_self _ h

/-- The scrubber of a core whose domain is ON, at its position in the weight-resident region. -/
structure ScrubsAt (s : State) (n w : Nat) : Prop where
  on : s.domOn (13 + n) = true
  here : w = s.scrubAt n
  inside : 32 * w < s.weights n

theorem State.scrub_moves {s : State} {n w : Nat} (h : ScrubsAt s n w) (r : ScrubResult) :
    s.scrub n w r = (s.scrubWord n w r).setScrub n (w + 1) := by
  have hhere := h.here
  rw [State.scrub, if_pos]
  simp [h.on, ← hhere, h.inside]

theorem State.scrub_stays {s : State} {n w : Nat} (h : s.domOn (13 + n) = false ∨ w ≠ s.scrubAt n) (r : ScrubResult) :
    s.scrub n w r = s := by
  rw [State.scrub, if_neg]
  rcases h with h | h <;> simp [h]

/-- What reading a word in a bank that is ON does, where no poison stands. -/
theorem State.scrubWord_eq {s : State} {n w : Nat} {c : CoreSt} (hc : s.comp.cores[n]? = some c) (hin : 32 * w < s.weights n)
    (hpoison : c.pad.poison = []) (hon : c.pad.bankAt (32 * w) = .on) (r : ScrubResult) :
    s.scrubWord n w r = match r with
      | .clean => s
      | .corrected => s.spCorrected n 1
      | .uncorrected => (s.modPad n fun p _ => { p.mark (s.weights n) (32 * w) 1 with tag := 0 }).spUncorrected n (32 * w) 1 true := by
  unfold State.scrubWord
  rw [hc]
  dsimp only
  rw [hon, if_neg (by simpa using hin), hpoison]
  cases r <;> rfl

theorem State.recentErrors_congr {s u : State} (htime : u.time = s.time) (hsafe : u.safe = s.safe) (kind n : Nat) :
    (u.recentErrors kind n).2 = (s.recentErrors kind n).2 := by
  unfold State.recentErrors
  rw [htime, hsafe]

/-- Corrected errors below the limit of R398 are counted, and recorded. -/
theorem State.spCorrected_below {s : State} {n : Nat} (h : (s.recentErrors (100 + n) 1).2 < 1000) :
    s.spCorrected n 1 = ((s.memCount (0x240000 + 4 * n) 1).recentErrors (100 + n) 1).1 := by
  have hcount := State.recentErrors_congr (s := s) (u := s.memCount (0x240000 + 4 * n) 1) rfl rfl (100 + n) 1
  rw [State.spCorrected, if_neg Nat.one_ne_zero]
  dsimp only
  rw [if_neg (by omega)]

theorem State.memLog_keeps (s : State) (src addr : Nat) :
    (s.memLog src addr).time = s.time ∧ (s.memLog src addr).safe = s.safe ∧ (s.memLog src addr).comp = s.comp := by
  unfold State.memLog
  split
  · exact ⟨rfl, rfl, rfl⟩
  · simp

theorem State.rv_memLog (s : State) (src addr : Nat) {k : Nat} (h : k < 0x2400A0) : (s.memLog src addr).rv k = s.rv k := by
  unfold State.memLog
  split
  · rfl
  · rw [State.rv_setRegs_out _ _ _ _ (.inl (by omega)), State.rv_setReg_ne _ _ _ _ (by omega), State.rv_setReg_ne _ _ _ _ (by omega),
      State.rv_setReg_ne _ _ _ _ (by omega)]

/-- An uncorrected error below the limit of R398 is counted, logged and recorded. -/
theorem State.spUncorrected_below {s : State} {n : Nat} (addr region : Nat) (scrub : Bool)
    (h : (s.recentErrors (200 + n) 1).2 < 3) : s.spUncorrected n addr region scrub =
      (((s.memCount (0x240040 + 4 * n) 1).memLog (n + flagBit 9 scrub + region * 2 ^ 8) addr).recentErrors (200 + n) 1).1 := by
  obtain ⟨htime, hsafe, -⟩ := (s.memCount (0x240040 + 4 * n) 1).memLog_keeps (n + flagBit 9 scrub + region * 2 ^ 8) addr
  have hcount := State.recentErrors_congr (s := s) htime hsafe (200 + n) 1
  rw [State.spUncorrected]
  dsimp only
  rw [if_neg (by omega)]

theorem State.rv_memCount (s : State) (k n : Nat) : (s.memCount k n).rv k = min (s.rv k + n) 0xFFFFFFFF := by
  rw [State.memCount, State.rv_setReg_self]
  omega

/-- The registers of the island after a command are those that it left. -/
theorem rv_commitStep_safe (s u : State) {k : Nat} (h : k / 0x100000 = 2) : (commitStep s u).rv k = u.rv k :=
  Regs.val_congr (by rw [slotOf_of_lt (by omega), h]; rfl)

/-- A corrected error in a word that the scrubber reads is counted; the scrubber goes on (R138, R161). -/
theorem scrub_corrected {s : State} {n w : Nat} {c : CoreSt} (h : ScrubsAt s n w) (hc : s.comp.cores[n]? = some c)
    (hpoison : c.pad.poison = []) (hbank : c.pad.bankAt (32 * w) = .on) (hfew : (s.recentErrors (100 + n) 1).2 < 1000) :
    (s.scrub n w .corrected).rv (0x240000 + 4 * n) = min (s.rv (0x240000 + 4 * n) + 1) 0xFFFFFFFF ∧
      (s.scrub n w .corrected).comp = (s.setScrub n (w + 1)).comp := by
  rw [State.scrub_moves h, State.scrubWord_eq hc h.inside hpoison hbank]
  dsimp only
  rw [State.spCorrected_below hfew]
  exact ⟨s.rv_memCount _ 1, rfl⟩

/-- An uncorrected error in a word that the scrubber reads is counted, and poisons the core's tag (R138, R139, R161). -/
theorem scrub_uncorrected {s : State} {n w : Nat} {c : CoreSt} (hn : n < 16) (h : ScrubsAt s n w) (hc : s.comp.cores[n]? = some c)
    (hpoison : c.pad.poison = []) (hbank : c.pad.bankAt (32 * w) = .on) (hfew : (s.recentErrors (200 + n) 1).2 < 3) :
    (s.scrub n w .uncorrected).rv (0x240040 + 4 * n) = min (s.rv (0x240040 + 4 * n) + 1) 0xFFFFFFFF ∧
      (s.scrub n w .uncorrected).comp.cores[n]? =
        some { c with pad := { c.pad.mark (s.weights n) (32 * w) 1 with tag := 0 }, scrubPos := w + 1 } := by
  let u := s.modPad n fun p _ => { p.mark (s.weights n) (32 * w) 1 with tag := 0 }
  have hfew' : (u.recentErrors (200 + n) 1).2 < 3 := by rwa [State.recentErrors_congr (s := s) (u := u) rfl rfl]
  rw [State.scrub_moves h, State.scrubWord_eq hc h.inside hpoison hbank]
  dsimp only
  rw [State.spUncorrected_below (32 * w) 1 true hfew']
  constructor
  · exact (State.rv_memLog _ _ _ (by omega)).trans (u.rv_memCount _ 1)
  · have hcomp := ((u.memCount (0x240040 + 4 * n) 1).memLog_keeps (n + flagBit 9 true + 1 * 2 ^ 8) (32 * w)).2.2
    refine State.setScrub_core (c := { c with pad := { c.pad.mark (s.weights n) (32 * w) 1 with tag := 0 } }) (w + 1) ?_
    exact (congrArg (·.cores[n]?) hcomp).trans (State.modPad_core (fun p _ => { p.mark (s.weights n) (32 * w) 1 with tag := 0 }) hc)

end Sys2Proof.Machine
end

section
open Sys2Proof Sys2Proof.Machine Sys2Proof.Safety

/-- Settles O29: the banks and the tag as the body of each step leaves them (`PadStep`); a bank that is filled again changes no
byte outside of it; the scrubber counts below the limits, where no core leaves service. -/
theorem banksTagsAndScrubber : Obligations.BanksTagsAndScrubber := by
  unfold Obligations.BanksTagsAndScrubber
  refine ⟨⟨fun z s p t c x ht hx => ⟨fun hready => ?close, fun hready => ?opens, fun hready => ?set, fun hready =>
    ⟨fun hagree => ?agree, fun a b ha hb hhit hmiss => ?differ⟩⟩, fun s n b c hc => ⟨fun hb => ?off, fun hb => ?on⟩⟩,
    fun s n w c hc => ⟨fun hstay r => ?stay, fun hon hw hin hpoison hbank =>
      ⟨?clean, fun hfew => ?corrected, fun hfew => ?uncorrected⟩⟩⟩
  case close =>
    obtain ⟨hat, heff⟩ := readyStep_of_stepOf rfl hready
    have hstep := bankClose_leaves ht hat heff rfl
    refine ⟨_, rfl, hstep.onlyTgt, fun i => ?_, hstep.tgt hx, hstep.frame⟩
    rw [hstep.pad, Pad.banks_closeBanks]
  case opens =>
    obtain ⟨hat, heff⟩ := readyStep_of_stepOf rfl hready
    have hstep := bankOpen_leaves ht hat heff rfl
    refine ⟨_, rfl, hstep.onlyTgt, fun i => ?_, fun a => ?_, hstep.tgt hx, hstep.frame⟩
    · rw [hstep.pad, Pad.banks_modBanks _ (bankSel_nodup c.b)]
    · rw [hstep.pad, Pad.byte_modBanks]
  case set =>
    obtain ⟨hat, heff⟩ := readyStep_of_stepOf rfl hready
    have hstep := tagSet_leaves ht hat heff
    exact ⟨_, rfl, hstep.leaves.done rfl hat heff, hstep.onlyTgt, hstep.pad, hstep.frame⟩
  case agree =>
    obtain ⟨hat, heff⟩ := readyStep_of_stepOf rfl hready
    obtain ⟨htgt, g, hg⟩ := tagCheck_agree_leaves ht hat heff hagree hx rfl
    refine ⟨_, rfl, ⟨g, congrArg (·.comp.parts) hg⟩, htgt, ?_⟩
    rw [hg]
    rfl
  case differ =>
    obtain ⟨hat, heff⟩ := readyStep_of_stepOf rfl hready
    have hstep := tagCheck_differ_leaves hat heff ha hb hhit hmiss
    exact ⟨_, rfl, hstep.onlyTgt rfl, hstep.tgt x hx, hstep.frame⟩
  case off =>
    obtain ⟨hcore, hothers⟩ := bankOff_cores hc hb
    exact ⟨_, _, rfl, hcore, Pad.banks_refill_set _ _ _ hb, fun a ha => Pad.byte_refill_ne _ _ ha, hothers⟩
  case on =>
    obtain ⟨hcore, hothers⟩ := bankOn_cores hc hb
    refine ⟨_, _, rfl, hcore, Pad.banks_refill_set _ _ _ hb, fun a => ?_, hothers⟩
    split
    · next ha => exact ha ▸ Pad.byte_refill_zero c.pad a
    · next ha => exact Pad.byte_refill_ne _ _ ha
  case stay => rw [exec_scrub, execScrub, State.scrub_stays hstay, commitStep_self]
  case clean =>
    rw [exec_scrub, execScrub, State.scrub_moves ⟨hon, hw, hin⟩, State.scrubWord_eq hc hin hpoison hbank]
    rfl
  case corrected =>
    obtain ⟨hcount, hcomp⟩ := scrub_corrected ⟨hon, hw, hin⟩ hc hpoison hbank hfew
    exact ⟨_, rfl, (rv_commitStep_safe _ _ (by omega)).trans hcount, hcomp⟩
  case uncorrected =>
    obtain ⟨hcount, hcore⟩ := scrub_uncorrected n.isLt ⟨hon, hw, hin⟩ hc hpoison hbank hfew
    exact ⟨_, _, rfl, (rv_commitStep_safe _ _ (by omega)).trans hcount, hcore, rfl, rfl, fun a => Pad.byte_congr rfl rfl a⟩
end

section
/-!
PROOFS. What a scrub pass keeps: the power domains, the DRAM, the instants, the counters, and the bytes of every core (R138, R139).
-/
namespace Sys2Proof.Machine
open Sys2Proof.Safety

/-! ### Counters -/

theorem State.ctr_setReg (s : State) (k v k' : Nat) : (s.setReg k v).ctr k' = s.ctr k' := by
  simp only [State.ctr, State.setReg, Regs.setVal, Regs.blk_setBlk]
  by_cases e : min (slotOf k) 15 = min (slotOf k') 15
  · simp only [if_pos e, Regs.blk_min _ _ _ e]
  · simp only [if_neg e]

theorem State.ctr_setRegs (s : State) (k k' : Nat) (l : List Nat) : (s.setRegs k l).ctr k' = s.ctr k' := by
  induction l generalizing s k with
  | nil => rfl
  | cons v t ih => rw [State.setRegs, ih, State.ctr_setReg]

theorem State.ctr_sendVector (s : State) (p v k : Nat) : (s.sendVector p v).ctr k = s.ctr k := by
  unfold State.sendVector
  dsimp only
  split
  · rfl
  · split
    · exact s.ctr_setReg _ _ _
    · rfl

/-- An event counts nothing (R365, R370). -/
theorem State.ctr_raise (s : State) (k bits k' : Nat) : (s.raise k bits).ctr k' = s.ctr k' := by
  have hset := s.ctr_setReg k (s.rv k ||| bits) k'
  unfold State.raise
  dsimp only
  split
  · exact (foldl_keeps (fun s : State => s.ctr k') _ (fun s p => s.ctr_sendVector p _ k') _ _).trans hset
  · exact hset

/-! ### What memory errors of a core keep -/

/-- The power domains, the DRAM, the instants and the counters stand, and each core's scratchpad holds the same bytes. -/
structure BytesKept (s t : State) : Prop where
  pwr : t.pwr = s.pwr
  dram : t.dram = s.dram
  time : t.time = s.time
  ctr : ∀ k, t.ctr k = s.ctr k
  bytes : ∀ (m : Nat) (c : CoreSt), s.comp.cores[m]? = some c → ∃ e : CoreSt, t.comp.cores[m]? = some e ∧ ∀ a, e.pad.byte a = c.pad.byte a

namespace BytesKept

variable {s t u : State}

theorem of_cores (hpwr : t.pwr = s.pwr) (hdram : t.dram = s.dram) (htime : t.time = s.time) (hctr : ∀ k, t.ctr k = s.ctr k)
    (hcores : t.comp.cores = s.comp.cores) : BytesKept s t :=
  ⟨hpwr, hdram, htime, hctr, fun _ c hc => ⟨c, hcores ▸ hc, fun _ => rfl⟩⟩

theorem refl (s : State) : BytesKept s s := of_cores rfl rfl rfl (fun _ => rfl) rfl

theorem trans (h : BytesKept s t) (h' : BytesKept t u) : BytesKept s u := by
  refine ⟨h'.pwr.trans h.pwr, h'.dram.trans h.dram, h'.time.trans h.time, fun k => (h'.ctr k).trans (h.ctr k), fun m c hc => ?_⟩
  obtain ⟨d, hd, hbytes⟩ := h.bytes m c hc
  obtain ⟨e, he, hbytes'⟩ := h'.bytes m d hd
  exact ⟨e, he, fun a => (hbytes' a).trans (hbytes a)⟩

theorem foldl {α : Type} {f : State → α → State} (h : ∀ s x, BytesKept s (f s x)) (l : List α) (s : State) :
    BytesKept s (l.foldl f s) := by
  induction l generalizing s with
  | nil => exact .refl s
  | cons x l ih => exact (h s x).trans (ih _)

theorem raise (s : State) (k bits : Nat) : BytesKept s (s.raise k bits) :=
  of_cores (s.raise_pwr k bits) (s.raise_dram k bits) (s.raise_time k bits) (s.ctr_raise k bits) (by rw [s.raise_comp k bits])

theorem setReg (s : State) (k v : Nat) : BytesKept s (s.setReg k v) := of_cores rfl rfl rfl (s.ctr_setReg k v) rfl

theorem setRegs (s : State) (k : Nat) (l : List Nat) : BytesKept s (s.setRegs k l) :=
  of_cores (by simp) (by simp) (by simp) (fun k' => s.ctr_setRegs k k' l) (by simp)

theorem logNow (s : State) (response unit code : Nat) : BytesKept s (s.logNow response unit code) := by
  unfold State.logNow State.logFault
  refine .trans ?_ (.raise _ _ _)
  exact of_cores rfl rfl rfl (fun _ => rfl) rfl

theorem partLosesCore (s : State) (p n : Nat) : BytesKept s (s.partLosesCore p n) := of_cores rfl rfl rfl (fun _ => rfl) rfl

/-- A core out of service keeps its bytes (R240, R398). -/
theorem loseUnit (s : State) {n : Nat} (code : Nat) (hn : n < 16) : BytesKept s (s.loseUnit n code) := by
  unfold State.loseUnit
  split
  · exact refl s
  · dsimp only
    have hlog : ∀ s : State, BytesKept s ((s.logNow 1 n code).raise 0x200020 0x40) := fun s => (logNow s 1 n code).trans (raise _ _ _)
    split
    · refine .trans (.trans ?_ (hlog _)) (partLosesCore _ _ _)
      exact of_cores rfl rfl rfl (fun _ => rfl) rfl
    · refine .trans ?_ (hlog _)
      exact of_cores rfl rfl rfl (fun _ => rfl) rfl

theorem memLog (s : State) (src addr : Nat) : BytesKept s (s.memLog src addr) := by
  unfold State.memLog
  split
  · exact refl s
  · exact (((setReg s _ _).trans (setReg _ _ _)).trans (setReg _ _ _)).trans (setRegs _ _ _)

theorem recentErrors (s : State) (kind n : Nat) : BytesKept s (s.recentErrors kind n).1 := of_cores rfl rfl rfl (fun _ => rfl) rfl

theorem spCorrected (s : State) {n : Nat} (k : Nat) (hn : n < 16) : BytesKept s (s.spCorrected n k) := by
  unfold State.spCorrected
  split
  · exact refl s
  · have hcount := (setReg s (0x240000 + 4 * n) (min (s.rv (0x240000 + 4 * n) + k) 0xFFFFFFFF)).trans (recentErrors _ (100 + n) k)
    dsimp only
    split
    · exact hcount.trans (loseUnit _ _ hn)
    · exact hcount

theorem spUncorrected (s : State) {n : Nat} (addr region : Nat) (scrub : Bool) (hn : n < 16) :
    BytesKept s (s.spUncorrected n addr region scrub) := by
  have hcount := ((setReg s (0x240040 + 4 * n) (min (s.rv (0x240040 + 4 * n) + 1) 0xFFFFFFFF)).trans
    (memLog _ (n + flagBit 9 scrub + region * 2 ^ 8) addr)).trans (recentErrors _ (200 + n) 1)
  unfold State.spUncorrected
  dsimp only
  split
  · exact hcount.trans (loseUnit _ _ hn)
  · exact hcount

theorem modPad (s : State) (n : Nat) {f : Pad → Nat → Pad} (hf : ∀ p e a, (f p e).byte a = p.byte a) : BytesKept s (s.modPad n f) := by
  refine ⟨rfl, rfl, rfl, fun _ => rfl, fun m c hc => ?_⟩
  by_cases hm : m = n
  · subst hm
    exact ⟨_, State.modPad_core f hc, fun a => hf c.pad s.fresh a⟩
  · exact ⟨c, (s.modPad_core_ne f hm).trans hc, fun _ => rfl⟩

/-- A word marked, and the tag with it, changes no byte. -/
theorem markWord (s : State) (n weights a : Nat) :
    BytesKept s (s.modPad n fun p _ => { p.mark weights a 1 with tag := 0 }) :=
  modPad s n fun _ _ a => Pad.byte_congr rfl rfl a

theorem scrubWord (s : State) {n : Nat} (w : Nat) (r : ScrubResult) (hn : n < 16) : BytesKept s (s.scrubWord n w r) := by
  unfold State.scrubWord
  dsimp only
  split
  · split
    · exact refl s
    · split
      · exact (markWord s n _ _).trans (spUncorrected _ _ _ _ hn)
      · split
        · exact spCorrected s 1 hn
        · exact refl s
  · exact refl s

/-- A scrub pass marks and logs the errors that it finds, and writes no byte (R138, R139). -/
theorem scrubPass (s : State) {n : Nat} (found : List (Nat × ScrubResult)) (hn : n < 16) : BytesKept s (s.scrubPass n found) := by
  unfold State.scrubPass
  apply foldl
  intro s x
  exact scrubWord s x.1 x.2 hn

end BytesKept

end Sys2Proof.Machine
end

section
/-!
PROOFS. Power domains: demand, wake, RETAIN, OFF, points; towers in SELF_REFRESH (R153, R155, R428 to R431, R436, R477, R479).
-/
namespace Sys2Proof.Machine
open Sys2Proof.Safety

/-! ### Domains -/

theorem lmod_eq_set {α : Type} {l : List α} {i : Nat} {x : α} (f : α → α) (h : l[i]? = some x) : lmod l i f = l.set i (f x) := by
  rw [lmod, h]

theorem State.modDom_eq {s : State} {d : Nat} {x : DomSt} (f : DomSt → DomSt) (hx : s.pwr.doms[d]? = some x) :
    s.modDom d f = { s with pwr := { s.pwr with doms := s.pwr.doms.set d (f x) } } := by
  rw [State.modDom, lmod_eq_set f hx]

theorem commitPwr_self (s : State) : commitPwr s s = s := rfl

theorem commitOff_self (s : State) : commitOff s s = s := rfl

/-- A domain changed is all that a command of this chapter then commits. -/
theorem commitPwr_modDom {s : State} {d : Nat} {x : DomSt} (f : DomSt → DomSt) (hx : s.pwr.doms[d]? = some x) :
    commitPwr s (s.modDom d f) = { s with pwr := { s.pwr with doms := s.pwr.doms.set d (f x) } } := by
  rw [State.modDom_eq f hx]
  rfl

/-! ### Demand and points (R428, R436) -/

section
variable {s : State} {d : DomIx} {x : DomSt}

theorem exec_demand_none (h : s.hasDemand d = false ∨ s.alive = false) : exec (.demand d) s = .next s := by
  rw [exec_demand, execDemand, if_neg, commitPwr_self]
  rcases h with h | h <;> simp [h]

theorem exec_demand_wakes (hx : s.pwr.doms[d.val]? = some x) (hdemand : s.hasDemand d = true) (halive : s.alive = true)
    (hpolicy : x.policy = 0) (himage : s.ward.image.isSome = true) :
    exec (.demand d) s = .next { s with pwr := { s.pwr with doms := s.pwr.doms.set d x.wake } } := by
  rw [exec_demand, execDemand, if_pos (by rw [halive, hdemand]; rfl), State.demand, hx]
  dsimp only
  rw [if_pos ⟨hpolicy, himage⟩, commitPwr_modDom _ hx]

theorem exec_demand_policy (hx : s.pwr.doms[d.val]? = some x) (hpolicy : x.policy ≠ 0) : exec (.demand d) s = .next s := by
  have hstays : s.demand d = s := by
    rw [State.demand, hx]
    exact if_neg fun h => hpolicy h.1
  rw [exec_demand, execDemand, hstays, ite_self, commitPwr_self]

theorem exec_pointStepDone_moves (hx : s.pwr.doms[d.val]? = some x) (hpoint : 8 ≤ d.val) :
    exec (.pointStepDone d) s = .next { s with pwr := { s.pwr with doms := s.pwr.doms.set d { x with
      point := if x.point < s.effPoint d then x.point + 1 else if s.effPoint d < x.point then x.point - 1 else x.point } } } := by
  rw [exec_pointStepDone, execPointStepDone, State.pointStep, if_neg (by simp [hasPoint, hpoint]), commitPwr_modDom _ hx]

end

/-! ### Towers (R153) -/

section
variable {s : State} {t : Fin 4} {y : TowerSt}

theorem exec_selfRefreshEntry_enabled (hy : s.dram.towers[t.val]? = some y) (hen : tbit (s.rv 0x480000) 16 = true)
    (hstate : y.state = .active) : exec (.selfRefreshEntry t) s =
      .next { s with dram := { s.dram with towers := s.dram.towers.set t { y with state := .selfRefresh } } } := by
  have hon : tbit (s.rv (pwrKey 0x80000)) 16 = true := hen
  rw [exec_selfRefreshEntry, execSelfRefreshEntry, if_pos hon, State.modTower, lmod_eq_set _ hy, if_pos hstate]
  rfl

theorem exec_selfRefreshEntry_disabled (hen : tbit (s.rv 0x480000) 16 = false) : exec (.selfRefreshEntry t) s = .next s := by
  have hoff : ¬ tbit (s.rv (pwrKey 0x80000)) 16 = true := Bool.eq_false_iff.1 hen
  rw [exec_selfRefreshEntry, execSelfRefreshEntry, if_neg hoff, commitPwr_self]

theorem exec_selfRefreshExit_active (hy : s.dram.towers[t.val]? = some y) (hstate : y.state = .selfRefresh) :
    exec (.selfRefreshExit t) s =
      .next { s with dram := { s.dram with towers := s.dram.towers.set t { y with state := .active } } } := by
  rw [exec_selfRefreshExit, execSelfRefreshExit, State.modTower, lmod_eq_set _ hy, if_pos hstate]
  rfl

end

/-! ### Scratchpads over RETAIN and OFF (R155, R430) -/

theorem getD_range_map {α : Type} (f : Nat → α) (x : α) {n i : Nat} (h : i < n) : ((List.range n).map f).getD i x = f i := by
  simp [h]

/-- A wake cleans a bank: any bank from OFF, an activation bank that is ON from RETAIN. -/
def Pad.cleaned (p : Pad) (fromOff : Bool) (act b : Nat) : Bool := fromOff || (decide (act ≤ b) && p.banks.getD b .on == .on)

/-- A bank that a wake cleans holds zeros, and another what it held. -/
theorem Pad.byte_wake (p : Pad) (fromOff : Bool) (act : Nat) {a : Nat} (ha : a < 64 * 0x80000) :
    (p.wake fromOff act).byte a = if p.cleaned fromOff act (a / 0x80000) then 0 else p.byte a := by
  have hcells : alGet (p.wake fromOff act).cells a =
      if (!p.cleaned fromOff act (a / 0x80000)) = true then alGet p.cells a else none :=
    alGet_filter (fun k => !p.cleaned fromOff act (k / 0x80000)) p.cells a
  have hfills : (p.wake fromOff act).fills.getD (a / 0x80000) .zero =
      if p.cleaned fromOff act (a / 0x80000) then .zero else p.fills.getD (a / 0x80000) .zero :=
    getD_range_map _ _ (by omega)
  unfold Pad.byte bankBytes
  rw [hcells, hfills]
  cases p.cleaned fromOff act (a / 0x80000) <;> rfl

/-- A core that enters RETAIN keeps its weight-resident region. -/
theorem Pad.byte_retain_kept (p : Pad) {act a : Nat} (epoch : Nat) (ha : a < act * 0x80000) (hact : act ≤ 64) :
    (p.retain act epoch).byte a = p.byte a := by
  unfold Pad.byte Pad.retain bankBytes
  dsimp only
  rw [alGet_filter (fun k => decide (k / 0x80000 < act)), if_pos (decide_eq_true (by omega)), getD_range_map _ _ (by omega),
    if_neg (by omega)]

/-! ### Pins (R477) -/

/-- A pin without a pulse in progress at a level. -/
def PulseSt.settle (level : Bool) (p : PulseSt) : PulseSt := if p.high then p else { p with level := level }

theorem PulseSt.settle_settle (level : Bool) (p : PulseSt) : (p.settle level).settle level = p.settle level := by
  unfold PulseSt.settle
  split <;> simp_all

theorem State.settlePin_pulse (s : State) (g : Nat) (level : Bool) (k : Nat) : (s.settlePin g level).time.pulse[k]? =
    if k = g then s.time.pulse[k]?.map (PulseSt.settle level) else s.time.pulse[k]? := by
  unfold State.settlePin
  split
  · next p hp =>
    by_cases hk : k = g
    · subst hk
      rw [if_pos rfl, hp, Option.map_some, PulseSt.settle]
      split
      · next hstays =>
        rw [hp]
        split
        · rfl
        · next hlow =>
          have hlevel : p.level = level := by simpa [hlow] using hstays
          rw [← hlevel]
      · next hmoves =>
        have hlow : ¬ p.high = true := fun h => hmoves (by rw [h]; rfl)
        rw [if_neg hlow]
        exact lmod_getElem?_self _ hp
    · rw [if_neg hk]
      split
      · rfl
      · exact (lmod_getElem? _ _ _ _).trans (if_neg hk)
  · next hp =>
    split
    · next hk => rw [hk, hp]; rfl
    · rfl

theorem State.settlePins_pulse (l : List Nat) (s : State) (k : Nat) :
    (l.foldl (fun s g => s.settlePin g (s.restLevel g)) s).time.pulse[k]? =
      if k ∈ l then s.time.pulse[k]?.map (PulseSt.settle (s.restLevel k)) else s.time.pulse[k]? := by
  induction l generalizing s with
  | nil => rfl
  | cons g l ih =>
    have hlevel : (s.settlePin g (s.restLevel g)).restLevel k = s.restLevel k := by
      obtain ⟨y, o, h⟩ := s.settlePin_frame g (s.restLevel g)
      rw [h]
      rfl
    rw [List.foldl_cons, ih, hlevel, State.settlePin_pulse]
    by_cases hk : k = g
    · subst hk
      simp only [if_true, List.mem_cons, true_or, Option.map_map]
      split
      · exact congrArg (Option.map · _) (funext (PulseSt.settle_settle _))
      · rfl
    · rw [if_neg hk]
      simp only [List.mem_cons, hk, false_or]

/-- Where PD4 is ON, a pin without a pulse in progress rests as POL says. -/
theorem State.restPins_pulse {s : State} (hon : s.domOn 4 = true) {g : Nat} (hg : g < 8) {y : PulseSt}
    (hy : s.time.pulse[g]? = some y) (hlow : y.high = false) :
    s.restPins.time.pulse[g]? = some { y with level := s.restLevel g } := by
  rw [State.restPins, if_pos hon, State.settlePins_pulse, if_pos (List.mem_range.2 hg), hy, Option.map_some, PulseSt.settle,
    if_neg (Bool.eq_false_iff.1 hlow)]

end Sys2Proof.Machine
end

section
/-!
PROOFS. A wake that is complete, RETAIN and OFF of a domain (R426 to R431).
-/
namespace Sys2Proof.Machine
open Sys2Proof.Safety

theorem State.domOn_set {s : State} {d : Nat} {x y : DomSt} (hx : s.pwr.doms[d]? = some x)
    {t : State} (ht : t.pwr.doms = s.pwr.doms.set d y) : t.domOn d = (y.state == .on) := by
  have hlt : d < s.pwr.doms.length := (List.getElem?_eq_some_iff.1 hx).1
  rw [State.domOn, ht, List.getElem?_set_self hlt]

/-! ### A wake that is complete (R429, R430) -/

/-- A domain that is WAKING is ON at its effective point, counted. -/
def State.domUp (s : State) (d : Nat) : State :=
  (s.modDom d fun x => { x with state := .on, fromOff := false, point := s.effPoint d }).bump (pwrKey (0x10200 + 8 * d)) 1

/-- The pins and the sensors that follow the domain. -/
def State.pinsUp (s : State) (d : Nat) : State := if d = 4 then (s.domUp d).restPins else (s.domUp d).supplied s

/-- The scratchpad of the domain's core. -/
def State.padUp (s : State) (d : Nat) (fromOff : Bool) : State :=
  if 13 ≤ d then (s.pinsUp d).modPad (d - 13) fun p _ => p.wake fromOff (s.actBank (d - 13)) else s.pinsUp d

section
variable {s : State} {d : Nat} {x : DomSt}

theorem State.domUp_pwr (hx : s.pwr.doms[d]? = some x) : (s.domUp d).pwr = { s.pwr with
    doms := s.pwr.doms.set d { x with state := .on, fromOff := false, point := s.effPoint d } } := by
  rw [State.domUp, State.modDom_eq _ hx]
  rfl

theorem State.pinsUp_frame (s : State) (d : Nat) : ∃ y o, s.pinsUp d = (s.domUp d).withTO y o ∧ (d ≠ 4 → y = s.time) := by
  unfold State.pinsUp
  split
  · next h =>
    obtain ⟨y, o, hpins⟩ := (s.domUp d).restPins_frame
    exact ⟨y, o, hpins, fun h' => absurd h h'⟩
  · obtain ⟨o, hsupply⟩ := (s.domUp d).supplied_frame s
    exact ⟨s.time, o, hsupply, fun _ => rfl⟩

/-- All of a wake but the scratchpad. -/
theorem State.pinsUp_keeps (hx : s.pwr.doms[d]? = some x) : (s.pinsUp d).pwr = { s.pwr with
      doms := s.pwr.doms.set d { x with state := .on, fromOff := false, point := s.effPoint d } } ∧
    (s.pinsUp d).ctr (0x410200 + 8 * d) = (s.ctr (0x410200 + 8 * d) + 1) % two64 ∧ (s.pinsUp d).dram = s.dram ∧
    (s.pinsUp d).comp = s.comp ∧ (d ≠ 4 → (s.pinsUp d).time = s.time) := by
  obtain ⟨y, o, hpins, htime⟩ := s.pinsUp_frame d
  have hkey : pwrKey (0x10200 + 8 * d) = 0x410200 + 8 * d := by unfold pwrKey; omega
  have hctr : (s.domUp d).ctr (0x410200 + 8 * d) = (s.ctr (0x410200 + 8 * d) + 1) % two64 := by
    rw [State.domUp, hkey, State.ctr_bump_self]
    rfl
  rw [hpins]
  exact ⟨State.domUp_pwr hx, hctr, rfl, rfl, htime⟩

/-- A wake that is complete is the scratchpad's, then for a core that leaves RETAIN a scrub pass. -/
theorem State.wakeDone_padUp (found : List (Nat × ScrubResult)) (hd : d < 29) (hx : s.pwr.doms[d]? = some x) (hwaking : x.state = .waking) :
    BytesKept (s.padUp d x.fromOff) (s.wakeDone d found) ∧
      (s.wakeDone d found = s.padUp d x.fromOff ∨ 13 ≤ d ∧ x.fromOff = false) := by
  have hdone : s.wakeDone d found =
      if 13 ≤ d ∧ x.fromOff = false then (s.padUp d x.fromOff).scrubPass (d - 13) found else s.padUp d x.fromOff := by
    rw [State.wakeDone, hx]
    dsimp only
    rw [if_pos hwaking]
    unfold State.padUp State.pinsUp State.domUp
    by_cases hcore : 13 ≤ d
    · cases x.fromOff <;> simp only [hcore, if_true, if_false, and_true, and_false, reduceCtorEq]
    · simp only [hcore, if_false, false_and]
  rw [hdone]
  split
  · next h => exact ⟨.scrubPass _ found (by omega), .inr h⟩
  · exact ⟨.refl _, .inl rfl⟩

theorem State.padUp_keeps (s : State) (d : Nat) (fromOff : Bool) : (s.padUp d fromOff).pwr = (s.pinsUp d).pwr ∧
    (s.padUp d fromOff).dram = (s.pinsUp d).dram ∧ (s.padUp d fromOff).time = (s.pinsUp d).time ∧
    (∀ k, (s.padUp d fromOff).ctr k = (s.pinsUp d).ctr k) ∧ (s.padUp d fromOff).out = (s.pinsUp d).out := by
  unfold State.padUp
  split
  · exact ⟨rfl, rfl, rfl, fun _ => rfl, rfl⟩
  · exact ⟨rfl, rfl, rfl, fun _ => rfl, rfl⟩

/-- With PD5 the supplies of the SENT sensors come on (R479). -/
theorem State.pinsUp_sent (hd : d = 5) (hx : s.pwr.doms[d]? = some x) (hwaking : x.state = .waking) :
    .sentSup true ∈ (s.pinsUp d).out := by
  subst hd
  have hnew : (s.domUp 5).domOn 5 = true := by
    rw [State.domOn_set hx (congrArg (·.doms) (State.domUp_pwr hx))]
    rfl
  have hold : s.domOn 5 = false := by
    rw [State.domOn, hx]
    dsimp only
    rw [hwaking]
    rfl
  rw [State.pinsUp, if_neg (by decide), State.supplied, hnew, hold, if_neg Bool.noConfusion, State.emit_out]
  exact List.mem_append_right _ (List.mem_singleton_self _)

/-- With PD4 the pins without a pulse in progress come to rest (R477). -/
theorem State.pinsUp_rest (hd : d = 4) (hx : s.pwr.doms[d]? = some x) {g : Nat} (hg : g < 8) {y : PulseSt} (hy : s.time.pulse[g]? = some y)
    (hlow : y.high = false) : (s.pinsUp d).time.pulse[g]? = some { y with level := s.restLevel g } := by
  subst hd
  have hon : (s.domUp 4).domOn 4 = true := by
    rw [State.domOn_set hx (congrArg (·.doms) (State.domUp_pwr hx))]
    rfl
  have hlevel : (s.domUp 4).restLevel g = s.restLevel g := by
    rw [State.restLevel, State.domUp, State.rv_bump]
    rfl
  rw [State.pinsUp, if_pos rfl, ← hlevel]
  exact State.restPins_pulse hon hg hy hlow

theorem State.padUp_core (fromOff : Bool) (hd : 13 ≤ d) {c : CoreSt} (hc : s.comp.cores[d - 13]? = some c) :
    (s.padUp d fromOff).comp.cores[d - 13]? = some { c with pad := c.pad.wake fromOff (s.actBank (d - 13)) } := by
  obtain ⟨y, o, hpins, -⟩ := s.pinsUp_frame d
  have hpinsc : (s.pinsUp d).comp.cores[d - 13]? = some c := by
    rw [hpins]
    exact hc
  rw [State.padUp, if_pos hd]
  exact State.modPad_core _ hpinsc

/-- The scratchpad of a core that has woken: what the wake cleans holds zeros; from RETAIN the weight-resident region stands, and
from OFF every bank is ON (R155, R430). -/
theorem wokenCore {t : State} {fromOff : Bool} (hd : 13 ≤ d) {c : CoreSt} (hc : s.comp.cores[d - 13]? = some c)
    (hact : s.actBank (d - 13) ≤ 64) (hkept : BytesKept (s.padUp d fromOff) t) (hscrub : t = s.padUp d fromOff ∨ 13 ≤ d ∧ fromOff = false) :
    ∃ e : CoreSt, t.comp.cores[d - 13]? = some e ∧
      (∀ a, s.actBank (d - 13) * 0x80000 ≤ a → a < 64 * 0x80000 →
        (fromOff = true ∨ c.pad.banks.getD (a / 0x80000) .on = .on) → e.pad.byte a = 0) ∧
      (fromOff = false → ∀ a, a < s.actBank (d - 13) * 0x80000 → e.pad.byte a = c.pad.byte a) ∧
      (fromOff = true → (∀ a, a < 64 * 0x80000 → e.pad.byte a = 0) ∧ e.pad.banks = List.replicate 64 .on ∧ e.pad.tag = 0) := by
  have hwoken := State.padUp_core fromOff hd hc
  obtain ⟨e, he, hbytes⟩ := hkept.bytes _ _ hwoken
  refine ⟨e, he, fun a hlo hhi h => ?_, fun h a ha => ?_, fun h => ?_⟩
  · have hclean : c.pad.cleaned fromOff (s.actBank (d - 13)) (a / 0x80000) = true := by
      have hbank : s.actBank (d - 13) ≤ a / 0x80000 := by omega
      rcases h with h | h
      · rw [Pad.cleaned, h, Bool.true_or]
      · rw [Pad.cleaned, h, decide_eq_true hbank, Bool.or_eq_true]
        exact .inr rfl
    rw [hbytes, Pad.byte_wake _ _ _ hhi, if_pos hclean]
  · have hkeeps : c.pad.cleaned fromOff (s.actBank (d - 13)) (a / 0x80000) = false := by
      rw [Pad.cleaned, h, decide_eq_false (by omega)]
      rfl
    rw [hbytes, Pad.byte_wake _ _ _ (Nat.lt_of_lt_of_le ha (Nat.mul_le_mul_right _ hact)), if_neg (by rw [hkeeps]; exact Bool.false_ne_true)]
  · rcases hscrub with rfl | ⟨-, h'⟩
    · cases he.symm.trans hwoken
      subst h
      refine ⟨fun a ha => ?_, rfl, rfl⟩
      rw [Pad.byte_wake _ _ _ ha, Pad.cleaned, Bool.true_or]
      exact if_pos rfl
    · exact absurd (h.symm.trans h') Bool.noConfusion

end

/-- The counters of PWR after a command of this chapter are those that it left. -/
theorem ctr_commitPwr (s t : State) {k : Nat} (h : k / 0x100000 = 4) : (commitPwr s t).ctr k = t.ctr k := by
  rw [State.ctr, State.ctr, slotOf_of_lt (by omega), h]
  rfl

/-! ### RETAIN (R429, R430) -/

section
variable {s : State} {d : DomIx} {x : DomSt}

theorem exec_retainEntry_of_stays (h : s.retain d = s) : exec (.retainEntry d) s = .next s := by
  rw [exec_retainEntry, execRetainEntry, h, commitPwr_self]

theorem State.retain_stays (hx : s.pwr.doms[d.val]? = some x)
    (h : ¬ (x.state = .on ∧ s.hasDemand d = false ∧ x.demandAt + s.retIdle ≤ s.time.elapsed)) : s.retain d = s := by
  rw [State.retain, hx]
  exact if_neg fun ⟨hon, _, _, _, hdemand, hidle, _⟩ => h ⟨hon, hdemand, hidle⟩

/-- A domain in RETAIN, and the sensors that follow it. -/
def State.domRetains (s : State) (d : Nat) : State :=
  (s.modDom d fun x => { x with state := .retain, retainAt := s.time.elapsed }).supplied s

theorem State.domRetains_frame (hx : s.pwr.doms[d.val]? = some x) : ∃ o, s.domRetains d = { s with
    pwr := { s.pwr with doms := s.pwr.doms.set d { x with state := .retain, retainAt := s.time.elapsed } }, out := o } := by
  obtain ⟨o, h⟩ := (s.modDom d fun x => { x with state := .retain, retainAt := s.time.elapsed }).supplied_frame s
  refine ⟨o, h.trans ?_⟩
  rw [State.modDom_eq _ hx]

theorem State.retain_eq (hx : s.pwr.doms[d.val]? = some x) (hon : x.state = .on) (hpolicy : x.policy = 0) (hd : d.val ≠ 0)
    (himage : s.ward.image.isSome = true) (hbanks : 13 ≤ d.val → s.bankMoves (d.val - 13) = false) (hdemand : s.hasDemand d = false)
    (hidle : x.demandAt + s.retIdle ≤ s.time.elapsed) : s.retain d =
      if 13 ≤ d.val then (s.domRetains d).modPad (d - 13) fun p e => p.retain (s.actBank (d - 13)) e else s.domRetains d := by
  have hmoves : (!(decide (13 ≤ d.val) && s.bankMoves (d.val - 13))) = true := by
    by_cases hcore : 13 ≤ d.val
    · rw [hbanks hcore, Bool.and_false]
      rfl
    · rw [decide_eq_false hcore]
      rfl
  rw [State.retain, hx]
  dsimp only
  rw [if_pos ⟨hon, hpolicy, hd, himage, hdemand, hidle, hmoves⟩]
  rfl

/-! ### OFF (R426, R429, R431) -/

theorem exec_offEntry_of_stays (h : s.goOff d = s) : exec (.offEntry d) s = .next s := by
  rw [exec_offEntry, execOffEntry, h, commitOff_self]

/-- A domain goes OFF after OFF_IDLE in RETAIN without demand. -/
def State.offLong (s : State) (d : Nat) (x : DomSt) : Bool :=
  x.policy == 0 && x.state == .retain && decide (9 ≤ d) && s.offIdle != 0 && !s.hasDemand d && decide (x.retainAt + s.offIdle ≤ s.time.elapsed)

/-- A domain goes OFF that policy 2 bars, its units idle. -/
def State.offBarred (s : State) (d : Nat) (x : DomSt) : Bool :=
  x.policy == 2 && (x.state == .on || x.state == .retain) && s.domIdle d

/-- A domain OFF, with all that it loses, and the sensors that follow it. -/
def State.domDown (s : State) (d : Nat) : State := ((s.modDom d fun x => { x with state := .off, point := 0 }).domLoses d).supplied s

/-- Every core domain is OFF. -/
def State.coresDown (s : State) : Bool :=
  (List.range 16).all fun n => (match s.pwr.doms[13 + n]? with | some y => y.state == .off | none => true)

theorem State.goOff_stays (hx : s.pwr.doms[d.val]? = some x) (h : (s.offLong d x || s.offBarred d x) = false) : s.goOff d = s := by
  rw [State.goOff, hx]
  exact if_neg fun hoff => by
    rw [Bool.and_assoc, Bool.and_eq_true] at hoff
    exact Bool.false_ne_true (h.symm.trans hoff.1)

theorem State.goOff_eq (hx : s.pwr.doms[d.val]? = some x) (h : (s.offLong d x || s.offBarred d x) = true) (hd : d.val ≠ 0)
    (hengine : 9 ≤ d.val → d.val < 13 → s.stages (d.val - 9) = false) : s.goOff d =
      if (s.domDown d).coresDown then { s.domDown d with comp := { (s.domDown d).comp with catches := [] } } else s.domDown d := by
  have hnoPages : (decide (9 ≤ d.val) && decide (d.val < 13) && s.stages (d.val - 9)) = false := by
    by_cases hrange : 9 ≤ d.val ∧ d.val < 13
    · rw [hengine hrange.1 hrange.2, Bool.and_false]
    · rw [← Bool.decide_and, decide_eq_false hrange]
      rfl
  have hbegins : ((s.offLong d x || s.offBarred d x) && d.val != 0 &&
      !(decide (9 ≤ d.val) && decide (d.val < 13) && s.stages (d.val - 9))) = true := by
    rw [h, hnoPages, bne_iff_ne.2 hd]
    rfl
  rw [State.goOff, hx]
  exact if_pos hbegins

end

theorem State.domLoses_pwr (s : State) (d : Nat) : (s.domLoses d).pwr = s.pwr := by
  unfold State.domLoses
  split
  case h_2 =>
    obtain ⟨y, o, h⟩ := State.pinsOff_frame _
    rw [h]
    rfl
  case h_7 =>
    split
    · rfl
    · split <;> rfl
  all_goals rfl

theorem State.domLoses_core (s : State) {d : Nat} (hd : 13 ≤ d) :
    s.domLoses d = (s.modPad (d - 13) fun _ e => .off e).setScrub (d - 13) 0 := by
  unfold State.domLoses
  split
  case h_7 => rw [if_neg (by omega), if_neg (by omega)]
  all_goals omega

theorem State.coresDown_of_off {s : State} (h : ∀ n : Nat, n < 16 → ∀ y, s.pwr.doms[13 + n]? = some y → y.state = .off) :
    s.coresDown = true := by
  refine List.all_eq_true.2 fun n hn => ?_
  split
  · next y hy => exact beq_iff_eq.2 (h n (List.mem_range.1 hn) y hy)
  · rfl

theorem State.domDown_spec {s : State} {d : Nat} {x : DomSt} (hx : s.pwr.doms[d]? = some x) :
    (s.domDown d).pwr = { s.pwr with doms := s.pwr.doms.set d { x with state := .off, point := 0 } } ∧
      ∀ c, 13 ≤ d → s.comp.cores[d - 13]? = some c → ∃ e : CoreSt, (s.domDown d).comp.cores[d - 13]? = some e ∧ e.pad.tag = 0 ∧
        e.pad.cells = [] ∧ e.pad.banks = List.replicate 64 .off := by
  let t := s.modDom d fun x => { x with state := .off, point := 0 }
  obtain ⟨o, hsupply⟩ := (t.domLoses d).supplied_frame s
  constructor
  · rw [State.domDown, hsupply]
    refine (State.domLoses_pwr t d).trans ?_
    rw [show t = _ from State.modDom_eq _ hx]
  · intro c hd hc
    have hcore : (t.domLoses d).comp.cores[d - 13]? = some { c with pad := .off t.fresh, scrubPos := 0 } := by
      rw [t.domLoses_core hd]
      exact State.setScrub_core 0 (State.modPad_core (s := t) (fun _ e => .off e) hc)
    refine ⟨{ c with pad := .off t.fresh, scrubPos := 0 }, ?_, rfl, rfl, rfl⟩
    rw [State.domDown, hsupply]
    exact hcore

end Sys2Proof.Machine
end

section
open Sys2Proof Sys2Proof.Machine Sys2Proof.Safety

/-- Settles O59: what each command changes of the domains is `State.modDom`; what a domain's units keep or lose is `wokenCore`,
`Pad.byte_retain_kept` and `State.domDown_spec`. -/
theorem powerDomains : Obligations.PowerDomains := by
  unfold Obligations.PowerDomains
  intro s d x hx
  refine ⟨exec_demand_none, exec_demand_wakes hx, exec_demand_policy hx, fun l h => ?asleep, fun l hwaking => ?wakes, fun h => ?awake,
    fun hon hpolicy hd himage hbanks hdemand hidle => ?retains, fun h => ?notOn, fun h => ?stays, fun hgo hd hengine => ?goes,
    fun h => ?isOff, exec_pointStepDone_moves hx, fun t y hy => ⟨exec_selfRefreshEntry_enabled hy, exec_selfRefreshEntry_disabled,
      exec_selfRefreshExit_active hy⟩⟩
  case asleep =>
    have hstays : s.wakeDone d l = s := by
      rw [State.wakeDone, hx]
      exact if_neg h
    rw [exec_wakeComplete, execWakeComplete, hstays, commitPwr_self]
  case wakes =>
    obtain ⟨hkept, hscrub⟩ := State.wakeDone_padUp l d.isLt hx hwaking
    obtain ⟨hpwr, hdram, htime, hctr, hout⟩ := s.padUp_keeps d x.fromOff
    obtain ⟨hpins, hcount, hpinsDram, -, hstill⟩ := State.pinsUp_keeps hx
    have hcore := fun c hd hc hact => wokenCore (c := c) hd hc hact hkept hscrub
    refine ⟨_, rfl, hkept.pwr.trans (hpwr.trans hpins), ?_, hkept.dram.trans (hdram.trans hpinsDram), fun h5 => ?_,
      fun h4 g y hg hy hlow => ?_, fun h4 => hkept.time.trans (htime.trans (hstill h4)), hcore⟩
    · exact (ctr_commitPwr s _ (by omega)).trans ((hkept.ctr _).trans ((hctr _).trans hcount))
    · have hdone : s.wakeDone d l = s.padUp d x.fromOff := hscrub.resolve_right (by omega)
      exact (congrArg (Out.sentSup true ∈ State.out ·) hdone).mpr (hout ▸ State.pinsUp_sent h5 hx hwaking)
    · exact (congrArg (·.pulse[g]?) (hkept.time.trans htime)).trans (State.pinsUp_rest h4 hx hg hy hlow)
  case awake =>
    refine exec_retainEntry_of_stays (State.retain_stays hx fun ⟨_, hdemand, hidle⟩ => ?_)
    rcases h with h | h
    · exact Bool.noConfusion (h.symm.trans hdemand)
    · omega
  case retains =>
    obtain ⟨o, hframe⟩ := State.domRetains_frame (d := d) hx
    have hret := State.retain_eq hx hon hpolicy hd himage hbanks hdemand hidle
    rw [exec_retainEntry, execRetainEntry, hret]
    refine ⟨_, rfl, ?_, fun c hcore hc hact => ⟨{ c with pad := c.pad.retain (s.actBank (d - 13)) (s.domRetains d).fresh }, ?_, rfl, rfl,
      fun a ha => Pad.byte_retain_kept _ _ ha hact⟩⟩
    · rw [hframe]
      split <;> rfl
    · rw [if_pos hcore]
      exact State.modPad_core (s := s.domRetains d) (fun p e => p.retain (s.actBank (d - 13)) e) (by rw [hframe]; exact hc)
  case notOn => exact exec_retainEntry_of_stays (State.retain_stays hx fun ⟨hon, _⟩ => h hon)
  case stays =>
    refine exec_offEntry_of_stays (State.goOff_stays hx ?_)
    rcases h with ⟨hpolicy, hbusy⟩ | ⟨hpolicy, hdemand | hstate⟩
    · simp [State.offLong, State.offBarred, hpolicy, hbusy]
    · simp [State.offLong, State.offBarred, hpolicy, hdemand]
    · simp [State.offLong, State.offBarred, hpolicy, hstate]
  case goes =>
    have hoff : (s.offLong d x || s.offBarred d x) = true := by
      rcases hgo with ⟨hpolicy, hstate | hstate, hidle⟩ | ⟨hpolicy, hstate, hunit, hset, hdemand, hlong⟩
      · simp [State.offBarred, hpolicy, hstate, hidle]
      · simp [State.offBarred, hpolicy, hstate, hidle]
      · simp [State.offLong, hpolicy, hstate, hunit, hset, hdemand, hlong]
    obtain ⟨hpwr, hcores⟩ := State.domDown_spec hx
    rw [exec_offEntry, execOffEntry, State.goOff_eq hx hoff hd hengine]
    refine ⟨_, rfl, ?_, fun c hcore hc => ?_, fun hall => ?_⟩
    · split <;> exact hpwr
    · split <;> exact hcores c hcore hc
    · by_cases hdown : (s.domDown d).coresDown = true
      · rw [if_pos hdown]
        rfl
      · rw [if_neg hdown] at hall
        exact absurd (State.coresDown_of_off hall) hdown
  case isOff =>
    refine exec_offEntry_of_stays (State.goOff_stays hx ?_)
    simp [State.offLong, State.offBarred, h]
end

section
/-!
PROOFS. The sliding-window steps of a core: what CONV, POOL and FCONV leave (R167, R169, R175, R177, R178).
-/
namespace Sys2Proof.Machine
open Sys2Proof.Safety

/-! ### Steps of an empty output (R167) -/

/-- A step that ends at once has written no piece. -/
theorem wroteParts_nil {z s : State} {p t : Nat} {pick : List Byte → Bool} {check : State → StepCtx → Nat} {c : StepCtx}
    {body : State → StepCtx → Option (State × StepPhase)} {status : Nat} {wrote : Bool} (hat : z.stepAt p t pick = some c)
    (heff : effectOn z c check s) (hbody : body s c = some (s, .done status wrote)) :
    wroteParts s (commitStep z (z.runStep p t pick check body)) c status [] := by
  have hstep := stepLeaves_of_body hat heff hbody trivial rfl rfl
  obtain ⟨rfl, rfl, -⟩ := State.stepAt_spec hat
  refine ⟨hstep.done rfl hat heff, hstep.onlyTgt rfl, hstep.padOf c.p c.t, fun n _ => ?_, ?_⟩
  · rw [hstep.cores]
  · obtain ⟨f, hf⟩ := hstep.upd
    rw [hf]
    rfl

section
variable {s : State} {c : StepCtx} {x : SwBody} (env : StepEnv)

theorem convEffect_empty (hx : x = swBody c.b) (h : x.empty = true) : convEffect env s c = some (s, .done 0x0011 false) := by
  subst hx
  exact if_pos h

theorem fconvEffect_empty (hx : x = swBody c.b) (h : x.empty = true) : fconvEffect env s c = some (s, .done 0x0011 false) := by
  subst hx
  exact if_pos h

theorem poolEffect_empty (hx : x = swBody c.b) (h : x.empty = true) : poolEffect env s c = some (s, .done 0x0011 false) := by
  subst hx
  exact if_pos h

end

/-! ### Steps without an error -/

section
variable {s : State} {c : StepCtx} {x : SwBody} {rows : List OutRow} {parts : List (Nat × List Byte)}

/-- CONV without an error writes its output rows (R169, R170). -/
theorem convEffect_clean (hx : x = swBody c.b) (hne : x.empty = false)
    (hrows : rows = (SwMap.mk x (s.padOf c.p c.t).bytes false).convRows c.job.seed)
    (hparts : parts = outParts x.ar x.post x.o x.os x.fmap (outBytes x.ar x.post rows) rows)
    (h : padReady s c.p c.t (x.pixReads false ++ x.wExts ++ partExts parts)) :
    convEffect {} s c = some (s.writeParts c parts, .done (rowsStatus rows)) := by
  unfold convEffect
  rw [State.padRead_clean h.1, ← hx]
  dsimp only
  rw [← hrows, if_neg (ne_true_of_eq_false hne)]
  exact State.computeStep_clean _ _ (by rw [List.take_length, hparts]) h

/-- POOL without an error writes its output rows (R178). -/
theorem poolEffect_clean (hx : x = swBody c.b) (hne : x.empty = false)
    (hrows : rows = x.outs.map ((SwMap.mk x (s.padOf c.p c.t).bytes false).poolRow c.job.seed))
    (hparts : parts = outParts x.ar 0 x.o x.os x.fmap (outBytes x.ar 0 rows) rows)
    (h : padReady s c.p c.t (x.pixReads false ++ partExts parts)) :
    poolEffect {} s c = some (s.writeParts c parts, .done (rowsStatus rows)) := by
  unfold poolEffect
  rw [State.padRead_clean h.1, ← hx]
  dsimp only
  rw [← hrows, if_neg (ne_true_of_eq_false hne)]
  exact State.computeStep_clean _ _ (by rw [List.take_length, hparts]) h

/-- The open contents of FCONV's work area, of the free values of an epoch (R177, log entry 2). -/
def SwBody.freeWork (x : SwBody) (epoch : Nat) : List Byte :=
  (List.range x.work.len).map fun i => Config.freeByte epoch (x.work.lo + i)

theorem SwBody.freeWork_length (x : SwBody) (epoch : Nat) : (x.freeWork epoch).length = x.work.len := by
  simp [SwBody.freeWork]

/-- FCONV without an error writes its work area and its output rows, and draws two free values (R175, R177). -/
theorem fconvEffect_clean (hx : x = swBody c.b) (hne : x.empty = false)
    (hrows : rows = (SwMap.mk x (s.padOf c.p c.t).bytes false).fconvRows c.job.seed)
    (hparts : parts = outParts x.ar x.post x.o x.os x.fmap (outBytes x.ar x.post rows) rows)
    (h : padReady s c.p c.t (x.pixReads false ++ x.spectraExts ++ [⟨x.sw, x.work.len⟩] ++ partExts parts)) :
    fconvEffect {} s c = some (State.writeParts { s with fresh := s.fresh + 2 } c ((x.sw, x.freeWork (s.fresh + 1)) :: parts),
      .done (rowsStatus rows)) := by
  have hexts : [⟨x.sw, x.work.len⟩] ++ partExts parts = partExts ((x.sw, x.freeWork (s.fresh + 1)) :: parts) := by
    simp [partExts, x.freeWork_length]
  have hready : padReady { s with fresh := s.fresh + 2 } c.p c.t
      (x.pixReads false ++ x.spectraExts ++ partExts ((x.sw, x.freeWork (s.fresh + 1)) :: parts)) := by
    rwa [List.append_assoc, hexts] at h
  unfold fconvEffect
  rw [State.padRead_clean h.1, ← hx]
  dsimp only
  rw [← hrows, if_neg (ne_true_of_eq_false hne)]
  exact State.computeStep_clean _ _ (by rw [List.take_length, hparts]; rfl) hready

end

end Sys2Proof.Machine
end

section
open Sys2Proof Sys2Proof.Machine Sys2Proof.Safety

/-- Settles O31: a step of an empty output ends before it reads; any other is, where no error is met, one write of its pieces, to
which FCONV adds its work area. -/
theorem convolutionStepsWriteTheirResults : Obligations.ConvolutionStepsWriteTheirResults := by
  unfold Obligations.ConvolutionStepsWriteTheirResults
  intro z s p t c x ht hx
  refine ⟨fun hempty => ⟨fun hready => ?convEmpty, fun hready => ?fconvEmpty, fun hready => ?poolEmpty⟩,
    fun hne => ⟨fun rows parts hready hrows hparts hpad => ?conv, fun rows parts hready hrows hparts hpad => ?pool,
      fun rows parts hready hrows hparts hpad => ?fconv⟩⟩
  all_goals
    obtain ⟨hat, heff⟩ := readyStep_of_stepOf rfl hready
    obtain ⟨hp, ht', -⟩ := State.stepAt_spec hat
  case convEmpty => exact ⟨_, rfl, wroteParts_nil hat heff (convEffect_empty _ hx hempty)⟩
  case fconvEmpty => exact ⟨_, rfl, wroteParts_nil hat heff (fconvEffect_empty _ hx hempty)⟩
  case poolEmpty => exact ⟨_, rfl, wroteParts_nil hat heff (poolEffect_empty _ hx hempty)⟩
  all_goals rw [← hp, ← ht'] at hrows hpad
  case conv => exact ⟨_, rfl, wroteParts_of_body (n := s.fresh) ht hat heff (convEffect_clean hx hne hrows hparts hpad)⟩
  case pool => exact ⟨_, rfl, wroteParts_of_body (n := s.fresh) ht hat heff (poolEffect_clean hx hne hrows hparts hpad)⟩
  case fconv =>
    exact ⟨_, _, rfl, x.freeWork_length _, wroteParts_of_body ht hat heff (fconvEffect_clean hx hne hrows hparts hpad)⟩

end

section
/-!
PROOFS. The places of a step's extents in its partition's DRAM, and pieces written there (R145, R148, R180, R272).
-/
namespace Sys2Proof.Machine
open Sys2Proof.Safety

/-! ### What an access to the DRAM leaves -/

theorem State.rv_countDram (s : State) (k addr len i : Nat) : (s.countDram k addr len).rv i = s.rv i := by
  refine foldl_keeps (State.rv · i) _ (fun s x => ?_) _ s
  unfold State.serveTower
  split
  · rfl
  · exact State.rv_bump _ _ _ _

/-- Between two states nothing differs but the DRAM, counters, and the free values drawn. -/
structure State.DramFrame (s u : State) : Prop where
  comp : u.comp = s.comp
  commits : commitStep s u = u
  rv : ∀ k, u.rv k = s.rv k

namespace State.DramFrame

variable {s u v : State}

theorem refl (s : State) : State.DramFrame s s := ⟨rfl, rfl, fun _ => rfl⟩

theorem trans (h : State.DramFrame s u) (h' : State.DramFrame u v) : State.DramFrame s v :=
  ⟨h'.comp.trans h.comp, commitStep_trans h.commits h'.commits, fun k => (h'.rv k).trans (h.rv k)⟩

theorem foldl {α : Type} {f : State → α → State} (h : ∀ s x, State.DramFrame s (f s x)) (l : List α) (s : State) :
    State.DramFrame s (l.foldl f s) := by
  induction l generalizing s with
  | nil => exact .refl s
  | cons x l ih => exact (h s x).trans (ih _)

theorem setFresh (s : State) (n : Nat) : State.DramFrame s { s with fresh := n } := ⟨rfl, rfl, fun _ => rfl⟩

theorem countDram (s : State) {k : Nat} (addr len : Nat) (hk : k ∈ towerCounters) :
    State.DramFrame s (s.countDram k addr len) := by
  obtain ⟨b, hb⟩ := s.countDram_frame addr len hk
  refine ⟨?_, ?_, s.rv_countDram k addr len⟩ <;> rw [hb] <;> rfl

theorem countRead (s : State) (p off len : Nat) : State.DramFrame s (s.countRead p off len) := by
  unfold State.countRead
  split
  · exact countDram s _ _ (by decide)
  · exact refl s

theorem writeDram (s : State) (p off : Nat) (bs : List Byte) : State.DramFrame s (s.writeDram p off bs) := by
  unfold State.writeDram
  split
  · next base _ _ =>
    have hstored : State.DramFrame s { s with dram := s.dram.write (base + off) bs } := ⟨rfl, rfl, fun _ => rfl⟩
    exact hstored.trans (countDram _ _ _ (by decide))
  · exact refl s

/-- The bytes that an engine moves are counted in its own register (R184, R185). -/
theorem bumpNce (s : State) {e : Nat} (n : Nat) (he : e < 2) : State.DramFrame s (s.bump (nceKey e 0x20) n) := by
  refine ⟨rfl, ?_, s.rv_bump _ n⟩
  have hslot : slotOf (nceKey e 0x20) = 10 := by
    unfold nceKey
    rw [slotOf_of_lt (by omega)]
    omega
  unfold State.bump
  rw [hslot]
  rfl

theorem part (h : State.DramFrame s u) (p : Nat) : u.part p = s.part p := by
  rw [← h.commits]
  rfl

theorem dramOf (h : State.DramFrame s u) (p : Nat) : u.dramOf p = s.dramOf p := by
  rw [State.dramOf, State.dramOf, h.part, h.comp]

theorem inDram (h : State.DramFrame s u) (p off len : Nat) : u.inDram p off len = s.inDram p off len := by
  rw [State.inDram, State.inDram, h.dramOf]

theorem ringBase (h : State.DramFrame s u) (p : Nat) : u.ringBase p = s.ringBase p := by
  rw [State.ringBase, State.ringBase, h.rv, h.rv]

theorem ringStride (h : State.DramFrame s u) (p : Nat) : u.ringStride p = s.ringStride p := h.rv _

/-- The extents that a step names keep their places. -/
theorem dramMap (h : State.DramFrame s u) (p : Nat) (j : Job) (off len : Nat) : u.dramMap p j off len = s.dramMap p j off len := by
  simp only [State.dramMap, h.inDram, h.ringBase, h.ringStride]

theorem mapExts (h : State.DramFrame s u) (p : Nat) (j : Job) (l : List Ext) : u.mapExts p j l = s.mapExts p j l := by
  simp only [State.mapExts, h.dramMap]

end State.DramFrame

theorem State.writeDram_mem {s : State} {p base size : Nat} (h : s.dramOf p = some (base, size)) (off : Nat) (bs : List Byte) :
    (s.writeDram p off bs).dram.mem = s.dram.mem.writeBytes (base + off) bs := by
  rw [State.writeDram_eq h, (State.countDram_mem _ _ _ (by decide)).1]
  rfl

/-- Extents that a step reads, counted in turn (R159). -/
def State.countReads (s : State) (p : Nat) (reads : List Ext) : State := reads.foldl (fun s e => s.countRead p e.lo e.len) s

theorem State.DramFrame.countReads (s : State) (p : Nat) (reads : List Ext) : State.DramFrame s (s.countReads p reads) := by
  unfold State.countReads
  refine .foldl (fun s e => ?_) reads s
  exact .countRead s p e.lo e.len

theorem State.countReads_mem (s : State) (p : Nat) (reads : List Ext) : (s.countReads p reads).dram.mem = s.dram.mem := by
  unfold State.countReads
  refine foldl_keeps (fun s => s.dram.mem) _ (fun s e => ?_) reads s
  unfold State.countRead
  split
  · exact (s.countDram_mem _ _ (by decide)).1
  · rfl

/-! ### Pieces written to the DRAM -/

/-- Each extent of a list has its place (R145, R272). -/
theorem State.mapExts_cons {s : State} {p : Nat} {j : Job} {e : Ext} {l outs : List Ext} (h : s.mapExts p j (e :: l) = some outs) :
    ∃ o rest, s.dramMap p j e.lo e.len = some o ∧ s.mapExts p j l = some rest ∧ outs = ⟨o, e.len⟩ :: rest := by
  have hcons : s.mapExts p j (e :: l) = match s.mapExts p j l, s.dramMap p j e.lo e.len with
      | some t, some o => some (⟨o, e.len⟩ :: t)
      | _, _ => none := rfl
  rw [hcons] at h
  split at h
  · next rest o hrest ho => exact ⟨o, rest, ho, hrest, (Option.some.inj h).symm⟩
  · cases h

/-- One piece written to its place, where it has one. -/
def State.writePart (p : Nat) (j : Job) (s : State) (y : Nat × List Byte) : State := match s.dramMap p j y.1 y.2.length with
  | some o => s.writeDram p o y.2
  | none => s

/-- Pieces written to their places in turn. -/
def State.dramParts (s : State) (p : Nat) (j : Job) (parts : List (Nat × List Byte)) : State := parts.foldl (State.writePart p j) s

theorem State.DramFrame.dramParts (s : State) (p : Nat) (j : Job) (parts : List (Nat × List Byte)) :
    State.DramFrame s (s.dramParts p j parts) := by
  refine .foldl (fun s y => ?_) parts s
  unfold State.writePart
  split
  · exact .writeDram s p _ _
  · exact .refl s

/-- The first of some pieces is written at its place, and the others find theirs as before. -/
theorem State.dramParts_cons {s : State} {p : Nat} {j : Job} {y : Nat × List Byte} {l : List (Nat × List Byte)} {outs : List Ext}
    (h : s.mapExts p j (partExts (y :: l)) = some outs) :
    ∃ o rest, s.dramMap p j y.1 y.2.length = some o ∧ outs = ⟨o, y.2.length⟩ :: rest ∧
      (s.writeDram p o y.2).mapExts p j (partExts l) = some rest ∧
      s.dramParts p j (y :: l) = (s.writeDram p o y.2).dramParts p j l := by
  obtain ⟨o, rest, ho, hrest, houts⟩ := State.mapExts_cons h
  refine ⟨o, rest, ho, houts, ((State.DramFrame.writeDram s p o y.2).mapExts p j _).trans hrest, ?_⟩
  rw [State.dramParts, List.foldl_cons, State.writePart, ho]
  rfl

theorem Ext.beside_of_not_meets {a b : Ext} {i : Nat} (h : a.meets b = false) (hi : i < a.len) :
    a.lo + i < b.lo ∨ b.lo + b.len ≤ a.lo + i := by
  simp only [Ext.meets, Bool.and_eq_false_iff, decide_eq_false_iff_not] at h
  omega

section
variable {s : State} {p base size : Nat} {j : Job} {parts : List (Nat × List Byte)} {outs : List Ext}

/-- Bytes beside the places of the pieces stand. -/
theorem State.dramParts_read_out (hdram : s.dramOf p = some (base, size)) (hmap : s.mapExts p j (partExts parts) = some outs) {a : Nat}
    (ha : ∀ e ∈ outs, a < base + e.lo ∨ base + e.lo + e.len ≤ a) :
    (s.dramParts p j parts).dram.mem.read a = s.dram.mem.read a := by
  induction parts generalizing s outs with
  | nil => rfl
  | cons y l ih =>
    obtain ⟨o, rest, -, rfl, hrest, hparts⟩ := State.dramParts_cons hmap
    obtain ⟨hhead, htail⟩ := List.forall_mem_cons.1 ha
    rw [hparts, ih (((State.DramFrame.writeDram s p o y.2).dramOf p).trans hdram) hrest htail, State.writeDram_mem hdram,
      Mem.read_writeBytes_out _ _ _ _ hhead]

/-- A piece stands at its place where no two of the pieces overlap. -/
theorem State.dramParts_read_in (hdram : s.dramOf p = some (base, size)) (hmap : s.mapExts p j (partExts parts) = some outs)
    (hself : selfMeet outs = false) {y : Nat × List Byte} (hy : y ∈ parts) {o i : Nat} {b : Byte}
    (ho : s.dramMap p j y.1 y.2.length = some o) (hb : y.2[i]? = some b) :
    (s.dramParts p j parts).dram.mem.read (base + o + i) = b := by
  induction parts generalizing s outs with
  | nil => cases hy
  | cons x l ih =>
    obtain ⟨k, rest, hk, rfl, hrest, hparts⟩ := State.dramParts_cons hmap
    have hframe := State.DramFrame.writeDram s p k x.2
    have hdram' := (hframe.dramOf p).trans hdram
    obtain ⟨happart, hself'⟩ := Bool.or_eq_false_iff.1 hself
    rw [hparts]
    rcases List.mem_cons.1 hy with rfl | hl
    · obtain ⟨hi, rfl⟩ := List.getElem?_eq_some_iff.1 hb
      cases hk.symm.trans ho
      rw [State.dramParts_read_out hdram' hrest fun e he => ?_, State.writeDram_mem hdram, Mem.read_writeBytes_in _ _ _ _ hi]
      have := Ext.beside_of_not_meets (a := ⟨o, y.2.length⟩) (by simpa using List.any_eq_false.1 happart e he) hi
      dsimp only at this
      omega
    · exact ih hdram' hrest hself' hl ((hframe.dramMap p j _ _).trans ho)

end

/-- Pieces whose bytes are open, of the free values of an epoch (log entry 2). -/
def freeParts (epoch : Nat) (parts : List (Nat × List Byte)) : List (Nat × List Byte) :=
  parts.map fun y => (y.1, (List.range y.2.length).map fun i => Config.freeByte epoch (y.1 + i))

theorem partExts_freeParts (epoch : Nat) (parts : List (Nat × List Byte)) : partExts (freeParts epoch parts) = partExts parts := by
  simp [partExts, freeParts]

end Sys2Proof.Machine
end

section
/-!
PROOFS. The narrow-channel engines: NCE_CONV, and the granules that the partitions hold in turn (R180 to R184, R189).
-/
namespace Sys2Proof.Machine
open Sys2Proof.Safety

/-! ### Steps that end before they read -/

section
variable {s : State} {c : StepCtx} {x : SwBody} (env : StepEnv)

theorem nceEffect_oos (h : s.unitOos (20 + c.engine) = true) : nceEffect env s c = some (s, .done 0x0404 false) := if_pos h

theorem nceEffect_empty (hx : x = (swBody c.b).inBytes) (hoos : s.unitOos (20 + c.engine) = false) (h : x.empty = true) :
    nceEffect env s c = some (s, .done 0x0011 false) := by
  subst hx
  exact (if_neg (ne_true_of_eq_false hoos)).trans (if_pos h)

theorem nceEffect_lost (hx : x = (swBody c.b).inBytes) (hoos : s.unitOos (20 + c.engine) = false) (hne : x.empty = false)
    (h : (s.comp.parts.getD c.p .empty).dramLost = true) : nceEffect env s c = some (s, .done 0x0313 false) := by
  subst hx
  exact (if_neg (ne_true_of_eq_false hoos)).trans ((if_neg (ne_true_of_eq_false hne)).trans (if_pos h))

end

/-- A step whose body leaves the state as it is ends with its status, and nothing but its target has changed. -/
theorem stepDone_of_idle {z s : State} {p t : Nat} {pick : List Byte → Bool} {check : State → StepCtx → Nat} {c : StepCtx}
    {body : State → StepCtx → Option (State × StepPhase)} {status : Nat} {wrote : Bool} {u : State} (hat : z.stepAt p t pick = some c)
    (heff : effectOn z c check s) (hbody : body s c = some (s, .done status wrote))
    (hu : u = commitStep z (z.runStep p t pick check body)) :
    stepDone s u c status ∧ onlyTgt s u p t ∧ u = { s with comp := { s.comp with parts := u.comp.parts } } := by
  have hstep := stepLeaves_of_body hat heff hbody trivial rfl rfl
  rw [← hu] at hstep
  exact ⟨hstep.done rfl hat heff, hstep.onlyTgt rfl, hstep.frame⟩

/-! ### Steps without an error (R180 to R182) -/

/-- The bytes of the output rows, in the packed layout where the step asks for it (R181). -/
def SwBody.nceBytes (x : SwBody) (rows : List OutRow) : List Byte :=
  if x.bit55 = true then packRows (fmtD x.ar.outFmt).width ((chunksOf x.ow rows.length rows).map fun l => l.flatMap OutRow.codes)
  else outBytes x.ar x.post rows

/-- A step of an engine that computes its outputs and meets no error: the engine and the partition's DRAM are in service, what it
reads and what it writes have their places. -/
structure NceRun (s : State) (c : StepCtx) (x : SwBody) (base size : Nat) (rows : List OutRow) (parts : List (Nat × List Byte))
    (reads outs : List Ext) : Prop where
  body : x = (swBody c.b).inBytes
  inService : s.unitOos (20 + c.engine) = false
  nonempty : x.empty = false
  kept : (s.comp.parts.getD c.p .empty).dramLost = false
  poison : s.dram.poison = []
  dram : s.dramOf c.p = some (base, size)
  rows_eq : rows = (SwMap.mk x (s.dramReader c {}) x.bit54).convRows c.job.seed
  parts_eq : parts = outParts x.ar x.post x.o x.os x.fmap (x.nceBytes rows) rows
  reads_eq : s.mapExts c.p c.job (x.pixReads x.bit54 ++ x.wExts) = some reads
  outs_eq : s.mapExts c.p c.job (partExts parts) = some outs

/-- What a step writes: its outputs, with open bytes where these overlap what it reads or one another (log entry 36). -/
def nceWrites (epoch : Nat) (parts : List (Nat × List Byte)) (reads outs : List Ext) : List (Nat × List Byte) :=
  if (extsMeet outs reads || selfMeet outs) = true then freeParts epoch parts else parts

theorem partExts_nceWrites (epoch : Nat) (parts : List (Nat × List Byte)) (reads outs : List Ext) :
    partExts (nceWrites epoch parts reads outs) = partExts parts := by
  unfold nceWrites
  split
  · exact partExts_freeParts _ _
  · rfl

/-- The state that the body of such a step leaves: its reads counted, its writes made, its bytes counted (R184). -/
def State.nceLeft (s : State) (c : StepCtx) (parts : List (Nat × List Byte)) (reads outs : List Ext) : State :=
  let writes := nceWrites (s.fresh + 1) parts reads outs
  (((({ s with fresh := s.fresh + 2 } : State).countReads c.p reads).dramParts c.p c.job writes).bump (nceKey c.engine 0x20)
    ((reads.map (·.len)).sum + (writes.map fun y => y.2.length).sum))

section
variable {s : State} {c : StepCtx} {x : SwBody} {base size : Nat} {rows : List OutRow} {parts : List (Nat × List Byte)}
  {reads outs : List Ext}

theorem nceEffect_clean (h : NceRun s c x base size rows parts reads outs) :
    nceEffect {} s c = some (s.nceLeft c parts reads outs, .done (rowsStatus rows)) := by
  have herrors : ∀ devs, State.dramErrors { s with fresh := s.fresh + 2 } [] [] devs = ({ s with fresh := s.fresh + 2 }, false) :=
    fun devs => State.dramErrors_none (by rw [State.poisonMet, h.poison]; rfl)
  have hparts := h.parts_eq
  unfold SwBody.nceBytes at hparts
  unfold nceEffect
  rw [← h.body]
  dsimp only
  rw [if_neg (ne_true_of_eq_false h.inService), if_neg (ne_true_of_eq_false h.nonempty), if_neg (ne_true_of_eq_false h.kept), ← h.rows_eq,
    ← hparts, h.reads_eq, h.outs_eq, herrors]
  simp only [Option.getD_some, Bool.false_or, State.markUe, codeIf, Bool.false_eq_true, if_false, worse_zero]
  rfl

theorem State.DramFrame.nceLeft (s : State) {c : StepCtx} (parts : List (Nat × List Byte)) (reads outs : List Ext) (ht : c.t < 18) :
    State.DramFrame s (s.nceLeft c parts reads outs) := by
  have he : c.engine < 2 := by
    unfold StepCtx.engine
    omega
  exact (((State.DramFrame.setFresh s (s.fresh + 2)).trans (.countReads _ c.p reads)).trans (.dramParts _ c.p c.job _)).trans
    (.bumpNce _ _ he)

/-- The pieces are written to a state that keeps the places of the extents and the bytes of the DRAM. -/
theorem NceRun.written (h : NceRun s c x base size rows parts reads outs) :
    ∃ r : State, State.DramFrame s r ∧ r.dram.mem = s.dram.mem ∧ r.dramOf c.p = some (base, size) ∧
      r.mapExts c.p c.job (partExts (nceWrites (s.fresh + 1) parts reads outs)) = some outs ∧
      (s.nceLeft c parts reads outs).dram = (r.dramParts c.p c.job (nceWrites (s.fresh + 1) parts reads outs)).dram := by
  have hframe : State.DramFrame s (State.countReads { s with fresh := s.fresh + 2 } c.p reads) :=
    (State.DramFrame.setFresh s _).trans (.countReads _ c.p reads)
  refine ⟨_, hframe, State.countReads_mem _ _ _, (hframe.dramOf c.p).trans h.dram, ?_, rfl⟩
  rw [partExts_nceWrites, hframe.mapExts, h.outs_eq]

/-- The bytes of the DRAM beside the outputs stand. -/
theorem NceRun.read_out (h : NceRun s c x base size rows parts reads outs) {a : Nat}
    (ha : ∀ e ∈ outs, a < base + e.lo ∨ base + e.lo + e.len ≤ a) :
    (s.nceLeft c parts reads outs).dram.mem.read a = s.dram.mem.read a := by
  obtain ⟨r, -, hmem, hdram, hmap, hleft⟩ := h.written
  rw [hleft, State.dramParts_read_out hdram hmap ha, hmem]

/-- Outputs that overlap neither what the step reads nor one another stand at their places. -/
theorem NceRun.read_in (h : NceRun s c x base size rows parts reads outs) (hreads : extsMeet outs reads = false)
    (hself : selfMeet outs = false) {y : Nat × List Byte} (hy : y ∈ parts) {o i : Nat} {b : Byte}
    (ho : s.dramMap c.p c.job y.1 y.2.length = some o) (hb : y.2[i]? = some b) :
    (s.nceLeft c parts reads outs).dram.mem.read (base + o + i) = b := by
  obtain ⟨r, hframe, -, hdram, hmap, hleft⟩ := h.written
  have hwrites : nceWrites (s.fresh + 1) parts reads outs = parts := if_neg (by simp [hreads, hself])
  rw [hwrites] at hmap hleft
  rw [hleft, State.dramParts_read_in hdram hmap hself hy ((hframe.dramMap _ _ _ _).trans ho) hb]

/-- The command of such a step leaves what its body does. -/
theorem nceConv_leaves {z : State} {p t : Nat} {pick : List Byte → Bool} {check : State → StepCtx → Nat}
    (hat : z.stepAt p t pick = some c) (heff : effectOn z c check s) (ht : c.t < 18)
    (h : NceRun s c x base size rows parts reads outs) :
    StepLeaves (s.nceLeft c parts reads outs) (commitStep z (z.runStep p t pick check (nceEffect {}))) p t
      (.done (rowsStatus rows)) := by
  have hframe := State.DramFrame.nceLeft s parts reads outs ht
  exact stepLeaves_of_body hat heff (nceEffect_clean h) trivial hframe.commits
    (congrArg _ (State.tgt_of_parts (congrArg _ hframe.comp) p t))

end

/-! ### Granules (R183) -/

theorem State.granuleOwner_lt {s : State} {g p : Nat} (h : s.granuleOwner g = some p) : p < 8 := by
  suffices howner : ∀ q, s.granuleOwner g = some q → q < 8 from howner p h
  unfold State.granuleOwner
  refine List.foldlRecOn _ _ (motive := fun a : Nat × Option Nat => ∀ q, a.2 = some q → q < 8) (by simp) fun a ha k hk q hq => ?_
  split at hq
  · dsimp only at hq
    split at hq
    · cases hq
      exact List.mem_range.1 hk
    · exact ha q hq
  · exact ha q hq

/-- A granule goes to its owner where that has a step ready. -/
theorem State.granuleTo_owner {s : State} {e g p : Nat} (howner : s.granuleOwner g = some p) (hready : s.nceReady p e = true) :
    s.granuleTo e g = some (p, true) := by
  have hfilter : (s.granuleOwner g).filter (fun q => s.nceReady q e) = some p := by
    rw [howner]
    exact Option.filter_some_pos hready
  unfold State.granuleTo
  rw [hfilter]

/-- A granule goes to nobody where no partition has a step ready. -/
theorem State.granuleTo_none {s : State} {e : Nat} (g : Nat) (h : ∀ p, p < 8 → s.nceReady p e = false) : s.granuleTo e g = none := by
  have hfilter : (s.granuleOwner g).filter (fun p => s.nceReady p e) = none := by
    cases howner : s.granuleOwner g with
    | none => rfl
    | some p => exact Option.filter_some_neg (h p (State.granuleOwner_lt howner))
  unfold State.granuleTo
  rw [hfilter]
  dsimp only
  rw [Option.map_eq_none_iff, List.find?_eq_none]
  intro p hp
  obtain ⟨i, -, rfl⟩ := List.mem_map.1 hp
  exact ne_true_of_eq_false (h _ (Nat.mod_lt _ (by decide)))

/-- All that a granule changes: its engine's number, and the partition that it goes to. -/
theorem exec_nceGranule_eq {s : State} {e : Fin 2} {g : Nat} (hg : g = (s.comp.nceGranule.getD e 0 + 1) % 16) :
    exec (.nceGranule e) s =
      .next (State.takeGranule { s with comp := { s.comp with nceGranule := s.comp.nceGranule.set e g } } e (s.granuleTo e g)) := by
  subst hg
  rfl

end Sys2Proof.Machine
end

section
open Sys2Proof Sys2Proof.Machine Sys2Proof.Safety

/-- Settles O32: a step that does not compute ends before it reads; one that does has the run `NceRun`, whose pieces stand where
`dramParts_read_in` and `dramParts_read_out` say; a granule is taken by `granuleTo`. -/
theorem narrowChannelEngines : Obligations.NarrowChannelEngines := by
  unfold Obligations.NarrowChannelEngines
  refine ⟨fun z s p t c x hready hx => ?step, fun s e g hg => ?granule⟩
  case step =>
    obtain ⟨hat, heff⟩ := readyStep_of_stepOf rfl hready
    obtain ⟨hp, ht, -⟩ := State.stepAt_spec hat
    have hlt : c.t < 18 := ht ▸ t.isLt
    refine ⟨fun hoos => ?outOfService, fun hoos hempty => ?empty, fun hoos hne hlost => ?lost,
      fun base size rows body parts reads outs hoos hne hkept hpoison hdram hrows hbody hparts hreads houts => ?run⟩
    all_goals rw [← ht] at hoos
    case outOfService => exact ⟨_, rfl, stepDone_of_idle hat heff (nceEffect_oos _ hoos) rfl⟩
    case empty => exact ⟨_, rfl, stepDone_of_idle hat heff (nceEffect_empty _ hx hoos hempty) rfl⟩
    case lost =>
      rw [← hp] at hlost
      exact ⟨_, rfl, stepDone_of_idle hat heff (nceEffect_lost _ hx hoos hne hlost) rfl⟩
    case run =>
      subst hbody
      rw [← hp] at hkept hdram hreads houts
      have hrun : NceRun s c x base size rows parts reads outs :=
        ⟨hx, hoos, hne, hkept, hpoison, hdram, hrows, hparts, hreads, houts⟩
      have hframe := State.DramFrame.nceLeft s parts reads outs hlt
      have hstep := nceConv_leaves hat heff hlt hrun
      refine ⟨_, rfl, hstep.done (congrArg _ hframe.comp) hat heff, ?_, hstep.onlyTgt (congrArg _ hframe.comp),
        fun hapart hself y hy o i b ho hb => ?_, fun a ha => ?_⟩
      · rw [hstep.cores, hframe.comp]
      · rw [← hp] at ho
        rw [hstep.dram, hrun.read_in hapart hself hy ho hb]
      · rw [hstep.dram, hrun.read_out ha]
  case granule =>
    refine ⟨_, exec_nceGranule_eq hg, rfl, fun q howner hready => ?_, fun hnone => ?_, rfl⟩
    · rw [State.granuleTo_owner howner hready]
      exact ⟨rfl, rfl⟩
    · rw [State.granuleTo_none g hnone]
      rfl

end

section
/-!
PROOFS. Queues and partitions as the operations on jobs leave them, and what the actions of targets between steps keep of their job
(R98, R220, R224, R231, R234).
-/
namespace Sys2Proof.Machine
open Sys2Proof.Safety

/-! ### Queues -/

@[simp] theorem State.queue_modQueue_self (s : State) (q : Nat) (f : QueueSt → QueueSt) :
    (s.modQueue q f).queue q = f (s.queue q) :=
  alGet_alPut_self QueueSt.empty s.comp.queues q (f (s.queue q))

theorem State.queue_modQueue_ne (s : State) {q n : Nat} (f : QueueSt → QueueSt) (h : n ≠ q) :
    (s.modQueue q f).queue n = s.queue n :=
  congrArg (Option.getD · QueueSt.empty) (alGet_alPut_ne QueueSt.empty s.comp.queues q n _ h)

theorem State.queue_of_queues {s u : State} (h : u.comp.queues = s.comp.queues) (q : Nat) : u.queue q = s.queue q := by
  rw [State.queue, State.queue, h]

/-! ### Partitions -/

theorem State.modPart_self {s : State} {p : Nat} {x : PartSt} (f : PartSt → PartSt) (h : s.comp.parts[p]? = some x) :
    (s.modPart p f).comp.parts[p]? = some (f x) := lmod_getElem?_self f h

theorem State.modPart_ne (s : State) {p n : Nat} (f : PartSt → PartSt) (h : n ≠ p) :
    (s.modPart p f).comp.parts[n]? = s.comp.parts[n]? :=
  (lmod_getElem? s.comp.parts p n f).trans (if_neg h)

theorem State.modJob_ne (s : State) {p n : Nat} (f : Job → Job) (h : n ≠ p) : (s.modJob p f).comp.parts[n]? = s.comp.parts[n]? :=
  (lmod_getElem? s.comp.parts p n _).trans (if_neg h)

theorem runningJob_of_part {s : State} {p : Nat} {x : PartSt} {o : Option Job} (h : s.comp.parts[p]? = some x) (hj : x.job = o) :
    runningJob s p = o := by
  rw [runningJob, h]
  exact hj

/-! ### What the commands of jobs commit -/

@[simp] theorem commitJob_self (s : State) : commitJob s s = s := rfl

@[simp] theorem commitJob_comp (s u : State) : (commitJob s u).comp = u.comp := rfl

@[simp] theorem commitJob_dram (s u : State) : (commitJob s u).dram = u.dram := rfl

@[simp] theorem queue_commitJob (s u : State) (q : Nat) : (commitJob s u).queue q = u.queue q := rfl

/-- The registers and counters of the queues are committed (R247). -/
theorem commitJob_queueBlock {s u : State} {k : Nat} (h : slotOf k = 7) :
    (commitJob s u).rv k = u.rv k ∧ (commitJob s u).ctr k = u.ctr k := by
  constructor
  · exact Regs.val_congr (by rw [h]; rfl)
  · unfold State.ctr
    rw [h]
    rfl

theorem slotOf_qpKey {p o : Nat} (hp : p < 8) (ho : o < 0x40) : slotOf (qpKey p o) = 7 := by
  unfold qpKey
  rw [slotOf_of_lt (by omega)]
  omega

theorem slotOf_queueKey (q : Nat) {o : Nat} (ho : o < 0x40) : slotOf (queueKey q o) = 7 := by
  unfold slotOf keyOff queueKey
  rw [if_pos (by omega)]
  omega

/-! ### What a job keeps while its targets act between steps -/

/-- A job after actions of its targets: nothing but these has changed, and, where it stops or is being suspended, where its delivery
stands. -/
structure Job.Settled (j k : Job) : Prop where
  same : k = { j with targets := k.targets, dispatch := k.dispatch }
  dispatch : j.stopping = false → j.suspending = false → k.dispatch = j.dispatch

namespace Job.Settled

variable {j k l : Job}

theorem refl (j : Job) : j.Settled j := ⟨rfl, fun _ _ => rfl⟩

theorem stopping (h : j.Settled k) : k.stopping = j.stopping := by rw [h.same]

theorem suspending (h : j.Settled k) : k.suspending = j.suspending := by rw [h.same]

theorem raised (h : j.Settled k) : k.raised = j.raised := by rw [h.same]

theorem trans (h : j.Settled k) (h' : k.Settled l) : j.Settled l := by
  refine ⟨?_, fun hstop hsusp => ?_⟩
  · rw [h'.same, h.same]
  · rw [h'.dispatch (h.stopping.trans hstop) (h.suspending.trans hsusp), h.dispatch hstop hsusp]

end Job.Settled

/-- The queues, the DRAM and the other partitions stand, and the job of a partition but for what its targets' actions change. -/
structure State.SettleKept (p : Nat) (s u : State) : Prop where
  queues : u.comp.queues = s.comp.queues
  dram : u.dram = s.dram
  parts : ∀ n : Nat, n ≠ p → u.comp.parts[n]? = s.comp.parts[n]?
  job : ∀ j, runningJob s p = some j → ∃ k, runningJob u p = some k ∧ j.Settled k

namespace State.SettleKept

variable {p : Nat} {s r u : State}

theorem refl (s : State) : State.SettleKept p s s := ⟨rfl, rfl, fun _ _ => rfl, fun j hj => ⟨j, hj, .refl j⟩⟩

theorem trans (h : State.SettleKept p s r) (h' : State.SettleKept p r u) : State.SettleKept p s u := by
  refine ⟨h'.queues.trans h.queues, h'.dram.trans h.dram, fun n hn => (h'.parts n hn).trans (h.parts n hn), fun j hj => ?_⟩
  obtain ⟨k, hk, hset⟩ := h.job j hj
  obtain ⟨l, hl, hset'⟩ := h'.job k hk
  exact ⟨l, hl, hset.trans hset'⟩

theorem withRO (h : ∃ r o, u = s.withRO r o) : State.SettleKept p s u := by
  obtain ⟨r, o, rfl⟩ := h
  exact ⟨rfl, rfl, fun _ _ => rfl, fun j hj => ⟨j, hj, .refl j⟩⟩

theorem modJob (s : State) {f : Job → Job} (h : ∀ j, runningJob s p = some j → j.Settled (f j)) :
    State.SettleKept p s (s.modJob p f) :=
  ⟨rfl, rfl, fun _ hn => s.modJob_ne f hn, fun j hj => ⟨f j, by rw [runningJob_modJob, hj, Option.map_some], h j hj⟩⟩

theorem modTgt (s : State) (t : Nat) (f : TargetSt → TargetSt) : State.SettleKept p s (s.modTgt p t f) :=
  modJob s fun _ _ => ⟨rfl, fun _ _ => rfl⟩

/-- Delivery goes back in a job that stops or is being suspended alone. -/
theorem pullBack_modTgt {j : Job} (t i : Nat) (f : TargetSt → TargetSt) (hj : runningJob s p = some j)
    (h : j.stopping = true ∨ j.suspending = true) : State.SettleKept p s ((s.modTgt p t f).pullBack p i) := by
  refine (modTgt s t f).trans (modJob _ fun k hk => ⟨rfl, fun hstop hsusp => ?_⟩)
  rw [runningJob_modTgt, hj] at hk
  cases hk
  obtain h | h := h
  · exact absurd (hstop.symm.trans h) Bool.false_ne_true
  · exact absurd (hsusp.symm.trans h) Bool.false_ne_true

theorem commandDone (s : State) (t : Nat) : State.SettleKept p s (s.commandDone p t) := withRO (s.commandDone_frame p t)

theorem foldl {α : Type} {f : State → α → State} (h : ∀ s x, State.SettleKept p s (f s x)) (l : List α) (s : State) :
    State.SettleKept p s (l.foldl f s) := by
  induction l generalizing s with
  | nil => exact .refl s
  | cons x l ih => exact (h s x).trans (ih _)

end State.SettleKept

/-- Of its job an action between steps changes targets, and where delivery stands as R234 says. -/
theorem State.settleOne_settleKept (s : State) (p t : Nat) : State.SettleKept p s (s.settleOne p t).1 := by
  unfold State.settleOne
  split
  · next e j x _ hj _ =>
    split
    · exact .refl s
    split
    · -- the steps of a target that stops are dropped
      next hends =>
      have hwhy : j.stopping = true ∨ j.suspending = true := by
        simp only [Bool.and_eq_true, Bool.or_eq_true] at hends
        exact hends.1.2
      refine .trans ?_ (.modTgt _ _ _)
      split
      · exact .pullBack_modTgt _ _ _ hj hwhy
      · exact .refl s
    split
    · -- no step is left: a command ends, or is cut
      split
      · exact (State.SettleKept.modTgt s _ _).trans (.commandDone _ _)
      · split
        · next hcut => exact .pullBack_modTgt _ _ _ hj (.inr (Bool.and_eq_true_iff.1 hcut).2)
        · exact .refl s
    · -- a step too many, a step skipped, a step refused before it runs
      split
      · exact .refl s
      split
      · exact .modTgt s _ _
      split
      · dsimp only
        split
        · exact (State.SettleKept.modTgt s _ _).trans (.commandDone _ _)
        · exact .modTgt s _ _
      dsimp only
      split
      · refine .trans ?_ (.modTgt _ _ _)
        split
        · exact .refl s
        · exact .withRO (s.coreBoundary_frame p t)
      · exact .refl s
  · exact .refl s

theorem State.settleTgt_settleKept (n : Nat) (s : State) (p t : Nat) : State.SettleKept p s (State.settleTgt n s p t) := by
  induction n generalizing s with
  | zero => exact .refl s
  | succ n ih =>
    unfold State.settleTgt
    have hone := s.settleOne_settleKept p t
    split
    · next r hr => exact (hr ▸ hone).trans (ih r)
    · exact .refl s

theorem State.settle_settleKept (s : State) (p : Nat) : State.SettleKept p s (s.settle p) := by
  refine .foldl (fun s t => ?_) _ s
  split
  · exact s.settleTgt_settleKept _ p t
  · exact .refl s

/-- A code that stops its job stops it with that code (R231, R232). -/
theorem State.raiseCode_stopWith {s : State} {p : Nat} {r : Raised} (hr : r.status ≠ 0)
    (hstop : (isStopping r.status || jobOnly r.status) = true) : s.raiseCode p r = s.modJob p (Job.stopWith · r) := by
  unfold State.raiseCode
  rw [if_neg hr, if_pos hstop, State.stopJob, State.modJob_modJob]
  rfl

/-- A job changed, after what its targets do next. -/
theorem State.settle_modJob {s : State} {p : Nat} {j : Job} (f : Job → Job) (hj : runningJob s p = some j) :
    State.SettleKept p (s.modJob p f) ((s.modJob p f).settle p) ∧
      ∃ k, runningJob ((s.modJob p f).settle p) p = some k ∧ (f j).Settled k := by
  have hkept := (s.modJob p f).settle_settleKept p
  exact ⟨hkept, hkept.job _ (by rw [runningJob_modJob, hj, Option.map_some])⟩

/-- A job stopped with a code of its own carries it after what its targets do next; queues and DRAM stand. -/
theorem State.settle_stopWith {s : State} {p : Nat} {j : Job} (r : Raised) (hj : runningJob s p = some j) :
    ∃ k, runningJob ((s.modJob p (Job.stopWith · r)).settle p) p = some k ∧ k.stopping = true ∧ r ∈ k.raised ∧
      ((s.modJob p (Job.stopWith · r)).settle p).comp.queues = s.comp.queues ∧
      ((s.modJob p (Job.stopWith · r)).settle p).dram = s.dram := by
  obtain ⟨hkept, k, hk, hset⟩ := State.settle_modJob (Job.stopWith · r) hj
  exact ⟨k, hk, hset.stopping, by rw [hset.raised]; simp [Job.stopWith], hkept.queues, hkept.dram⟩

end Sys2Proof.Machine
end

section
/-!
PROOFS. A completion that a partition's job leaves where its queue's registers and the pending bits of a port that no module has meet
(R229, R246, R353, R365).
-/
namespace Sys2Proof.Machine
open Sys2Proof.Safety

/-- A job of queue 102,912 whose chain is empty, and which asks for an interrupt. -/
def jobUnderPortFifteen : Job := Job.start 102912 [0#8, 1#8] false false 0 0

/-- That job alone in its partition, which has its DRAM. -/
def partUnderPortFifteen : PartSt := { PartSt.empty with granted := true, job := some jobUnderPortFifteen }

/-- The binding of its queue to port 15. -/
def bindUnderPortFifteen : BindEntry := ⟨102912, 0, 0, 15, 0⟩

/-- An image with that partition and that binding; none that passes validation names a port above 3. -/
def imageOfPortFifteen : Image :=
  { profile := 1, advance := false, version := 0, secver := 0, signer := 0, imageId := [],
    parts := [⟨0, 0, 0, 0, 0, 0, 1, 0, 0⟩], scratch := [], binds := [bindUnderPortFifteen], routes := [], safety := none,
    ages := [], chans := [], policy := [], capInit := 0, depot := none, digest := [] }

/-- The job runs under that image; its queue has a ring of one place and vector 56, and port 15 of 16 masks its function. The module
has four ports. -/
def jobRunsUnderPortFifteen : State := State.setReg { State.reset with
  ports := List.replicate 16 { PortSt.reset with cfg := { msixEnable := true, msixMask := true } }
  ward := { WardSt.reset with image := some imageOfPortFifteen }
  comp := { ComputeSt.reset 0 with parts := [partUnderPortFifteen] } } (queueKey 102912 4) 56

/-- Before the completion the ring has one place. -/
theorem qLog_under_portFifteen : jobRunsUnderPortFifteen.qLog 102912 = 0 := by decide +kernel

/-- The interrupt sets its pending bit in LOG2_SIZE, and the head moves to a place that the ring did not have. -/
theorem head_under_portFifteen (u : State) (h : exec (.jobComplete 0) jobRunsUnderPortFifteen = .next u) :
    (u.queue 102912).head = 1 := by
  obtain rfl : _ = u := by injection (exec_jobComplete 0 jobRunsUnderPortFifteen).symm.trans h
  decide +kernel

end Sys2Proof.Machine
end

section
open Sys2Proof Sys2Proof.Machine Sys2Proof.Safety

/-- Refutes O23: its clause on completion speaks of every state, also of one whose image binds a queue to a port that no module has
(a validated image names ports 0 to 3, so that no run comes to it). The pending bits of a port 15 would stand from 2^30 on, where the
registers of the queues do (R246): those of its vectors 32 to 63 are QUEUE_CFG of queue 102,912, and the job's own interrupt changes
LOG2_SIZE of its queue before the head moves. -/
theorem not_jobsLeaveTheirPartition : ¬ Obligations.JobsLeaveTheirPartition := by
  unfold Obligations.JobsLeaveTheirPartition
  rintro ⟨-, hcomplete⟩
  obtain ⟨u, hu, -, hhead, -⟩ := hcomplete jobRunsUnderPortFifteen 0 partUnderPortFifteen jobUnderPortFifteen bindUnderPortFifteen 0
    (2 ^ 20) rfl rfl rfl rfl (by decide +kernel) (by decide +kernel) (by decide +kernel) rfl (by decide +kernel) (by decide +kernel)
    (by decide +kernel)
  have hmoved := head_under_portFifteen u hu
  rw [show jobUnderPortFifteen.queue = 102912 from rfl, hmoved, qLog_under_portFifteen] at hhead
  exact absurd hhead (by decide)

end

section
/-!
PROOFS. Reads that the device makes of descriptors and chains, and the delivery of the next step of a chain (R139, R159, R224, R226,
R421).
-/
namespace Sys2Proof.Machine
open Sys2Proof.Safety

/-! ### Reads of a place -/

/-- Reads that no error is met in, and that meet no poison, meet no error. -/
theorem State.dramErrors_clean {s : State} {ues : List Nat} {reads : List Ext}
    (hues : ∀ a ∈ ues, ∀ e ∈ reads, e.meets ⟨a, 1⟩ = false) (hpoison : s.poisonMet reads = []) :
    s.dramErrors [] ues reads = (s, false) := by
  have hmet : ues.filter (fun a => (reads.any fun e => e.meets ⟨a, 1⟩) && !s.dram.poison.contains (a / 32)) = [] := by
    rw [List.filter_eq_nil_iff]
    intro a ha
    simp only [List.any_eq_false.2 fun e he => ne_true_of_eq_false (hues a ha e he), Bool.false_and, Bool.false_eq_true,
      not_false_eq_true]
  have hnone : s.dramErrors [] ues reads = s.dramErrors [] [] reads := by
    unfold State.dramErrors
    rw [hmet]
    rfl
  rw [hnone, State.dramErrors_none hpoison]

section
variable {s : State} {p len code : Nat} {x : Place} {r : HostReply} {b : List Byte}

/-- A read that answers its bytes has passed its check, and has met no error in the DRAM. -/
theorem State.fetchPlace_ok (h : s.fetchPlace p x len r = (b, 0)) :
    s.placeCheck p x len true = 0 ∧ ∀ o, x = .dram o → s.placePoisoned p x len = false ∧ s.placeErr p x len r = false := by
  unfold State.fetchPlace at h
  dsimp only at h
  split at h
  · next hcheck =>
    injection h with _ hcode
    exact absurd hcode hcheck
  · next hcheck =>
    refine ⟨by simpa using hcheck, ?_⟩
    rintro o rfl
    dsimp only at h
    split at h
    · cases h
    · split at h
      · cases h
      · next hclean => simpa using hclean

/-- A read that answers its bytes leaves the DRAM's bytes and its poison: its towers have served it, and it is counted. -/
theorem State.fetched_ok (hce : r.dramCe = []) (h : s.fetchPlace p x len r = (b, 0)) :
    ∃ l g, s.fetched p x len r = s.withTowers l g := by
  obtain ⟨hcheck, hclean⟩ := State.fetchPlace_ok h
  unfold State.fetched
  dsimp only
  rw [if_neg (by simp [hcheck])]
  split
  · next o base size hdram =>
    obtain ⟨hpoison, herr⟩ := hclean o rfl
    obtain ⟨g, hg⟩ := s.countDram_frame (base + o) len (k := 0x480020) (by decide)
    have hmet : (s.countRead p o len).poisonMet [⟨base + o, len⟩] = [] := by
      by_contra hne
      rw [← ne_eq, State.poisonMet_iff, State.countRead_eq hdram, (s.countDram_mem _ _ (by decide)).2] at hne
      simp [State.placePoisoned, hdram, hne] at hpoison
    have hues : ∀ a ∈ r.dramUe, ∀ e ∈ [(⟨base + o, len⟩ : Ext)], e.meets ⟨a, 1⟩ = false := by
      simpa [State.placeErr, hdram] using herr
    rw [hce, State.dramErrors_clean hues hmet, State.countRead_eq hdram, hg]
    exact ⟨_, _, rfl⟩
  · exact ⟨s.dram.towers, s.regs.pwr, rfl⟩

/-- A read of a host window that answers its bytes changes nothing. -/
theorem State.fetched_host {w o : Nat} (h : s.fetchPlace p (.host w o) len r = (b, 0)) : s.fetched p (.host w o) len r = s := by
  unfold State.fetched
  dsimp only
  rw [if_neg (by simp [(State.fetchPlace_ok h).1])]

/-- A read that its check or the host keeps from being made changes registers and messages only (R421). -/
theorem State.fetched_refused (h : s.fetchPlace p x len r = (b, code)) (hcode : code ≠ 0) (hue : code ≠ 0x0311)
    (hlost : code ≠ 0x0313) : ∃ g o, s.fetched p x len r = s.withRO g o := by
  unfold State.fetchPlace at h
  unfold State.fetched
  dsimp only at h ⊢
  split at h
  · next hcheck =>
    rw [if_pos hcheck]
    split
    · exact s.winRefused_frame p
    · exact s.withRO_self
  · next hcheck =>
    rw [if_neg hcheck]
    split at h
    · exact s.withRO_self
    · exfalso
      split at h
      · exact hlost (by injection h with _ h; exact h.symm)
      · split at h
        · exact hue (by injection h with _ h; exact h.symm)
        · exact hcode (by injection h with _ h; exact h.symm)

end

/-! ### The delivery of a step (R224, R226) -/

/-- The dispatcher of a partition has a step to read. -/
structure State.Delivers (s : State) (p : Nat) (j : Job) : Prop where
  runs : runningJob s p = some j
  goes : (j.halted || j.stopping || j.suspending || j.chainSent) = false

section
variable {s : State} {p code : Nat} {j : Job} {r : HostReply} {b : List Byte}

/-- The place of the step that the dispatcher reads next. -/
def Job.nextPlace (j : Job) : Place := (chainPlace j.desc).plus (64 * j.nextStep)

theorem State.dispatchStep_idle (h : ∀ j, runningJob s p = some j →
    j.halted = true ∨ j.stopping = true ∨ j.suspending = true ∨ j.chainSent = true) : s.dispatchStep p r = s := by
  unfold State.dispatchStep
  split
  · rfl
  · next j hj => exact if_pos (by simpa [or_assoc] using h j hj)

/-- A step that is not read stops the job (R224, R226). -/
theorem State.dispatchStep_unread (h : s.Delivers p j) (hread : s.fetchPlace p j.nextPlace 64 r = (b, code)) (hcode : code ≠ 0)
    (hue : code ≠ 0x0311) :
    s.dispatchStep p r = ((s.fetched p j.nextPlace 64 r).modJob p (Job.stopWith · ⟨code, 31, 0xFFFFFFFF⟩)).settle p := by
  have hjob : s.comp.parts[p]?.bind (·.job) = some j := h.runs
  have hmark : (code == 0x0311) = false := by simpa using hue
  unfold Job.nextPlace at hread ⊢
  unfold State.dispatchStep
  rw [hjob]
  dsimp only
  rw [if_neg (by simp [h.goes]), hread]
  dsimp only
  rw [if_pos hcode, hmark]
  rfl

section
variable (h : s.Delivers p j) (hread : s.fetchPlace p j.nextPlace 64 r = (b, 0))
include h hread

/-- A step that has been read is compared with its index, and delivered where its target has room (R224, R226). -/
theorem State.dispatchStep_read : s.dispatchStep p r =
    if hSeq b ≠ j.nextStep % 2 ^ 24 then ((s.fetched p j.nextPlace 64 r).raiseCode p ⟨0x0630, 31, 0xFFFFFFFF⟩).settle p
    else if (j.targets.find? fun x => x.id == targetOf b).any fun x => decide (256 ≤ x.steps.length) then s
    else ((s.fetched p j.nextPlace 64 r).modJob p fun k => k.deliver j.nextStep b).settle p := by
  have hjob : s.comp.parts[p]?.bind (·.job) = some j := h.runs
  unfold Job.nextPlace at hread ⊢
  unfold State.dispatchStep
  rw [hjob]
  dsimp only
  rw [if_neg (by simp [h.goes]), hread]
  dsimp only
  rw [if_neg (by simp)]

theorem State.dispatchStep_wrongSeq (hseq : hSeq b ≠ j.nextStep % 2 ^ 24) : s.dispatchStep p r =
    ((s.fetched p j.nextPlace 64 r).modJob p (Job.stopWith · ⟨0x0630, 31, 0xFFFFFFFF⟩)).settle p := by
  rw [State.dispatchStep_read h hread, if_pos hseq, State.raiseCode_stopWith (by decide) (by decide)]

theorem State.dispatchStep_full {y : TargetSt} (hseq : hSeq b = j.nextStep % 2 ^ 24)
    (hy : j.targets.find? (fun y => y.id == targetOf b) = some y) (hfull : 256 ≤ y.steps.length) : s.dispatchStep p r = s := by
  rw [State.dispatchStep_read h hread, if_neg (by simp [hseq]), if_pos (by simp [hy, hfull])]

theorem State.dispatchStep_delivers (hseq : hSeq b = j.nextStep % 2 ^ 24)
    (hroom : ∀ y ∈ j.targets, y.id = targetOf b → y.steps.length < 256) : s.dispatchStep p r =
      ((s.fetched p j.nextPlace 64 r).modJob p fun k => k.deliver j.nextStep b).settle p := by
  have hfind : ((j.targets.find? fun x => x.id == targetOf b).any fun x => decide (256 ≤ x.steps.length)) = false := by
    cases hy : j.targets.find? fun x => x.id == targetOf b with
    | none => rfl
    | some y => simpa using hroom y (List.mem_of_find?_eq_some hy) (by simpa using List.find?_some hy)
  rw [State.dispatchStep_read h hread, if_neg (by simp [hseq]), if_neg (by simp [hfind])]

end

/-- A step delivered counts as delivered to its target, and nothing of its job changes beside (R224). -/
theorem Job.deliver_spec (j : Job) (i : Nat) (b : List Byte) : (j.deliver i b).dispatch = i + 1 ∧
    targetOf b ∈ (j.deliver i b).owners ∧ (j.deliver i b).raised = j.raised ∧ (j.deliver i b).stopping = j.stopping ∧
    (j.deliver i b).suspending = j.suspending := by
  have howners : targetOf b ∈ if i < j.owners.length then j.owners.set i (targetOf b) else j.owners ++ [targetOf b] := by
    split
    · next hlt => exact List.mem_set hlt _
    · exact List.mem_append_right _ (List.mem_singleton_self _)
  unfold Job.deliver
  dsimp only
  split <;> exact ⟨rfl, howners, rfl, rfl, rfl⟩

/-- Where nothing is delivered nothing changes. -/
theorem exec_stepDelivery_idle {p : PartIx} (h : s.dispatchStep p r = s) : exec (.stepDelivery p r) s = .next s := by
  rw [exec_stepDelivery, execStepDelivery, h, commitJob_self]

/-- A delivery that stops the job after a read that leaves jobs, queues and stored bytes. -/
theorem exec_stepDelivery_stops {p : PartIx} {u : State} (hj : runningJob s p = some j) (hcomp : u.comp = s.comp) (hsame : sameDram s u)
    (h : s.dispatchStep p r = (u.modJob p (Job.stopWith · ⟨code, 31, 0xFFFFFFFF⟩)).settle p) :
    ∃ t k, exec (.stepDelivery p r) s = .next t ∧ runningJob t p = some k ∧ k.stopping = true ∧
      ⟨code, 31, 0xFFFFFFFF⟩ ∈ k.raised ∧ t.comp.queues = s.comp.queues ∧ sameDram s t := by
  have hruns : runningJob u p = some j := (runningJob_of_parts (congrArg _ hcomp) p).trans hj
  obtain ⟨k, hk, hstopped, hraised, hqueues, hdram⟩ := State.settle_stopWith ⟨code, 31, 0xFFFFFFFF⟩ hruns
  rw [← h] at hk hqueues hdram
  refine ⟨commitJob s (s.dispatchStep p r), k, rfl, hk, hstopped, hraised, ?_, ?_⟩
  · rw [commitJob_comp, hqueues, hcomp]
  · rw [sameDram, commitJob_dram, hdram]
    exact hsame

end

end Sys2Proof.Machine
end

section
open Sys2Proof Sys2Proof.Machine Sys2Proof.Safety

/-- Settles O22: each clause is a branch of `dispatchStep`; what a read leaves is in `fetched_ok` and `fetched_refused`, and what
the targets do next keeps the job as `State.SettleKept` says. -/
theorem stepsAreDeliveredInOrder : Obligations.StepsAreDeliveredInOrder := by
  unfold Obligations.StepsAreDeliveredInOrder
  intro s p r hce _
  refine ⟨fun x j b code hx hj hhalted hstop hsusp hsent hread => ?_,
    fun hidle => exec_stepDelivery_idle (State.dispatchStep_idle hidle)⟩
  have hdel : s.Delivers p j := ⟨runningJob_of_part hx hj, by simp [hhalted, hstop, hsusp, hsent]⟩
  replace hread : s.fetchPlace p j.nextPlace 64 r = (b, code) := hread
  refine ⟨?delivered, ?wrongSeq, ?full, ?unread⟩
  case delivered =>
    rintro rfl hseq hroom
    obtain ⟨l, g, hfetched⟩ := State.fetched_ok hce hread
    have hdispatch := State.dispatchStep_delivers hdel hread hseq hroom
    rw [hfetched] at hdispatch
    obtain ⟨hnext, howners, hraised, hstop', hsusp'⟩ := j.deliver_spec j.nextStep b
    obtain ⟨hkept, k, hk, hset⟩ := State.settle_modJob (s := s.withTowers l g) (fun k => k.deliver j.nextStep b) hdel.runs
    rw [← hdispatch] at hkept hk
    refine ⟨_, k, rfl, hk, ?_, ?_, ?_, ?_, ?_⟩
    · rw [hset.dispatch (hstop'.trans hstop) (hsusp'.trans hsusp), hnext]
    · rw [hset.same]
      exact howners
    · rw [hset.raised, hraised]
    · exact hkept.queues
    · rw [sameDram, commitJob_dram, hkept.dram]
      exact ⟨rfl, rfl⟩
  case wrongSeq =>
    rintro rfl hseq
    obtain ⟨l, g, hfetched⟩ := State.fetched_ok hce hread
    exact exec_stepDelivery_stops hdel.runs (by rw [hfetched]; rfl) (by rw [hfetched]; exact ⟨rfl, rfl⟩)
      (State.dispatchStep_wrongSeq hdel hread hseq)
  case full =>
    rintro y rfl hseq hy hfull
    exact exec_stepDelivery_idle (State.dispatchStep_full hdel hread hseq hy hfull)
  case unread =>
    intro hcode hue hlost
    obtain ⟨g, o, hfetched⟩ := State.fetched_refused hread hcode hue hlost
    exact exec_stepDelivery_stops hdel.runs (by rw [hfetched]; rfl) (by rw [hfetched]; exact ⟨rfl, rfl⟩)
      (State.dispatchStep_unread hdel hread hcode hue)

end

section
/-!
PROOFS. The scheduler: the job at the head of a queue, its batch, its wait, and a suspended job that resumes (R222, R223, R227, R233,
R234, R428).
-/
namespace Sys2Proof.Machine
open Sys2Proof.Safety

/-! ### Demand (R428) -/

/-- The state with other power domains. -/
def State.withDoms (s : State) (l : List DomSt) : State := { s with pwr := { s.pwr with doms := l } }

theorem State.demand_frame (s : State) (d : Nat) : ∃ l, s.demand d = s.withDoms l := by
  unfold State.demand
  split
  · split
    · exact ⟨_, rfl⟩
    · exact ⟨s.pwr.doms, rfl⟩
  · exact ⟨s.pwr.doms, rfl⟩

theorem foldl_withDoms {α : Type} {f : State → α → State} (h : ∀ s x, ∃ l, f s x = s.withDoms l) (xs : List α) (s : State) :
    ∃ l, xs.foldl f s = s.withDoms l := by
  induction xs generalizing s with
  | nil => exact ⟨s.pwr.doms, rfl⟩
  | cons x xs ih =>
    obtain ⟨l, hl⟩ := h s x
    obtain ⟨l', hl'⟩ := ih (f s x)
    exact ⟨l', by rw [List.foldl_cons, hl', hl]; rfl⟩

/-- The hosts and engines of a partition in demand: nothing but power domains changes. -/
theorem State.wakeHosts_frame (s : State) (e : PartEntry) : ∃ l, s.wakeHosts e = s.withDoms l := by
  obtain ⟨l, hl⟩ := foldl_withDoms (fun s n => State.demand_frame s (13 + n)) (bitsOf 16 e.coreMask) s
  obtain ⟨l', hl'⟩ := foldl_withDoms (fun s n => State.demand_frame s (9 + n)) (bitsOf 4 e.attnMask) (s.withDoms l)
  refine ⟨l', ?_⟩
  unfold State.wakeHosts
  rw [hl, hl']
  rfl

/-- A job that runs in a partition: the partition holds it, and its domains are in demand (R233, R428). -/
theorem State.runJob_frame (s : State) (p : Nat) (e : PartEntry) (j : Job) :
    ∃ l, s.runJob p e j = (s.modPart p fun x => { x with job := some j }).withDoms l := State.wakeHosts_frame _ e

/-! ### The choice of the scheduler (R223, R233) -/

/-- The scheduler may act on a partition, and takes a queue. -/
structure State.Schedules (s : State) (p : Nat) (e : PartEntry) (x : PartSt) (q : Nat) (b : BindEntry) : Prop where
  part : s.part p = some e
  st : s.comp.parts[p]? = some x
  next : s.nextQueue p = some q
  bind : s.bindOf q = some b
  free : (x.job.isSome || x.remapDue || s.held || !s.boot.ready) = false
  granted : x.granted = true
  host : s.hostInService e = true

/-- The place of the descriptor at the head of a queue (R220). -/
def State.headPlace (s : State) (q : Nat) (b : BindEntry) : Place := (ringPlace b.ringLoc (s.qBase q 8)).plus (64 * (s.queue q).head)

section
variable {s : State} {p q : Nat} {e : PartEntry} {x : PartSt} {b : BindEntry} {r : HostReply} {d : List Byte}

theorem State.schedule_head (h : s.Schedules p e x q b) (hsusp : (s.queue q).susp = none) :
    s.schedule p r = s.startHead p q e b r := by
  unfold State.schedule
  rw [h.part, h.st, h.next]
  dsimp only
  rw [if_neg (by simp [h.free]), h.bind, hsusp]

/-- A suspended job resumes (R234). -/
theorem State.schedule_resumes {j : Job} (h : s.Schedules p e x q b) (hsusp : (s.queue q).susp = some j) : s.schedule p r =
    ((((s.modQueue q fun y => { y with susp := none }).modPart p fun x => { x with lastServed := q }).runJob p e
      (j.resumed (s.degraded p))).settle p) := by
  unfold State.schedule
  rw [h.part, h.st, h.next]
  dsimp only
  rw [if_neg (by simp [h.free]), h.bind, hsusp]
  simp [h.granted, h.host]

/-- The job at the head of a queue as it starts (R222). -/
def State.headJob (s : State) (p q : Nat) (d : List Byte) : Job :=
  Job.start q d (s.degraded p) (s.modelled p) s.now s.comp.nextJob

/-- The state in which a queue is the last served of a partition, and a job has been numbered. -/
def State.served (s : State) (p q : Nat) : State :=
  let s1 := s.modPart p fun x => { x with lastServed := q }
  { s1 with comp := { s1.comp with nextJob := s1.comp.nextJob + 1 } }

/-- A descriptor at the head of a queue that has been read and has passed its checks. -/
structure State.HeadRead (s : State) (p q : Nat) (b : BindEntry) (r : HostReply) (d : List Byte) : Prop where
  unread : (s.queue q).read = none
  fetch : s.fetchPlace p (s.headPlace q b) 64 r = (d, 0)
  check : s.descCheck p d = 0

theorem State.readHead_fetch (h : s.HeadRead p q b r d) : s.readHead p q b r = (d, 0, s.fetched p (s.headPlace q b) 64 r) := by
  have hfetch := h.fetch
  unfold State.headPlace at hfetch ⊢
  unfold State.readHead
  rw [h.unread]
  dsimp only
  rw [hfetch]
  rfl

/-- A job that has passed its checks starts, with a batch where it asks for one, or waits for a batch (R223, R227, R273). -/
theorem State.startHead_eq (h : s.Schedules p e x q b) (hr : s.HeadRead p q b r d) : s.startHead p q e b r =
    if tbit (leAt d 1 1) 2 then
      match (s.ing.rings.getD p .reset).oldest with
      | none => (s.fetched p (s.headPlace q b) 64 r).modQueue q fun x => { x with read := some d }
      | some (k, ts) => ((((s.fetched p (s.headPlace q b) 64 r).served p q).setBuf p k (.claimed ts)).runJob p e
          { s.headJob p q d with batch := some k, batchTs := some ts })
    else ((s.fetched p (s.headPlace q b) 64 r).served p q).runJob p e (s.headJob p q d) := by
  have hgranted : (s.comp.parts.getD p .empty).granted = true := by rw [List.getD_eq_getElem?_getD, h.st]; exact h.granted
  unfold State.startHead
  rw [State.readHead_fetch hr]
  simp only [hgranted, h.host, hr.check, Bool.not_true, Bool.false_eq_true, if_false, ne_eq, not_true_eq_false]
  rfl

/-- A ring that has a complete batch is one of the rings; the batch claimed changes its buffer alone (R273). -/
theorem State.setBuf_oldest {k ts : Nat} (bf : BufSt) (h : (s.ing.rings.getD p .reset).oldest = some (k, ts)) :
    (s.setBuf p k bf).ing.rings = s.ing.rings.set p { s.ing.rings.getD p .reset with
      bufs := (s.ing.rings.getD p .reset).bufs.set k bf } := by
  rw [List.getD_eq_getElem?_getD] at h ⊢
  cases hring : s.ing.rings[p]? with
  | none =>
    rw [hring, Option.getD_none, show RingSt.reset.oldest = none from rfl] at h
    cases h
  | some y => exact lmod_eq_set _ hring

/-- A partition whose job starts holds it, and its queue is the last served. -/
theorem State.runJob_served (u : State) (j : Job) (h : u.comp.parts[p]? = some x) :
    ((u.served p q).runJob p e j).comp.parts[p]? = some { x with job := some j, lastServed := q } := by
  obtain ⟨l, hl⟩ := (u.served p q).runJob_frame p e j
  rw [hl]
  have hserved : (u.served p q).comp.parts[p]? = some { x with lastServed := q } := State.modPart_self _ h
  exact State.modPart_self _ hserved

/-- The other partitions stand where a job starts or resumes. -/
theorem State.runJob_ne (s : State) (p : Nat) (e : PartEntry) (j : Job) {n : Nat} (h : n ≠ p) :
    (s.runJob p e j).comp.parts[n]? = s.comp.parts[n]? := by
  obtain ⟨l, hl⟩ := s.runJob_frame p e j
  rw [hl]
  exact s.modPart_ne _ h

theorem State.served_ne (s : State) {p n : Nat} (q : Nat) (h : n ≠ p) : (s.served p q).comp.parts[n]? = s.comp.parts[n]? :=
  s.modPart_ne _ h

/-- A job that resumes runs with its progress: its targets take steps again (R234). -/
theorem State.schedule_resumed {j : Job} (h : s.Schedules p e x q b) (hsusp : (s.queue q).susp = some j) :
    ∃ k, runningJob (s.schedule p r) p = some k ∧ (j.resumed (s.degraded p)).Settled k ∧
      (s.schedule p r).comp.queues = (s.modQueue q fun y => { y with susp := none }).comp.queues ∧
      (∀ n : Nat, n ≠ p → (s.schedule p r).comp.parts[n]? = s.comp.parts[n]?) ∧ (s.schedule p r).dram = s.dram := by
  obtain ⟨l, hl⟩ := State.runJob_frame ((s.modQueue q fun y => { y with susp := none }).modPart p fun x => { x with lastServed := q })
    p e (j.resumed (s.degraded p))
  have hserved : ((s.modQueue q fun y => { y with susp := none }).modPart p fun x => { x with lastServed := q }).comp.parts[p]? =
      some { x with lastServed := q } := State.modPart_self _ h.st
  have hkept := State.settle_settleKept
    ((((s.modQueue q fun y => { y with susp := none }).modPart p fun x => { x with lastServed := q }).runJob p e
      (j.resumed (s.degraded p)))) p
  obtain ⟨k, hk, hset⟩ := hkept.job (j.resumed (s.degraded p)) (by
    rw [hl]
    exact runningJob_of_part (State.modPart_self _ hserved) rfl)
  rw [State.schedule_resumes h hsusp]
  refine ⟨k, hk, hset, ?_, fun n hn => ?_, ?_⟩
  · rw [hkept.queues, hl]
    rfl
  · rw [hkept.parts n hn, State.runJob_ne _ _ _ _ hn, State.modPart_ne _ _ hn]
    rfl
  · rw [hkept.dram, hl]
    rfl

end

end Sys2Proof.Machine
end

section
open Sys2Proof Sys2Proof.Machine Sys2Proof.Safety

/-- Settles O21: the scheduler's choice is `schedule_head` or `schedule_resumed`; a job at a head has the branches of `startHead_eq`
after a read that leaves what the DRAM stores. -/
theorem jobStartsAtTheHead : Obligations.JobStartsAtTheHead := by
  unfold Obligations.JobStartsAtTheHead
  intro s p e x q b r he hx hnext hbind hjob hdue hgranted hheld hready hhost
  have hsched : s.Schedules p e x q b := ⟨he, hx, hnext, hbind, by simp [hjob, hdue, hheld, hready], hgranted, hhost⟩
  refine ⟨fun d hsusp hunread hce hfetch hcheck => ?head, fun j hsusp hstop => ?resumed⟩
  case head =>
    have hhead : s.HeadRead p q b r d := ⟨hunread, hfetch, hcheck⟩
    have hstart := (State.schedule_head (r := r) hsched hsusp).trans (State.startHead_eq hsched hhead)
    obtain ⟨l, g, hfetched⟩ := State.fetched_ok hce hhead.fetch
    have hx' : (s.withTowers l g).comp.parts[p.val]? = some x := hx
    dsimp only
    refine ⟨fun hflag => ?plain, fun k ts hflag hold => ?batch, fun hflag hold hloc => ?waits⟩
    case plain =>
      rw [if_neg (by simp [hflag]), hfetched] at hstart
      have hparts := State.runJob_served (q := q) (e := e) _ (s.headJob p q d) hx'
      obtain ⟨m, hm⟩ := State.runJob_frame ((s.withTowers l g).served p q) p e (s.headJob p q d)
      refine ⟨commitJob s (s.schedule p r), rfl, ?_, fun n hn => ?_, ?_, ?_⟩
      · rw [commitJob_comp, hstart]
        exact hparts
      · rw [commitJob_comp, hstart, State.runJob_ne _ _ _ _ hn, State.served_ne _ _ hn]
        rfl
      · rw [hstart, hm]
        exact ⟨rfl, rfl⟩
      · rw [hstart, hm]
        rfl
    case batch =>
      rw [if_pos hflag, hold, hfetched] at hstart
      dsimp only at hstart
      have hparts := State.runJob_served (q := q) (e := e) ((s.withTowers l g).setBuf p k (.claimed ts))
        { s.headJob p q d with batch := some k, batchTs := some ts } hx'
      obtain ⟨m, hm⟩ := State.runJob_frame (((s.withTowers l g).served p q).setBuf p k (.claimed ts)) p e
        { s.headJob p q d with batch := some k, batchTs := some ts }
      refine ⟨commitJob s (s.schedule p r), rfl, ?_, ?_, fun n hn => ?_, ?_, ?_⟩
      · rw [commitJob_comp, hstart]
        exact hparts
      · rw [hstart, hm]
        exact s.setBuf_oldest _ hold
      · rw [commitJob_comp, hstart, State.runJob_ne _ _ _ _ hn]
        exact State.served_ne (s.withTowers l g) q hn
      · rw [hstart, hm]
        exact ⟨rfl, rfl⟩
      · rw [hstart, hm]
        rfl
    case waits =>
      have hplace : s.headPlace q b = .host (s.qBase q 8 / 2 ^ 48 % 256) (s.qBase q 8 % 2 ^ 48 + 64 * (s.queue q).head) := by
        rw [State.headPlace, ringPlace, if_neg hloc]
        rfl
      have hsame := State.fetched_host (hplace ▸ hhead.fetch)
      rw [if_pos hflag, hold, hplace, hsame] at hstart
      dsimp only at hstart
      refine ⟨commitJob s (s.schedule p r), rfl, ?_, fun n hn => ?_, ?_⟩
      · rw [queue_commitJob, hstart, State.queue_modQueue_self]
      · rw [queue_commitJob, hstart, State.queue_modQueue_ne _ _ hn]
      · rw [hstart]
        rfl
  case resumed =>
    obtain ⟨k, hk, hset, hqueues, hparts, hdram⟩ := State.schedule_resumed (r := r) hsched hsusp
    have hsame := hset.same
    refine ⟨commitJob s (s.schedule p r), k, rfl, hk, ?_, ?_, ?_, ?_, ?_, ?_, ?_, ?_, fun n hn => ?_, hparts, hdram⟩
    · rw [hsame]; rfl
    · rw [hsame]; rfl
    · rw [hsame]; rfl
    · exact hset.dispatch hstop rfl
    · rw [hsame]; rfl
    · rw [hsame]; rfl
    · rw [hsame]; rfl
    · rw [queue_commitJob, State.queue_of_queues hqueues, State.queue_modQueue_self]
    · rw [queue_commitJob, State.queue_of_queues hqueues, State.queue_modQueue_ne _ _ hn]

end

section
/-!
PROOFS. Doorbells, and reads of BAR2 (R221, R362).
-/
namespace Sys2Proof.Machine
open Sys2Proof.Safety

/-! ### Doorbells (R221) -/

theorem exec_doorbell_arrives {s : State} {p : Port} (h : arrives s p) (off size : Nat) (v : BitVec 64) :
    exec (.doorbell p off size v) s = .next (commitJob s (s.doorbell p off size v.toNat)) := by
  rw [exec_doorbell, execDoorbell, State.onPort_arrives h]

section
variable {s : State} {port off size v : Nat} {b : BindEntry}

/-- A doorbell that its ring admits: LOG2_SIZE is at most 15, so that the tail has 16 bits (R220, R221). -/
theorem State.doorbell_admitted (hb : s.bindOf (off / 8) = some b) (hport : b.port = port) (hsize : size = 8) (hoff : off % 8 = 0)
    (hv : v < 2 ^ s.qLog (off / 8)) (hreset : (s.queue (off / 8)).resetPend = false) :
    s.doorbell port off size v = s.modQueue (off / 8) fun x => { x with tail := v } := by
  have hlog : s.qLog (off / 8) ≤ 15 := Nat.le_of_lt_succ (field_lt _ 24 4)
  have hring : 2 ^ s.qLog (off / 8) ≤ 32768 := Nat.pow_le_pow_right (by decide) hlog
  have hgood : ¬(size ≠ 8 ∨ off % 8 ≠ 0 ∨ 2 ^ s.qLog (off / 8) ≤ v ∨ 65536 ≤ v ∨ (s.queue (off / 8)).resetPend = true) := by
    simp only [hreset, Bool.false_eq_true, or_false]
    omega
  unfold State.doorbell
  dsimp only
  rw [hb]
  dsimp only
  rw [if_neg (by simp [hport]), if_neg hgood]

theorem State.doorbell_bad (hb : s.bindOf (off / 8) = some b) (hport : b.port = port)
    (hbad : size ≠ 8 ∨ off % 8 ≠ 0 ∨ 2 ^ s.qLog (off / 8) ≤ v ∨ (s.queue (off / 8)).resetPend = true) :
    s.doorbell port off size v = s.queueErr (off / 8) 0 := by
  unfold State.doorbell
  dsimp only
  rw [hb]
  dsimp only
  rw [if_neg (by simp [hport]), if_pos (by tauto)]

theorem State.doorbell_foreign (h : ∀ b, s.bindOf (off / 8) = some b → b.port ≠ port) :
    s.doorbell port off size v = s.busError port 2 5 off := by
  unfold State.doorbell
  dsimp only
  split
  · rfl
  · next b hb => rw [if_pos (h b hb)]

end

/-- An error of a queue sets its bit, and no message goes out (R246, R365). -/
theorem State.queueErr_eq (s : State) (q bit : Nat) :
    s.queueErr q bit = s.setReg (queueKey q 0x24) (s.rv (queueKey q 0x24) ||| 2 ^ bit) := by
  unfold State.queueErr State.raise
  simp only [hasEnable_queueKey, Bool.false_and, Bool.false_eq_true, if_false]

/-- A register of the queues that is set: nothing but its block changes. -/
theorem State.setReg_queue (s : State) {k : Nat} (v : Nat) (h : slotOf k = 7) :
    s.setReg k v = { s with regs := { s.regs with queue := (s.setReg k v).regs.queue } } := by
  unfold State.setReg Regs.setVal
  rw [h]
  rfl

/-! ### Commands that are bus errors (R361) -/

/-- A bus error that a command of jobs raises is committed whole. -/
theorem busErrorOn_commitJob {p : Nat} (s : State) (bar kind off : Nat) (hp : p < 15) :
    busErrorOn s (commitJob s (s.busError p bar kind off)) p bar kind off := by
  obtain ⟨⟨vals, o, h⟩, -⟩ := OwnPci.busError s bar kind off hp
  have hcommit : commitJob s (s.busError p bar kind off) = s.busError p bar kind off := by rw [h]; rfl
  rw [hcommit]
  exact busErrorOn_busError s bar kind off hp

/-- Every read of BAR2 is a bus error of KIND 4 (R362). -/
theorem exec_bar2Read_arrives {s : State} {p : Port} (h : arrives s p) (off len : Nat) :
    exec (.bar2Read p off len) s = .next (s.readError p 2 4 off) := by
  rw [exec_bar2Read, execBar2Read, State.onPort_arrives h, commitBus_readError s 2 4 off (by omega)]

end Sys2Proof.Machine
end

section
open Sys2Proof Sys2Proof.Machine Sys2Proof.Safety

/-- Settles O20: each clause is a branch of `doorbell`, whose error bit and bus error touch the registers that `queueErr_eq` and
`busErrorOn_commitJob` say. -/
theorem doorbellSetsTheTail : Obligations.DoorbellSetsTheTail := by
  unfold Obligations.DoorbellSetsTheTail
  intro s p off size v harr _
  refine ⟨fun b hb hport hsize hoff hv hreset => ?_, fun b hb hport hbad => ?_, fun hforeign => ?_, fun o len => ?_⟩
  · rw [exec_doorbell_arrives harr, State.doorbell_admitted hb hport hsize hoff hv hreset]
    refine ⟨_, rfl, ?_, fun q hq => ?_, rfl⟩
    · rw [queue_commitJob, State.queue_modQueue_self]
    · rw [queue_commitJob, State.queue_modQueue_ne _ _ hq]
  · have hslot := slotOf_queueKey (off / 8) (o := 0x24) (by decide)
    rw [exec_doorbell_arrives harr, State.doorbell_bad hb hport hbad, State.queueErr_eq]
    refine ⟨_, rfl, ?_, ?_⟩
    · rw [(commitJob_queueBlock hslot).1, State.rv_setReg_self, tbit_mod_word _ (by decide), tbit_or]
      simp [tbit]
    · rw [s.setReg_queue _ hslot]
      rfl
  · rw [exec_doorbell_arrives harr, State.doorbell_foreign hforeign]
    exact ⟨_, rfl, busErrorOn_commitJob s 2 5 off (by omega)⟩
  · exact ⟨_, exec_bar2Read_arrives harr o len, busErrorOn_readError s 2 4 o (by omega), s.readError_out p 2 4 o⟩

end

section
/-!
PROOFS. RESET of a queue, the re-map of a partition, and a host that switches logical cores (R237, R240 to R246).
-/
namespace Sys2Proof.Machine
open Sys2Proof.Safety

/-! ### RESET of a queue (R237, R246) -/

/-- The claim of a job released changes rings alone (R273). -/
theorem State.releaseBatch_frame (s : State) (p : Nat) (j : Job) :
    ∃ l, s.releaseBatch p j = { s with ing := { s.ing with rings := l } } := by
  unfold State.releaseBatch
  split
  · exact ⟨_, rfl⟩
  · exact ⟨s.ing.rings, rfl⟩

section
variable {s : State} {q : Nat} {b : BindEntry}

/-- A queue that holds no running job is empty at once. -/
theorem State.resetQueue_idle (hb : s.bindOf q = some b) (h : ∀ j, runningJob s b.part = some j → j.queue ≠ q) :
    ∃ l, s.resetQueue q = State.modQueue { s with ing := { s.ing with rings := l } } q fun _ => .empty := by
  have hidle : ((s.comp.parts[b.part]?.bind (·.job)).any fun j => j.queue == q) = false := by
    change ((runningJob s b.part).any fun j => j.queue == q) = false
    cases hj : runningJob s b.part with
    | none => rfl
    | some j => simpa using h j hj
  unfold State.resetQueue
  rw [hb]
  dsimp only
  rw [if_neg (by simp [hidle])]
  split
  · next j _ =>
    obtain ⟨l, hl⟩ := s.releaseBatch_frame b.part j
    exact ⟨l, by rw [hl]⟩
  · exact ⟨s.ing.rings, rfl⟩

/-- A queue whose job runs stops it, and waits for it. -/
theorem State.resetQueue_running {j : Job} (hb : s.bindOf q = some b) (hj : runningJob s b.part = some j) (hq : j.queue = q) :
    ∃ k, runningJob (s.resetQueue q) b.part = some k ∧ k.stopping = true ∧ (s.resetQueue q).dram = s.dram ∧
      (s.resetQueue q).comp.queues = (s.modQueue q fun x => { x with resetPend := true }).comp.queues := by
  have hjob : s.comp.parts[b.part]?.bind (·.job) = some j := hj
  have hreset : s.resetQueue q = ((s.modQueue q fun x => { x with resetPend := true }).stopJob b.part).settle b.part := by
    unfold State.resetQueue
    rw [hb]
    dsimp only
    rw [hjob, if_pos (by simp [hq])]
  obtain ⟨hkept, k, hk, hset⟩ := State.settle_modJob (s := s.modQueue q fun x => { x with resetPend := true }) Job.stop hj
  rw [← State.stopJob, ← hreset] at hkept hk
  exact ⟨k, hk, hset.stopping, hkept.dram, hkept.queues⟩

end

section
variable {s : State} {p : Port} {b : BindEntry}

theorem exec_queueReset_bound (h : admits s p 0x700020) (hb : s.bindOf (s.selected p) = some b) (hport : b.port = p.val) :
    exec (.queueReset p) s = .next (commitJob s (s.resetQueue (s.selected p))) := by
  rw [exec_queueReset, execQueueReset, State.gate_may h (by simp [hb, hport])]

theorem exec_queueReset_foreign (h : admits s p 0x700020) (hb : ∀ b, s.bindOf (s.selected p) = some b → b.port ≠ p.val) :
    exec (.queueReset p) s = .next (s.busError p 0 3 0x700020) := by
  have hmay : ((s.bindOf (s.selected p)).any fun b => b.port == p.val) = false := by
    cases hbind : s.bindOf (s.selected p) with
    | none => rfl
    | some b => simpa using hb b hbind
  rw [exec_queueReset, execQueueReset, State.gate_forbidden h.1 (by simp [hmay])]

end

/-! ### The re-map (R240, R241, R244) -/

/-- A partition under its new mapping and grant. -/
def PartSt.remap (x : PartSt) (m : List (Option Nat)) (g : Bool × Nat) : PartSt :=
  { x with map := m, base := g.2, granted := g.1, remapDue := false, remapped := true, dramLost := false }

/-- The partition, its cores and its ring under the new mapping and grant, before the re-map counts. -/
def State.remapTo (s : State) (i : Image) (p : Nat) (e : PartEntry) (x : PartSt) : State :=
  ((s.remapCores e x.map (s.mapping e)).modPart p fun y => y.remap (s.mapping e) (s.grantOf i p)).modRing p fun r =>
    { r with stopped := !(s.grantOf i p).1 }

/-- The state with a re-map of a partition counted, and its event with other bits beside. -/
def State.countRemap (s : State) (p bits : Nat) : State :=
  (s.setReg (qpKey p 0xC) ((s.rv (qpKey p 0xC) + 1) % 2 ^ 32)).raise (qpKey p 0x20) bits

section
variable {s : State} {p : Nat} {i : Image} {e : PartEntry} {x : PartSt}

/-- A re-map that is due, with no job running, maps, grants and counts; where SAFETY has lost its last host under a drive image, cause
0x0412 is detected beside (R381). -/
theorem State.remap_eq (hi : s.ward.image = some i) (he : s.part p = some e) (hx : s.comp.parts[p]? = some x)
    (hdue : x.remapDue = true) (hjob : x.job = none) : ∃ bits, tbit bits 0 = true ∧
      (s.remap p = (s.remapTo i p e x).countRemap p bits ∨
       s.remap p = ((s.remapTo i p e x).countRemap p bits).detect 2 0xFF 2) := by
  refine ⟨1 + flagBit 1 (x.granted && !(s.grantOf i p).1) +
    flagBit 2 ((s.mapping e).all Option.isNone && !(x.map.all Option.isNone)), ?_, ?_⟩
  · cases x.granted && !(s.grantOf i p).1 <;> cases (s.mapping e).all Option.isNone && !(x.map.all Option.isNone) <;> rfl
  · unfold State.remap
    rw [hi, he, hx]
    dsimp only
    rw [if_neg (by simp [hdue, hjob])]
    split
    · exact .inr rfl
    · exact .inl rfl

theorem State.remapTo_parts (hx : s.comp.parts[p]? = some x) :
    (s.remapTo i p e x).comp.parts[p]? = some (x.remap (s.mapping e) (s.grantOf i p)) :=
  State.modPart_self (s := s.remapCores e x.map (s.mapping e)) _ hx

theorem State.remapTo_ne {n : Nat} (h : n ≠ p) : (s.remapTo i p e x).comp.parts[n]? = s.comp.parts[n]? :=
  State.modPart_ne (s.remapCores e x.map (s.mapping e)) _ h

/-- A re-map counted sets its two registers, and touches neither jobs nor memories. -/
theorem State.countRemap_spec (u : State) {bits : Nat} (hp : p < 8) (hbits : tbit bits 0 = true) :
    (u.countRemap p bits).rv (qpKey p 0xC) = (u.rv (qpKey p 0xC) + 1) % 2 ^ 32 ∧
    tbit ((u.countRemap p bits).rv (qpKey p 0x20)) 0 = true ∧ (u.countRemap p bits).comp = u.comp ∧
    (u.countRemap p bits).dram = u.dram := by
  have hlt : qpKey p 0xC < 2 ^ 26 ∧ qpKey p 0x20 < 2 ^ 26 ∧ qpKey p 0xC ≠ qpKey p 0x20 := by
    unfold qpKey
    omega
  obtain ⟨hcount, hevent, hne⟩ := hlt
  unfold State.countRemap
  refine ⟨?_, State.tbit_raise_shared _ _ hevent (by decide) hbits, by simp, by simp⟩
  rw [State.rv_raise_shared_ne _ _ hcount hne, State.rv_setReg_self, Nat.mod_mod]

/-- What a re-map leaves: the partition remapped, the others as before, its count and its event. -/
theorem State.remap_spec (hp : p < 8) (hi : s.ward.image = some i) (he : s.part p = some e) (hx : s.comp.parts[p]? = some x)
    (hdue : x.remapDue = true) (hjob : x.job = none) :
    (s.remap p).comp = (s.remapTo i p e x).comp ∧ (s.remap p).dram = s.dram ∧
    (s.remap p).rv (qpKey p 0xC) = (s.rv (qpKey p 0xC) + 1) % 2 ^ 32 ∧ tbit ((s.remap p).rv (qpKey p 0x20)) 0 = true := by
  obtain ⟨bits, hbits, h | h⟩ := State.remap_eq hi he hx hdue hjob
  all_goals obtain ⟨hcount, hevent, hcomp, hdram⟩ := (s.remapTo i p e x).countRemap_spec hp hbits
  · rw [h]
    exact ⟨hcomp, hdram, hcount, hevent⟩
  · have hkey : ∀ o, o < 0x40 → qpKey p o < 2 ^ 26 ∧ qpKey p o ≠ 0x200020 := by
      intro o ho
      unfold qpKey
      omega
    obtain ⟨hlt, hne⟩ := hkey 0xC (by decide)
    obtain ⟨hlt', hne'⟩ := hkey 0x20 (by decide)
    rw [h, State.rv_detect_shared_ne _ _ _ _ hlt hne, State.rv_detect_shared_ne _ _ _ _ hlt' hne', State.detect_comp,
      State.detect_dram]
    exact ⟨hcomp, hdram, hcount, hevent⟩

end

/-! ### The switch of logical cores (R242) -/

/-- A core that switches holds the scratchpad of the logical core that comes, and has parked that of the one that leaves. -/
theorem CoreSt.switch_spec {c : CoreSt} {i : Nat} {pad : Pad} (h : alGet c.parks i = some pad) :
    (c.switch i).loaded = some i ∧ (c.switch i).pad = pad ∧ ∀ j, c.loaded = some j → alGet (c.switch i).parks j = some c.pad := by
  unfold CoreSt.switch
  rw [h]
  refine ⟨rfl, rfl, fun j hj => ?_⟩
  dsimp only
  rw [hj]
  exact alGet_alSet_self _ _ _

section
variable {s : State} {p h i : Nat} {c : CoreSt}

/-- A logical core stands at the host that it is mapped to (R241). -/
theorem State.hostOf_of_lcoresAt (hi : i ∈ lcoresAt (s.comp.parts.getD p .empty).map h) : s.hostOf p i = some h := by
  obtain ⟨hlt, hmap⟩ := List.mem_filter.1 hi
  rw [List.mem_range] at hlt
  unfold State.hostOf
  cases hx : s.comp.parts[p]? with
  | none =>
    rw [List.getD_eq_getElem?_getD, hx] at hlt
    exact absurd hlt (Nat.not_lt_zero _)
  | some x =>
    have hget : s.comp.parts.getD p .empty = x := by rw [List.getD_eq_getElem?_getD, hx, Option.getD_some]
    rw [hget] at hlt hmap
    rw [Option.bind_some, List.getElem?_eq_getElem hlt]
    simpa [List.getD, hlt] using hmap

/-- The partition of a core is one of the image. -/
theorem State.part_of_partOfCore (hp : s.partOfCore h = some p) : (s.part p).isSome = true := by
  unfold State.partOfCore at hp
  unfold State.part
  cases hi : s.ward.image with
  | none => simp [hi] at hp
  | some im =>
    rw [hi, Option.bind_some, Option.map_eq_some_iff] at hp
    obtain ⟨e, he, rfl⟩ := hp
    simp only [Option.bind_some, List.find?_isSome]
    exact ⟨e, List.mem_of_find?_eq_some he, by simp⟩

theorem State.mem_coresOf (hp : s.partOfCore h = some p) (hi : i ∈ lcoresAt (s.comp.parts.getD p .empty).map h) :
    h ∈ s.coresOf p i := by
  obtain ⟨e, he⟩ := Option.isSome_iff_exists.1 (State.part_of_partOfCore hp)
  unfold State.coresOf
  rw [State.hostOf_of_lcoresAt hi, he]
  dsimp only
  split <;> simp

/-- The host, or the pair, of a logical core switched to it. -/
def State.switchCores (s : State) (p i : Nat) : State := { s with comp := { s.comp with
  cores := (s.coresOf p i).foldl (fun l n => lmod l n fun c => c.switch i) s.comp.cores } }

theorem State.switchCores_core (s : State) (p i m : Nat) : (s.switchCores p i).comp.cores[m]? =
    if m ∈ s.coresOf p i then s.comp.cores[m]?.map fun c => c.switch i else s.comp.cores[m]? :=
  foldl_lmod_getElem? _ (s.coresOf_nodup p i) _ m

theorem State.parkSwitch_eq (hp : s.partOfCore h = some p) (hc : s.comp.cores[h]? = some c)
    (hleave : ∀ j y, c.loaded = some j → s.tgt p j = some y → y.cmdOpen = false ∨ (y.waits p).isSome = true)
    (hready : ((lcoresAt (s.comp.parts.getD p .empty).map h).filter fun k => some k != c.loaded && s.parkReady p k).head? = some i) :
    s.parkSwitch h i = s.switchCores p i := by
  unfold State.parkSwitch
  rw [hp, hc]
  dsimp only
  rw [hready, if_pos]
  · rfl
  · rw [Bool.and_eq_true]
    refine ⟨?_, by simp⟩
    split
    · next y hy =>
      obtain ⟨j, hj, hy⟩ := Option.bind_eq_some_iff.1 hy
      simpa using hleave j y hj hy
    · rfl

end

end Sys2Proof.Machine
end

section
open Sys2Proof Sys2Proof.Machine Sys2Proof.Safety

/-- Settles O24: a reset has the two branches of `resetQueue`, a re-map leaves what `remap_spec` says, and a switch is `switchCores`,
among whose cores the host is. -/
theorem queueResetAndRemap : Obligations.QueueResetAndRemap := by
  unfold Obligations.QueueResetAndRemap
  refine ⟨fun s p hadm => ⟨fun b hb hport => ⟨fun hidle => ?idle, fun j hj hq => ?running⟩, fun hforeign => ?foreign⟩,
    fun s p i e x hi he hx hdue hjob => ?remap, fun s h i p c pad hp hc hpad hleave hready => ?switch⟩
  case idle =>
    obtain ⟨l, hl⟩ := State.resetQueue_idle hb hidle
    refine ⟨_, exec_queueReset_bound hadm hb hport, ?_, fun q hq => ?_, ?_, ?_⟩
    · rw [queue_commitJob, hl, State.queue_modQueue_self]
    · rw [queue_commitJob, hl, State.queue_modQueue_ne _ _ hq]
      rfl
    · rw [commitJob_comp, hl]
      rfl
    · rw [commitJob_dram, hl]
      rfl
  case running =>
    obtain ⟨k, hk, hstop, hdram, hqueues⟩ := State.resetQueue_running hb hj hq
    refine ⟨_, k, exec_queueReset_bound hadm hb hport, ?_, hk, hstop, hdram⟩
    rw [queue_commitJob, State.queue_of_queues hqueues, State.queue_modQueue_self]
  case foreign => exact ⟨_, exec_queueReset_foreign hadm hforeign, busErrorOn_busError s 0 3 0x700020 (by omega)⟩
  case remap =>
    obtain ⟨hcomp, hdram, hcount, hevent⟩ := State.remap_spec p.isLt hi he hx hdue hjob
    refine ⟨commitJob s (s.remap p), x.remap (s.mapping e) (s.grantOf i p), rfl, ?_, rfl, rfl, rfl, rfl, rfl, hjob, fun n hn => ?_,
      ?_, ?_, hdram⟩
    · rw [commitJob_comp, hcomp, State.remapTo_parts hx]
    · rw [commitJob_comp, hcomp, State.remapTo_ne hn]
    · rw [(commitJob_queueBlock (slotOf_qpKey p.isLt (by decide))).1, hcount]
    · rw [(commitJob_queueBlock (slotOf_qpKey p.isLt (by decide))).1, hevent]
  case switch =>
    have hswitch := State.parkSwitch_eq hp hc hleave hready
    have hmem : h.val ∈ s.coresOf p i := State.mem_coresOf hp (List.mem_of_mem_filter (List.mem_of_mem_head? hready))
    obtain ⟨hloaded, hpads, hparks⟩ := CoreSt.switch_spec hpad
    refine ⟨commitJob s (s.parkSwitch h i), c.switch i, rfl, ?_, hloaded, hpads, hparks, fun m hm => ?_, ?_⟩
    · rw [commitJob_comp, hswitch, State.switchCores_core, if_pos hmem, hc, Option.map_some]
    · rw [commitJob_comp, hswitch, State.switchCores_core, if_neg hm]
    · rw [hswitch]
      rfl

end

section
/-!
PROOFS. Links: their training and their rise; the reset of a port's own state; the clears of the bus error log (R354, R355, R358,
R373).
-/
namespace Sys2Proof.Machine
open Sys2Proof.Safety

/-! ### Links (R354, R355, R480) -/

section
variable {s : State} {p : Nat} {x : PortSt}

theorem State.modPort_eq (f : PortSt → PortSt) (hx : s.ports[p]? = some x) :
    s.modPort p f = { s with ports := s.ports.set p (f x) } := by
  rw [State.modPort, lmod_eq_set f hx]

theorem State.canTrain_eq (hx : s.ports[p]? = some x) : s.canTrain p = !x.perst := by
  rw [State.canTrain, hx]
  rfl

end

theorem linkUp_of_arrives {s : State} {p : Port} (h : arrives s p) : s.linkUp p = true := (Bool.and_eq_true_iff.1 h).2

theorem State.retrain_eq {s : State} {p v : Nat} (hv : tbit v 0 = true) (hup : s.linkUp p = true) :
    s.retrain p v = s.modPort p fun x => { x with training := true } := if_pos (by rw [hv, hup]; rfl)

theorem State.sendPending_frame (s : State) (p v : Nat) : ∃ r o, s.sendPending p v = s.withRO r o := by
  unfold State.sendPending
  split
  · exact withRO_trans (s.setReg_frame _ _) (State.sendVector_frame _ _ _)
  · exact s.withRO_self

section
variable {s : State} {p : Nat} {cfg : PciCfg}

/-- A link that PERST_N does not hold comes up; what is pending goes out as registers and messages. -/
theorem State.linkComes_frame (h : s.canTrain p = true) :
    ∃ r o, s.linkComes p cfg = (s.modPort p fun x => { x with up := true, cfg := cfg }).withRO r o := by
  unfold State.linkComes
  rw [if_neg (by simp [h])]
  dsimp only
  split
  · exact foldl_withRO _ (fun s v => s.sendPending_frame p v) _ _
  · exact State.withRO_self _

/-- Where messages are off or masked, nothing pending goes out. -/
theorem State.linkComes_masked (h : s.canTrain p = true) (hcfg : cfg.msixEnable = false ∨ cfg.msixMask = true) :
    s.linkComes p cfg = s.modPort p fun x => { x with up := true, cfg := cfg } := by
  have hoff : (cfg.msixEnable && !cfg.msixMask && !cfg.d3hot) = false := by
    obtain h | h := hcfg <;> simp [h]
  unfold State.linkComes
  rw [if_neg (by simp [h])]
  dsimp only
  rw [if_neg (by simp [hoff])]

theorem State.linkComes_held (h : s.canTrain p = false) : s.linkComes p cfg = s := if_pos (by rw [h]; rfl)

end

/-! ### The end of a training (R354) -/

/-- A block none of whose captures is picked stands. -/
theorem RegBlock.applyCaps_none {b : RegBlock} {pick : Nat → Bool} (h : (b.caps.any fun c => pick c.key) = false) :
    b.applyCaps pick = b := by
  have hnone : ∀ c ∈ b.caps, pick c.key = false := by simpa using h
  have hpicked : (b.caps.filter fun c => pick c.key) = [] := by simpa using hnone
  have hleft : (b.caps.filter fun c => !pick c.key) = b.caps := by simpa using hnone
  unfold RegBlock.applyCaps
  rw [hpicked, hleft]
  rfl

theorem State.latchDone_ports (t s : State) : (t.latchDone s).ports = t.ports := by
  obtain ⟨r, o, h⟩ := t.latchDone_frame s
  rw [h]
  rfl

/-- The events that latches raise leave a port's PCI registers below the MSI-X table alone. -/
theorem State.rv_latchDone_pci {p o : Nat} (t s : State) (h0 : 0x600000 ≤ o) (ho : o < 0x640000) :
    (t.latchDone s).rv (portKey p o) = t.rv (portKey p o) := by
  refine foldl_keeps (fun u : State => u.rv (portKey p o)) _ (fun u q => ?_) _ t
  split
  · rw [u.rv_raise_pci _ 1 ho]
    exact State.rv_setReg_ne _ _ _ _ fun e => by
      have := (portKey_inj (by omega) (by decide) e).2
      omega
  · rfl

/-- The port as the end of a training leaves it. -/
def PortSt.trained (x : PortSt) (width speed maxSpeed : Nat) : PortSt :=
  { x with width := width, speed := speed, maxSpeed := maxSpeed, training := false }

section
variable {s : State} {p : Port} {x : PortSt} {width speed : Nat}

/-- With no capture pending, the limit of the speed is the one in force. -/
theorem State.maxSpeed_unlatched (hcap : (s.regs.pci.caps.any fun c => c.key == portKey p 0x600008) = false) :
    (s.applyCaps 6 fun c => c == portKey p 0x600008).rv (portKey p 0x600008) = s.rv (portKey p 0x600008) := by
  have hslot : slotOf (portKey p 0x600008) = 6 := slotOf_portKey (by omega) (by decide)
  refine Regs.val_congr ?_
  rw [hslot, State.applyCaps, Regs.blk_setBlk_self]
  exact RegBlock.applyCaps_none (pick := fun c => c == portKey p 0x600008) hcap

theorem State.trained_held (hx : s.ports[p.val]? = some x) (hperst : x.perst = true) : s.trained p width speed = s := by
  unfold State.trained
  rw [State.canTrain_eq hx, hperst]
  rfl

/-- A training that ends at a width and a speed the port has sets them and is reported; captures that were pending are not. -/
theorem State.trained_spec (hx : s.ports[p.val]? = some x) (hperst : x.perst = false)
    (hw : width = 1 ∨ width = 2 ∨ width = 4 ∨ width = 8 ∨ width = 16) (hfull : width ≤ s.fullWidth p) (hlow : 1 ≤ speed)
    (hspeed : speed ≤ s.rv (portKey p 0x600008) % 8)
    (hcap : (s.regs.pci.caps.any fun c => c.key == portKey p 0x600008) = false) :
    (s.trained p width speed).ports[p.val]? = some (x.trained width speed (s.rv (portKey p 0x600008) % 8)) ∧
    tbit ((s.trained p width speed).rv (portKey p 0x600010)) 1 = true := by
  have hlist : [1, 2, 4, 8, 16].contains width = true := by simpa using hw
  unfold State.trained
  dsimp only
  rw [State.maxSpeed_unlatched hcap, State.canTrain_eq hx, hperst, if_pos (by simp [hw, hfull, hlow, hspeed])]
  constructor
  · rw [State.latchDone_ports, State.raise_ports]
    exact lmod_getElem?_self _ hx
  · rw [State.rv_latchDone_pci _ _ (by decide) (by decide), State.rv_raise_pci _ _ _ (by decide), State.rv_setReg_self,
      tbit_mod_word _ (by decide), tbit_or]
    exact Bool.or_true _

end

/-! ### The reset of a port's own state (R358, R428) -/

/-- A block without what a port's own registers hold. -/
def RegBlock.withoutPort (b : RegBlock) (p : Nat) : RegBlock :=
  { b with vals := b.vals.filter fun x => !portOwn p x.1, shadows := b.shadows.filter fun x => !portOwn p x.1 }

/-- The store with a port's own registers at their reset values, and without the port's pending bits. -/
def Regs.resetPort (r : Regs) (p : Nat) : Regs := (r.setBlk 6 (r.pci.withoutPort p)).forgetPort p

/-- The port after a reset of its own state. -/
def PortSt.afterReset (kind : PortResetKind) (x : PortSt) : PortSt := match kind with
  | .flr => { x with holding := [], maxSpeed := 5, cfg := {}, aer := 0 }
  | _ => { PortSt.reset with perst := heldAfter kind x }

theorem State.portReset_eq (s : State) (p : Nat) {kind : PortResetKind} (h : kind ≠ .perstEnd) :
    s.portReset p kind = { s with regs := s.regs.resetPort p, ports := lmod s.ports p (PortSt.afterReset kind) } := if_neg h

theorem PortSt.afterReset_spec (x : PortSt) {kind : PortResetKind} (h : kind ≠ .perstEnd) :
    (x.afterReset kind).holding = [] ∧ (kind ≠ .flr → (x.afterReset kind).up = false) ∧
    (kind = .flr → (x.afterReset kind).up = x.up) ∧ (x.afterReset kind).cfg = {} ∧ (x.afterReset kind).aer = 0 ∧
    (x.afterReset kind).perst = (kind == .perst || x.perst) := by
  cases kind with
  | flr => exact ⟨rfl, fun h => absurd rfl h, fun _ => rfl, rfl, rfl, rfl⟩
  | perstEnd => exact absurd rfl h
  | _ => exact ⟨rfl, fun _ => rfl, nofun, rfl, rfl, rfl⟩

/-- The pending bits of a port are taken from every block alike. -/
theorem Regs.blk_forgetPort (r : Regs) (p n : Nat) : (r.forgetPort p).blk n = (r.blk n).forgetPort p := by
  unfold Regs.blk
  split <;> rfl

/-- The registers of a port's own state stand in the PCI block. -/
theorem slotOf_portOwn {p k : Nat} (h : portOwn p k = true) : slotOf k = 6 := by
  unfold portOwn at h
  rw [Bool.or_eq_true] at h
  obtain h | h := h
  · simpa using (Bool.and_eq_true_iff.1 h).1
  · simp only [Bool.and_eq_true, decide_eq_true_eq] at h
    unfold slotOf keyOff
    rw [if_neg (by omega)]
    omega

section
variable (r : Regs) (p : Nat)

/-- The block of PCI loses the port's own registers; the others stand. -/
theorem Regs.blk_withoutPort (n : Nat) : (r.setBlk 6 (r.pci.withoutPort p)).blk n =
    if n = 6 then (r.blk n).withoutPort p else r.blk n := by
  rw [Regs.blk_setBlk]
  by_cases hn : n = 6
  · subst hn
    rfl
  · rw [if_neg hn, if_neg (by omega)]

/-- A reset of the port's own state drops the values in force and the shadows of its own registers, and no other. -/
theorem Regs.blk_resetPort (k : Nat) :
    alGet ((r.resetPort p).blk (slotOf k)).vals k = (if portOwn p k then none else alGet (r.blk (slotOf k)).vals k) ∧
    alGet ((r.resetPort p).blk (slotOf k)).shadows k = (if portOwn p k then none else alGet (r.blk (slotOf k)).shadows k) := by
  unfold Regs.resetPort
  rw [Regs.blk_forgetPort, Regs.blk_withoutPort]
  by_cases hslot : slotOf k = 6
  · rw [if_pos hslot]
    have hkeep : ∀ l : List (Nat × Word), alGet (l.filter fun x => !portOwn p x.1) k = if portOwn p k then none else alGet l k := by
      intro l
      rw [alGet_filter (fun k => !portOwn p k)]
      cases portOwn p k <;> rfl
    exact ⟨hkeep _, hkeep _⟩
  · have hother : portOwn p k = false := Bool.eq_false_iff.2 fun h => hslot (slotOf_portOwn h)
    rw [if_neg hslot, hother]
    exact ⟨rfl, rfl⟩

theorem Regs.resetPort_own {k : Nat} (h : portOwn p k = true) :
    (r.resetPort p).val k = resetOf k % 2 ^ 32 ∧ (r.resetPort p).shadow k = resetOf k % 2 ^ 32 := by
  obtain ⟨hval, hshadow⟩ := r.blk_resetPort p k
  rw [if_pos h] at hval hshadow
  rw [Regs.val, Regs.shadow, hval, hshadow]
  exact ⟨rfl, rfl⟩

theorem Regs.resetPort_other {k : Nat} (h : portOwn p k = false) :
    (r.resetPort p).val k = r.val k ∧ (r.resetPort p).shadow k = r.shadow k := by
  obtain ⟨hval, hshadow⟩ := r.blk_resetPort p k
  rw [if_neg (by simp [h])] at hval hshadow
  rw [Regs.val, Regs.shadow, hval, hshadow]
  exact ⟨rfl, rfl⟩

theorem Regs.resetPort_caps (n : Nat) : ((r.resetPort p).blk n).counters = (r.blk n).counters ∧
    ((r.resetPort p).blk n).caps = (r.blk n).caps.map fun c => { c with ports := c.ports.filter (· != p) } := by
  unfold Regs.resetPort
  rw [Regs.blk_forgetPort, Regs.blk_withoutPort]
  split <;> exact ⟨rfl, rfl⟩

end

section
variable {s : State} {p : Port} {x : PortSt} {kind : PortResetKind}

theorem exec_portReset_linked (h : linked s p) : exec (.portReset p kind) s = .next (s.portReset p kind) := by
  rw [exec_portReset, execPortReset, if_pos (by simp [h.2]), State.onLink_linked h]

/-- Without power only the level of PERST_N is kept. -/
theorem exec_portReset_unpowered (halive : s.alive = false) (hport : p.val < s.nPorts) :
    exec (.portReset p kind) s = .next (s.modPort p fun x => { x with perst := heldAfter kind x }) := by
  rw [exec_portReset, execPortReset, if_neg (by simp [halive, State.exists', hport])]

end

/-! ### The clears of the bus error log (R373) -/

/-- What registers set in a row leave alone. -/
theorem State.rv_setRegs_ne (s : State) (k k' : Nat) (l : List Nat) (h : ∀ i < l.length, k' ≠ k + 4 * i) :
    (s.setRegs k l).rv k' = s.rv k' := by
  induction l generalizing s k with
  | nil => rfl
  | cons v t ih =>
    rw [State.setRegs, ih _ _ fun i hi => ?_, State.rv_setReg_ne _ k _ _ (h 0 (Nat.succ_pos _))]
    have := h (i + 1) (Nat.succ_lt_succ hi)
    omega

/-- The offsets of the log. -/
def busErrorLogOffsets : List Nat := [0x600020, 0x600024, 0x600028, 0x60002C, 0x600030, 0x600034]

theorem mem_busErrorLogOffsets {o : Nat} : o ∈ busErrorLogOffsets ↔ ∃ i < 6, o = 0x600020 + 4 * i := by
  constructor
  · intro h
    simp only [busErrorLogOffsets, List.mem_cons, List.not_mem_nil, or_false] at h
    exact ⟨(o - 0x600020) / 4, by omega, by omega⟩
  · rintro ⟨i, hi, rfl⟩
    interval_cases i <;> decide

section
variable (s : State) {p : Nat}

/-- The registers of the log stand in a row. -/
theorem State.buserrLogClear_eq : s.buserrLogClear p = s.setRegs (portKey p 0x600020) (List.replicate 6 0) := by
  simp [State.buserrLogClear, List.replicate, State.setRegs, portKey_add]

theorem State.rv_buserrLogClear_log {o : Nat} (h : o ∈ busErrorLogOffsets) : (s.buserrLogClear p).rv (portKey p o) = 0 := by
  obtain ⟨i, hi, rfl⟩ := mem_busErrorLogOffsets.1 h
  rw [State.buserrLogClear_eq, ← portKey_add]
  exact s.rv_setRegs_zeros _ hi

theorem State.rv_buserrLogClear_ne {k : Nat} (h : ∀ o ∈ busErrorLogOffsets, k ≠ portKey p o) :
    (s.buserrLogClear p).rv k = s.rv k := by
  rw [State.buserrLogClear_eq]
  refine s.rv_setRegs_ne _ k _ fun i hi => ?_
  rw [portKey_add]
  exact h _ (mem_busErrorLogOffsets.2 ⟨i, by simpa using hi, rfl⟩)

theorem OwnPci.buserrLogClear (hp : p < 15) : OwnPci p s (s.buserrLogClear p) := by
  rw [State.buserrLogClear_eq]
  exact .setRegs _ _ hp (by decide) (by decide)

end

/-- The registers of a state after an operation on a port's own PCI registers, in the state before. -/
theorem OwnPci.regs_frame {p : Nat} {s t : State} (h : OwnPci p s t) : ({ s with regs := t.regs } : State) =
    { s with regs := { s.regs with pci := { s.regs.pci with vals := t.regs.pci.vals } } } := by
  obtain ⟨⟨v, o, rfl⟩, -⟩ := h
  rfl

theorem State.rv_withRegs (s t : State) (k : Nat) : ({ s with regs := t.regs } : State).rv k = t.rv k := rfl

section
variable {s : State} {p : Port}

theorem exec_buserrLogClear_admits (h : admits s p 0x60003C) :
    exec (.buserrLogClear p) s = .next { s with regs := (s.buserrLogClear p).regs } := by
  rw [exec_buserrLogClear, execBuserrLogClear, State.gate_admits h]

theorem exec_buserrCountClear_admits (h : admits s p 0x60003C) :
    exec (.buserrCountClear p) s = .next { s with regs := (s.setReg (portKey p 0x600038) 0).regs } := by
  rw [exec_buserrCountClear, execBuserrCountClear, State.gate_admits h, State.buserrCountClear]

end

end Sys2Proof.Machine
end

section
open Sys2Proof Sys2Proof.Machine Sys2Proof.Safety

/-- Settles O19: each event of a link has the one effect that its own lemma states, and a reset of the port's state is `resetPort` on the
registers and `afterReset` on the port. -/
theorem linksAndPortResets : Obligations.LinksAndPortResets := by
  unfold Obligations.LinksAndPortResets
  refine fun s p x hx => ⟨fun v hadm hv => ?retrain, fun cfg hlinked => ⟨fun hperst => ?heldUp, fun hperst => ?up⟩,
    fun width speed hlinked hw hfull hlow hspeed hcap => ⟨fun hperst => ?heldTraining, fun hperst => ?trained⟩,
    fun kind hlinked hkind => ?reset, fun hlinked => ?free, fun kind halive hport => ?unpowered, fun hadm => ?log, fun hadm => ?count⟩
  case retrain =>
    rw [exec_retrain, execRetrain, State.gate_admits hadm, State.retrain_eq hv (linkUp_of_arrives hadm.1), State.modPort_eq _ hx]
  case heldUp =>
    rw [exec_linkUp, execLinkUp, State.onLink_linked hlinked,
      State.linkComes_held ((State.canTrain_eq hx).trans (by rw [hperst]; rfl))]
    rfl
  case up =>
    have htrain : s.canTrain p = true := (State.canTrain_eq hx).trans (by rw [hperst]; rfl)
    refine ⟨commitBus s (s.linkComes p cfg), ?_, ?_, rfl, fun hcfg => ?_⟩
    · rw [exec_linkUp, execLinkUp, State.onLink_linked hlinked]
    · obtain ⟨r, o, h⟩ := State.linkComes_frame (cfg := cfg) htrain
      rw [commitBus, h]
      exact lmod_eq_set _ hx
    · rw [State.linkComes_masked htrain hcfg]
      exact ⟨rfl, rfl⟩
  case heldTraining =>
    rw [exec_linkTrainingComplete, execLinkTrainingComplete, State.onLink_linked hlinked, State.trained_held hx hperst]
  case trained =>
    obtain ⟨hport, hevent⟩ := State.trained_spec hx hperst hw hfull hlow hspeed hcap
    rw [exec_linkTrainingComplete, execLinkTrainingComplete, State.onLink_linked hlinked]
    refine ⟨_, _, rfl, hport, rfl, rfl, rfl, rfl, ?_⟩
    rw [← hevent]
    refine congrArg (tbit · 1) (Regs.val_congr ?_)
    rw [slotOf_portKey (by omega) (by decide)]
    rfl
  case reset =>
    rw [exec_portReset_linked hlinked, State.portReset_eq s p hkind]
    refine ⟨_, rfl, fun q hq => ?_, fun y hy => ?_, fun k hk => s.regs.resetPort_own p hk, fun k hk => s.regs.resetPort_other p hk,
      fun b _ => s.regs.resetPort_caps p b, rfl⟩
    · exact (lmod_getElem? s.ports p q _).trans (if_neg hq)
    · have hafter : (lmod s.ports p (PortSt.afterReset kind))[p.val]? = some (x.afterReset kind) := lmod_getElem?_self _ hx
      cases hafter.symm.trans hy
      exact x.afterReset_spec hkind
  case free => rw [exec_portReset_linked hlinked, State.portReset, if_pos rfl, State.modPort_eq _ hx]
  case unpowered => rw [exec_portReset_unpowered halive hport, State.modPort_eq _ hx]
  case log =>
    refine ⟨_, exec_buserrLogClear_admits hadm, fun o ho => ?_, fun k hk => ?_, (OwnPci.buserrLogClear s (by omega)).regs_frame⟩
    · rw [State.rv_withRegs]
      exact s.rv_buserrLogClear_log ho
    · rw [State.rv_withRegs]
      exact s.rv_buserrLogClear_ne hk
  case count =>
    refine ⟨_, exec_buserrCountClear_admits hadm, ?_, fun k hk => ?_, (OwnPci.setReg s 0 (by omega) rfl).regs_frame⟩
    · rw [State.rv_withRegs]
      exact s.rv_setReg_self _ 0
    · rw [State.rv_withRegs]
      exact s.rv_setReg_ne _ k 0 hk

end

section
/-!
PROOFS. What the ingest commands commit, and batches, depot reads and decoder reads in states that the statements of the family do
not set apart: a DRAM tower that leaves service at a read (R150, R398), and a monitor whose number no register has (R376).
-/
namespace Sys2Proof.Machine
open Sys2Proof.Safety

/-! ### What the commands of the ingest blocks commit -/

@[simp] theorem commitIng_ing (s t : State) : (commitIng s t).ing = t.ing := rfl

@[simp] theorem commitIng_comp (s t : State) : (commitIng s t).comp = t.comp := rfl

@[simp] theorem commitIng_mons (s t : State) : (commitIng s t).safe.mons = t.safe.mons := rfl

/-! ### A DRAM tower one uncorrected error from its limit (R398) -/

/-- An image of one partition with 1 MiB of DRAM, and a queue of port 0 that is bound to it. -/
def imageOfOnePart (profile : Nat) : Image :=
  { profile := profile, advance := false, version := 0, secver := 0, signer := 0, imageId := [],
    parts := [⟨0, 0, 0, 0, 0, 0, 1, 0, 0⟩], scratch := [], binds := [⟨0, 0, 0, 0, 0⟩], routes := [], safety := none,
    ages := [], chans := [], policy := [], capInit := 0, depot := none, digest := [] }

/-- Every domain is on, the partition has its DRAM, and tower 0 has met 15 uncorrected errors within this second. -/
def towerAtLimit (profile : Nat) : State := { State.reset with
  ward := { WardSt.reset with image := some (imageOfOnePart profile) }
  pwr := { PwrSt.reset with doms := List.replicate 29 ⟨.on, false, 0, 0, 0, 0⟩ }
  comp := { ComputeSt.reset 0 with parts := [{ PartSt.empty with granted := true }] }
  safe := { SafeSt.reset with errors := List.replicate 15 (300, 0) } }

/-- A read of DRAM that meets an uncorrected error at its first byte. -/
def replyWithError : HostReply := { dramUe := [0] }

/-- A decoder stream of partition 0 with one descriptor to read, at the start of the partition's DRAM. -/
def descriptorAtLimit : State :=
  ((towerAtLimit 1).setReg (vdecKey 0 0) 0x81000001).setReg (vdecKey 0 0x10) 1

/-- The read of the descriptor takes the tower out of service, and the partition's DRAM is lost. -/
theorem comp_accessUnit_atLimit :
    (descriptorAtLimit.accessUnit 0 replyWithError {} {}).comp ≠ descriptorAtLimit.comp := by
  decide +kernel

/-- A depot ring with a free buffer and one request, at the start of the partition's DRAM, and a picture in the cache. -/
def requestAtLimit : State :=
  let s := (((towerAtLimit 2).setReg (ringKey 0 0) 0xC0000000).setReg (depKey 0 8) 0x10001).setReg (depKey 0 0xC) 1
  { s with ing := { s.ing with
    rings := [{ RingSt.reset with bufs := [.free] }], cache := [(1, ⟨⟨16, 16, 0, 8, []⟩, 0, 0, 1, false⟩)] } }

/-- The read of the request takes the tower out of service, and the cache is emptied. -/
theorem cache_depBuild_atLimit : (requestAtLimit.depBuild 0 replyWithError).ing.cache ≠ requestAtLimit.ing.cache := by
  decide +kernel

/-! ### A monitor whose binding would stand among the pending bits of a port (R365, R376) -/

/-- The number whose binding word would be the pending-bit word of port 0; the monitors of the block are 256. -/
def monOfPending : Nat := (pbaKey 0 0 - 0x220000) / 16

/-- A closed batch of ring 0 waits, its event is enabled, port 0 masks its function, and a monitor of that number is kept, with ring 0
as its binding. -/
def batchUnderPending : State :=
  let s := ((towerAtLimit 1).setReg (ringKey 0 0x2C) 1).setReg (pbaKey 0 0) 0x80000000
  { s with
    ports := [{ PortSt.reset with cfg := { msixEnable := true, msixMask := true } }]
    ing := { s.ing with rings := [{ RingSt.reset with bufs := [.filling], wins := [⟨0, some 0, false, [], true, [], 1⟩] }] }
    safe := { s.safe with mons := [(monOfPending, ⟨5, 0, [], false, false, 0⟩)] } }

/-- The event of the batch sets its pending bit in that word, so that the monitor is no longer one of ring 0 as the batch is
delivered, and keeps its timestamp. -/
theorem mons_batchComplete_underPending :
    alGet (batchUnderPending.batchComplete 0).safe.mons monOfPending = some ⟨5, 0, [], false, false, 0⟩ := by
  decide +kernel

end Sys2Proof.Machine
end

section
open Sys2Proof Sys2Proof.Machine Sys2Proof.Safety

/-- Refutes O50: its frame says that the partitions' jobs and cores stand, but the read of a descriptor that meets the sixteenth
uncorrected error of a DRAM tower within a second takes the tower out of service (R398), so that every partition's DRAM is lost (R150). -/
theorem not_decoderStreams : ¬ Obligations.DecoderStreams := by
  unfold Obligations.DecoderStreams
  intro h
  obtain ⟨-, -, -, -, -, hframe⟩ := h descriptorAtLimit 0 0 .reset rfl
  obtain ⟨-, -, -, hcomp, -⟩ := hframe (.accessUnit 0 replyWithError {} {}) _ (.inl ⟨_, _, _, rfl⟩) rfl
  exact comp_accessUnit_atLimit hcomp

/-- Refutes O49: its frame says that the cache stands, but the read of a request that meets the sixteenth uncorrected error of a DRAM
tower within a second takes the tower out of service (R398), which empties the cache (R275). -/
theorem not_depotBatches : ¬ Obligations.DepotBatches := by
  unfold Obligations.DepotBatches
  intro h
  obtain ⟨-, -, -, hframe⟩ := h requestAtLimit 0 0 _ rfl
  obtain ⟨-, -, -, -, hcache⟩ := hframe (.depotBatchBuild 0 replyWithError) _ (.inl ⟨_, rfl⟩) rfl
  exact cache_depBuild_atLimit hcache

/-- Refutes O48: its clause on delivery speaks of every number of a monitor, also of one whose binding word would be the pending-bit word
of a port (the block has 256 monitors, so that no run comes to it). The event of the batch sets its pending bit there before the batch
is delivered, so that the monitor is no longer bound to the ring. -/
theorem not_samplesAndBatches : ¬ Obligations.SamplesAndBatches := by
  unfold Obligations.SamplesAndBatches
  intro h
  obtain ⟨-, -, -, -, hbatch, -⟩ := h batchUnderPending 0 _ rfl
  obtain ⟨u, hu, -, -, -, -, -, hmon⟩ := hbatch _ 0 0 (2 ^ 20) rfl rfl rfl (by decide +kernel)
  obtain rfl : _ = u := by injection (exec_batchComplete 0 batchUnderPending).symm.trans hu
  have hts := hmon monOfPending ⟨5, 0, [], false, false, 0⟩ (by decide) (by decide +kernel) (by decide +kernel)
  rw [commitIng_mons] at hts
  have hkept := mons_batchComplete_underPending.symm.trans hts
  exact absurd hkept (by decide +kernel)

end

section
/-!
PROOFS. What the sources of samples leave of the state: the work on rings, windows and samples, the frames of the sources (R249, R266 to
R270).
-/
namespace Sys2Proof.Machine
open Sys2Proof.Safety

/-! ### Registers and counters -/

/-- A counter increased leaves every other one alone. -/
theorem State.ctr_bump_ne (s : State) (n : Nat) {k k' : Nat} (h : k' ≠ k) : (s.bump k n).ctr k' = s.ctr k' := by
  simp only [State.ctr, State.bump, Regs.blk_setBlk]
  by_cases e : min (slotOf k) 15 = min (slotOf k') 15
  · simp only [if_pos e, alGet_alPut_ne _ _ _ _ _ h, Regs.blk_min _ _ _ e]
  · simp only [if_neg e]

/-- A register of the ING block is committed. -/
theorem rv_commitIng (s t : State) {k : Nat} (h : slotOf k = 8) : (commitIng s t).rv k = t.rv k := by
  refine Regs.val_congr ?_
  rw [h]
  rfl

/-- A counter of the ING block is committed. -/
theorem ctr_commitIng (s t : State) {k : Nat} (h : slotOf k = 8) : (commitIng s t).ctr k = t.ctr k := by
  unfold State.ctr
  rw [h]
  rfl

theorem slotOf_camKey (n : Fin 16) {o : Nat} (ho : o < 0x1000) : slotOf (camKey n o) = 8 := by
  unfold camKey
  rw [slotOf_of_lt (by omega)]
  omega

theorem slotOf_scatKey (e : Fin 4) {o : Nat} (ho : o < 0x1000) : slotOf (scatKey e o) = 8 := by
  unfold scatKey
  rw [slotOf_of_lt (by omega)]
  omega

/-! ### Captures that apply (R366, R367) -/

/-- Captures that take effect leave the value of a register that they do not name. -/
theorem RegBlock.alGet_applyCaps_ne (b : RegBlock) {pick : Nat → Bool} {k : Nat} (h : pick k = false) :
    alGet (b.applyCaps pick).vals k = alGet b.vals k := by
  have hfold : ∀ (l : List Capture) (v : List (Nat × Word)), (∀ c ∈ l, k ≠ c.key) →
      alGet (l.foldl (fun v c => alPut (toWord (resetOf c.key)) v c.key (b.applied c)) v) k = alGet v k := by
    intro l
    induction l with
    | nil => exact fun _ _ => rfl
    | cons c l ih =>
      intro v hl
      rw [List.foldl_cons, ih _ fun d hd => hl d (List.mem_cons_of_mem c hd),
        alGet_alPut_ne _ _ _ _ _ (hl c List.mem_cons_self)]
  refine hfold _ _ fun c hc hk => ?_
  have := (List.mem_filter.1 hc).2
  rw [← hk, h] at this
  cases this

theorem State.rv_applyCaps_ne (s : State) (slot : Nat) {pick : Nat → Bool} {k : Nat} (h : pick k = false) :
    (s.applyCaps slot pick).rv k = s.rv k := by
  simp only [State.rv, State.applyCaps, Regs.val, Regs.blk_setBlk]
  by_cases e : min slot 15 = min (slotOf k) 15
  · simp only [if_pos e, RegBlock.alGet_applyCaps_ne _ h, Regs.blk_min _ _ _ e]
  · simp only [if_neg e]

theorem State.ctr_applyCaps (s : State) (slot : Nat) (pick : Nat → Bool) (k : Nat) :
    (s.applyCaps slot pick).ctr k = s.ctr k := by
  simp only [State.ctr, State.applyCaps, Regs.blk_setBlk]
  by_cases e : min slot 15 = min (slotOf k) 15
  · simp only [if_pos e, RegBlock.applyCaps, Regs.blk_min _ _ _ e]
  · simp only [if_neg e]

/-- Where no capture of a block is picked, none applies. -/
theorem State.applyReady_none {s : State} {slot : Nat} {pick : Capture → Bool} (after : State → State)
    (h : ∀ c ∈ (s.regs.blk slot).caps, pick c = false) : s.applyReady slot pick after = s := by
  have hnone : (s.regs.blk slot).caps.filter pick = [] := List.filter_eq_nil_iff.2 fun c hc => by simp [h c hc]
  unfold State.applyReady
  rw [hnone]
  rfl

/-! ### What the sources of samples can change -/

/-- The state with other registers, outputs, a further free value and other ingest blocks. -/
def State.withIng (s : State) (r : Regs) (o : List Out) (n : Nat) (i : IngSt) : State :=
  { s with regs := r, out := o, fresh := n, ing := i }

/-- The state with other rings. -/
def State.withRings (s : State) (l : List RingSt) : State := { s with ing := { s.ing with rings := l } }

/-- Of the ingest blocks the work on samples changes the rings alone; of the registers below those of the alignment streams it leaves
the counters, and the values but those of the group of the streams and rings, whose captures apply as a buffer is taken (R250, R368). -/
structure SampleWork (s u : State) : Prop where
  frame : ∃ r o n l, u = s.withIng r o n { s.ing with rings := l }
  ctr : ∀ k < 0x850000, u.ctr k = s.ctr k
  rv : ∀ k < 0x850000, groupOf k ≠ 5 → u.rv k = s.rv k

namespace SampleWork

variable {s t u : State}

theorem refl (s : State) : SampleWork s s := ⟨⟨s.regs, s.out, s.fresh, s.ing.rings, rfl⟩, fun _ _ => rfl, fun _ _ _ => rfl⟩

theorem trans (h : SampleWork s t) (h' : SampleWork t u) : SampleWork s u := by
  obtain ⟨⟨r, o, n, l, rfl⟩, hctr, hrv⟩ := h
  obtain ⟨⟨r', o', n', l', rfl⟩, hctr', hrv'⟩ := h'
  exact ⟨⟨r', o', n', l', rfl⟩, fun k hk => (hctr' k hk).trans (hctr k hk),
    fun k hk hg => (hrv' k hk hg).trans (hrv k hk hg)⟩

theorem withRings (s : State) (l : List RingSt) : SampleWork s (s.withRings l) :=
  ⟨⟨s.regs, s.out, s.fresh, l, rfl⟩, fun _ _ => rfl, fun _ _ _ => rfl⟩

theorem modRing (s : State) (p : Nat) (f : RingSt → RingSt) : SampleWork s (s.modRing p f) := withRings s _

theorem setBuf (s : State) (p b : Nat) (x : BufSt) : SampleWork s (s.setBuf p b x) := modRing s p _

theorem draw (s : State) : SampleWork s s.draw.2 :=
  ⟨⟨s.regs, s.out, s.fresh + 1, s.ing.rings, rfl⟩, fun _ _ => rfl, fun _ _ _ => rfl⟩

theorem bump (s : State) {k : Nat} (n : Nat) (h : 0x850000 ≤ k) : SampleWork s (s.bump k n) :=
  ⟨⟨_, s.out, s.fresh, s.ing.rings, rfl⟩, fun k' hk' => s.ctr_bump_ne n (by omega), fun k' _ _ => s.rv_bump k n k'⟩

theorem raise (s : State) {k : Nat} (bits : Nat) (h : 0x850000 ≤ k) : SampleWork s (s.raise k bits) := by
  refine ⟨?_, fun k' _ => s.ctr_raise k bits k', fun k' hk' _ => s.rv_raise_shared_ne bits (by omega) (by omega)⟩
  obtain ⟨r, o, e⟩ := s.raise_frame k bits
  exact ⟨r, o, s.fresh, s.ing.rings, e⟩

theorem foldl {α : Type} {f : State → α → State} (h : ∀ s x, SampleWork s (f s x)) (l : List α) (s : State) :
    SampleWork s (l.foldl f s) := by
  induction l generalizing s with
  | nil => exact refl s
  | cons x l ih => exact (h s x).trans (ih _)

/-- LATCH_DONE stands among the registers of a port. -/
theorem latchDone (t s : State) : SampleWork t (t.latchDone s) := by
  unfold State.latchDone
  refine foldl (fun t p => ?_) _ t
  split
  · exact raise t 1 (by unfold portKey; omega)
  · exact refl t

/-- Captures of the group of the streams and rings apply. -/
theorem applyReady (s : State) {pick : Capture → Bool} {after : State → State} (hpick : ∀ c, pick c = true → groupOf c.key = 5)
    (hafter : ∀ t, SampleWork t (after t)) : SampleWork s (s.applyReady 8 pick after) := by
  unfold State.applyReady
  extract_lets ks
  split
  · exact refl s
  · refine .trans ?_ ((hafter _).trans (latchDone _ s))
    refine ⟨⟨_, s.out, s.fresh, s.ing.rings, rfl⟩, fun k _ => s.ctr_applyCaps 8 _ k, fun k _ hk => s.rv_applyCaps_ne 8 ?_⟩
    by_contra hks
    obtain ⟨c, hc, rfl⟩ : ∃ c ∈ (s.regs.blk 8).caps.filter pick, c.key = k := by
      simpa [ks, and_assoc] using hks
    exact hk (hpick c (List.mem_filter.1 hc).2)

end SampleWork

/-! ### Rings and buffers (R269, R270) -/

theorem State.refreshRings_work (s : State) : SampleWork s s.refreshRings := by
  refine .foldl (fun s p => ?_) _ s
  split
  · exact .modRing s p _
  · exact .refl s

theorem State.lowCheck_work (s : State) (p before : Nat) : SampleWork s (s.lowCheck p before) := by
  unfold State.lowCheck State.ringEvent
  dsimp only
  split
  · exact .raise s _ (by unfold ringKey; omega)
  · exact .refl s

theorem State.takeBuf_work (s : State) (p : Nat) : SampleWork s (s.takeBuf p).2 := by
  have hcounted : ∀ (t : State) (o : Nat), SampleWork t ((t.bump (ringKey p o) 1).ringEvent p 2) := fun t o =>
    (SampleWork.bump t 1 (by unfold ringKey; omega)).trans (.raise _ _ (by unfold ringKey; omega))
  unfold State.takeBuf
  dsimp only
  split
  · exact ((SampleWork.draw s).trans (.setBuf _ p _ _)).trans (State.lowCheck_work _ p _)
  · split
    · exact (SampleWork.setBuf s p _ _).trans (hcounted _ _)
    · exact hcounted s _

theorem State.ringApply_work (s : State) (p : Nat) (wasEn : Bool) : SampleWork s (s.ringApply p wasEn) := by
  unfold State.ringApply
  extract_lets n keep fresh s1
  have hs1 : SampleWork s s1 := by
    unfold s1
    split
    · exact (SampleWork.modRing s p _).trans (State.lowCheck_work _ p _)
    · exact .modRing s p _
  split
  · exact .modRing s p _
  · exact hs1.trans (.modRing s1 p _)

theorem State.ringBoundary_work (s : State) (p : Nat) : SampleWork s (s.ringBoundary p) :=
  .applyReady s (fun c hc => by simp only [State.ringGroup, Bool.and_eq_true, beq_iff_eq] at hc; exact hc.1)
    fun t => (t.ringApply_work p _).trans (State.refreshRings_work _)

theorem State.openWindow_work (s : State) (p k : Nat) : SampleWork s (s.openWindow p k) :=
  (s.takeBuf_work p).trans (.modRing _ p _)

/-! ### Samples (R249, R266 to R269) -/

theorem State.surplus_work (s : State) (st : Nat) : SampleWork s (s.surplus st) := .bump s 1 (by unfold asKey; omega)

theorem State.addSample_work (s : State) (p k : Nat) (x : SampleSt) : SampleWork s (s.addSample p k x) := by
  unfold State.addSample
  split
  · split
    · exact s.surplus_work _
    · exact .modRing s p _
  · exact .refl s

theorem State.putSample_work (s : State) (p k : Nat) (x : SampleSt) : SampleWork s (s.putSample p k x) := by
  unfold State.putSample
  split
  · exact .bump s 1 (by unfold asKey; omega)
  · refine .trans ?_ (State.addSample_work _ p k x)
    split
    · exact .refl s
    · exact s.openWindow_work p k

theorem State.placeSample_work (s : State) (p k : Nat) (x : SampleSt) : SampleWork s (s.placeSample p k x) := by
  unfold State.placeSample
  extract_lets r s1
  have hs1 : SampleWork s s1 := s.ringBoundary_work p
  split
  · exact s.putSample_work p k x
  · split
    · exact .modRing s p _
    · split
      · exact hs1
      · split
        · exact hs1.trans (s1.surplus_work _)
        · exact hs1.trans (s1.putSample_work p _ x)

/-- A sample of a stream has taken its number (R249). -/
def State.numbered (s : State) (st : Nat) : State :=
  s.modStream st fun x => { x with nextSeq := (x.nextSeq + 1) % 2 ^ 32, cut := false }

section
variable {s : State} {st : Nat} (ts id status : Nat) (data : SampleData) (closed : Bool)

/-- A stream without a ring takes no sample. -/
theorem State.startSample_unrouted (h : s.ringOf st = none) : s.startSample st ts id status data closed = s := by
  unfold State.startSample
  rw [h]

/-- A sample that starts has its number, and its place in the ring. -/
theorem State.startSample_routed {p : Nat} (h : s.ringOf st = some p) :
    SampleWork (s.numbered st) (s.startSample st ts id status data closed) := by
  unfold State.startSample
  rw [h]
  dsimp only
  split
  · exact .refl _
  · split
    · exact State.surplus_work _ st
    · split
      · exact State.surplus_work _ st
      · exact State.placeSample_work _ p _ _

end

/-- A change of what a source sends changes the rings alone. -/
theorem State.modSending_frame (s : State) (st : Nat) (f : SampleSt → SampleSt) : ∃ l, s.modSending st f = s.withRings l := by
  unfold State.modSending
  split
  · exact ⟨_, rfl⟩
  · exact ⟨s.ing.rings, rfl⟩

theorem State.closeSample_frame (s : State) (st status : Nat) (data : SampleData) :
    ∃ l, s.closeSample st status data = s.withRings l := s.modSending_frame st _

theorem State.modSending_work (s : State) (st : Nat) (f : SampleSt → SampleSt) : SampleWork s (s.modSending st f) := by
  obtain ⟨l, h⟩ := s.modSending_frame st f
  exact h ▸ .withRings s l

theorem RingSt.modSamples_sent {r : RingSt} (f : SampleSt → SampleSt) :
    (((r.modSamples f).wins.filter fun w => !w.closed).flatMap (·.samples)) ++ (r.modSamples f).waiting =
      (((r.wins.filter fun w => !w.closed).flatMap (·.samples)) ++ r.waiting).map f := by
  have hwins : ((r.modSamples f).wins.filter fun w => !w.closed).flatMap (·.samples) =
      ((r.wins.filter fun w => !w.closed).flatMap (·.samples)).map f := by
    unfold RingSt.modSamples
    dsimp only
    induction r.wins with
    | nil => rfl
    | cons w l ih =>
      rw [List.map_cons]
      cases hw : w.closed with
      | true => simpa [hw] using ih
      | false => simp [hw, ih]
  rw [hwins, List.map_append]
  rfl

/-- The sample that a source sends, as a change that neither closes it nor gives it another stream leaves it. -/
theorem State.sending_modSending {s : State} {st : Nat} {y : SampleSt} {f : SampleSt → SampleSt} (h : s.sending st = some y)
    (hf : ∀ x, (f x).stream = x.stream ∧ (f x).closed = x.closed) : (s.modSending st f).sending st = some (f y) := by
  unfold State.sending at h
  obtain ⟨p, hp, hy⟩ := Option.bind_eq_some_iff.1 h
  have hring : (s.modSending st f).ring p =
      (s.ring p).modSamples fun x => if x.stream = st ∧ x.closed = false then f x else x := by
    have hlt : p < s.ing.rings.length := by
      by_contra hge
      rw [State.ring, List.getD_eq_default _ _ (by omega)] at hy
      cases hy
    unfold State.modSending
    rw [hp]
    exact lmod_getD _ _ _ _ hlt
  have hward : (s.modSending st f).ringOf st = some p := by
    obtain ⟨l, e⟩ := s.modSending_frame st f
    rw [e, ← hp]
    rfl
  unfold State.sending
  rw [hward]
  dsimp only [Option.bind]
  rw [hring, RingSt.modSamples_sent, List.find?_map]
  have hpred : ((fun x : SampleSt => x.stream == st && !x.closed) ∘
      fun x => if x.stream = st ∧ x.closed = false then f x else x) = fun x => x.stream == st && !x.closed := by
    funext x
    dsimp only [Function.comp]
    split
    · rw [(hf x).1, (hf x).2]
    · rfl
  rw [hpred]
  dsimp only at hy
  rw [hy]
  have hsent := List.find?_some hy
  simp only [Bool.and_eq_true, beq_iff_eq, Bool.not_eq_true'] at hsent
  rw [Option.map_some, if_pos hsent]

/-! ### What a source changes of the ingest blocks -/

/-- A source changes no camera port but some, no scatter engine but some, no decoder, no picture of the cache; beside the ingest blocks
it changes registers, outputs and free values. -/
structure SourceFrame (cams scats : List Nat) (s u : State) : Prop where
  frame : ∃ r o n i, u = s.withIng r o n i
  vdecs : u.ing.vdecs = s.ing.vdecs
  cache : u.ing.cache = s.ing.cache
  cams : ∀ m, m ∉ cams → u.ing.cams[m]? = s.ing.cams[m]?
  scats : ∀ m, m ∉ scats → u.ing.scats[m]? = s.ing.scats[m]?

namespace SourceFrame

variable {cams scats : List Nat} {s t u : State}

theorem of_work (h : SampleWork s u) : SourceFrame cams scats s u := by
  obtain ⟨r, o, n, l, rfl⟩ := h.frame
  exact ⟨⟨r, o, n, _, rfl⟩, rfl, rfl, fun _ _ => rfl, fun _ _ => rfl⟩

theorem refl (s : State) : SourceFrame cams scats s s := of_work (.refl s)

theorem trans (h : SourceFrame cams scats s t) (h' : SourceFrame cams scats t u) : SourceFrame cams scats s u := by
  obtain ⟨r, o, n, i, ht⟩ := h.frame
  obtain ⟨r', o', n', i', hu⟩ := h'.frame
  exact ⟨⟨r', o', n', i', by rw [hu, ht]; rfl⟩, h'.vdecs.trans h.vdecs, h'.cache.trans h.cache,
    fun m hm => (h'.cams m hm).trans (h.cams m hm), fun m hm => (h'.scats m hm).trans (h.scats m hm)⟩

theorem withRO (h : ∃ r o, u = s.withRO r o) : SourceFrame cams scats s u := by
  obtain ⟨r, o, rfl⟩ := h
  exact ⟨⟨r, o, s.fresh, s.ing, rfl⟩, rfl, rfl, fun _ _ => rfl, fun _ _ => rfl⟩

theorem raise (s : State) (k bits : Nat) : SourceFrame cams scats s (s.raise k bits) := withRO (s.raise_frame k bits)

theorem bump (s : State) (k n : Nat) : SourceFrame cams scats s (s.bump k n) := withRO ⟨_, s.out, rfl⟩

theorem setReg (s : State) (k v : Nat) : SourceFrame cams scats s (s.setReg k v) := withRO ⟨_, s.out, rfl⟩

theorem emit (s : State) (o : Out) : SourceFrame cams scats s (s.emit o) := withRO ⟨s.regs, _, rfl⟩

theorem numbered (s : State) (st : Nat) : SourceFrame cams scats s (s.numbered st) :=
  ⟨⟨s.regs, s.out, s.fresh, _, rfl⟩, rfl, rfl, fun _ _ => rfl, fun _ _ => rfl⟩

theorem startSample (s : State) (st ts id status : Nat) (data : SampleData) (closed : Bool) :
    SourceFrame cams scats s (s.startSample st ts id status data closed) := by
  cases h : s.ringOf st with
  | none => rw [State.startSample_unrouted _ _ _ _ _ h]; exact refl s
  | some p => exact (numbered s st).trans (of_work (State.startSample_routed _ _ _ _ _ h))

theorem closeSample (s : State) (st status : Nat) (data : SampleData) :
    SourceFrame cams scats s (s.closeSample st status data) := of_work (s.modSending_work st _)

theorem modCam (s : State) {n : Nat} (f : CamSt → CamSt) (h : n ∈ cams) : SourceFrame cams scats s (s.modCam n f) := by
  refine ⟨⟨s.regs, s.out, s.fresh, _, rfl⟩, rfl, rfl, fun m hm => ?_, fun _ _ => rfl⟩
  exact (lmod_getElem? s.ing.cams n m f).trans (if_neg (by rintro rfl; exact hm h))

theorem modScat (s : State) {e : Nat} (f : ScatSt → ScatSt) (h : e ∈ scats) : SourceFrame cams scats s (s.modScat e f) := by
  refine ⟨⟨s.regs, s.out, s.fresh, _, rfl⟩, rfl, rfl, fun _ _ => rfl, fun m hm => ?_⟩
  exact (lmod_getElem? s.ing.scats e m f).trans (if_neg (by rintro rfl; exact hm h))

theorem applyReady (s : State) (slot : Nat) (pick : Capture → Bool) {after : State → State}
    (hafter : ∀ t, SourceFrame cams scats t (after t)) : SourceFrame cams scats s (s.applyReady slot pick after) := by
  unfold State.applyReady
  extract_lets ks
  split
  · exact refl s
  · exact (withRO ⟨_, s.out, rfl⟩).trans ((hafter _).trans (withRO (State.latchDone_frame _ s)))

end SourceFrame

/-! ### What the commands of the ingest blocks commit -/

theorem onlyIngest_self (s : State) : onlyIngest s s := ⟨rfl, rfl, rfl⟩

theorem onlyIngest_commitIng (s t : State) : onlyIngest s (commitIng s t) := ⟨rfl, rfl, rfl⟩

theorem onlyIngest_busError {p : Nat} (s : State) (bar kind off : Nat) (hp : p < 15) :
    onlyIngest s (s.busError p bar kind off) := by
  obtain ⟨⟨v, o, h⟩, -⟩ := OwnPci.busError s bar kind off hp
  rw [h]
  exact ⟨rfl, rfl, rfl⟩

/-- What a command of a source leaves of the state. -/
structure SourceCommand (cams scats : List Nat) (s u : State) : Prop where
  only : onlyIngest s u
  dram : u.dram = s.dram
  comp : u.comp = s.comp
  vdecs : u.ing.vdecs = s.ing.vdecs
  cache : u.ing.cache = s.ing.cache
  cams : ∀ m, m ∉ cams → u.ing.cams[m]? = s.ing.cams[m]?
  scats : ∀ m, m ∉ scats → u.ing.scats[m]? = s.ing.scats[m]?

/-- The command of a source commits what the source has changed. -/
theorem SourceFrame.commit {cams scats : List Nat} {s t : State} (h : SourceFrame cams scats s t) :
    SourceCommand cams scats s (commitIng s t) := by
  obtain ⟨⟨r, o, n, i, rfl⟩, hvdecs, hcache, hcams, hscats⟩ := h
  exact ⟨onlyIngest_commitIng s _, rfl, rfl, hvdecs, hcache, hcams, hscats⟩

/-- A write of a port that a source takes, or refuses. -/
theorem SourceFrame.gate {cams scats : List Nat} {s u : State} {p : Port} {off : Nat} {may : Bool} {f : State → State}
    (h : SourceFrame cams scats s (f s)) (hu : s.gate p off may (fun s => commitIng s (f s)) = .next u) :
    SourceCommand cams scats s u := by
  rcases s.gate_cases p off may fun s => commitIng s (f s) with e | e | e <;> rw [e] at hu <;> cases hu
  · exact ⟨onlyIngest_self s, rfl, rfl, rfl, rfl, fun _ _ => rfl, fun _ _ => rfl⟩
  · exact h.commit
  · refine ⟨onlyIngest_busError s _ _ _ (by omega), State.busError_dram _ _ _ _ _, State.busError_comp _ _ _ _ _, ?_, ?_, ?_, ?_⟩ <;>
      simp only [State.busError_ing, implies_true]

end Sys2Proof.Machine

end

section
/-!
PROOFS. Single bits of a word, and fields under a mask.
-/
namespace Sys2Proof.Machine
open Sys2Proof.Safety

/-! ### Single bits of a word -/

/-- A bit put into a word changes no bit above or below it. -/
theorem putField_bit_div (v i y : Nat) : putField v i 1 y / 2 ^ i = 2 * (v / 2 ^ i / 2) + y % 2 := by
  have hpos := Nat.two_pow_pos i
  have hv : v = v % 2 ^ i + 2 ^ i * (v / 2 ^ i) := (Nat.mod_add_div v (2 ^ i)).symm
  unfold putField field
  rw [Nat.pow_one]
  generalize hq : v / 2 ^ i = q at hv ⊢
  have hput : v - q % 2 * 2 ^ i + y % 2 * 2 ^ i = v % 2 ^ i + 2 ^ i * (2 * (q / 2) + y % 2) := by
    have hsplit : 2 ^ i * q = 2 ^ i * (2 * (q / 2)) + q % 2 * 2 ^ i := by
      rw [Nat.mul_comm (q % 2), ← Nat.mul_add, Nat.div_add_mod]
    rw [Nat.mul_add, Nat.mul_comm (2 ^ i) (y % 2)]
    omega
  rw [hput, Nat.add_mul_div_left _ _ hpos, Nat.div_eq_of_lt (Nat.mod_lt _ hpos), Nat.zero_add]

theorem tbit_putField_self (v i : Nat) (b : Bool) : tbit (putField v i 1 (b2n b)) i = b := by
  rw [tbit, putField_bit_div, Nat.mul_add_mod]
  cases b <;> rfl

theorem tbit_putField_zero (v i : Nat) : tbit (putField v i 1 0) i = false := tbit_putField_self v i false

theorem tbit_putField_above (v y : Nat) {i j : Nat} (h : i < j) : tbit (putField v i 1 y) j = tbit v j := by
  obtain ⟨d, rfl⟩ : ∃ d, j = i + 1 + d := ⟨j - i - 1, by omega⟩
  unfold tbit
  rw [Nat.pow_add, Nat.pow_succ, ← Nat.div_div_eq_div_mul, ← Nat.div_div_eq_div_mul, putField_bit_div,
    ← Nat.div_div_eq_div_mul v, ← Nat.div_div_eq_div_mul]
  have : (2 * (v / 2 ^ i / 2) + y % 2) / 2 = v / 2 ^ i / 2 := by omega
  rw [this]

/-- A field that a mask keeps whole. -/
theorem field_and (v m lo w : Nat) (h : field m lo w = 2 ^ w - 1) : field (v &&& m) lo w = field v lo w := by
  unfold field at h ⊢
  refine Nat.eq_of_testBit_eq fun i => ?_
  have hm := congrArg (Nat.testBit · i) h
  simp only [Nat.testBit_mod_two_pow, Nat.testBit_div_two_pow, Nat.testBit_two_pow_sub_one, Nat.testBit_and] at hm ⊢
  by_cases hi : i < w
  · simp_all
  · simp [hi]

theorem field_mod_word (v : Nat) {lo w : Nat} (h : lo + w ≤ 32) : field (v % 2 ^ 32) lo w = field v lo w := by
  unfold field
  refine Nat.eq_of_testBit_eq fun i => ?_
  simp only [Nat.testBit_mod_two_pow, Nat.testBit_div_two_pow]
  by_cases hi : i < w
  · have : lo + i < 32 := by omega
    simp [hi, Nat.add_comm, this]
  · simp [hi]
end Sys2Proof.Machine

end

section
/-!
PROOFS. Camera ports: frames, lines, the link and the camera control interface (R251 to R254).
-/
namespace Sys2Proof.Machine
open Sys2Proof.Safety

section
variable {s : State} {n : Nat} {x : CamSt}

/-! ### Camera ports (R251 to R254) -/

theorem State.cam_eq (h : s.ing.cams[n]? = some x) : s.cam n = x := by
  rw [State.cam, List.getD_eq_getElem?_getD, h, Option.getD_some]

theorem State.modCam_eq (f : CamSt → CamSt) (h : s.ing.cams[n]? = some x) :
    s.modCam n f = { s with ing := { s.ing with cams := s.ing.cams.set n (f x) } } := by
  rw [State.modCam, lmod_eq_set f h]

theorem State.modCam_self (f : CamSt → CamSt) (h : s.ing.cams[n]? = some x) : (s.modCam n f).ing.cams[n]? = some (f x) :=
  lmod_getElem?_self f h

/-- Where no capture of the port and its pipe is pending, none applies as a frame starts. -/
theorem State.camBoundary_self (h : ∀ y ∈ s.regs.ing.caps, groupOf y.key ≠ 4) : s.camBoundary n = s := by
  unfold State.camBoundary
  dsimp only
  refine State.applyReady_none (slot := 8) _ fun c hc => ?_
  have hgroup : ∀ i, c.isOf 4 i = false := fun i => by
    rw [Capture.isOf, beq_eq_false_iff_ne.2 (h c hc), Bool.false_and]
  simp only [hgroup, Option.any_false, Bool.or_false]

/-- The status of a frame as it ends with a status: the first one raised stands (R254). -/
def CamSt.endStatus (x : CamSt) (status : Nat) : Nat := if x.frameStatus = 0 then status else x.frameStatus

theorem CamSt.endStatus_eq (x : CamSt) (status : Nat) :
    x.endStatus status = if x.frameStatus ≠ 0 then x.frameStatus else status := (ite_not ..).symm

/-- The port as its frame ends with a status of the frame: its counters, its events (R254, R280). -/
def State.frameEnded (s : State) (n st : Nat) : State :=
  let s1 := ((s.modCam n fun c => { c with inFrame := false, last := st }).bump (camKey n 0x20) 1).camEvent n 0
  if st = 0 then s1 else (s1.bump (camKey n 0x28) 1).camEvent n 1

/-- Beside the port a frame that closes changes the rings, and counts the saturations of its pipe (R255). -/
theorem State.closeFrame_ended (s : State) (n status : Nat) : ∃ l, 
    s.closeFrame n status = (s.frameEnded n ((s.cam n).endStatus status)).withRings l ∨
    ∃ p sat, s.closeFrame n status = ((s.frameEnded n ((s.cam n).endStatus status)).withRings l).bump (pipeKey p 0x28) sat := by
  have hsample : ∀ (t : State) a st' data, ∃ l, t.closeSample a st' data = t.withRings l := fun t => t.closeSample_frame
  have hsame : ∀ t : State, ∃ l, t = t.withRings l := fun t => ⟨t.ing.rings, rfl⟩
  unfold State.closeFrame
  extract_lets c st s1 s2 s3
  change ∃ l, _ = s3.withRings l ∨ ∃ p sat, _ = (s3.withRings l).bump (pipeKey p 0x28) sat
  split
  · split
    · split
      · split
        · obtain ⟨l, h⟩ := hsample s3 _ 0 (.rows _ _)
          exact ⟨l, .inr ⟨_, _, congrArg (State.bump · _ _) h⟩⟩
        · exact (hsample s3 _ _ _).imp fun _ => .inl
      · exact (hsample s3 _ _ _).imp fun _ => .inl
    · exact (hsame s3).imp fun _ => .inl
  · exact (hsame s3).imp fun _ => .inl

theorem SourceFrame.frameEnded (s : State) (n st : Nat) : SourceFrame [n] [] s (s.frameEnded n st) := by
  have hbase : SourceFrame [n] [] s
      (((s.modCam n fun c => { c with inFrame := false, last := st }).bump (camKey n 0x20) 1).camEvent n 0) :=
    ((SourceFrame.modCam s _ (List.mem_singleton_self n)).trans (.bump _ _ _)).trans (.raise _ _ _)
  unfold State.frameEnded
  dsimp only
  split
  · exact hbase
  · exact hbase.trans (.trans (.bump _ _ _) (.raise _ _ _))

theorem SourceFrame.closeFrame (s : State) (n status : Nat) : SourceFrame [n] [] s (s.closeFrame n status) := by
  obtain ⟨l, h | ⟨p, sat, h⟩⟩ := s.closeFrame_ended n status
  · exact h ▸ (SourceFrame.frameEnded s n _).trans (.of_work (.withRings _ l))
  · exact h ▸ ((SourceFrame.frameEnded s n _).trans (.of_work (.withRings _ l))).trans (.bump _ _ _)

/-- What the end of a frame leaves of its port, as the counters and the events of the port tell it (R254, R280). -/
structure State.FrameClosed (s u : State) (n st : Nat) (x : CamSt) : Prop where
  cam : u.ing.cams[n]? = some { x with inFrame := false, last := st }
  frames : u.ctr (camKey n 0x20) = (s.ctr (camKey n 0x20) + 1) % two64
  corrupt : st ≠ 0 → u.ctr (camKey n 0x28) = (s.ctr (camKey n 0x28) + 1) % two64
  event : tbit (u.rv (camKey n 0x10)) 0 = true

theorem State.frameEnded_closed (hn : n < 16) (h : s.ing.cams[n]? = some x) (st : Nat) :
    State.FrameClosed s (s.frameEnded n st) n st x := by
  have hcam := State.modCam_self (fun c => { c with inFrame := false, last := st }) h
  have hkey : camKey n 0x10 < 2 ^ 26 := by unfold camKey; omega
  have hne : camKey n 0x28 ≠ camKey n 0x20 := by unfold camKey; omega
  unfold State.frameEnded State.camEvent
  extract_lets s1
  have hctr : s1.ctr (camKey n 0x20) = (s.ctr (camKey n 0x20) + 1) % two64 :=
    (State.ctr_raise _ _ _ _).trans (State.ctr_bump_self _ _ _)
  have hevent : tbit (s1.rv (camKey n 0x10)) 0 = true := State.tbit_raise_shared _ _ hkey (by decide) rfl
  have hcam1 : s1.ing.cams[n]? = some { x with inFrame := false, last := st } := by
    unfold s1
    rw [State.raise_ing, State.bump_ing, hcam]
  split
  · next hst => exact ⟨hcam1, hctr, fun hst' => absurd hst hst', hevent⟩
  · refine ⟨?_, ?_, fun _ => ?_, ?_⟩
    · rw [State.raise_ing, State.bump_ing, hcam1]
    · rw [State.ctr_raise, State.ctr_bump_ne _ _ hne.symm, hctr]
    · rw [State.ctr_raise, State.ctr_bump_self]
      unfold s1
      rw [State.ctr_raise, State.ctr_bump_ne _ _ hne]
      rfl
    · rw [State.rv_raise_shared _ _ _ hkey, State.rv_setReg_self, tbit_mod_word _ (by decide), tbit_or, State.rv_bump, hevent,
        Bool.true_or]

/-- A frame that closes with a status (R254). -/
theorem State.closeFrame_closed (hn : n < 16) (h : s.ing.cams[n]? = some x) (status : Nat) :
    State.FrameClosed s (s.closeFrame n status) n (x.endStatus status) x := by
  obtain ⟨hcam, hframes, hcorrupt, hevent⟩ := State.frameEnded_closed hn h (x.endStatus status)
  obtain ⟨l, hl⟩ := s.closeFrame_ended n status
  rw [State.cam_eq h] at hl
  rcases hl with e | ⟨p, sat, e⟩
  · exact e ▸ ⟨hcam, hframes, hcorrupt, hevent⟩
  · have hpipe : ∀ o < 0x1000, camKey n o ≠ pipeKey p 0x28 := fun o ho => by unfold camKey pipeKey; omega
    rw [e]
    refine ⟨hcam, ?_, fun hst => ?_, ?_⟩
    · rw [State.ctr_bump_ne _ _ (hpipe _ (by decide))]
      exact hframes
    · rw [State.ctr_bump_ne _ _ (hpipe _ (by decide))]
      exact hcorrupt hst
    · rw [State.rv_bump]
      exact hevent

/-! ### Packets of a camera port (R252, R254) -/

/-- The route of the frames of a port: its pipe and the alignment stream that the pipe feeds (R249). -/
def State.frameRoute (s : State) (n : Nat) : Option (Nat × Nat) := (s.pipeOf n).bind fun p => (s.streamOf 2 p).map fun a => (p, a)

/-- A frame starts at its port. -/
def State.frameBegun (s : State) (n : Nat) : State :=
  s.modCam n fun c => { c with inFrame := true, lines := 0, frameStatus := 0, route := s.frameRoute n }

theorem State.openFrame_unrouted (frameNo stamp : Nat) (h : s.frameRoute n = none) :
    s.openFrame n frameNo stamp = s.frameBegun n := by
  unfold State.openFrame State.frameBegun
  unfold State.frameRoute at h ⊢
  dsimp only
  rw [h]

theorem State.openFrame_routed (frameNo stamp : Nat) {p a : Nat} (h : s.frameRoute n = some (p, a)) : ∃ ts status,
    s.openFrame n frameNo stamp = (s.frameBegun n).startSample a ts (frameNo % 65536) status (.lines []) false := by
  unfold State.openFrame State.frameBegun
  unfold State.frameRoute at h ⊢
  dsimp only
  rw [h]
  exact ⟨_, _, rfl⟩

/-- A frame that starts begins at its port, and its sample takes the next number of its stream (R254). -/
theorem State.openFrame_begins (frameNo stamp : Nat) (h : s.ing.cams[n]? = some x) :
    (s.openFrame n frameNo stamp).ing.cams[n]? =
      some { x with inFrame := true, lines := 0, frameStatus := 0, route := s.frameRoute n } ∧
    ∀ p a r y, s.frameRoute n = some (p, a) → s.ringOf a = some r → s.ing.streams[a]? = some y →
      (s.openFrame n frameNo stamp).ing.streams[a]? = some { y with nextSeq := (y.nextSeq + 1) % 2 ^ 32, cut := false } := by
  have hbegun := State.modCam_self (fun c => { c with inFrame := true, lines := 0, frameStatus := 0, route := s.frameRoute n }) h
  cases hroute : s.frameRoute n with
  | none =>
    rw [State.openFrame_unrouted frameNo stamp hroute]
    exact ⟨hroute ▸ hbegun, fun _ _ _ _ hnone => nomatch hnone⟩
  | some q =>
    obtain ⟨p, a⟩ := q
    obtain ⟨ts, status, hopen⟩ := State.openFrame_routed frameNo stamp hroute
    rw [hopen]
    refine ⟨?_, fun p' a' r y hp hr hy => ?_⟩
    · rw [(SourceFrame.startSample (cams := []) (scats := []) _ a ts _ status _ false).cams n List.not_mem_nil, ← hroute]
      exact hbegun
    · obtain ⟨-, rfl⟩ : p = p' ∧ a = a' := by simpa using hp
      obtain ⟨g, o, m, l, hwork⟩ := (State.startSample_routed (s := s.frameBegun n) ts (frameNo % 65536) status (.lines []) false
        hr).frame
      rw [hwork]
      exact lmod_getElem?_self _ hy

theorem SourceFrame.openFrame (s : State) (n frameNo stamp : Nat) : SourceFrame [n] [] s (s.openFrame n frameNo stamp) := by
  have hbegun : SourceFrame [n] [] s (s.frameBegun n) := .modCam s _ (List.mem_singleton_self n)
  cases hroute : s.frameRoute n with
  | none => exact (State.openFrame_unrouted frameNo stamp hroute) ▸ hbegun
  | some q =>
    obtain ⟨ts, status, hopen⟩ := State.openFrame_routed frameNo stamp hroute
    exact hopen ▸ hbegun.trans (.startSample _ _ _ _ _ _ _)

theorem SourceFrame.camBoundary {cams scats : List Nat} (s : State) (n : Nat) : SourceFrame cams scats s (s.camBoundary n) := by
  unfold State.camBoundary
  refine .applyReady s 8 _ fun t => ?_
  unfold State.pipeApply
  refine .trans ?_ (.of_work (State.refreshRings_work _))
  split
  · exact ⟨⟨t.regs, t.out, t.fresh, _, rfl⟩, rfl, rfl, fun _ _ => rfl, fun _ _ => rfl⟩
  · exact .refl t

/-- A Frame Start that no frame in progress and no capture stands before (R252 to R254). -/
theorem State.frameStart_begins (frameNo stamp : Nat) (hon : s.camOn n = true) (h : s.ing.cams[n]? = some x)
    (hidle : x.inFrame = false) (hcaps : ∀ y ∈ s.regs.ing.caps, groupOf y.key ≠ 4) :
    s.frameStart n (s.camVc n) frameNo stamp = s.openFrame n frameNo stamp := by
  unfold State.frameStart
  simp [State.cam_eq h, hidle, State.camBoundary_self hcaps, hon]

theorem State.frameStart_other {vc : Nat} (frameNo stamp : Nat) (hon : s.camOn n = true) (h : s.ing.cams[n]? = some x)
    (hidle : x.inFrame = false) (hcaps : ∀ y ∈ s.regs.ing.caps, groupOf y.key ≠ 4) (hvc : vc ≠ s.camVc n) :
    s.frameStart n vc frameNo stamp = s.other n := by
  unfold State.frameStart
  simp [State.cam_eq h, hidle, State.camBoundary_self hcaps, hon, hvc]

theorem SourceFrame.frameStart (s : State) (n vc frameNo stamp : Nat) :
    SourceFrame [n] [] s (s.frameStart n vc frameNo stamp) := by
  have hbegin : SourceFrame [n] [] s ((if (s.cam n).inFrame then s.closeFrame n 0x0101 else s).camBoundary n) := by
    refine .trans ?_ (.camBoundary _ n)
    split
    · exact .closeFrame s n _
    · exact .refl s
  unfold State.frameStart
  extract_lets s1
  split
  · exact .refl s
  · split
    · exact .bump s _ _
    · split
      · exact hbegin
      · split
        · exact hbegin.trans (.bump _ _ _)
        · exact hbegin.trans (.openFrame _ n frameNo stamp)

/-! ### Lines (R252, R254) -/

/-- A line is counted, and one that is damaged marks its frame (R254). -/
def State.lineCounted (s : State) (n : Nat) (bad : Bool) : State :=
  let s1 := s.modCam n fun c => { c with lines := c.lines + 1 }
  if bad then s1.markFrame n 0x0103 else s1

theorem State.lineCounted_eq (bad : Bool) (h : s.ing.cams[n]? = some x) : s.lineCounted n bad = { s with ing := { s.ing with
    cams := s.ing.cams.set n { x with lines := x.lines + 1,
                                      frameStatus := if bad && x.frameStatus == 0 then 0x0103 else x.frameStatus } } } := by
  have hcounted := State.modCam_self (fun c => { c with lines := c.lines + 1 }) h
  unfold State.lineCounted State.markFrame
  dsimp only
  cases bad with
  | false => rw [if_neg Bool.false_ne_true, State.modCam_eq _ h]; rfl
  | true =>
    rw [if_pos rfl, State.modCam_eq _ hcounted, State.modCam_eq _ h]
    simp only [List.set_set, Bool.true_and, beq_iff_eq]

theorem SourceFrame.lineCounted (s : State) (n : Nat) (bad : Bool) : SourceFrame [n] [] s (s.lineCounted n bad) := by
  have hcounted : SourceFrame [n] [] s (s.modCam n fun c => { c with lines := c.lines + 1 }) :=
    .modCam s _ (List.mem_singleton_self n)
  unfold State.lineCounted
  dsimp only
  split
  · exact hcounted.trans (.modCam _ _ (List.mem_singleton_self n))
  · exact hcounted

/-- A line that its port passes on adds to the sample that is sent, or is counted as cut off (R254, R267). -/
theorem State.passLine_work (s : State) (n : Nat) (l : List Nat) : SampleWork s (s.passLine n l) := by
  unfold State.passLine
  split
  · exact .refl s
  · split
    · exact s.modSending_work _ _
    · split
      · exact .bump s _ (by unfold asKey; omega)
      · exact .refl s

theorem State.passLine_sent {q a : Nat} {y : SampleSt} {ls : List (List Nat)} (l : List Nat)
    (hroute : (s.cam n).route = some (q, a)) (hy : s.sending a = some y) (hdata : y.data = .lines ls) :
    (s.passLine n l).sending a = some { y with data := .lines (ls ++ [l]) } := by
  unfold State.passLine
  rw [hroute]
  dsimp only
  rw [if_pos (by rw [hy]; rfl), State.sending_modSending hy]
  · rw [hdata]
  · intro z
    split <;> exact ⟨rfl, rfl⟩

/-- A line of the accepted kind within the height of its frame (R254). -/
theorem State.lineIn_taken {l : List Nat} {e : LineErr} (hon : s.camOn n = true) (h : s.ing.cams[n]? = some x)
    (hframe : x.inFrame = true) (hdt : knownDt (s.camDt n) = true) (hroom : x.lines < s.camH n) (he : e ≠ .ecc) :
    s.lineIn n (s.camVc n) (s.camDt n) l e =
      (s.lineCounted n (e == .crc || l.length != lineComps (s.camDt n) (s.camW n))).passLine n
        (if e == .crc || l.length != lineComps (s.camDt n) (s.camW n) then List.replicate (lineComps (s.camDt n) (s.camW n)) 0
          else l) := by
  unfold State.lineIn
  rw [State.cam_eq h]
  simp only [hon, he, hdt, hframe, Nat.not_le.2 hroom, Bool.not_true, Bool.false_eq_true, if_false, ne_eq, not_true_eq_false]
  rfl

theorem State.lineIn_orphan (l : List Nat) (hon : s.camOn n = true) (h : s.ing.cams[n]? = some x)
    (hframe : x.inFrame = false) (hdt : knownDt (s.camDt n) = true) :
    s.lineIn n (s.camVc n) (s.camDt n) l .none = s.orphan n := by
  unfold State.lineIn
  rw [State.cam_eq h]
  simp [hon, hdt, hframe]

theorem SourceFrame.lineIn (s : State) (n vc dt : Nat) (l : List Nat) (e : LineErr) :
    SourceFrame [n] [] s (s.lineIn n vc dt l e) := by
  unfold State.lineIn
  extract_lets c want bad s1 s2
  split
  · exact .refl s
  · split
    · exact .bump s _ _
    · split
      · exact .bump s _ _
      · split
        · exact .bump s _ _
        · split
          · exact .modCam s _ (List.mem_singleton_self n)
          · exact (SourceFrame.lineCounted s n bad).trans (.of_work (State.passLine_work _ n _))

/-! ### The end of a frame, and the link (R251, R254) -/

theorem State.frameEnd_orphan (hon : s.camOn n = true) (h : s.ing.cams[n]? = some x) (hframe : x.inFrame = false) :
    s.frameEnd n (s.camVc n) = s.orphan n := by
  unfold State.frameEnd
  rw [State.cam_eq h]
  simp [hon, hframe]

theorem State.frameEnd_closes (hon : s.camOn n = true) (h : s.ing.cams[n]? = some x) (hframe : x.inFrame = true) :
    s.frameEnd n (s.camVc n) = s.closeFrame n (if x.lines < s.camH n then 0x0101 else 0) := by
  unfold State.frameEnd
  rw [State.cam_eq h]
  simp [hon, hframe]

theorem SourceFrame.frameEnd (s : State) (n vc : Nat) : SourceFrame [n] [] s (s.frameEnd n vc) := by
  unfold State.frameEnd
  extract_lets c
  split
  · exact .refl s
  · split
    · exact .bump s _ _
    · split
      · exact .bump s _ _
      · exact .closeFrame s n _

/-- The port whose link is lost, a frame in progress closed with 0x0112 (R254). -/
def State.linkLost (s : State) (n : Nat) : State :=
  if (s.cam n).gear = 0 then s
  else ((if (s.cam n).inFrame then s.closeFrame n 0x0112 else s).modCam n fun c => { c with gear := 0 }).camEvent n 2

theorem State.linkLost_spec (hn : n < 16) (h : s.ing.cams[n]? = some x) (hframe : x.inFrame = true) (hgear : x.gear ≠ 0) :
    tbit ((s.linkLost n).rv (camKey n 0x10)) 2 = true ∧
    (s.linkLost n).ing.cams[n]? = some { x with gear := 0, inFrame := false, last := x.endStatus 0x0112 } := by
  unfold State.linkLost State.camEvent
  rw [State.cam_eq h, if_neg hgear, if_pos hframe]
  refine ⟨State.tbit_raise_shared _ _ (by unfold camKey; omega) (by decide) rfl, ?_⟩
  rw [State.raise_ing]
  exact State.modCam_self _ (State.closeFrame_closed hn h _).cam

theorem SourceFrame.linkLost (s : State) (n : Nat) : SourceFrame [n] [] s (s.linkLost n) := by
  unfold State.linkLost
  split
  · exact .refl s
  · refine .trans ?_ ((SourceFrame.modCam _ _ (List.mem_singleton_self n)).trans (.raise _ _ _))
    split
    · exact .closeFrame s n _
    · exact .refl s

/-! ### The camera control interface (R251) -/

theorem State.cciGo_busy (v : Nat) (h : tbit (s.rv (camKey n 0x18)) 31 = true) : s.cciGo n v = s := by
  unfold State.cciGo
  dsimp only
  rw [if_pos h]

/-- A transaction that starts at a port (R251). -/
theorem State.cciGo_starts {v : Nat} (hfree : tbit (s.rv (camKey n 0x18)) 31 = false) (hgo : tbit v 31 = true)
    (h : s.ing.cams[n]? = some x) :
    (s.cciGo n v).ing = { s.ing with cams := s.ing.cams.set n { x with cci := true } } ∧
    tbit ((s.cciGo n v).rv (camKey n 0x18)) 31 = true ∧
    (s.cciGo n v).out = s.out ++ [.cci n (field v 16 7) (field v 0 16) (tbit v 30) (s.rv (camKey n 0x1C) % 256)] := by
  have hword : ∀ i < 32, tbit 0xC07FFFFF i = true → tbit (v % 2 ^ 32 &&& 0xC07FFFFF) i = tbit v i := fun i hi hm => by
    rw [tbit_and, hm, Bool.and_true, tbit_mod_word _ hi]
  have hgo' : tbit (v % 2 ^ 32 &&& 0xC07FFFFF) 31 = true := (hword 31 (by decide) (by decide)).trans hgo
  have hcam := State.modCam_eq (s := s.setReg (camKey n 0x18) (putField (v % 2 ^ 32 &&& 0xC07FFFFF) 29 1
    (field (s.rv (camKey n 0x18)) 29 1))) (fun c => { c with cci := true }) h
  unfold State.cciGo
  dsimp only
  rw [hfree, if_neg Bool.false_ne_true, if_pos hgo', hcam]
  refine ⟨rfl, ?_, ?_⟩
  · refine (congrArg (tbit · 31) (State.rv_setReg_self s _ _)).trans ?_
    rw [tbit_mod_word _ (by decide), tbit_putField_above _ _ (by decide), hgo']
  · unfold State.emit
    rw [field_and _ _ _ _ (by decide), field_and _ _ _ _ (by decide), field_mod_word _ (by decide), field_mod_word _ (by decide),
      hword 30 (by decide) (by decide)]
    rfl

theorem SourceFrame.cciGo (s : State) (n v : Nat) : SourceFrame [n] [] s (s.cciGo n v) := by
  unfold State.cciGo
  extract_lets k v1 v2 s1
  split
  · exact .refl s
  · split
    · exact ((SourceFrame.setReg s _ _).trans (.modCam _ _ (List.mem_singleton_self n))).trans (.emit _ _)
    · exact .setReg s _ _

/-- The port and its control word as a transaction ends. -/
def State.cciEnded (s : State) (n : Nat) (nack : Bool) : State :=
  (s.modCam n fun c => { c with cci := false }).setReg (camKey n 0x18)
    (putField (putField (s.rv (camKey n 0x18)) 31 1 0) 29 1 (b2n nack))

/-- A transaction that ends changes beside them the byte of a read alone. -/
theorem State.cciDone_ended (reply : Option Byte) (h : s.ing.cams[n]? = some x) (hcci : x.cci = true) :
    (s.cciDone n reply = s.cciEnded n reply.isNone ∧ ∀ b, reply = some b → tbit (s.rv (camKey n 0x18)) 30 = false) ∨
    ∃ b, reply = some b ∧ s.cciDone n reply = (s.cciEnded n reply.isNone).setReg (camKey n 0x1C) b.toNat := by
  unfold State.cciDone
  dsimp only
  rw [State.cam_eq h, hcci, Bool.not_true, if_neg Bool.false_ne_true]
  cases reply with
  | none => exact .inl ⟨rfl, fun _ hnone => nomatch hnone⟩
  | some b =>
    dsimp only
    split
    · exact .inr ⟨b, rfl, rfl⟩
    · next hread => exact .inl ⟨rfl, fun _ _ => Bool.eq_false_iff.2 hread⟩

theorem State.cciEnded_control (s : State) (n : Nat) (nack : Bool) :
    tbit ((s.cciEnded n nack).rv (camKey n 0x18)) 31 = false ∧ tbit ((s.cciEnded n nack).rv (camKey n 0x18)) 29 = nack := by
  have hword : (s.cciEnded n nack).rv (camKey n 0x18) =
      putField (putField (s.rv (camKey n 0x18)) 31 1 0) 29 1 (b2n nack) % 2 ^ 32 := State.rv_setReg_self _ _ _
  rw [hword]
  constructor
  · rw [tbit_mod_word _ (by decide), tbit_putField_above _ _ (by decide), tbit_putField_zero]
  · rw [tbit_mod_word _ (by decide), tbit_putField_self]

/-- A transaction that ends (R251): GO clears, NACK tells of a reply that did not come, a read leaves its byte. -/
theorem State.cciDone_spec (reply : Option Byte) (h : s.ing.cams[n]? = some x) (hcci : x.cci = true) :
    tbit ((s.cciDone n reply).rv (camKey n 0x18)) 31 = false ∧
    tbit ((s.cciDone n reply).rv (camKey n 0x18)) 29 = reply.isNone ∧
    (s.cciDone n reply).ing = { s.ing with cams := s.ing.cams.set n { x with cci := false } } ∧
    ∀ b, reply = some b → tbit (s.rv (camKey n 0x18)) 30 = true → (s.cciDone n reply).rv (camKey n 0x1C) = b.toNat := by
  have hing : (s.cciEnded n reply.isNone).ing = { s.ing with cams := s.ing.cams.set n { x with cci := false } } :=
    congrArg State.ing (State.modCam_eq (fun c => { c with cci := false }) h)
  obtain ⟨hgo, hnack⟩ := s.cciEnded_control n reply.isNone
  rcases State.cciDone_ended reply h hcci with ⟨e, hwrite⟩ | ⟨b, hb, e⟩ <;> rw [e]
  · exact ⟨hgo, hnack, hing, fun b hb hread => nomatch hread.symm.trans (hwrite b hb)⟩
  · rw [State.rv_setReg_ne _ _ _ _ (by unfold camKey; omega), State.rv_setReg_self, State.setReg_ing]
    refine ⟨hgo, hnack, hing, fun b' hb' _ => ?_⟩
    obtain rfl : b = b' := Option.some.inj (hb.symm.trans hb')
    have hbyte := b.isLt
    exact Nat.mod_eq_of_lt (by omega)

theorem SourceFrame.cciDone (s : State) (n : Nat) (reply : Option Byte) : SourceFrame [n] [] s (s.cciDone n reply) := by
  have hended : SourceFrame [n] [] s (s.cciEnded n reply.isNone) :=
    (SourceFrame.modCam s _ (List.mem_singleton_self n)).trans (.setReg _ _ _)
  unfold State.cciDone
  extract_lets k v s1
  split
  · exact .refl s
  · split
    · split
      · exact hended.trans (.setReg _ _ _)
      · exact hended
    · exact hended

end
end Sys2Proof.Machine

end

section
/-!
PROOFS. Scatter engines: sweeps, points and datagrams (R263 to R265).
-/
namespace Sys2Proof.Machine
open Sys2Proof.Safety

section
variable {s : State} {e : Nat} {x : ScatSt}

/-! ### The state of a scatter engine -/

theorem State.scat_eq (h : s.ing.scats[e]? = some x) : s.scat e = x := by
  rw [State.scat, List.getD_eq_getElem?_getD, h, Option.getD_some]

theorem State.modScat_self (f : ScatSt → ScatSt) (h : s.ing.scats[e]? = some x) : (s.modScat e f).ing.scats[e]? = some (f x) :=
  lmod_getElem?_self f h

/-- Where no capture of the engine is pending, none applies as a sweep starts. -/
theorem State.scatBoundary_self (h : ∀ y ∈ s.regs.ing.caps, groupOf y.key ≠ 6) : s.scatBoundary e = s := by
  unfold State.scatBoundary
  refine State.applyReady_none (slot := 8) _ fun c hc => ?_
  rw [Capture.isOf, beq_eq_false_iff_ne.2 (h c hc), Bool.false_and]

/-! ### The end of a sweep, and malformed datagrams (R264, R265) -/

/-- Beside the engine a sweep that closes changes the rings alone. -/
theorem State.closeSweep_frame (s : State) (e st : Nat) :
    ∃ l, s.closeSweep e st = (s.modScat e fun x => { x with sweep := none }).withRings l := by
  have hsame : ∀ t : State, ∃ l, t = t.withRings l := fun t => ⟨t.ing.rings, rfl⟩
  unfold State.closeSweep
  extract_lets s1
  split
  · exact hsame s1
  · split
    · split
      · exact s1.closeSample_frame _ _ _
      · exact hsame s1
    · exact hsame s1

theorem State.closeSweep_scat (st : Nat) (h : s.ing.scats[e]? = some x) :
    (s.closeSweep e st).ing.scats[e]? = some { x with sweep := none } := by
  obtain ⟨l, hl⟩ := s.closeSweep_frame e st
  rw [hl]
  exact State.modScat_self _ h

theorem SourceFrame.closeSweep (s : State) (e st : Nat) : SourceFrame [] [e] s (s.closeSweep e st) := by
  obtain ⟨l, hl⟩ := s.closeSweep_frame e st
  exact hl ▸ (SourceFrame.modScat s _ (List.mem_singleton_self e)).trans (.of_work (.withRings _ l))

theorem State.closeSweep_ctr (s : State) (e st k : Nat) : (s.closeSweep e st).ctr k = s.ctr k := by
  obtain ⟨l, hl⟩ := s.closeSweep_frame e st
  rw [hl]
  rfl

/-- A malformed datagram ends the sweep and begins a resynchronisation (R265). -/
theorem State.scatReset_spec (sw : Nat) (h : s.ing.scats[e]? = some x) :
    (s.scatReset e sw).ing.scats[e]? = some { x with sweep := none, resync := some sw, reason := 0x010A } ∧
    (s.scatReset e sw).ctr (scatKey e 0xB0) = (s.ctr (scatKey e 0xB0) + 1) % two64 := by
  unfold State.scatReset
  refine ⟨State.modScat_self (s := (s.closeSweep e 0x010A).bump _ 1) _ (State.closeSweep_scat 0x010A h), ?_⟩
  refine (State.ctr_bump_self (s.closeSweep e 0x010A) _ 1).trans ?_
  rw [State.closeSweep_ctr]

theorem SourceFrame.scatReset (s : State) (e sw : Nat) : SourceFrame [] [e] s (s.scatReset e sw) :=
  ((SourceFrame.closeSweep s e _).trans (.bump _ _ _)).trans (.modScat _ _ (List.mem_singleton_self e))

/-! ### Points of a sweep (R264) -/

/-- An engine that has taken m of the n points of a datagram: its sweep, its counters. -/
def State.pointsCounted (s : State) (e sw had m n : Nat) : State :=
  ((s.modScat e fun x => { x with sweep := some (sw, had + m) }).bump (scatKey e 0xA8) m).bump (scatKey e 0xB0) (n - m)

/-- The points of a datagram go to the sample that is sent, up to MAX_POINTS, at which the sweep is complete. -/
theorem State.addPoints_open {sw had a : Nat} (n : Nat) (b : List Byte) (hsweep : (s.scat e).sweep = some (sw, had))
    (hstream : s.scatStream e = some a) :
    ∃ t, SampleWork (s.pointsCounted e sw had (min n (s.maxPoints e - had)) n) t ∧
      s.addPoints e n b = if 0 < s.maxPoints e - had ∧ min n (s.maxPoints e - had) = s.maxPoints e - had then
        (t.closeSweep e 0x0012).modScat e fun x =>
          { x with sweep := some (sw, had + min n (s.maxPoints e - had)), reason := 0x0012 }
      else t := by
  unfold State.addPoints
  rw [hsweep, hstream]
  dsimp -zeta only
  extract_lets room m hdr stride w rows s1 s2 s3
  refine ⟨s3, ?_, rfl⟩
  change SampleWork s2 s3
  unfold s3
  split
  · exact s2.modSending_work a _
  · split
    · exact .bump s2 _ (by unfold asKey; omega)
    · exact .refl s2

theorem State.pointsCounted_scat (sw had m n : Nat) (h : s.ing.scats[e]? = some x) :
    (s.pointsCounted e sw had m n).ing.scats[e]? = some { x with sweep := some (sw, had + m) } := State.modScat_self _ h

theorem State.pointsCounted_taken (s : State) (e sw had m n : Nat) :
    (s.pointsCounted e sw had m n).ctr (scatKey e 0xA8) = (s.ctr (scatKey e 0xA8) + m) % two64 := by
  unfold State.pointsCounted
  rw [State.ctr_bump_ne _ _ (by unfold scatKey; omega)]
  exact State.ctr_bump_self _ _ _

theorem State.pointsCounted_dropped (s : State) (e sw had m n : Nat) :
    (s.pointsCounted e sw had m n).ctr (scatKey e 0xB0) = (s.ctr (scatKey e 0xB0) + (n - m)) % two64 := by
  unfold State.pointsCounted
  refine (State.ctr_bump_self _ _ _).trans ?_
  rw [State.ctr_bump_ne _ _ (by unfold scatKey; omega)]
  rfl

section
variable {sw had a n : Nat} (b : List Byte) (he : e < 4) (h : s.ing.scats[e]? = some x) (hsweep : x.sweep = some (sw, had))
  (hstream : s.scatStream e = some a)
include he h hsweep hstream

/-- Points that leave room in the sweep (R264). -/
theorem State.addPoints_room (hroom : had + n < s.maxPoints e) :
    (s.addPoints e n b).ing.scats[e]? = some { x with sweep := some (sw, had + n) } ∧
    (s.addPoints e n b).ctr (scatKey e 0xA8) = (s.ctr (scatKey e 0xA8) + n) % two64 ∧
    (s.addPoints e n b).ing.streams = s.ing.streams := by
  obtain ⟨t, hwork, hadd⟩ := State.addPoints_open n b (s := s) (e := e) ((State.scat_eq h).symm ▸ hsweep) hstream
  have hmin : min n (s.maxPoints e - had) = n := by omega
  rw [hmin] at hwork hadd
  rw [hadd, if_neg (by omega)]
  have hctr := hwork.ctr (scatKey e 0xA8) (by unfold scatKey; omega)
  obtain ⟨r, o, k, l, ht⟩ := hwork.frame
  refine ⟨?_, hctr.trans (State.pointsCounted_taken ..), ?_⟩
  · rw [ht]
    exact State.pointsCounted_scat sw had n n h
  · rw [ht]
    rfl

/-- Points that reach MAX_POINTS complete the sweep; the further ones are dropped (R264). -/
theorem State.addPoints_full (hhad : had < s.maxPoints e) (hfull : s.maxPoints e ≤ had + n) :
    (s.addPoints e n b).ing.scats[e]? = some { x with sweep := some (sw, s.maxPoints e), reason := 0x0012 } ∧
    (s.addPoints e n b).ctr (scatKey e 0xB0) = (s.ctr (scatKey e 0xB0) + (had + n - s.maxPoints e)) % two64 := by
  obtain ⟨t, hwork, hadd⟩ := State.addPoints_open n b (s := s) (e := e) ((State.scat_eq h).symm ▸ hsweep) hstream
  have hmin : min n (s.maxPoints e - had) = s.maxPoints e - had := by omega
  have hsum : had + (s.maxPoints e - had) = s.maxPoints e := by omega
  have hdropped : n - (s.maxPoints e - had) = had + n - s.maxPoints e := by omega
  rw [hmin, hsum] at hadd
  rw [hmin] at hwork
  rw [hadd, if_pos ⟨by omega, rfl⟩]
  have hctr := hwork.ctr (scatKey e 0xB0) (by unfold scatKey; omega)
  have hscat : t.ing.scats[e]? = some { x with sweep := some (sw, s.maxPoints e) } := by
    obtain ⟨r, o, k, l, ht⟩ := hwork.frame
    rw [ht]
    exact (State.pointsCounted_scat sw had _ n h).trans (by rw [hsum])
  have hclosed := State.closeSweep_scat 0x0012 hscat
  refine ⟨(State.modScat_self _ hclosed).trans rfl, ?_⟩
  refine (State.closeSweep_ctr t e _ _).trans ?_
  rw [hctr, State.pointsCounted_dropped, hdropped]

end

theorem SourceFrame.addPoints (s : State) (e n : Nat) (b : List Byte) : SourceFrame [] [e] s (s.addPoints e n b) := by
  cases hsweep : (s.scat e).sweep with
  | none =>
    unfold State.addPoints
    rw [hsweep]
    exact .refl s
  | some q =>
    cases hstream : s.scatStream e with
    | none =>
      unfold State.addPoints
      rw [hsweep, hstream]
      exact .refl s
    | some a =>
      obtain ⟨t, hwork, hadd⟩ := State.addPoints_open n b hsweep hstream
      have ht : SourceFrame [] [e] s t :=
        (((SourceFrame.modScat s _ (List.mem_singleton_self e)).trans (.bump _ _ _)).trans (.bump _ _ _)).trans (.of_work hwork)
      rw [hadd]
      split
      · exact (ht.trans (.closeSweep t e _)).trans (.modScat _ _ (List.mem_singleton_self e))
      · exact ht

/-! ### The first datagram of a sweep (R250, R264) -/

/-- A sample that starts leaves the registers and counters of the engines. -/
theorem State.startSample_regs (s : State) (st ts id status : Nat) (data : SampleData) (closed : Bool) {k : Nat}
    (hk : k < 0x850000) :
    (s.startSample st ts id status data closed).ctr k = s.ctr k ∧
    (groupOf k ≠ 5 → (s.startSample st ts id status data closed).rv k = s.rv k) := by
  cases h : s.ringOf st with
  | none => rw [State.startSample_unrouted _ _ _ _ _ h]; exact ⟨rfl, fun _ => rfl⟩
  | some p =>
    obtain ⟨-, hctr, hrv⟩ := State.startSample_routed (s := s) ts id status data closed h
    exact ⟨hctr k hk, hrv k hk⟩

/-- A sample that starts takes the next number of its stream (R249). -/
theorem State.startSample_stream {st p : Nat} {y : StreamSt} (ts id status : Nat) (data : SampleData) (closed : Bool)
    (hring : s.ringOf st = some p) (hy : s.ing.streams[st]? = some y) :
    (s.startSample st ts id status data closed).ing.streams[st]? = some { y with nextSeq := (y.nextSeq + 1) % 2 ^ 32, cut := false } := by
  obtain ⟨r, o, n, l, hwork⟩ := (State.startSample_routed (s := s) ts id status data closed hring).frame
  rw [hwork]
  exact lmod_getElem?_self _ hy

/-- MAX_POINTS is not a register of the streams and rings. -/
theorem groupOf_maxPoints : ∀ e < 4, groupOf (scatKey e 0x20) ≠ 5 := by decide

/-- A sweep starts with its first datagram (R264). -/
theorem State.startSweep_begins {a n : Nat} (b : List Byte) (stamp : Nat) (he : e < 4) (h : s.ing.scats[e]? = some x)
    (hcaps : ∀ y ∈ s.regs.ing.caps, groupOf y.key ≠ 6) (hstream : s.scatStream e = some a) (hon : s.scatOn e = true)
    (hcount : s.scatCount e b = some n) (hroom : n < s.maxPoints e) :
    (s.startSweep e b stamp).ing.scats[e]? = some { x with sweep := some (s.sweepOf e b, n) } ∧
    (s.startSweep e b stamp).ctr (scatKey e 0xA8) = (s.ctr (scatKey e 0xA8) + n) % two64 ∧
    ∀ r y, s.ringOf a = some r → s.ing.streams[a]? = some y →
      (s.startSweep e b stamp).ing.streams[a]? = some { y with nextSeq := (y.nextSeq + 1) % 2 ^ 32, cut := false } := by
  unfold State.startSweep
  rw [State.scatBoundary_self hcaps]
  dsimp only
  rw [hstream, hcount]
  dsimp only
  rw [if_pos hon]
  set s1 := s.modScat e fun x => { x with sweep := some (s.sweepOf e b, 0) }
  set t := s1.startSample a stamp 0 0 (.rows [] 0) false
  have hframe : SourceFrame [] [] s1 t := .startSample s1 a stamp 0 0 _ false
  have hregs : ∀ o < 0x1000, t.ctr (scatKey e o) = s.ctr (scatKey e o) ∧
      (groupOf (scatKey e o) ≠ 5 → t.rv (scatKey e o) = s.rv (scatKey e o)) := fun o ho =>
    s1.startSample_regs a stamp 0 0 _ false (by unfold scatKey; omega)
  have hscat : t.ing.scats[e]? = some { x with sweep := some (s.sweepOf e b, 0) } :=
    (hframe.scats e List.not_mem_nil).trans (State.modScat_self _ h)
  have hstream' : t.scatStream e = some a := by
    obtain ⟨r, o, k, i, hu⟩ := hframe.frame
    rw [hu]
    exact hstream
  have hmax : t.maxPoints e = s.maxPoints e := by
    unfold State.maxPoints
    rw [(hregs 0x20 (by decide)).2 (groupOf_maxPoints e he)]
  obtain ⟨hsweep, htaken, hstreams⟩ := State.addPoints_room b he hscat rfl hstream' (n := n) (by omega)
  refine ⟨?_, ?_, fun r y hr hy => ?_⟩
  · rw [hsweep, Nat.zero_add]
  · rw [htaken, (hregs 0xA8 (by decide)).1]
  · rw [hstreams]
    exact State.startSample_stream (s := s1) stamp 0 0 _ false hr hy

/-- A sweep that a malformed datagram would start is a resynchronisation (R265). -/
theorem State.startSweep_malformed {a : Nat} {b : List Byte} (stamp : Nat)
    (hcaps : ∀ y ∈ s.regs.ing.caps, groupOf y.key ≠ 6) (hstream : s.scatStream e = some a) (hon : s.scatOn e = true)
    (hcount : s.scatCount e b = none) : s.startSweep e b stamp = s.scatReset e (s.sweepOf e b) := by
  unfold State.startSweep
  rw [State.scatBoundary_self hcaps]
  dsimp only
  rw [hstream, hcount]
  exact if_pos hon

theorem SourceFrame.startSweep (s : State) (e : Nat) (b : List Byte) (stamp : Nat) :
    SourceFrame [] [e] s (s.startSweep e b stamp) := by
  have hbound : SourceFrame [] [e] s (s.scatBoundary e) := .applyReady s 8 _ fun t => .of_work t.refreshRings_work
  unfold State.startSweep
  extract_lets t sw
  refine hbound.trans ?_
  change SourceFrame [] [e] t _
  split
  · split
    · exact ((SourceFrame.modScat t _ (List.mem_singleton_self e)).trans (.startSample _ _ _ _ _ _ _)).trans (.addPoints _ e _ b)
    · exact .refl t
  · split
    · exact .scatReset t e sw
    · exact .refl t
  · exact .refl t

/-! ### Datagrams (R263 to R265) -/

theorem State.datagram_off (b : List Byte) (stamp : Nat) (hon : s.scatOn e = false) : s.datagram e b stamp = s := by
  unfold State.datagram
  rw [hon]
  rfl

/-- A datagram of the sweep that a resynchronisation passes over is dropped (R265). -/
theorem State.datagram_passed {b : List Byte} (stamp : Nat) (hon : s.scatOn e = true) (h : s.ing.scats[e]? = some x)
    (hsync : x.resync = some (s.sweepOf e b)) : s.datagram e b stamp = s.bump (scatKey e 0xB0) 1 := by
  unfold State.datagram
  rw [State.scat_eq h, hon]
  exact if_pos hsync

/-- The engine once a datagram has ended a resynchronisation. -/
def State.synced (s : State) (e : Nat) : State := s.modScat e fun x => { x with resync := none }

theorem State.synced_scat (h : s.ing.scats[e]? = some x) : (s.synced e).ing.scats[e]? = some { x with resync := none } :=
  State.modScat_self _ h

section
variable {b : List Byte} (stamp : Nat) (hon : s.scatOn e = true) (h : s.ing.scats[e]? = some x)
  (hsync : x.resync ≠ some (s.sweepOf e b))
include hon h hsync

theorem State.datagram_eq : s.datagram e b stamp = match x.sweep, s.scatCount e b with
    | none, _ => (s.synced e).startSweep e b stamp
    | some _, none => (s.synced e).scatReset e (s.sweepOf e b)
    | some (f, _), some n =>
      if f = s.sweepOf e b then (s.synced e).addPoints e n b else ((s.synced e).closeSweep e 0).startSweep e b stamp := by
  have hscat := State.scat_eq (State.synced_scat h)
  unfold State.datagram
  dsimp only
  rw [State.scat_eq h, hon, Bool.not_true, if_neg Bool.false_ne_true, if_neg hsync]
  change (match ((s.synced e).scat e).sweep, s.scatCount e b with
    | none, _ => _
    | some _, none => _
    | some (_, _), some _ => _) = _
  rw [hscat]
  rfl

/-- A malformed datagram begins a resynchronisation, whether a sweep is in progress or not (R265). -/
theorem State.datagram_malformed {a : Nat} (hcaps : ∀ y ∈ s.regs.ing.caps, groupOf y.key ≠ 6) (hstream : s.scatStream e = some a)
    (hcount : s.scatCount e b = none) :
    (s.datagram e b stamp).ing.scats[e]? = some { x with sweep := none, resync := some (s.sweepOf e b), reason := 0x010A } ∧
    (s.datagram e b stamp).ctr (scatKey e 0xB0) = (s.ctr (scatKey e 0xB0) + 1) % two64 := by
  have hreset := State.scatReset_spec (s.sweepOf e b) (State.synced_scat h)
  rw [State.datagram_eq stamp hon h hsync, hcount]
  cases x.sweep with
  | none =>
    dsimp only
    rw [State.startSweep_malformed (s := s.synced e) stamp hcaps hstream hon hcount]
    exact hreset
  | some q => exact hreset

/-- A datagram of a new sweep ends the sweep in progress and begins its own (R264). -/
theorem State.datagram_begins {a n : Nat} (he : e < 4) (hcaps : ∀ y ∈ s.regs.ing.caps, groupOf y.key ≠ 6)
    (hstream : s.scatStream e = some a) (hcount : s.scatCount e b = some n) (hroom : n < s.maxPoints e)
    (hnew : x.sweep.map (·.1) ≠ some (s.sweepOf e b)) :
    (s.datagram e b stamp).ing.scats[e]? = some { x with sweep := some (s.sweepOf e b, n), resync := none } ∧
    (s.datagram e b stamp).ctr (scatKey e 0xA8) = (s.ctr (scatKey e 0xA8) + n) % two64 ∧
    ∀ r y, s.ringOf a = some r → s.ing.streams[a]? = some y →
      (s.datagram e b stamp).ing.streams[a]? = some { y with nextSeq := (y.nextSeq + 1) % 2 ^ 32, cut := false } := by
  have hsynced := State.synced_scat h
  rw [State.datagram_eq stamp hon h hsync, hcount]
  cases hsweep : x.sweep with
  | none => exact State.startSweep_begins b stamp he hsynced hcaps hstream hon hcount hroom
  | some q =>
    have hne : q.1 ≠ s.sweepOf e b := fun heq => hnew (by rw [hsweep, Option.map_some, heq])
    have hclosed := State.closeSweep_scat 0 hsynced
    dsimp only
    rw [if_neg hne]
    obtain ⟨l, hl⟩ := (s.synced e).closeSweep_frame e 0
    rw [hl] at hclosed ⊢
    exact State.startSweep_begins b stamp he hclosed hcaps hstream hon hcount hroom

/-- A datagram of the sweep in progress adds its points to it (R264). -/
theorem State.datagram_adds {n had : Nat} (hcount : s.scatCount e b = some n) (hsweep : x.sweep = some (s.sweepOf e b, had)) :
    s.datagram e b stamp = (s.synced e).addPoints e n b := by
  rw [State.datagram_eq stamp hon h hsync, hcount, hsweep]
  exact if_pos rfl

end

theorem SourceFrame.datagram (s : State) (e : Nat) (b : List Byte) (stamp : Nat) :
    SourceFrame [] [e] s (s.datagram e b stamp) := by
  unfold State.datagram
  extract_lets sw s1
  have hsynced : SourceFrame [] [e] s s1 := .modScat s _ (List.mem_singleton_self e)
  split
  · exact .refl s
  · split
    · exact .bump s _ _
    · split
      · exact hsynced.trans (.startSweep s1 e b stamp)
      · exact hsynced.trans (.scatReset s1 e sw)
      · split
        · exact hsynced.trans (.addPoints s1 e _ b)
        · exact (hsynced.trans (.closeSweep s1 e 0)).trans (.startSweep _ e b stamp)

theorem State.sweepTimeout_closes (h : s.ing.scats[e]? = some x) (hsweep : x.sweep.isSome = true) :
    s.sweepTimeout e = s.closeSweep e 0 := by
  unfold State.sweepTimeout
  rw [State.scat_eq h, if_pos hsweep]

theorem SourceFrame.sweepTimeout (s : State) (e : Nat) : SourceFrame [] [e] s (s.sweepTimeout e) := by
  unfold State.sweepTimeout
  split
  · exact .closeSweep s e 0
  · exact .refl s

end
end Sys2Proof.Machine

end

section
/-!
PROOFS. The commands of the camera ports and the scatter engines, as they commit what the sources make of them.
-/
namespace Sys2Proof.Machine
open Sys2Proof.Safety

/-! ### What a command of a source leaves -/

theorem SourceFrame.next {cams scats : List Nat} {s t u : State} (h : SourceFrame cams scats s t)
    (hu : (.next (commitIng s t) : Answer) = .next u) : SourceCommand cams scats s u := Host.Outcome.next.inj hu ▸ h.commit

/-- A command of a camera port leaves the other ports, the scatter engines, the decoders and the cache. -/
theorem SourceCommand.camera {n : Nat} {s u : State} (h : SourceCommand [n] [] s u) :
    onlyIngest s u ∧ u.dram = s.dram ∧ u.comp = s.comp ∧ u.ing.vdecs = s.ing.vdecs ∧ u.ing.scats = s.ing.scats ∧
      u.ing.cache = s.ing.cache ∧ ∀ m : Nat, m ≠ n → u.ing.cams[m]? = s.ing.cams[m]? :=
  ⟨h.only, h.dram, h.comp, h.vdecs, List.ext_getElem? fun m => h.scats m List.not_mem_nil, h.cache,
    fun m hm => h.cams m (mt List.mem_singleton.1 hm)⟩

/-- A command of a scatter engine leaves the camera ports, the other engines and the decoders. -/
theorem SourceCommand.scatter {e : Nat} {s u : State} (h : SourceCommand [] [e] s u) :
    onlyIngest s u ∧ u.dram = s.dram ∧ u.comp = s.comp ∧ u.ing.cams = s.ing.cams ∧ u.ing.vdecs = s.ing.vdecs ∧
      ∀ m : Nat, m ≠ e → u.ing.scats[m]? = s.ing.scats[m]? :=
  ⟨h.only, h.dram, h.comp, List.ext_getElem? fun m => h.cams m List.not_mem_nil, h.vdecs,
    fun m hm => h.scats m (mt List.mem_singleton.1 hm)⟩

/-! ### Registers and counters of the sources, committed -/

/-- A command goes on with what it commits. -/
theorem exists_next {s t t' : State} {P : State → Prop} (ht : t = t') (h : P (commitIng s t')) :
    ∃ u, (.next (commitIng s t) : Answer) = .next u ∧ P u := ⟨_, rfl, ht ▸ h⟩

theorem ctr_commitIng_cam (s t : State) (n : Fin 16) {o : Nat} (ho : o < 0x1000) :
    (commitIng s t).ctr (camKey n o) = t.ctr (camKey n o) := ctr_commitIng s t (slotOf_camKey n ho)

theorem rv_commitIng_cam (s t : State) (n : Fin 16) {o : Nat} (ho : o < 0x1000) :
    (commitIng s t).rv (camKey n o) = t.rv (camKey n o) := rv_commitIng s t (slotOf_camKey n ho)

theorem ctr_commitIng_scat (s t : State) (e : Fin 4) {o : Nat} (ho : o < 0x1000) :
    (commitIng s t).ctr (scatKey e o) = t.ctr (scatKey e o) := ctr_commitIng s t (slotOf_scatKey e ho)

/-- What a source sends is committed. -/
theorem SourceFrame.sending_commitIng {cams scats : List Nat} {s t : State} (h : SourceFrame cams scats s t) (st : Nat) :
    (commitIng s t).sending st = t.sending st := by
  obtain ⟨r, o, n, i, ht⟩ := h.frame
  rw [ht]
  rfl

/-! ### The commands of a camera port (R251 to R254) -/

section
variable {s : State} {n : Fin 16} {x : CamSt}

theorem exec_frameStart_begins (no : Nat) (off : Fin 4) (h : s.ing.cams[n.val]? = some x) (hon : s.camOn n = true)
    (hidle : x.inFrame = false) (hcaps : ∀ y ∈ s.regs.ing.caps, groupOf y.key ≠ 4) :
    ∃ u, exec (.frameStart n (s.camVc n) no off) s = .next u ∧
      u.ing.cams[n.val]? = some { x with inFrame := true, lines := 0, frameStatus := 0, route := s.frameRoute n } ∧
      ∀ q a r y, s.pipeOf n = some q → s.streamOf 2 q = some a → s.ringOf a = some r → s.ing.streams[a]? = some y →
        u.ing.streams[a]? = some { y with nextSeq := (y.nextSeq + 1) % 2 ^ 32, cut := false } := by
  obtain ⟨hcam, hstream⟩ := State.openFrame_begins no (s.stampNear 4 off) h
  refine exists_next (State.frameStart_begins no (s.stampNear 4 off) hon h hidle hcaps) ⟨hcam, fun q a r y hq ha => hstream q a r y ?_⟩
  rw [State.frameRoute, hq, Option.bind_some, ha, Option.map_some]

theorem exec_frameStart_other (no : Nat) (off : Fin 4) {vc : Nat} (h : s.ing.cams[n.val]? = some x) (hon : s.camOn n = true)
    (hidle : x.inFrame = false) (hcaps : ∀ y ∈ s.regs.ing.caps, groupOf y.key ≠ 4) (hvc : vc ≠ s.camVc n) :
    ∃ u, exec (.frameStart n vc no off) s = .next u ∧ u.ing = s.ing ∧
      u.ctr (camKey n 0x38) = (s.ctr (camKey n 0x38) + 1) % two64 := by
  refine exists_next (State.frameStart_other no (s.stampNear 4 off) hon h hidle hcaps hvc) ⟨rfl, ?_⟩
  rw [ctr_commitIng_cam _ _ _ (by decide)]
  exact State.ctr_bump_self s _ 1

/-- A packet that is an orphan is counted, and nothing else of the ingest blocks changes. -/
theorem exists_next_orphan {t : State} (ht : t = s.orphan n) : ∃ u, (.next (commitIng s t) : Answer) = .next u ∧ u.ing = s.ing ∧
    u.ctr (camKey n 0x30) = (s.ctr (camKey n 0x30) + 1) % two64 := by
  refine exists_next ht ⟨rfl, ?_⟩
  rw [ctr_commitIng_cam _ _ _ (by decide)]
  exact State.ctr_bump_self s _ 1

theorem exec_line_taken {l : List Nat} {e : LineErr} (h : s.ing.cams[n.val]? = some x) (hon : s.camOn n = true)
    (hframe : x.inFrame = true) (hdt : knownDt (s.camDt n) = true) (hroom : x.lines < s.camH n) (he : e ≠ .ecc) :
    let bad : Bool := e == .crc || l.length != lineComps (s.camDt n) (s.camW n)
    ∃ u, exec (.line n (s.camVc n) (s.camDt n) l e) s = .next u ∧
      u.ing.cams[n.val]? = some { x with lines := x.lines + 1,
                                         frameStatus := if bad && x.frameStatus == 0 then 0x0103 else x.frameStatus } ∧
      ∀ q a y ls, x.route = some (q, a) → s.sending a = some y → y.data = .lines ls →
        u.sending a = some { y with data := .lines (ls ++ [if bad then List.replicate (lineComps (s.camDt n) (s.camW n)) 0
          else l]) } := by
  intro bad
  have hcounted := State.lineCounted_eq bad h
  have hcam : (s.lineCounted n bad).ing.cams[n.val]? = some { x with
      lines := x.lines + 1, frameStatus := if bad && x.frameStatus == 0 then 0x0103 else x.frameStatus } := by
    rw [hcounted]
    exact List.getElem?_set_self (List.getElem?_eq_some_iff.1 h).1
  refine exists_next (State.lineIn_taken hon h hframe hdt hroom he) ⟨?_,
    fun q a y ls hroute hy hdata => ?_⟩
  · exact ((SourceFrame.of_work (cams := []) (scats := []) (State.passLine_work _ _ _)).cams _ List.not_mem_nil).trans hcam
  · rw [((SourceFrame.lineCounted s n bad).trans (.of_work (State.passLine_work _ n _))).sending_commitIng a]
    refine State.passLine_sent _ ((congrArg CamSt.route (State.cam_eq hcam)).trans hroute) (?_ : _ = some y) hdata
    rw [hcounted]
    exact hy

theorem exec_frameEnd_closes (h : s.ing.cams[n.val]? = some x) (hon : s.camOn n = true) (hframe : x.inFrame = true) :
    ∃ u, exec (.frameEnd n (s.camVc n)) s = .next u ∧
      u.ing.cams[n.val]? = some { x with inFrame := false, last := (if x.frameStatus ≠ 0 then x.frameStatus
        else if x.lines < s.camH n then 0x0101 else 0) } ∧
      u.ctr (camKey n 0x20) = (s.ctr (camKey n 0x20) + 1) % two64 ∧ tbit (u.rv (camKey n 0x10)) 0 = true := by
  obtain ⟨hcam, hframes, -, hevent⟩ := State.closeFrame_closed n.isLt h (if x.lines < s.camH n then 0x0101 else 0)
  refine exists_next (State.frameEnd_closes hon h hframe) ⟨?_, ?_, ?_⟩
  · rw [commitIng_ing, hcam, CamSt.endStatus_eq]
  · rw [ctr_commitIng_cam _ _ _ (by decide), hframes]
  · rw [rv_commitIng_cam _ _ _ (by decide), hevent]

theorem exec_lineTmoExpiry_closes (h : s.ing.cams[n.val]? = some x) (hframe : x.inFrame = true) :
    ∃ u, exec (.lineTmoExpiry n) s = .next u ∧
      u.ing.cams[n.val]? = some { x with inFrame := false, last := if x.frameStatus ≠ 0 then x.frameStatus else 0x0101 } ∧
      u.ctr (camKey n 0x28) = (s.ctr (camKey n 0x28) + 1) % two64 := by
  obtain ⟨hcam, -, hcorrupt, -⟩ := State.closeFrame_closed n.isLt h 0x0101
  rw [CamSt.endStatus_eq] at hcam hcorrupt
  have hclose : (if (s.cam n).inFrame then s.closeFrame n 0x0101 else s) = s.closeFrame n 0x0101 := by
    rw [State.cam_eq h, if_pos hframe]
  have hstatus : (if x.frameStatus ≠ 0 then x.frameStatus else 0x0101) ≠ 0 := by
    split
    · assumption
    · decide
  refine exists_next hclose ⟨hcam, ?_⟩
  rw [ctr_commitIng_cam _ _ _ (by decide), hcorrupt hstatus]

theorem exec_portFifoOverflow_marks (h : s.ing.cams[n.val]? = some x) (hframe : x.inFrame = true) :
    exec (.portFifoOverflow n) s = .next { s with ing := { s.ing with
      cams := s.ing.cams.set n { x with frameStatus := if x.frameStatus = 0 then 0x0104 else x.frameStatus } } } := by
  have hmark : (if (s.cam n).inFrame then s.markFrame n 0x0104 else s) = { s with ing := { s.ing with
      cams := s.ing.cams.set n { x with frameStatus := if x.frameStatus = 0 then 0x0104 else x.frameStatus } } } := by
    rw [State.cam_eq h, if_pos hframe]
    exact State.modCam_eq _ h
  rw [exec_portFifoOverflow, execPortFifoOverflow, hmark]
  rfl

theorem exec_cameraLinkLost_closes (h : s.ing.cams[n.val]? = some x) (hframe : x.inFrame = true) (hgear : x.gear ≠ 0) :
    ∃ u, exec (.cameraLinkLost n) s = .next u ∧ tbit (u.rv (camKey n 0x10)) 2 = true ∧
      u.ing.cams[n.val]? = some { x with gear := 0, inFrame := false,
                                         last := if x.frameStatus ≠ 0 then x.frameStatus else 0x0112 } := by
  obtain ⟨hevent, hcam⟩ := State.linkLost_spec n.isLt h hframe hgear
  refine ⟨commitIng s (s.linkLost n), rfl, ?_, ?_⟩
  · rw [rv_commitIng_cam _ _ _ (by decide), hevent]
  · rw [commitIng_ing, hcam, CamSt.endStatus_eq]

theorem exec_cameraLinkLock_spec (h : s.ing.cams[n.val]? = some x) (g : Fin 5) :
    ∃ u, exec (.cameraLinkLock n g) s = .next u ∧ tbit (u.rv (camKey n 0x10)) 2 = true ∧
      u.ing = { s.ing with cams := s.ing.cams.set n { x with gear := g + 1 } } := by
  refine ⟨_, rfl, ?_, ?_⟩
  · rw [rv_commitIng_cam _ _ _ (by decide)]
    exact State.tbit_raise_shared _ _ (by unfold camKey; omega) (by decide) rfl
  · rw [commitIng_ing, State.camEvent, State.raise_ing, State.modCam_eq _ h]

/-- A write to the CCI register of a port, by the owner of the port (R250). -/
theorem exec_cciGo_owner {p : Port} (v : Word) (hadm : admits s p (camKey n 0x18))
    (hown : ∃ q, s.camOwner n = some q ∧ s.bound q p = true) :
    exec (.cciGo p n v) s = .next (commitIng s (s.cciGo n v.toNat)) := by
  obtain ⟨q, hq, hbound⟩ := hown
  rw [exec_cciGo, execCciGo]
  refine State.gate_may hadm ?_ _
  rw [hq, Option.any_some, hbound]

theorem exec_cciGo_starts {p : Port} {v : Word} (h : s.ing.cams[n.val]? = some x) (hadm : admits s p (camKey n 0x18))
    (hown : ∃ q, s.camOwner n = some q ∧ s.bound q p = true) (hfree : tbit (s.rv (camKey n 0x18)) 31 = false)
    (hgo : tbit v.toNat 31 = true) : ∃ u, exec (.cciGo p n v) s = .next u ∧
      u.ing = { s.ing with cams := s.ing.cams.set n { x with cci := true } } ∧ tbit (u.rv (camKey n 0x18)) 31 = true ∧
      u.out = s.out ++ [.cci n (field v.toNat 16 7) (field v.toNat 0 16) (tbit v.toNat 30) (s.rv (camKey n 0x1C) % 256)] := by
  obtain ⟨hing, hbusy, hout⟩ := State.cciGo_starts hfree hgo h
  refine ⟨_, exec_cciGo_owner v hadm hown, hing, ?_, hout⟩
  rw [rv_commitIng_cam _ _ _ (by decide), hbusy]

theorem exec_cciDone_spec (r : Option Byte) (h : s.ing.cams[n.val]? = some x) (hcci : x.cci = true) :
    ∃ u, exec (.cciDone n r) s = .next u ∧ tbit (u.rv (camKey n 0x18)) 31 = false ∧
      tbit (u.rv (camKey n 0x18)) 29 = r.isNone ∧ u.ing = { s.ing with cams := s.ing.cams.set n { x with cci := false } } ∧
      ∀ b, r = some b → tbit (s.rv (camKey n 0x18)) 30 = true → u.rv (camKey n 0x1C) = b.toNat := by
  have hspec := State.cciDone_spec r h hcci
  refine ⟨commitIng s (s.cciDone n r), rfl, ?_⟩
  rw [rv_commitIng_cam _ _ _ (by decide), rv_commitIng_cam _ _ _ (by decide)]
  exact hspec

end

/-- A command of a camera port changes of the sources that port alone. -/
theorem exec_camera_source {s u : State} {p : Port} {n : Fin 16} {c : Instr}
    (hc : (∃ vc no st, c = .frameStart n vc no st) ∨ (∃ vc dt l e, c = .line n vc dt l e) ∨ (∃ vc, c = .frameEnd n vc) ∨
      c = .lineTmoExpiry n ∨ c = .portFifoOverflow n ∨ c = .cameraLinkLost n ∨ (∃ g, c = .cameraLinkLock n g) ∨
      (∃ v, c = .cciGo p n v) ∨ (∃ r, c = .cciDone n r)) (hu : exec c s = .next u) : SourceCommand [n.val] [] s u := by
  have hself (f : CamSt → CamSt) : SourceFrame [n.val] [] s (s.modCam n f) := .modCam s f (List.mem_singleton_self _)
  rcases hc with ⟨vc, no, st, rfl⟩ | ⟨vc, dt, l, e, rfl⟩ | ⟨vc, rfl⟩ | rfl | rfl | rfl | ⟨g, rfl⟩ | ⟨v, rfl⟩ | ⟨r, rfl⟩
  · exact (SourceFrame.frameStart s n vc no _).next hu
  · exact (SourceFrame.lineIn s n vc dt l e).next hu
  · exact (SourceFrame.frameEnd s n vc).next hu
  · refine SourceFrame.next ?_ hu
    split
    · exact .closeFrame s n _
    · exact .refl s
  · refine SourceFrame.next ?_ hu
    split
    · exact hself _
    · exact .refl s
  · exact (SourceFrame.linkLost s n).next hu
  · exact ((hself _).trans (.raise _ _ _)).next hu
  · rw [exec_cciGo, execCciGo] at hu
    exact SourceFrame.gate (f := fun s => s.cciGo n v.toNat) (SourceFrame.cciGo s n v.toNat) hu
  · exact (SourceFrame.cciDone s n r).next hu

/-! ### The commands of a scatter engine (R263 to R265) -/

section
variable {s : State} {e : Fin 4} {x : ScatSt} {b : List Byte} (st : Fin 11) (hon : s.scatOn e = true)
  (h : s.ing.scats[e.val]? = some x)
include hon h

/-- A datagram of the sweep that a resynchronisation passes over is dropped. -/
theorem exec_udpDatagram_passed (hsync : x.resync = some (s.sweepOf e b)) :
    ∃ u, exec (.udpDatagram e b st) s = .next u ∧ u.ing = s.ing ∧
      u.ctr (scatKey e 0xB0) = (s.ctr (scatKey e 0xB0) + 1) % two64 := by
  refine exists_next (State.datagram_passed (s.stampNear 20 st) hon h hsync) ⟨rfl, ?_⟩
  rw [ctr_commitIng_scat _ _ _ (by decide)]
  exact State.ctr_bump_self s _ 1

variable {a : Nat} (hsync : x.resync ≠ some (s.sweepOf e b))
include hsync

theorem exec_udpDatagram_malformed (hcaps : ∀ y ∈ s.regs.ing.caps, groupOf y.key ≠ 6) (hstream : s.scatStream e = some a)
    (hcount : s.scatCount e b = none) : ∃ u, exec (.udpDatagram e b st) s = .next u ∧
      u.ing.scats[e.val]? = some { x with sweep := none, resync := some (s.sweepOf e b), reason := 0x010A } ∧
      u.ctr (scatKey e 0xB0) = (s.ctr (scatKey e 0xB0) + 1) % two64 := by
  obtain ⟨hscat, hdropped⟩ := State.datagram_malformed (s.stampNear 20 st) hon h hsync hcaps hstream hcount
  refine exists_next rfl ⟨hscat, ?_⟩
  rw [ctr_commitIng_scat _ _ _ (by decide), hdropped]

theorem exec_udpDatagram_begins {m : Nat} (hcaps : ∀ y ∈ s.regs.ing.caps, groupOf y.key ≠ 6)
    (hstream : s.scatStream e = some a) (hcount : s.scatCount e b = some m) (hroom : m < s.maxPoints e)
    (hnew : x.sweep.map (·.1) ≠ some (s.sweepOf e b)) : ∃ u, exec (.udpDatagram e b st) s = .next u ∧
      u.ing.scats[e.val]? = some { x with sweep := some (s.sweepOf e b, m), resync := none } ∧
      u.ctr (scatKey e 0xA8) = (s.ctr (scatKey e 0xA8) + m) % two64 ∧
      ∀ r y, s.ringOf a = some r → s.ing.streams[a]? = some y →
        u.ing.streams[a]? = some { y with nextSeq := (y.nextSeq + 1) % 2 ^ 32, cut := false } := by
  obtain ⟨hscat, htaken, hstreams⟩ :=
    State.datagram_begins (s.stampNear 20 st) hon h hsync e.isLt hcaps hstream hcount hroom hnew
  refine exists_next rfl ⟨hscat, ?_, hstreams⟩
  rw [ctr_commitIng_scat _ _ _ (by decide), htaken]

variable {m had : Nat} (hstream : s.scatStream e = some a) (hcount : s.scatCount e b = some m)
  (hsweep : x.sweep = some (s.sweepOf e b, had))
include hstream hcount hsweep

theorem exec_udpDatagram_adds (hroom : had + m < s.maxPoints e) : ∃ u, exec (.udpDatagram e b st) s = .next u ∧
    u.ing.scats[e.val]? = some { x with sweep := some (s.sweepOf e b, had + m), resync := none } ∧
    u.ctr (scatKey e 0xA8) = (s.ctr (scatKey e 0xA8) + m) % two64 := by
  obtain ⟨hscat, htaken, -⟩ := State.addPoints_room b e.isLt (State.synced_scat h) hsweep hstream hroom
  refine exists_next (State.datagram_adds (s.stampNear 20 st) hon h hsync hcount hsweep) ⟨hscat, ?_⟩
  rw [ctr_commitIng_scat _ _ _ (by decide), htaken]
  rfl

theorem exec_udpDatagram_full (hhad : had < s.maxPoints e) (hfull : s.maxPoints e ≤ had + m) :
    ∃ u, exec (.udpDatagram e b st) s = .next u ∧
      u.ing.scats[e.val]? = some { sweep := some (s.sweepOf e b, s.maxPoints e), resync := none, reason := 0x0012 } ∧
      u.ctr (scatKey e 0xB0) = (s.ctr (scatKey e 0xB0) + (had + m - s.maxPoints e)) % two64 := by
  obtain ⟨hscat, hdropped⟩ := State.addPoints_full b e.isLt (State.synced_scat h) hsweep hstream hhad hfull
  refine exists_next (State.datagram_adds (s.stampNear 20 st) hon h hsync hcount hsweep) ⟨hscat, ?_⟩
  rw [ctr_commitIng_scat _ _ _ (by decide), hdropped]
  rfl

end

/-- A command of a scatter engine changes of the sources that engine alone. -/
theorem exec_scatter_source {s u : State} {e : Fin 4} {b : List Byte} {st : Fin 11} {c : Instr}
    (hc : c = .udpDatagram e b st ∨ c = .sweepTmoExpiry e) (hu : exec c s = .next u) : SourceCommand [] [e.val] s u := by
  rcases hc with rfl | rfl
  · exact (SourceFrame.datagram s e b _).next hu
  · exact (SourceFrame.sweepTimeout s e).next hu

end Sys2Proof.Machine

end

section
open Sys2Proof Sys2Proof.Machine Sys2Proof.Safety

/-- Settles O47: what each packet, datagram and timeout makes of its port or engine, through the counters, samples and registers
that the work on samples leaves. -/
theorem sensorSources : Obligations.SensorSources := by
  unfold Obligations.SensorSources
  constructor
  · intro s p n x h
    refine ⟨fun hon hidle hcaps => ⟨?_, ?_, ?_, ?_⟩, fun hon hframe => ⟨?_, ?_⟩, fun hframe => ⟨?_, ?_, ?_⟩, ?_,
      fun hadm hown v => ⟨?_, ?_⟩, fun hcci r => exec_cciDone_spec r h hcci,
      fun c u hc hu => (exec_camera_source hc hu).camera⟩
    · exact fun no st => exec_frameStart_begins no st h hon hidle hcaps
    · exact fun no st vc hvc => exec_frameStart_other no st h hon hidle hcaps hvc
    · exact fun l hdt => exists_next_orphan (State.lineIn_orphan l hon h hidle hdt)
    · exact exists_next_orphan (State.frameEnd_orphan hon h hidle)
    · exact fun l e hdt hroom he => exec_line_taken h hon hframe hdt hroom he
    · exact exec_frameEnd_closes h hon hframe
    · exact exec_lineTmoExpiry_closes h hframe
    · exact exec_portFifoOverflow_marks h hframe
    · exact exec_cameraLinkLost_closes h hframe
    · exact exec_cameraLinkLock_spec h
    · intro hbusy
      rw [exec_cciGo_owner v hadm hown, State.cciGo_busy _ hbusy]
      rfl
    · exact exec_cciGo_starts h hadm hown
  · intro s e b st x a h hstream hcaps
    refine ⟨fun hoff => ?_, fun hon => exec_udpDatagram_passed st hon h, fun hon hsync => ⟨?_, ?_, fun m had hcount hsweep => ⟨?_, ?_⟩⟩,
      fun hsweep => ?_, fun c u hc hu => (exec_scatter_source hc hu).scatter⟩
    · rw [exec_udpDatagram, execUdpDatagram, State.datagram_off _ _ hoff]
      rfl
    · exact exec_udpDatagram_malformed st hon h hsync hcaps hstream
    · exact fun m hcount hroom hnew => exec_udpDatagram_begins st hon h hsync hcaps hstream hcount hroom hnew
    · exact exec_udpDatagram_adds st hon h hsync hstream hcount hsweep
    · exact exec_udpDatagram_full st hon h hsync hstream hcount hsweep
    · exact exists_next (State.sweepTimeout_closes h hsweep) (State.closeSweep_scat 0 h)

end
